-- ==== Sys2Proof/Word.lean ====
section
/-!
DEFINITION. The word types of the IZ7128: register words, bytes, grains and raw blocks (spec 00 R6, 03 R76, R77).
Only the types stand here; everything that computes with them is in Machine/.
-/
namespace Sys2Proof

/-- A 32-bit register word (R6). -/
abbrev Word := BitVec 32

/-- A byte. -/
abbrev Byte := BitVec 8

/-- A 64-bit double word: TAI counts, addresses, wide counters. -/
abbrev DWord := BitVec 64

/-- The 256-bit content of one slot in one reel (R76). Byte 0 is the most significant byte (R77). -/
abbrev Grain := BitVec 256

/-- The 17,920 raw bits of one block (R76). Block bit 0, the first on the line, is the most significant bit. -/
abbrev RawBlock := BitVec 17920

end Sys2Proof
end

