-- ==== Sys2Proof/Syntax.lean ====
section
/-!
DEFINITION. The commands of the IZ7128 block: one constructor of `Instr` per row of spec/opcode_table.json, in the
table's order. The table gives rows no operands; an operand here is what the row's rule says the command carries (a
value written, a received block, frame or record, a measured level), so that the block decides what follows.
-/
namespace Sys2Proof

/-- A lane: 0 to 127 are L0 to L127, 128 is M0 and 129 is M1. -/
abbrev LaneNo := Fin 130

/-- Masters of the register space that keep read latches of their own (R500): the load/store port of a core, in machine
or user mode, the PCIe inbound path and the I3C bridge. -/
inductive Master where
  | core (c : Fin 4) (machine : Bool)
  | pcie
  | i3c
  deriving DecidableEq, Repr

/-- The blocks that have a key (R10, R497). -/
inductive KeyBlock where
  | gctl
  | ssw
  | pair
  | mss
  deriving DecidableEq, Repr

/-- One richness window of 1,024 symbols (R56): decisions of each level and decision changes. -/
structure RichWindow where
  l0 : Nat
  l1 : Nat
  l2 : Nat
  l3 : Nat
  changes : Nat
  deriving DecidableEq, Repr

/-- One LMS window (R56), oldest symbol first: per symbol the ADC sample v(n) and the equalised sample, the latter in 1/256 of
a normalised level, after those of the 23 symbols before the window. -/
structure LmsWindow where
  before : List (Int × Int)
  samples : List (Int × Int)
  deriving DecidableEq, Repr

/-- What training found at a receiver start (R55, R64): CTLE code, FFE and DFE taps and CDR phase offset. -/
structure Trained where
  ctle : Nat
  ffe : List Int
  dfe : List Int
  cdr : Int
  deriving DecidableEq, Repr

/-- Bit-pattern of a memory error that a core reel meets (R158 to R160): which memory, which word, correctable or not,
and whether the take image still holds the word. -/
inductive MemKind where
  | conn
  | writeMap
  | circuit
  | facet
  deriving DecidableEq, Repr

/-- One such error: `image` says that the take image word needed for the refresh is good; `outgoing` that the word lies
in the outgoing set of a seam reel (R177). A facet entry has index 4096 × facet + entry. -/
structure MemError where
  kind : MemKind
  index : Nat
  correctable : Bool
  image : Bool
  outgoing : Bool
  deriving DecidableEq, Repr


/-- A frame that firmware sends on the timing port with its transmit request (R277): frame bytes, TAG, STAMP, TS_OFFSET,
CKSUM_OFFSET, and the instant captured inside at which its message timestamp point leaves, in 1/256 ns. -/
structure TransmitRequest where
  frame : List Byte
  tag : BitVec 16
  stamp : Fin 3
  tsOffset : Nat
  cksumOffset : Nat
  captured : BitVec 72
  deriving DecidableEq, Repr

/-- A continuity record as it arrives over the mate lanes (R229): 32 header bytes, body bytes in whole grains, tag grain. -/
structure Wire where
  header : List Byte
  body : List Byte
  tag : List Byte
  deriving DecidableEq, Repr

/-- What a management core's own registers hold (R383, RISC-V privileged architecture): pc, mode, MIE, MPIE and MPP of mstatus, mie.MEIE, mtvec,
mepc, mcause and mtval. -/
structure CoreRegs where
  pc : Word := 0
  user : Bool := false
  mie : Bool := false
  mpie : Bool := false
  mppUser : Bool := false
  meie : Bool := false
  mtvec : Word := 0
  mepc : Word := 0
  mcause : Word := 0
  mtval : Word := 0
  deriving DecidableEq, Repr

/-- The atomic memory operations of RV32A. -/
inductive AmoOp where
  | swap | add | xor | and | or | min | max | minu | maxu
  deriving DecidableEq, Repr

/-- Which part of a counter a CSR write reaches: a half of its count, or its event selection (R425, R428). -/
inductive CounterPart where
  | low
  | high
  | event
  deriving DecidableEq, Repr

/-- What the device reads from host memory at a doorbell fetch (R322, R325): the page, per command ring the descriptors from
CR_CONS_n on, and the CMC buffer entries from CMC_RX_CONS on. -/
structure DoorbellFetch where
  page : List Byte
  desc : List (List (List Byte))
  cmc : List (List Byte)
  deriving DecidableEq, Repr

/-- Faults of a DMA transfer other than a timeout (R347): read completions with an error or poisoned data, or an uncorrectable
error in the source data. -/
inductive DmaFault where
  | unsupported
  | abort
  | poisoned
  | source
  deriving DecidableEq, Repr

/-- A burst in progress at a reset of its master (R401): master, start address and beats accepted. -/
structure Burst where
  master : Fin 13
  addr : Word
  beats : Fin 9
  deriving DecidableEq, Repr

/-- What the check bits of a memory word show when it is read (R394). -/
inductive Ecc where
  | good
  | corrected
  | uncorrectable
  deriving DecidableEq, Repr

/-- The commands. Each docstring is the table's own summary of the row. -/
inductive Instr where
  /-- Command that does nothing and completes at once with OK (R356). -/
  | nop (h : Word)
  /-- Command that sets the sent and expected path trace of one lane (R359). -/
  | laneTrace (h : Word) (sg : List (Nat × Nat)) (obj : List Byte)
  /-- Command that sets a line lane's CMC mode (none, terminated, courier) at the next local reel boundary (R360). -/
  | laneCmc (h : Word)
  /-- Command that adds a circuit or modifies its FLAGS and LABEL without a take (R361). -/
  | circSet (h : Word)
  /-- Command that recomputes the anchor of a lane pair under the re-anchor rule (R362). -/
  | mergeReanchor (h : Word)
  /-- Command that receives a connection list and circuit section and compiles a full take (R363). -/
  | takeCompile (h : Word) (sg : List (Nat × Nat)) (obj : List Byte)
  /-- Command that compiles an increment on the active take (R363). -/
  | takeIncrement (h : Word) (sg : List (Nat × Nat)) (obj : List Byte)
  /-- Command that discards a COMPILED standby take, making the standby STALE (R365). -/
  | takeDiscard (h : Word)
  /-- Command that orders or arms the splice of a prepared take (R366). -/
  | takeSplice (h : Word)
  /-- Command that cancels the pending splice of a take where still possible (R367). -/
  | spliceCancel (h : Word)
  /-- Command that delivers the take report of the active or standby take (R368). -/
  | reportTake (h : Word) (sg : List (Nat × Nat))
  /-- Command that requests a dailies capture or delivers the unreleased record (R369). -/
  | dailies (h : Word) (sg : List (Nat × Nat))
  /-- Urgent command that sets or releases the reference force fields (R370). -/
  | refForce (h : Word)
  /-- Command that gives the device a holdover seed record (R371). -/
  | refSeed (h : Word) (sg : List (Nat × Nat)) (obj : List Byte)
  /-- Command that starts a join of this unit to its mate (R372). -/
  | pairJoin (h : Word)
  /-- Urgent command that runs a handover of the lead (R373). -/
  | pairHandover (h : Word)
  /-- Urgent command that declares the mate absent (solo start or LEAD to SOLO) (R374). -/
  | pairSolo (h : Word)
  /-- Urgent command that fences the unit with cause COMMAND (R375). -/
  | fence (h : Word)
  /-- Command that queues CMC records for transmission on terminated lanes (R376). -/
  | cmcSend (h : Word) (sg : List (Nat × Nat)) (obj : List Byte)
  /-- Command that copies event log entries to the host (R377). -/
  | logRead (h : Word) (sg : List (Nat × Nat))
  /-- Command that verifies a signed image and writes it to the idle image slot (R378). -/
  | fwStage (h : Word) (sg : List (Nat × Nat)) (obj : List Byte) (flashOk : Bool)
  /-- Command that starts the staged image by a management restart (R379). -/
  | fwActivate (h : Word) (bursts : List Burst)
  /-- Command that orders the retirement of one facet (R380). -/
  | facetRetire (h : Word)
  /-- Command that makes a REINSTATABLE facet SPARE (R381). -/
  | facetReinstate (h : Word)
  /-- Command that captures the ADC eye histogram of one receiver (R382). -/
  | eyeHistogram (h : Word) (sg : List (Nat × Nat)) (obj : List Byte)
  /-- Write to a register field that has no behaviour row of its own, under the access codes and key rules (R9). -/
  | registerWrite (m : Master) (off : BitVec 26) (v : Word)
  /-- Read of a register holding RC fields, which returns and clears them (R9). -/
  | readClear (m : Master) (off : BitVec 26)
  /-- Register access of wrong width or alignment is discarded or returns all ones and is logged (R6). -/
  | regAccessSize (m : Master) (off : BitVec 26) (bytes : Nat) (write : Bool)
  /-- Write to a block key register that opens or closes the key (R10). -/
  | keyWrite (b : KeyBlock) (v : Word)
  /-- An open key closes after 1 ms (R10). -/
  | keyTimeout (b : KeyBlock)
  /-- Firmware keep-alive write resets GCTL_ALIVE_AGE and ends the flywheel (R26). -/
  | gctlAlive (v : Word)
  /-- Write of 1 to GCTL_FENCE_CTL.FENCE_REQ under key records cause COMMAND (R37). -/
  | fenceReq (v : Word)
  /-- Keep-alive age exceeds 100 ms and the data plane runs under the flywheel (R26). -/
  | flywheel
  /-- Keep-alive age reaches 10,000 ms and the unit fences (R29). -/
  | flywheelTimeout
  /-- A detected fence cause takes effect at the next local reel boundary on all lanes (R32). -/
  | fenceTakesEffect
  /-- Uncorrectable error on an internal die-to-die link fences the unit (R33). -/
  | internalLink
  /-- Assertion of PORST_N resets the whole device (R466). -/
  | porstNAssert
  /-- Release of PORST_N samples straps and starts the unit fenced with cause START (R466). -/
  | porstNRelease (straps : BitVec 4) (tamperLow : Bool)
  /-- The start-up facet test ends and colours are bound to passing facets (R163). -/
  | startupFacetTest (failed : List (Fin 272))
  /-- Start-up test and clear of working SRAM ends and core 0 leaves reset (R390). -/
  | sramStartupTest (bad : List (Fin 4096))
  /-- Boot ROM chooses, verifies and enters an image or enters recovery at a start of core 0 (R445). -/
  | bootImageChoice
  /-- Failure of a REFCLK input switches synthesisers or fences if both fail (R20). -/
  | refclkFail (inputB : Bool)
  /-- A failed REFCLK input returns (R20). -/
  | refclkReturn (inputB : Bool) (both : Bool)
  /-- XO_IN fails and its domains move to a tick synthesised from the core clock (R21). -/
  | xoLost
  /-- XO_IN has run in range for 1 s and domains move back at the next DPLL update (R21). -/
  | xoReturn
  /-- First qualified assertion of TAMPER_N starts zeroisation and fences the unit (R439). -/
  | tamper
  /-- Zeroisation ends and its read-back sets ZEROISED or ZEROISE_FAIL (R438). -/
  | zeroisationEnd (ok : Bool)
  /-- Every 100 µs all sensors are sampled and thermal and voltage limits judged (R451). -/
  | sensorSample (temps : List Int) (volts : List Nat) (currs : List Nat)
  /-- THERMAL_WARN clears after every sensor read below 100 °C for 1 s (R452). -/
  | thermalWarnClear
  /-- A voltage alarm clears after 1 s within 4 % (R452). -/
  | voltageAlarmClear (n : Fin 12)
  /-- A transmitted reel starts on all lanes with its overhead, claim, BDI and FDI flags (R12). -/
  | localReelBoundary
  /-- A core reel starts; merge, slot-store writes and reads run for its beats (R13). -/
  | coreReelStart (errors : List MemError)
  /-- The alignment buffer re-centres by one reel when the arrival phase leaves its range (R16). -/
  | reelSlip (n : LaneNo) (fast : Bool)
  /-- Received amplitude falls below the LOS level; adaptation stops and held taps are restored (R58). -/
  | signalLoss (n : LaneNo) (mv : Nat) (sinceSnapNs : Nat)
  /-- Signal returns to a receiver with held taps and fast converge starts (R59). -/
  | signalReturn (n : LaneNo) (mv : Nat)
  /-- LOS is asserted after 1 µs below the assertion level (R61). -/
  | los (n : LaneNo) (mv : Nat)
  /-- LOS clears after 100 µs (10 µs in QUIET) at twice the level (R61). -/
  | losClear (n : LaneNo) (mv : Nat)
  /-- LOL is asserted when frequency or phase error conditions hold (R62). -/
  | lol (n : LaneNo) (ppm : Int) (badPhase : Nat) (samples : Nat)
  /-- LOL clears after 50 µs without its conditions (R62). -/
  | lolClear (n : LaneNo) (ppm : Int) (badPhase : Nat) (samples : Nat)
  /-- Fast converge ends after 2 ms (R59). -/
  | fastConvergeEnd (n : LaneNo)
  /-- Taps freeze after 64 µs without a rich window (R57). -/
  | freeze (n : LaneNo) (w : RichWindow)
  /-- Adaptation resumes after 1.28 µs of rich windows (R57). -/
  | freezeEnd (n : LaneNo) (w : RichWindow)
  /-- Every 10 µs an adapting receiver snapshots its taps (R58). -/
  | tapSnapshot (n : LaneNo) (w : RichWindow) (lms : List LmsWindow)
  /-- A 10 ms frequency-offset window ends and the alarm is judged (R49). -/
  | laneFofs (n : LaneNo) (mean : Int) (lolSeen : Bool)
  /-- Write to LANE_CTL requests power-state changes, held during transitions (R66). -/
  | laneCtlWrite (n : LaneNo) (v : Word)
  /-- After 8 reels of stop notice the transmitter stops at the local reel boundary (R67). -/
  | transmitterStop (n : LaneNo)
  /-- A transmitter starts sending reels at a local reel boundary (R66). -/
  | transmitterStart (n : LaneNo)
  /-- A stopping receiver finishes copying taps to the seed set and powers down (R68). -/
  | receiverStopDone (n : LaneNo)
  /-- A starting receiver has usable taps in its start mode (R64). -/
  | receiverStart (n : LaneNo) (t : Trained)
  /-- Write of transmit FFE taps, refused out of range or applied at the next block header (R52). -/
  | laneTxFfeWrite (n : LaneNo) (v : Word)
  /-- Write that loads one live tap or a seed-set value (R60). -/
  | laneTapLoad (n : LaneNo) (v : Word)
  /-- Every 1 ms D_RX and D_TX are re-evaluated and the serialiser phase trimmed (R260). -/
  | pathDelayUpdate (snr : List (BitVec 10))
  /-- A received block header is matched, opens or confirms candidates, or is judged good or bad (R111). -/
  | blockHeader (n : LaneNo) (hdr : BitVec 80) (prev : Fin 4) (offset : Fin 17920)
  /-- A received block is descrambled, RS-decoded and classed clean, corrected or uncorrectable (R84). -/
  | blockDecode (n : LaneNo) (raw : RawBlock) (prev : Fin 4)
  /-- A decoded reel control is judged, qualifies reels and updates sync, SEQ, FDI, BDI and steering acks (R113). -/
  | reelControl (n : LaneNo) (arrival : BitVec 72)
  /-- 8 reels in BLOCK_SYNC without reel sync return to HUNT and bar the offset (R114). -/
  | reelSyncTimeout (n : LaneNo)
  /-- A barred offset is released after 64 reels (R114). -/
  | barExpiry (n : LaneNo)
  /-- A 10 ms window ends and UCB and DEG are judged (R119). -/
  | defectWindowEnd (n : LaneNo)
  /-- Received block 1 yields a two-way exchange and updates offset and delay means (R263). -/
  | timingWords (n : LaneNo)
  /-- Received block 2 updates mate claim, witness reports, MATE_FENCED and take comparison (R223). -/
  | claimAndWitnessWords (n : LaneNo)
  /-- Received block 3 enters far-end counts, trace assembly and TIM judgement (R101). -/
  | defectReport (n : LaneNo)
  /-- A received CMC slice is parsed into records that are delivered, couriered or discarded (R106). -/
  | cmcSlice (n : LaneNo)
  /-- A CMC receive buffer closes after HOLD_US (R350). -/
  | cmcBufferHold
  /-- Write of TIM mode, immediate for MODE 0, otherwise at the next assembly boundary (R132). -/
  | laneTimCtlWrite (n : LaneNo) (v : Word)
  /-- Write of UCB/DEG thresholds or expected trace, taking effect at the next window or assembly (R132). -/
  | laneThresholdWrite (n : LaneNo) (off : BitVec 12) (v : Word)
  /-- Steering request issued when the wait has drifted from the guard (R185). -/
  | steerRequest (n : LaneNo)
  /-- An unacknowledged steering request times out (R186). -/
  | steerFailed (n : LaneNo)
  /-- A new mean alignment wait is formed over 256 reels and the steering state moves (R183). -/
  | arrivalMean (n : LaneNo)
  /-- An armed splice takes effect at the start of its core reel (R172). -/
  | splice
  /-- The seam reel ends and the outgoing set becomes STALE for resync (R172). -/
  | seamReelEnd
  /-- Resync of the standby set ends and it becomes MIRROR (R154). -/
  | resyncDone (uncorrectable : List (MemKind × Nat))
  /-- A waiting colourist job starts when the standby set allows (R153). -/
  | compileStart
  /-- A colourist job ends with its result code (R157). -/
  | compileDone (time : Nat) (collided : List (MemKind × Nat))
  /-- A repair pass ends and the repair splice is scheduled (R166). -/
  | repairPassDone (time : Nat)
  /-- Write of ARM to SSW_SPLICE_CTL arms a splice (R178). -/
  | spliceArm
  /-- Write of CANCEL to SSW_SPLICE_CTL cancels an armed splice (R179). -/
  | spliceCtlCancel
  /-- Write of a facet number marks that facet FAILED (R164). -/
  | sswFacetBar (f : BitVec 9)
  /-- A 1 s facet error window ends and facets may become due (R165). -/
  | facetErrorWindow
  /-- A test pass of a SPARE or TESTING facet ends (R490). -/
  | facetTestPass (f : Fin 272) (failed : Bool)
  /-- A TESTING facet reaches 24 h of clean testing (R169). -/
  | facetReinstatable (f : Fin 272)
  /-- A circuit change is written into both circuit tables at its effect reel (R195). -/
  | effectReel
  /-- A capture takes effect at a core reel boundary and banks swap (R212). -/
  | dailiesBoundary
  /-- A periodic capture falls due at a whole multiple of INTERVAL (R213). -/
  | periodicCapture
  /-- A deferred capture takes effect after release or finish (R213). -/
  | deferredCapture
  /-- The frozen bank has been copied into the shadow and cleared (R212). -/
  | captureCopyDone
  /-- Write of RELEASE releases the dailies record in the shadow (R213). -/
  | release
  /-- A unit seeing a higher mate claim becomes follower at the next local reel boundary (R220). -/
  | yield
  /-- Evidence absent on all paths for 20 ms makes the follower lead (R224). -/
  | takeover
  /-- A heartbeat frame is received and judged valid, updating lock and evidence (R227). -/
  | heartbeatFrame (f : BitVec 64)
  /-- No valid heartbeat frame for 256 µs makes heartbeat evidence absent (R222). -/
  | heartbeatAbsent
  /-- Record opening authentication of a join (R245). -/
  | authHello (w : Wire)
  /-- Record proving the derived session key (R245). -/
  | authProof (w : Wire)
  /-- Record acknowledging or NACKing the continuity stream (R231). -/
  | ack (w : Wire)
  /-- Record starting a join snapshot (R245). -/
  | snapBegin (w : Wire)
  /-- Record carrying snapshot data (R245). -/
  | snapData (w : Wire)
  /-- Record ending the snapshot with its digest (R245). -/
  | snapEnd (w : Wire)
  /-- Record carrying take image bytes for prepare or catch-up (R237). -/
  | takeImage (w : Wire)
  /-- Record carrying the changed entries of an increment (R237). -/
  | takeDelta (w : Wire)
  /-- Follower record reporting the digest of its prepared take (R237). -/
  | prepared (w : Wire)
  /-- Lead record ordering a splice at reel R (R238). -/
  | order (w : Wire)
  /-- Follower record acknowledging or refusing an order (R239). -/
  | orderAck (w : Wire)
  /-- Lead record discarding a take at the follower (R239). -/
  | takeDiscardRecord (w : Wire)
  /-- Record carrying a pair-scoped command to the follower (R234). -/
  | journal (w : Wire)
  /-- An accepted record takes effect at its APPLY_REEL (R233). -/
  | journalApply
  /-- Record pairing a lead REEL_SEQ with TAI and scheduling steps (R235). -/
  | timeAlign (w : Wire)
  /-- Lead record carrying the pair digest for comparison (R249). -/
  | digest (w : Wire)
  /-- Follower record reporting the digest comparison (R249). -/
  | digestResult (w : Wire)
  /-- Follower record requesting a catch-up of the active take (R250). -/
  | resyncReq (w : Wire)
  /-- Lead record reporting a host handle's state (R243). -/
  | handle (w : Wire)
  /-- Lead record asking the follower to take the lead (R247). -/
  | handoverReq (w : Wire)
  /-- Outgoing lead record acknowledging the handover (R247). -/
  | handoverAck (w : Wire)
  /-- Follower record refusing a handover (R247). -/
  | handoverRefuse (w : Wire)
  /-- Joining unit record reporting it is ready (R245). -/
  | joinReady (w : Wire)
  /-- Lead record ejecting a unit that is not joining (R248). -/
  | eject (w : Wire)
  /-- At the reel nearest each TAI second the lead computes the pair digest (R249). -/
  | pairDigest
  /-- After 100 µs without progress the sender retransmits from the acknowledged counter (R231). -/
  | retransmit
  /-- Every 10 µs the receiver sends ACK with its next expected counter (R231). -/
  | ackInterval
  /-- No ACK progress for 20 ms makes the session STALLED (R231). -/
  | contStalled
  /-- No PREPARED within 1 s completes the compile with NO_ACK (R237). -/
  | prepareTimeout
  /-- No acknowledgement by R − Q = 64 ends the splice NOT_SPLICED (R239). -/
  | orderTimeout
  /-- A join not complete within 2 s fails (R246). -/
  | joinTimeout
  /-- The 60 s refusal of joins after three authentication failures ends (R246). -/
  | joinLockoutEnd
  /-- No HANDOVER_ACK 100 ms after reel H; the new lead clears CONTINUITY_EN (R247). -/
  | ackLate
  /-- 16 consecutive reels of differing TAKE_ID set TAKE_SPLIT (R242). -/
  | takeSplit (n : LaneNo)
  /-- At each whole TAI second witness lanes with rising far-end counts are tallied (R252). -/
  | pairProve
  /-- The reference offset stays at or above THRESH for CONFIRM ms and a step or disqualification is decided (R268). -/
  | stepConfirm
  /-- A scheduled step is applied at the local reel boundary of S (R270). -/
  | timeStep
  /-- TIME_DISC stops after 390,625 reels (R270). -/
  | timeDiscEnd
  /-- Read of TIME_ANCHOR_0 latches a whole-time anchor (R273). -/
  | timeAnchorRead (m : Master) (elapsed : Fin 655360)
  /-- A timing-port frame is received, stamped and accepted or discarded (R275). -/
  | timingPortFrame (frame : List Byte) (captured : BitVec 72)
  /-- Firmware sends a timing-port frame with a stamping request (R277). -/
  | transmitRequest (r : TransmitRequest)
  /-- Read of TIME_TSQ_POP_0 pops the oldest transmit stamp (R278). -/
  | timeTsqPop (m : Master)
  /-- Divergence beyond THRESH for HOLD_MS makes a path suspect (R280). -/
  | asymSuspect (n : LaneNo) (mate : Bool)
  /-- A lane leaves ASYM_SUSPECT after 10 s within THRESH (R281). -/
  | asymClear (n : LaneNo)
  /-- Host write of SUSPECT_CLR takes a lane out of ASYM_SUSPECT (R281). -/
  | suspectClr (n : LaneNo)
  /-- Write of LANE_TT_ASYM takes effect at the next exchange and restarts the offset mean (R281). -/
  | laneTtAsymWrite (n : LaneNo) (v : Word)
  /-- Every 1 ms the DPLL updates the frequency word and build-out (R306). -/
  | dpllUpdate (freqA freqB : Option Int)
  /-- Every 1 s each candidate's window is fitted and tested (R292). -/
  | candidateEvaluation
  /-- A candidate's loss condition begins (R284). -/
  | candidateLost (n : Fin 8)
  /-- A lost candidate's input returns, possibly reversing a dissolve (R303). -/
  | candidateReturn (n : Fin 8) (offset : Int)
  /-- WTR seconds pass and a candidate becomes QUALIFIED (R290). -/
  | wtrExpiry (n : Fin 8)
  /-- Firmware selects the next eligible candidate by dissolve (R301). -/
  | selectionChange
  /-- The build-out reaches 0 and the DPLL is LOCKED (R304). -/
  | dissolveEnd
  /-- Once a second while LOCKED a history sample is recorded (R308). -/
  | historySample
  /-- The holdover budget ends and the DPLL enters FREE_RUN (R310). -/
  | holdoverExpired
  /-- Write of a candidate control register, restarting qualification or refusing a lane (R290). -/
  | refCandnCtlWrite (n : Fin 8) (v : Word)
  /-- Firmware writes a CAND6 offset sample (R288). -/
  | refPtpSample (v : Word)
  /-- A qualified pulse on PPS_IN is stamped (R285). -/
  | ppsIn (b : Bool) (captured : BitVec 72) (highNs : Nat)
  /-- 100 ms without an edge ends storm state and delivers once (R422). -/
  | stormEnd (n : Fin 1280)
  /-- A ToD message is received and checked against the last pulse (R286). -/
  | todMessage (b : Bool) (delayUs : Nat) (second : Option Nat)
  /-- Write to HIF_HOST_KICK fetches the doorbell page and new descriptors (R325). -/
  | hifHostKick (f : DoorbellFetch)
  /-- The doorbell page is fetched every HIF_POLL.US microseconds (R325). -/
  | doorbellPoll (f : DoorbellFetch)
  /-- A handle closes while fetching is held at 1,024 open and fetching resumes (R327). -/
  | handleCloseRefetch (f : DoorbellFetch)
  /-- Held completions are written when the host frees room in the completion ring (R337). -/
  | heldCompletionWrite (k : Fin 16)
  /-- COAL_US passes and the MSI-X message is sent (R338). -/
  | coalesceTimeout (ring : Option (Fin 16))
  /-- Room returns in the event ring and EVENT_LOST is written first (R352). -/
  | eventLost
  /-- Write of EN = 1 to a command ring control register (R344). -/
  | commandRingEnable (n : Fin 16) (v : Word)
  /-- Write of EN = 0 to a command ring starts its drain (R344). -/
  | commandRingDisable (n : Fin 16) (v : Word)
  /-- A draining ring's last handle closes and the ring is DISABLED (R344). -/
  | drainEnd (n : Fin 16)
  /-- Write of EN to a completion ring, refused while mapped (R344). -/
  | completionRingEnable (k : Fin 16) (v : Word)
  /-- The event ring is enabled and kept orphan completions are written (R319). -/
  | eventRingEnable (v : Word)
  /-- PERST_N, hot reset, link down or FLR resets the host interface (R319). -/
  | linkReset (perst : Bool) (bursts : List Burst)
  /-- The function returns from D3hot and delivers held completions and events (R319). -/
  | returnToD0
  /-- A DMA read gets no completion within CPL_TO_US (R347). -/
  | cplTimeout (h : Word) (waited : Nat) (obj : List Byte)
  /-- A DMA read completion with error or poison ends the transfer (R347). -/
  | dmaFault (h : Word) (kind : DmaFault) (obj : List Byte)
  /-- A staged prefix is discarded after 10 s (R348). -/
  | stagedPrefixExpiry (opcode : BitVec 16)
  /-- A management restart is requested and performed (R406). -/
  | mssRestart (m : Master) (v : Word) (bursts : List Burst)
  /-- Core 0 leaves reset, ending the restart in progress (R407). -/
  | core0LeavesReset
  /-- Keep-alive age reaches AUTO_AGE and a management restart starts (R409). -/
  | autoAge (bursts : List Burst)
  /-- Core 0 writes MSS_CORE_CTL to hold or release cores 1 to 3 (R386). -/
  | holdWrite (m : Master) (v : Word) (bursts : List Burst)
  /-- Core 0 writes MSS_BOOT.REMAP, setting REMAP_PENDING (R388). -/
  | remapWrite (m : Master) (v : Word)
  /-- Core 0's next read of MSS_BOOT performs the address swap (R388). -/
  | remapReadback (machine : Bool)
  /-- The memory-test engine borrows, tests and returns one SRAM window (R403). -/
  | windowBorrow (fault : Bool)
  /-- Write of MSS_MTEST_CTL.EN starts or stops the in-service test (R405). -/
  | mtestEnWrite (v : Word) (bursts : List Burst)
  /-- A core takes a presented interrupt by fetching its vector (R414). -/
  | vectorFetch (c : Fin 4) (r : CoreRegs)
  /-- MRET pops the trap-origin stack and may end an IC in-service entry (R415). -/
  | mret (c : Fin 4) (r : CoreRegs)
  /-- A core executes WFI and sleeps until a source is presentable (R419). -/
  | wfi (c : Fin 4) (r : CoreRegs)
  /-- Write of ARM re-arms a level interrupt source (R412). -/
  | arm (n : Fin 1280)
  /-- Write raises software interrupt sources (R411). -/
  | icSwiSet (v : Word)
  /-- Write raises a host interrupt source (R411). -/
  | icHostSet (v : Word)
  /-- Read of a counter low half latches its high half (R428). -/
  | counterRead (c : Fin 4) (user : Bool) (k : Fin 9) (high : Bool) (adv : Nat)
  /-- A programmable counter wraps and sets its overflow flag (R429). -/
  | counterOverflow (c : Fin 4) (k : Fin 9)
  /-- A tagged instruction retires or traps and a sample is written (R431). -/
  | tagSample (c : Fin 4) (pc : Word) (latency : Nat) (stall : Fin 8) (miss : BitVec 4) (user trapped : Bool)
  /-- Read of MSS_TAG_SAMPLE pops a sample and latches its PC (R432). -/
  | mssTagSampleRead (m : Master) (c : Fin 4)
  /-- FENCE waits for earlier writes of the port to be accepted (R385). -/
  | fenceInstruction (c : Fin 4)
  /-- FENCE.I invalidates the core's instruction cache (R384). -/
  | fenceI (c : Fin 4)
  /-- LR.W sets a reservation on a 64-byte block (R400). -/
  | lrW (c : Fin 4) (machine : Bool) (addr : Word) (ecc : Ecc)
  /-- SC.W stores if the reservation holds and clears it (R400). -/
  | scW (c : Fin 4) (machine : Bool) (addr : Word) (v : Word)
  /-- An AMO is performed as one indivisible read and write (R400). -/
  | amo (c : Fin 4) (machine : Bool) (op : AmoOp) (addr : Word) (v : Word) (ecc : Ecc)
  /-- Write of GO to MSS_LC_CTL requests a life-cycle transition (R435). -/
  | lcTransition (m : Master) (v : Word)
  /-- The life-cycle fuse write completes and zeroisation follows (R435). -/
  | fuseWriteEnd (ok : Bool)
  /-- Key operation that fuses the owner key hash (R440). -/
  | owner (m : Master)
  /-- Key operation that loads a pair key in clear and returns its wrap (R440). -/
  | install (m : Master)
  /-- Key operation that unwraps and loads a pair key (R440). -/
  | load (m : Master)
  /-- Key operation that replaces the pair key (R440). -/
  | rotate (m : Master)
  /-- Key operation that zeroes the pair key (R440). -/
  | clear (m : Master)
  /-- Write of REQ to MSS_ZEROISE starts zeroisation (R437). -/
  | zeroiseReq (m : Master) (v : Word)
  /-- The new firmware confirms its trial image (R446). -/
  | confirm (m : Master)
  /-- Write of RAISE fuses a higher anti-rollback count (R447). -/
  | raise (m : Master) (v : Word)
  /-- Read of GCTL_DEVNUM_LO latches the high word (R500). -/
  | gctlDevnumRead (m : Master)
  /-- I3C private write with operation WRITE writes register words (R470). -/
  | privateWriteWrite (bytes : List Byte) (parity : Bool)
  /-- I3C private write with operation SET_READ reads COUNT words (R470). -/
  | setRead (off : Word) (count : BitVec 16)
  /-- I3C private read returns the words of a SET_READ (R470). -/
  | privateRead
  /-- HDR-DDR write command carrying a WRITE or SET_READ (R471). -/
  | hdrDdrWrite (code : Byte) (bytes : List Byte) (bad : Bool)
  /-- HDR-DDR read command returning SET_READ words (R471). -/
  | hdrDdrRead (code : Byte) (bad : Bool)
  /-- CCC enabling in-band interrupts (R469). -/
  | enec (enint : Bool)
  /-- CCC disabling in-band interrupts (R469). -/
  | disec (enint : Bool)
  /-- CCC returning the target to its static address (R468). -/
  | rstdaa
  /-- CCC assigning a dynamic address (R468). -/
  | entdaa (addr : BitVec 7)
  /-- CCC setting the maximum write length (R469). -/
  | setmwl (v : BitVec 16)
  /-- CCC returning the maximum write length (R469). -/
  | getmwl
  /-- CCC setting the maximum read length (R469). -/
  | setmrl (v : BitVec 16)
  /-- CCC returning the maximum read length (R469). -/
  | getmrl
  /-- CCC returning the PID (R468). -/
  | getpid
  /-- CCC returning the BCR (R468). -/
  | getbcr
  /-- CCC returning the DCR (R468). -/
  | getdcr
  /-- CCC returning pending interrupts and protocol error (R469). -/
  | getstatus
  /-- CCC returning speed limits (R469). -/
  | getmxds
  /-- CCC returning HDR capabilities (R469). -/
  | getcaps
  /-- CCC setting or reporting the target reset action (R469). -/
  | rstact (defining : Byte) (report : Bool)
  /-- The bus reset pattern performs the last RSTACT action (R469). -/
  | targetResetPattern (bursts : List Burst)
  /-- A NACKed in-band interrupt is raised again at Bus Available (R472). -/
  | busAvailableIbi (acked : Bool)
  /-- Write of MBX_EN enables or disables the mailbox (R473). -/
  | mbxEnWrite (m : Master) (v : Word)
  /-- Write of GO takes the mailbox descriptor as a command (R474). -/
  | mbxGo (m : Master)
  /-- Write of UNIT_DONE completes a mailbox data unit (R475). -/
  | mbxUnitDone (m : Master)
  /-- A mailbox unit not completed within UNIT_TO_MS ends with CPL_TIMEOUT (R476). -/
  | mbxUnitTimeout (waitedMs : Nat)
  /-- Read of I3CT_MBX_CPL_0 latches the completion words (R477). -/
  | mbxCplRead (m : Master) (k : Fin 4)
  /-- Write of START begins a recovery reception (R478). -/
  | rcvStart (m : Master)
  /-- Write of UNIT_DONE completes a recovery unit (R478). -/
  | rcvUnitDone (m : Master)
  /-- Write of ABORT returns recovery to WAITING (R478). -/
  | rcvAbort (m : Master)
  /-- Recovery image verification ends with DONE or FAILED (R478). -/
  | rcvVerifyDone (flashOk : Bool)
  /-- Write of a loop mode, refused on a lane in use (R481). -/
  | testLoopWrite (n : LaneNo) (v : Word)
  /-- An active loop or generator ends when the lane comes into use or leaves ACTIVE (R483). -/
  | loopEnd (n : LaneNo) (overrun : Bool)
  /-- Write of the generator enable switches the transmitter to or from the pattern (R485). -/
  | prbsGenEn (n : LaneNo) (v : Word)
  /-- Write of INJECT inverts the next generated bit (R485). -/
  | inject (n : LaneNo)
  /-- Write of the checker enable starts or stops the checker (R486). -/
  | prbsChkEn (n : LaneNo) (v : Word)
  /-- Write of CLEAR zeroes the checker counts (R486). -/
  | checkerClear (n : LaneNo)
  /-- Errors above the limit in a window make the checker lose lock (R486). -/
  | lockLost (n : LaneNo) (bits errs windowErrs : Nat)
  /-- Read of TEST_PRBS_BITS_LO latches the other count words (R487). -/
  | prbsCountRead (m : Master) (n : LaneNo) (bits errs : Nat)
  /-- JTAG instruction selecting the IDCODE register (R492). -/
  | idcode
  /-- JTAG instruction sampling the boundary register (R492). -/
  | sample (pins : List Bool)
  /-- JTAG instruction preloading the boundary register (R492). -/
  | preload (cells : List Bool)
  /-- JTAG instruction driving pins from the boundary register while PORST_N is low (R493). -/
  | extest (pins : List Bool)
  /-- IEEE 1149.6 pulse test instruction (R494). -/
  | extestPulse (pins : List Bool)
  /-- IEEE 1149.6 train test instruction (R494). -/
  | extestTrain (pins : List Bool)
  /-- JTAG instruction clamping pins with bypass selected (R492). -/
  | clamp (pins : List Bool)
  /-- JTAG instruction releasing all outputs (R492). -/
  | highz (pins : List Bool)
  /-- JTAG instruction selecting the 64-bit device number (R492). -/
  | ecidcode
  /-- JTAG instruction selecting the bypass register (R492). -/
  | bypass
  /-- Reserved production-test instruction, active only in BLANK and RETURNED (R495). -/
  | productionTestOpcode (op : BitVec 8)
  /-- The PCIe function is put into D3hot, after which it reads and writes no host memory and holds completions and events (R319). -/
  | d3hotEntry
  /-- The PCIe link trains and returns, HIF_STATE shows its speed and width, and FW_READY returns to 1 within 10 ms (R467). -/
  | linkUp (speed : Fin 5) (width : Fin 5)
  /-- VDD_IO is removed, which loses the always-on flags ZEROISED, ZEROISE_FAIL, TAMPER_SEEN, ARMED and TRIED and lifts a zeroisation-failure port denial (R438). -/
  | vddIoRemoved
  /-- A core takes an exception or an interrupt to mtvec and pushes 0 onto its trap-origin stack (R415). -/
  | trapEntry (c : Fin 4) (r : CoreRegs) (cause : Word) (tval : Word)
  /-- A core writes one half of a performance counter, writing only that half and invalidating its shadow, and keeping the written value against an overflow in the same cycle (R428). -/
  | counterWrite (c : Fin 4) (user : Bool) (k : Fin 9) (part : CounterPart) (v : Word) (adv : Nat)
  /-- The PRBS checker becomes LOCKED after 4,096 consecutive received bits match its prediction (R486). -/
  | checkerLocked (n : LaneNo)
  /-- The timing port's clause 49 PCS gains or loses block lock or receives a fault ordered set, changing TIME_PTP_STAT (R282). -/
  | timingPortBlockLock (lock fault : Bool)
  /-- The TAP enters Test-Logic-Reset on TRST_N or TMS, loading IDCODE and returning the balls to their functional drivers (R491). -/
  | testLogicReset
  deriving DecidableEq, Repr

end Sys2Proof
end

