-- ==== Sys2Proof/Decode.lean ====
section
/-!
DEFINITION. Commands from the bits of spec/opcode_table.json. No row of the table gives bits (every row has an empty list of
fields), so no word spells a command.
-/
namespace Sys2Proof

/-- The command that a word spells by the table's bits: none, since the table gives no row any bits (assumption 2). -/
def decodeTableWord (_nbits _w : Nat) : Option Instr := none

end Sys2Proof
end

