-- ==== Sys2Proof/Machine/Bits.lean ====
section
/-!
DEFINITION. Bit-field, byte-order and saturation helpers used by every family (spec 00 R4, R77; 03 R77).
-/
namespace Sys2Proof.Machine
open Sys2Proof

/-- Bits `lo + w - 1 .. lo` of a natural number. -/
def bitsOf (v lo w : Nat) : Nat := (v >>> lo) % 2 ^ w

/-- `v` with bits `lo + w - 1 .. lo` replaced by the low `w` bits of `x`. -/
def putBits (v lo w x : Nat) : Nat :=
  v - (bitsOf v lo w) * 2 ^ lo + (x % 2 ^ w) * 2 ^ lo

/-- The signed reading of the low `w` bits of `v` in two's complement. -/
def toSigned (w v : Nat) : Int :=
  let x := v % 2 ^ w
  if x < 2 ^ (w - 1) then (x : Int) else (x : Int) - (2 ^ w : Nat)

/-- The `w`-bit two's complement code of an integer. -/
def ofSigned (w : Nat) (i : Int) : Nat := (i % ((2 ^ w : Nat) : Int)).toNat

/-- `v + k` held at the largest value of `w` bits: the saturating counters of the register tables. -/
def satAdd (w v k : Nat) : Nat := min (v + k) (2 ^ w - 1)

/-- `i` moved to the nearer of two limits, as fields "act as the nearer limit". -/
def clampNat (lo hi v : Nat) : Nat := max lo (min hi v)

/-- The same for signed fields. -/
def clampInt (lo hi v : Int) : Int := max lo (min hi v)

/-- Little-endian value of a byte list (R4). -/
def leNat : List Byte → Nat
  | [] => 0
  | b :: bs => b.toNat + 256 * leNat bs

/-- `n` bytes of `v`, least significant first (R4). -/
def leBytes : Nat → Nat → List Byte
  | 0, _ => []
  | n + 1, v => BitVec.ofNat 8 v :: leBytes n (v / 256)

/-- Big-endian value of a byte list (R77, R229). -/
def beNat (bs : List Byte) : Nat := bs.foldl (fun a b => a * 256 + b.toNat) 0

/-- `n` bytes of `v`, most significant first (R77, R229). -/
def beBytes (n v : Nat) : List Byte := (leBytes n v).reverse

/-- `k` bytes of a list from offset `off`, zero beyond its end. -/
def bytesAt (bs : List Byte) (off k : Nat) : List Byte :=
  (List.range k).map fun i => bs.getD (off + i) 0

/-- Little-endian field of `k` bytes at `off` of a descriptor or object (R4). -/
def leAt (bs : List Byte) (off k : Nat) : Nat := leNat (bytesAt bs off k)

/-- Big-endian field of `k` bytes at `off` of an overhead map or record body (R77, R229). -/
def beAt (bs : List Byte) (off k : Nat) : Nat := beNat (bytesAt bs off k)

/-- The first `n` bits of a natural number of width `w`, as a list from the most significant bit (line order, R77). -/
def msbBits (w v : Nat) : List Bool := (List.range w).map fun i => v.testBit (w - 1 - i)

/-- The value of a bit list in line order. -/
def ofMsbBits (bs : List Bool) : Nat := bs.foldl (fun a b => 2 * a + b.toNat) 0

/-- Sequence comparison of the manual's conventions: `a` is later than `b` modulo 2^32. -/
def seqLater (a b : Nat) : Bool :=
  let d := (a + 2 ^ 32 - b % 2 ^ 32) % 2 ^ 32
  decide (1 ≤ d ∧ d < 2 ^ 31)

/-- Number of reels from `b` to `a`, modulo 2^32. -/
def seqDiff (a b : Nat) : Nat := (a % 2 ^ 32 + 2 ^ 32 - b % 2 ^ 32) % 2 ^ 32

/-- Next REEL_SEQ (R86). -/
def seqNext (a : Nat) : Nat := (a + 1) % 2 ^ 32

/-- Replace the element at index `i`, leaving the list unchanged where there is none. -/
def listSet {α : Type} (l : List α) (i : Nat) (v : α) : List α := l.set i v

/-- The integer nearest `n / d`, halves away from zero. -/
def roundDiv (n d : Int) : Int :=
  if d = 0 then 0 else if 0 ≤ n then (2 * n + d) / (2 * d) else -((-2 * n + d) / (2 * d))

end Sys2Proof.Machine
end

