-- ==== Sys2Proof/Machine/Crypto.lean ====
section
/-!
DEFINITION. The cryptography and checks that the spec names by their standards (spec 08 R226, R229, R230, R232; 15 R440 to
R443): CRC-8 and CRC-32, SHA-384, HMAC and HKDF (RFC 5869), AES-256, GCM, AES key wrap (RFC 3394), ECDSA P-384. PRESUMED: the
algorithms are those of the named standards (log entry 30).
-/
namespace Sys2Proof.Machine
open Sys2Proof

-- Checks --------------------------------------------------------------------------------------------------------

/-- CRC-8, x^8 + x^2 + x + 1, initial value 0, most significant bit first (R226). -/
def crc8 (bs : List Byte) : Nat :=
  bs.foldl (fun r b => (List.range 8).foldl (fun r _ =>
    let top := r.testBit 7
    let r := (r * 2) % 256
    if top then r ^^^ 0x07 else r) (r ^^^ b.toNat)) 0

/-- CRC-32 of IEEE 802.3 (R229). -/
def crc32 (bs : List Byte) : Nat :=
  (bs.foldl (fun r b => (List.range 8).foldl (fun r _ =>
    if r.testBit 0 then (r / 2) ^^^ 0xEDB88320 else r / 2) (r ^^^ b.toNat)) 0xFFFFFFFF) ^^^ 0xFFFFFFFF

-- SHA-384 -------------------------------------------------------------------------------------------------------

def shaK0 : List (BitVec 64) := [
  0x428A2F98D728AE22#64, 0x7137449123EF65CD#64, 0xB5C0FBCFEC4D3B2F#64, 0xE9B5DBA58189DBBC#64,
  0x3956C25BF348B538#64, 0x59F111F1B605D019#64, 0x923F82A4AF194F9B#64, 0xAB1C5ED5DA6D8118#64,
  0xD807AA98A3030242#64, 0x12835B0145706FBE#64, 0x243185BE4EE4B28C#64, 0x550C7DC3D5FFB4E2#64,
  0x72BE5D74F27B896F#64, 0x80DEB1FE3B1696B1#64, 0x9BDC06A725C71235#64, 0xC19BF174CF692694#64,
  0xE49B69C19EF14AD2#64, 0xEFBE4786384F25E3#64, 0x0FC19DC68B8CD5B5#64, 0x240CA1CC77AC9C65#64]
def shaK1 : List (BitVec 64) := [
  0x2DE92C6F592B0275#64, 0x4A7484AA6EA6E483#64, 0x5CB0A9DCBD41FBD4#64, 0x76F988DA831153B5#64,
  0x983E5152EE66DFAB#64, 0xA831C66D2DB43210#64, 0xB00327C898FB213F#64, 0xBF597FC7BEEF0EE4#64,
  0xC6E00BF33DA88FC2#64, 0xD5A79147930AA725#64, 0x06CA6351E003826F#64, 0x142929670A0E6E70#64,
  0x27B70A8546D22FFC#64, 0x2E1B21385C26C926#64, 0x4D2C6DFC5AC42AED#64, 0x53380D139D95B3DF#64,
  0x650A73548BAF63DE#64, 0x766A0ABB3C77B2A8#64, 0x81C2C92E47EDAEE6#64, 0x92722C851482353B#64]
def shaK2 : List (BitVec 64) := [
  0xA2BFE8A14CF10364#64, 0xA81A664BBC423001#64, 0xC24B8B70D0F89791#64, 0xC76C51A30654BE30#64,
  0xD192E819D6EF5218#64, 0xD69906245565A910#64, 0xF40E35855771202A#64, 0x106AA07032BBD1B8#64,
  0x19A4C116B8D2D0C8#64, 0x1E376C085141AB53#64, 0x2748774CDF8EEB99#64, 0x34B0BCB5E19B48A8#64,
  0x391C0CB3C5C95A63#64, 0x4ED8AA4AE3418ACB#64, 0x5B9CCA4F7763E373#64, 0x682E6FF3D6B2B8A3#64,
  0x748F82EE5DEFB2FC#64, 0x78A5636F43172F60#64, 0x84C87814A1F0AB72#64, 0x8CC702081A6439EC#64]
def shaK3 : List (BitVec 64) := [
  0x90BEFFFA23631E28#64, 0xA4506CEBDE82BDE9#64, 0xBEF9A3F7B2C67915#64, 0xC67178F2E372532B#64,
  0xCA273ECEEA26619C#64, 0xD186B8C721C0C207#64, 0xEADA7DD6CDE0EB1E#64, 0xF57D4F7FEE6ED178#64,
  0x06F067AA72176FBA#64, 0x0A637DC5A2C898A6#64, 0x113F9804BEF90DAE#64, 0x1B710B35131C471B#64,
  0x28DB77F523047D84#64, 0x32CAAB7B40C72493#64, 0x3C9EBE0A15C9BEBC#64, 0x431D67C49C100D4C#64,
  0x4CC5D4BECB3E42B6#64, 0x597F299CFC657E2A#64, 0x5FCB6FAB3AD6FAEC#64, 0x6C44198C4A475817#64]
/-- Round constants of SHA-384 (FIPS 180-4). -/
def shaK : List (BitVec 64) := shaK0 ++ shaK1 ++ shaK2 ++ shaK3

def aesSboxes0 : List Nat := [
  99, 124, 119, 123, 242, 107, 111, 197, 48, 1, 103, 43, 254, 215, 171, 118, 202, 130, 201, 125, 250, 89, 71, 240,
  173, 212, 162, 175, 156, 164, 114, 192, 183, 253, 147, 38, 54, 63, 247, 204, 52, 165, 229, 241, 113, 216, 49,
  21, 4, 199, 35, 195, 24, 150, 5, 154, 7, 18, 128, 226, 235, 39, 178, 117]
def aesSboxes1 : List Nat := [
  9, 131, 44, 26, 27, 110, 90, 160, 82, 59, 214, 179, 41, 227, 47, 132, 83, 209, 0, 237, 32, 252, 177, 91, 106,
  203, 190, 57, 74, 76, 88, 207, 208, 239, 170, 251, 67, 77, 51, 133, 69, 249, 2, 127, 80, 60, 159, 168, 81, 163,
  64, 143, 146, 157, 56, 245, 188, 182, 218, 33, 16, 255, 243, 210]
def aesSboxes2 : List Nat := [
  205, 12, 19, 236, 95, 151, 68, 23, 196, 167, 126, 61, 100, 93, 25, 115, 96, 129, 79, 220, 34, 42, 144, 136, 70,
  238, 184, 20, 222, 94, 11, 219, 224, 50, 58, 10, 73, 6, 36, 92, 194, 211, 172, 98, 145, 149, 228, 121, 231, 200,
  55, 109, 141, 213, 78, 169, 108, 86, 244, 234, 101, 122, 174, 8]
def aesSboxes3 : List Nat := [
  186, 120, 37, 46, 28, 166, 180, 198, 232, 221, 116, 31, 75, 189, 139, 138, 112, 62, 181, 102, 72, 3, 246, 14,
  97, 53, 87, 185, 134, 193, 29, 158, 225, 248, 152, 17, 105, 217, 142, 148, 155, 30, 135, 233, 206, 85, 40, 223,
  140, 161, 137, 13, 191, 230, 66, 104, 65, 153, 45, 15, 176, 84, 187, 22]
/-- The AES substitution box (FIPS 197). -/
def aesSboxes : List Nat := aesSboxes0 ++ aesSboxes1 ++ aesSboxes2 ++ aesSboxes3

/-- Initial hash value of SHA-384 (FIPS 180-4). -/
def shaInit : List (BitVec 64) := [
  0xCBBB9D5DC1059ED8#64, 0x629A292A367CD507#64, 0x9159015A3070DD17#64, 0x152FECD8F70E5939#64,
  0x67332667FFC00B31#64, 0x8EB44A8768581511#64, 0xDB0C2E0D64F98FA7#64, 0x47B5481DBEFA4FA4#64]

/-- Message schedule: extend 16 words, newest first, to 80. -/
def shaSchedule : Nat → List (BitVec 64) → List (BitVec 64)
  | 0, w => w
  | n + 1, w =>
    let at_ := fun i => w.getD i 0
    let s0 := (at_ 14).rotateRight 1 ^^^ (at_ 14).rotateRight 8 ^^^ (at_ 14) >>> 7
    let s1 := (at_ 1).rotateRight 19 ^^^ (at_ 1).rotateRight 61 ^^^ (at_ 1) >>> 6
    shaSchedule n ((at_ 15 + s0 + at_ 6 + s1) :: w)

/-- One round on the eight working variables. -/
def shaRound (v : List (BitVec 64)) (kw : BitVec 64 × BitVec 64) : List (BitVec 64) :=
  match v with
  | [a, b, c, d, e, f, g, h] =>
    let t1 := h + (e.rotateRight 14 ^^^ e.rotateRight 18 ^^^ e.rotateRight 41) + ((e &&& f) ^^^ (~~~e &&& g)) + kw.1 + kw.2
    let t2 := (a.rotateRight 28 ^^^ a.rotateRight 34 ^^^ a.rotateRight 39) + ((a &&& b) ^^^ (a &&& c) ^^^ (b &&& c))
    [t1 + t2, a, b, c, d + t1, e, f, g]
  | _ => v

/-- Compression of one 128-byte block. -/
def shaBlock (h : List (BitVec 64)) (block : List Byte) : List (BitVec 64) :=
  let w := (List.range 16).map fun i => BitVec.ofNat 64 (beAt block (8 * i) 8)
  let sched := (shaSchedule 64 w.reverse).reverse
  List.zipWith (· + ·) h ((shaK.zip sched).foldl shaRound h)

/-- Blocks of 128 bytes. Fuel: the number of blocks. -/
def shaBlocks : Nat → List Byte → List (BitVec 64) → List (BitVec 64)
  | 0, _, h => h
  | n + 1, bs, h => shaBlocks n (bs.drop 128) (shaBlock h (bs.take 128))

/-- SHA-384 of a byte string, 48 bytes. -/
def sha384 (bs : List Byte) : List Byte :=
  let pad := (239 - bs.length % 128) % 128
  let m := bs ++ [0x80#8] ++ List.replicate pad 0 ++ beBytes 16 (8 * bs.length)
  ((shaBlocks (m.length / 128) m shaInit).take 6).flatMap fun w => beBytes 8 w.toNat

/-- HMAC with SHA-384. -/
def hmac384 (key msg : List Byte) : List Byte :=
  let k := if 128 < key.length then sha384 key else key
  let k := k ++ List.replicate (128 - k.length) 0
  sha384 (k.map (· ^^^ 0x5C#8) ++ sha384 (k.map (· ^^^ 0x36#8) ++ msg))

/-- HKDF with SHA-384 for at most 48 output bytes (RFC 5869). -/
def hkdf384 (ikm salt info : List Byte) (n : Nat) : List Byte := (hmac384 (hmac384 salt ikm) (info ++ [1#8])).take n

-- AES-256 -------------------------------------------------------------------------------------------------------

/-- Substitution of one byte. -/
def aesSub (b : Byte) : Byte := BitVec.ofNat 8 (aesSboxes.getD b.toNat 0)

/-- Inverse substitution of one byte. -/
def aesSubInv (b : Byte) : Byte := BitVec.ofNat 8 (aesSboxes.findIdx (· == b.toNat))

/-- Multiplication by x in GF(2^8). -/
def aesXtime (b : Byte) : Byte := if b.getLsbD 7 then (b <<< 1) ^^^ 0x1B#8 else b <<< 1

/-- Multiplication in GF(2^8) by a small constant. -/
def aesMul (c : Nat) (b : Byte) : Byte :=
  (List.range 4).foldl (fun (acc : Byte × Byte) i =>
    ((if c.testBit i then acc.1 ^^^ acc.2 else acc.1), aesXtime acc.2)) (0, b) |>.1

/-- Expanded key words, newest first, as 4-byte lists: `n` more words, the list holding `i`. -/
def aesExpand : Nat → Nat → Byte → List (List Byte) → List (List Byte)
  | 0, _, _, w => w
  | n + 1, i, rc, w =>
    let t := w.getD 0 []
    let xs := fun (a b : List Byte) => List.zipWith (· ^^^ ·) a b
    let t' := if i % 8 = 0 then xs ((t.drop 1 ++ t.take 1).map aesSub) [rc, 0, 0, 0]
      else if i % 8 = 4 then t.map aesSub else t
    aesExpand n (i + 1) (if i % 8 = 0 then aesXtime rc else rc) (xs (w.getD 7 []) t' :: w)

/-- The 15 round keys of a 32-byte key. -/
def aesKeys (key : List Byte) : List (List Byte) :=
  let w := (aesExpand 52 8 1#8 ((List.range 8).map fun i => bytesAt key (4 * i) 4).reverse).reverse
  (List.range 15).map fun r => (List.range 4).flatMap fun c => w.getD (4 * r + c) []

/-- Bytes added to a state. -/
def xorBytes (a b : List Byte) : List Byte := List.zipWith (· ^^^ ·) a b

/-- Rotation of the rows of the state; `inv` rotates back. -/
def aesShift (inv : Bool) (s : List Byte) : List Byte :=
  (List.range 16).map fun i => s.getD ((if inv then i + 16 - 4 * (i % 4) else i + 4 * (i % 4)) % 16) 0

/-- Mixing of the columns by the first row of the matrix. -/
def aesMix (row : List Nat) (s : List Byte) : List Byte :=
  (List.range 16).map fun i =>
    (List.range 4).foldl (fun a j => a ^^^ aesMul (row.getD ((j + 4 - i % 4) % 4) 0) (s.getD (i / 4 * 4 + j) 0)) 0

/-- AES-256 encryption of one block. -/
def aesEncrypt (key block : List Byte) : List Byte :=
  let ks := aesKeys key
  let s := xorBytes block (ks.getD 0 [])
  let s := (List.range 13).foldl (fun s r =>
    xorBytes (aesMix [2, 3, 1, 1] (aesShift false (s.map aesSub))) (ks.getD (r + 1) [])) s
  xorBytes (aesShift false (s.map aesSub)) (ks.getD 14 [])

/-- AES-256 decryption of one block. -/
def aesDecrypt (key block : List Byte) : List Byte :=
  let ks := aesKeys key
  let s := xorBytes block (ks.getD 14 [])
  let s := (List.range 13).foldl (fun s r =>
    aesMix [14, 11, 13, 9] (xorBytes ((aesShift true s).map aesSubInv) (ks.getD (13 - r) []))) s
  xorBytes ((aesShift true s).map aesSubInv) (ks.getD 0 [])

-- GCM -----------------------------------------------------------------------------------------------------------

/-- Multiplication in GF(2^128) with GCM's bit order; fuel 128, bits of `x` from the most significant. -/
def ghashMul : Nat → Nat → Nat → Nat → Nat
  | 0, _, _, z => z
  | n + 1, x, v, z =>
    ghashMul n x (if v.testBit 0 then (v / 2) ^^^ (0xE1 * 2 ^ 120) else v / 2) (if x.testBit n then z ^^^ v else z)

/-- Blocks of 16 bytes, the last filled with zeros. Fuel: the number of blocks. -/
def blocks16 : Nat → List Byte → List Nat
  | 0, _ => []
  | n + 1, bs => beNat (bytesAt bs 0 16) :: blocks16 n (bs.drop 16)

/-- GHASH of additional data and ciphertext under hash key `h`. -/
def ghash (h : Nat) (aad c : List Byte) : Nat :=
  let bs := blocks16 ((aad.length + 15) / 16) aad ++ blocks16 ((c.length + 15) / 16) c
    ++ [8 * aad.length * 2 ^ 64 + 8 * c.length]
  bs.foldl (fun y b => ghashMul 128 (y ^^^ b) h 0) 0

/-- Counter mode from a 12-byte nonce. -/
def gcmStream (key nonce : List Byte) (n : Nat) : List Byte :=
  ((List.range ((n + 15) / 16)).flatMap fun i => aesEncrypt key (nonce ++ beBytes 4 (i + 2))).take n

/-- Encryption, which is also decryption, of the body. -/
def gcmCrypt (key nonce body : List Byte) : List Byte := xorBytes body (gcmStream key nonce body.length)

/-- The 16-byte tag of additional data and ciphertext. -/
def gcmTag (key nonce aad c : List Byte) : List Byte :=
  let h := beNat (aesEncrypt key (List.replicate 16 0))
  xorBytes (beBytes 16 (ghash h aad c)) (aesEncrypt key (nonce ++ beBytes 4 1))

-- Key wrap ------------------------------------------------------------------------------------------------------

/-- AES key wrap (RFC 3394) of 64-bit blocks. -/
def keyWrap (kek plain : List Byte) : List Byte :=
  let n := plain.length / 8
  let r := (List.range n).map fun i => bytesAt plain (8 * i) 8
  let (a, r) := (List.range (6 * n)).foldl (fun (st : List Byte × List (List Byte)) k =>
    let i := k % n
    let b := aesEncrypt kek (st.1 ++ st.2.getD i [])
    (xorBytes (b.take 8) (beBytes 8 (k + 1)), st.2.set i (b.drop 8))) (List.replicate 8 0xA6#8, r)
  a ++ r.flatten

/-- AES key unwrap; none where the integrity check fails. -/
def keyUnwrap (kek wrapped : List Byte) : Option (List Byte) :=
  let n := wrapped.length / 8 - 1
  let r := (List.range n).map fun i => bytesAt wrapped (8 * (i + 1)) 8
  let (a, r) := (List.range (6 * n)).foldl (fun (st : List Byte × List (List Byte)) j =>
    let k := 6 * n - 1 - j
    let i := k % n
    let b := aesDecrypt kek (xorBytes st.1 (beBytes 8 (k + 1)) ++ st.2.getD i [])
    (b.take 8, st.2.set i (b.drop 8))) (wrapped.take 8, r)
  if a = List.replicate 8 0xA6#8 then some r.flatten else none

-- ECDSA P-384 ---------------------------------------------------------------------------------------------------

/-- Prime, order, coefficient b and base point of P-384. -/
def p384P : Nat := 2 ^ 384 - 2 ^ 128 - 2 ^ 96 + 2 ^ 32 - 1
def p384N : Nat := 0xFFFFFFFFFFFFFFFFFFFFFFFFFFFFFFFFFFFFFFFFFFFFFFFFC7634D81F4372DDF581A0DB248B0A77AECEC196ACCC52973
def p384B : Nat := 0xB3312FA7E23EE7E4988E056BE3F82D19181D9C6EFE8141120314088F5013875AC656398D8A2ED19D2A85C8EDD3EC2AEF
def p384G : Nat × Nat :=
  (0xAA87CA22BE8B05378EB1C71EF320AD746E1D3B628BA79B9859F741E082542A385502F25DBF55296C3A545E3872760AB7,
   0x3617DE4A96262C6F5D9E98BF9292DC29F8F41DBD289A147CE9DA3113B5F0B8C00A60B1CE1D7E819D7A431D7C90EA0E5F)

/-- Power modulo m; fuel: bits of the exponent. -/
def powMod (m : Nat) : Nat → Nat → Nat → Nat → Nat
  | 0, _, _, acc => acc
  | n + 1, b, e, acc => powMod m n (b * b % m) (e / 2) (if e % 2 = 1 then acc * b % m else acc)

/-- Inverse modulo a prime. -/
def invMod (m a : Nat) : Nat := powMod m 384 (a % m) (m - 2) 1

/-- Sum of two points; none is the point at infinity. -/
def ecAdd : Option (Nat × Nat) → Option (Nat × Nat) → Option (Nat × Nat)
  | none, q => q
  | p, none => p
  | some (x1, y1), some (x2, y2) =>
    if x1 = x2 ∧ (y1 + y2) % p384P = 0 then none
    else
      let l := if x1 = x2 then (3 * x1 * x1 + (p384P - 3)) * invMod p384P (2 * y1) % p384P
        else (y2 + p384P - y1) * invMod p384P (x2 + p384P - x1) % p384P
      let x := (l * l + 2 * p384P - x1 - x2) % p384P
      some (x, (l * (x1 + p384P - x) + p384P - y1) % p384P)

/-- Multiple of a point; fuel: bits of the factor. -/
def ecMul : Nat → Nat → Option (Nat × Nat) → Option (Nat × Nat) → Option (Nat × Nat)
  | 0, _, _, acc => acc
  | n + 1, k, p, acc => ecMul n (k / 2) (ecAdd p p) (if k % 2 = 1 then ecAdd acc p else acc)

/-- Whether a signature (r, s) over a message verifies with a public point. -/
def ecdsaVerify (x y r s : Nat) (msg : List Byte) : Bool :=
  let onCurve := decide (x < p384P ∧ y < p384P ∧ (y * y) % p384P = (x * x * x + (p384P - 3) * x + p384B) % p384P)
  if !onCurve || decide (r = 0 ∨ p384N ≤ r ∨ s = 0 ∨ p384N ≤ s) then false
  else
    let e := beNat (sha384 msg)
    let w := invMod p384N s
    match ecAdd (ecMul 384 (e * w % p384N) (some p384G) none) (ecMul 384 (r * w % p384N) (some (x, y)) none) with
    | some (px, _) => px % p384N == r
    | none => false

end Sys2Proof.Machine
end

