-- ==== Sys2Proof/Machine/ReedSolomon.lean ====
section
/-!
DEFINITION. The Reed-Solomon code RS(896,848) over GF(2^10) of spec 03 R82 and R83: field arithmetic, the systematic
encoder, and a decoder that corrects up to 24 symbol errors (Berlekamp-Massey, root search, Forney). The spec fixes the
code and its correction bound; the decoding method is the model's (log entry 20).
-/
namespace Sys2Proof.Machine

/-- Product in GF(2^10) with p(x) = x^10 + x^3 + 1 (R82). -/
def gfMul (a b : Nat) : Nat :=
  ((List.range 10).foldl (fun (acc, x) i =>
    let acc := if b.testBit i then acc ^^^ x else acc
    let x2 := x <<< 1
    (acc, if x2.testBit 10 then x2 ^^^ 0x409 else x2)) (0, a)).1

/-- Power in GF(2^10). -/
def gfPow (a : Nat) : Nat → Nat
  | 0 => 1
  | n + 1 => gfMul a (gfPow a n)

/-- α^n, stepping by multiplication by α = x. -/
def gfAlpha : Nat → Nat
  | 0 => 1
  | n + 1 => let y := gfAlpha n <<< 1; if y.testBit 10 then y ^^^ 0x409 else y

/-- Inverse of a non-zero element: a^1022. -/
def gfInv (a : Nat) : Nat :=
  -- 1022 = 2 + 4 + ... + 512
  ((List.range 9).foldl (fun (acc, sq) _ => let sq := gfMul sq sq; (gfMul acc sq, sq)) (1, a)).1

/-- Value of a polynomial, highest coefficient first. -/
def gfEval (p : List Nat) (x : Nat) : Nat := p.foldl (fun a c => gfMul a x ^^^ c) 0

/-- Value of a polynomial, lowest coefficient first. -/
def gfEvalLow (p : List Nat) (x : Nat) : Nat := gfEval p.reverse x

/-- Product by (x + r), lowest coefficient first. -/
def gfMulRoot (p : List Nat) (r : Nat) : List Nat :=
  List.zipWith (· ^^^ ·) (0 :: p) (p.map (gfMul r) ++ [0])

/-- The generator polynomial g(x) of R82, lowest coefficient first: 49 coefficients. -/
def rsGenerator : List Nat := (List.range 48).foldl (fun p i => gfMulRoot p (gfAlpha i)) [1]

/-- The generator without its leading one, highest coefficient first, as the encoder's feedback taps. -/
def rsTaps : List Nat := (rsGenerator.take 48).reverse

/-- The 48 parity symbols of 848 data symbols, x^47 first: m(x) x^48 mod g(x) (R82). -/
def rsParity (msg : List Nat) : List Nat :=
  let taps := rsTaps
  msg.foldl (fun reg m =>
    let f := (reg.headD 0) ^^^ m
    List.zipWith (fun r t => r ^^^ gfMul f t) (reg.drop 1 ++ [0]) taps) (List.replicate 48 0)

/-- The 48 syndromes of a received word, highest coefficient first. -/
def rsSyndromes (w : List Nat) : List Nat := (List.range 48).map fun j => gfEval w (gfAlpha j)

/-- State of the Berlekamp-Massey iteration. -/
structure BmState where
  c : List Nat
  b : List Nat
  l : Nat
  m : Nat
  bb : Nat

/-- Sum of two polynomials, lowest coefficient first, of any lengths. -/
def gfAddPoly (p q : List Nat) : List Nat :=
  (List.range (max p.length q.length)).map fun i => p.getD i 0 ^^^ q.getD i 0

/-- One step on syndrome n. -/
def bmStep (s : List Nat) (st : BmState) (n : Nat) : BmState :=
  let d := (List.range (st.l + 1)).foldl (fun a i => a ^^^ gfMul (st.c.getD i 0) (s.getD (n - i) 0)) 0
  if d = 0 then { st with m := st.m + 1 }
  else
    let k := gfMul d (gfInv st.bb)
    let c' := gfAddPoly st.c (List.replicate st.m 0 ++ st.b.map (gfMul k))
    if 2 * st.l ≤ n then { c := c', b := st.c, l := n + 1 - st.l, m := 1, bb := d }
    else { st with c := c', m := st.m + 1 }

/-- Result of decoding one codeword: the corrected word and the number of symbols corrected, or failure. -/
def rsDecode (w : List Nat) : Option (List Nat × Nat) :=
  let s := rsSyndromes w
  if s.all (· = 0) then some (w, 0)
  else
    let st := (List.range 48).foldl (bmStep s) { c := [1], b := [1], l := 0, m := 1, bb := 1 }
    let sigma := st.c.take (st.l + 1)
    if 24 < st.l then none
    else
      -- evaluator: S(x) sigma(x) mod x^48
      let omega := (List.range 48).map fun i =>
        (List.range (i + 1)).foldl (fun a j => a ^^^ gfMul (sigma.getD j 0) (s.getD (i - j) 0)) 0
      -- formal derivative of sigma: the odd coefficients, moved down by one
      let dsig := (List.range sigma.length).map fun i => if i % 2 = 0 then sigma.getD (i + 1) 0 else 0
      let len := w.length
      let fix := (List.range len).map fun i =>
        let p := len - 1 - i
        let xi := gfAlpha ((1023 - p % 1023) % 1023)
        if gfEvalLow sigma xi = 0 then
          gfMul (gfAlpha (p % 1023)) (gfMul (gfEvalLow omega xi) (gfInv (gfEvalLow dsig xi)))
        else 0
      let w' := List.zipWith (· ^^^ ·) w fix
      let count := (fix.filter (· ≠ 0)).length
      if count = st.l ∧ (rsSyndromes w').all (· = 0) then some (w', count) else none

end Sys2Proof.Machine
end

