-- ==== Sys2Proof/Config.lean ====
section
/-!
DEFINITION. What one IZ7128 fixes for itself (fuses, calibration) and the free values the spec leaves open. Every
constant is opaque: no proof can see its value, so a claim holds whatever it is.
-/
namespace Sys2Proof

/-- The fused unique device number (R501). Fused per part; no rule gives its value. -/
opaque Config.deviceNumber : BitVec 64

/-- The fused core voltage target in mV (R458, R479). -/
opaque Config.avsTargetMv : BitVec 10

/-- Calibrated base path delays LANE_TT_DBASE of a lane (R260, R283). -/
opaque Config.ttBaseDelay : Nat → BitVec 32

/-- Calibrated delay coefficients TIME_TSK of a lane die (R260, R261). -/
opaque Config.ttCoefficient : Nat → BitVec 32

/-- Free values drawn from the step counter `State.free`, at any width: nonces (R233, R245), values that the spec
leaves open. -/
opaque Config.freeBits : Nat → (w : Nat) → BitVec w

/-- The colouring a full take gets from the colourist: any colouring that meets R136 to R139 may result, and the spec
does not say which (R140, R157). Argument: the
connections in index order as (input lane, input slot, output lane, output slot); value: their colours in that order. -/
opaque Config.fullColouring : List (Nat × Nat × Nat × Nat) → List Nat

/-- The key-encryption key that the crypto engine derives from the device secret (spec 15, Keys). No rule gives the
derivation, and no master can read it. -/
opaque Config.keyEncryptionKey : BitVec 256

/-- The SHA-384 hash of the vendor key in the boot ROM (R434). -/
opaque Config.vendorKeyHash : BitVec 384

/-- The JEDEC manufacturer identity in IDCODE (R492). The spec does not give its number. -/
opaque Config.jedecIdentity : BitVec 11

/-- Size in bytes of the flash that the board fits (R387, R442). -/
opaque Config.flashSize : Nat

/-- Cyvagrim's MIPI manufacturer identifier in the PID (R468). The spec does not give its number. -/
opaque Config.mipiManufacturer : BitVec 15

/-- What GETCAPS returns after its first byte (R469). The spec says no more than which HDR modes are supported. -/
opaque Config.getcapsTail : BitVec 24

/-- How the GET forms of RSTACT code a time, given in milliseconds (R469). The spec gives the times and not their code. -/
opaque Config.resetTimeCode : Nat → BitVec 8

/-- The configuration state that the lead puts into a snapshot after its take image (R245). The spec does not say what it
holds. Argument: a counter, fresh for each snapshot. -/
opaque Config.snapshotConfig : Nat → List Byte

/-- Bytes of the retained tables of working SRAM whose layout is firmware's own (R391): by the counter of free values and the offset in SRAM. -/
opaque Config.retainedByte : Nat → Nat → Byte

end Sys2Proof
end

