-- ==== Sys2Proof/Machine/RegMap.lean ====
section
/-!
DEFINITION. The register map: every register of spec 18 (R497, R498) with its offset, reset value and the access code
of each bit (R9), and every field by the spec's own name. `R.X` is the offset of register X in the 64 MiB space, and
`F.X_Y` is field Y of register X. Lane registers take the lane number (128 is M0, 129 is M1, R75).
-/
namespace Sys2Proof.Machine
open Sys2Proof

/-- A field: the offset of its register, its lowest bit and its width. -/
structure Fld where
  reg : Nat
  lo : Nat
  width : Nat
  deriving DecidableEq, Repr

/-- A row of the register map: offset, number of instances and their spacing, reset value, and the bits of each
access code of R9. Bits in none of the masks are RO or reserved. -/
structure RegRow where
  off : Nat
  count : Nat
  stride : Nat
  reset : Nat
  rw : Nat
  w1c : Nat
  wk : Nat
  rc : Nat
  wo : Nat
  deriving DecidableEq, Repr

/-- Base of a lane's register window (R74, R75): L0 to L127, then M0 and M1. -/
def laneBase (n : Nat) : Nat := if n < 128 then 0x100000 + n * 0x1000 else 0x180000 + (n - 128) * 0x1000

def R.GCTL_ID : Nat := 0x0
def R.GCTL_DEVNUM_LO : Nat := 0x4
def R.GCTL_DEVNUM_HI : Nat := 0x8
def R.GCTL_STATE : Nat := 0x100
def R.GCTL_FENCE_CAUSE : Nat := 0x104
def R.GCTL_FENCE_CTL : Nat := 0x108
def R.GCTL_ALIVE : Nat := 0x10c
def R.GCTL_ALIVE_AGE : Nat := 0x110
def R.GCTL_KEY : Nat := 0x114
def R.GCTL_FENCE_LIVE : Nat := 0x118
def R.GCTL_IO_CTL : Nat := 0x200
def R.GCTL_ALERT_MASK : Nat := 0x204
def R.GCTL_ALERT_STAT : Nat := 0x208
def R.GCTL_AVS : Nat := 0x20c
def R.GCTL_STRAP : Nat := 0x210
def R.LANE_CTL (n : Nat) : Nat := laneBase n + 0x0
def R.LANE_STATE (n : Nat) : Nat := laneBase n + 0x4
def R.LANE_STATUS (n : Nat) : Nat := laneBase n + 0x8
def R.LANE_FLAGS (n : Nat) : Nat := laneBase n + 0xc
def R.LANE_TX_FFE (n : Nat) : Nat := laneBase n + 0x10
def R.LANE_TX_AMP (n : Nat) : Nat := laneBase n + 0x14
def R.LANE_EQ_CTL (n : Nat) : Nat := laneBase n + 0x20
def R.LANE_RICH_CTL (n : Nat) : Nat := laneBase n + 0x24
def R.LANE_CTLE (n : Nat) : Nat := laneBase n + 0x28
def R.LANE_TAP_LOAD (n : Nat) : Nat := laneBase n + 0x30
def R.LANE_SEED_INFO (n : Nat) : Nat := laneBase n + 0x34
def R.LANE_FFE_TAPS (n : Nat) (k : Nat) : Nat := laneBase n + 0x40 + 4 * k
def R.LANE_DFE_TAPS_0 (n : Nat) : Nat := laneBase n + 0x60
def R.LANE_DFE_TAPS_1 (n : Nat) : Nat := laneBase n + 0x64
def R.LANE_CDR_CTL (n : Nat) : Nat := laneBase n + 0x70
def R.LANE_FOFS (n : Nat) : Nat := laneBase n + 0x74
def R.LANE_FOFS_LIM (n : Nat) : Nat := laneBase n + 0x78
def R.LANE_SIG_CTL (n : Nat) : Nat := laneBase n + 0x80
def R.LANE_SNR (n : Nat) : Nat := laneBase n + 0x84
def R.LANE_SYNC_STATE (n : Nat) : Nat := laneBase n + 0x100
def R.LANE_DEFECT (n : Nat) : Nat := laneBase n + 0x104
def R.LANE_DEFECT_RPT (n : Nat) : Nat := laneBase n + 0x108
def R.LANE_DEFECT_FLAGS (n : Nat) : Nat := laneBase n + 0x10c
def R.LANE_UCB_CTL (n : Nat) : Nat := laneBase n + 0x110
def R.LANE_DEG_SET (n : Nat) : Nat := laneBase n + 0x114
def R.LANE_DEG_CLR (n : Nat) : Nat := laneBase n + 0x118
def R.LANE_TIM_CTL (n : Nat) : Nat := laneBase n + 0x11c
def R.LANE_SEQ_LAST (n : Nat) : Nat := laneBase n + 0x120
def R.LANE_HUNT_STAT (n : Nat) : Nat := laneBase n + 0x124
def R.LANE_TRACE_EXP (n : Nat) (k : Nat) : Nat := laneBase n + 0x140 + 4 * k
def R.LANE_TRACE_RX (n : Nat) (k : Nat) : Nat := laneBase n + 0x180 + 4 * k
def R.LANE_STEER_CTL (n : Nat) : Nat := laneBase n + 0x200
def R.LANE_ARRIVAL (n : Nat) : Nat := laneBase n + 0x204
def R.LANE_STEER_STAT (n : Nat) : Nat := laneBase n + 0x208
def R.LANE_STEER_ADV (n : Nat) : Nat := laneBase n + 0x20c
def R.LANE_TT_CTL (n : Nat) : Nat := laneBase n + 0x300
def R.LANE_TT_ASYM (n : Nat) : Nat := laneBase n + 0x304
def R.LANE_TT_OFS (n : Nat) : Nat := laneBase n + 0x308
def R.LANE_TT_DELAY (n : Nat) : Nat := laneBase n + 0x30c
def R.LANE_TT_STAT (n : Nat) : Nat := laneBase n + 0x310
def R.LANE_TT_DISC (n : Nat) : Nat := laneBase n + 0x314
def R.LANE_TT_ASYM_EST (n : Nat) : Nat := laneBase n + 0x318
def R.LANE_TT_DBASE (n : Nat) : Nat := laneBase n + 0x31c
def R.LANE_TT_PATHDLY (n : Nat) : Nat := laneBase n + 0x320
def R.MATE_HB_CTL : Nat := 0x182000
def R.MATE_HB_STAT : Nat := 0x182004
def R.MATE_HB_CLAIM : Nat := 0x182008
def R.MATE_HB_ERR : Nat := 0x18200c
def R.SSW_PAGE_STATE : Nat := 0x200000
def R.SSW_ACTIVE_TAKE : Nat := 0x200004
def R.SSW_STANDBY_TAKE : Nat := 0x200008
def R.SSW_SBY_PORT : Nat := 0x200010
def R.SSW_SBY_COLLIDE : Nat := 0x200014
def R.SSW_SBY_DIRTY : Nat := 0x200018
def R.SSW_COL_STATE : Nat := 0x200020
def R.SSW_COL_RESULT : Nat := 0x200024
def R.SSW_COL_DETAIL : Nat := 0x200028
def R.SSW_COL_TIME : Nat := 0x20002c
def R.SSW_FACET_SUMMARY : Nat := 0x200040
def R.SSW_RETIRE_CTL : Nat := 0x200044
def R.SSW_CONN_ERR : Nat := 0x200048
def R.SSW_KEY : Nat := 0x20004c
def R.SSW_FACET_BAR : Nat := 0x200050
def R.SSW_SPLICE_AT : Nat := 0x200080
def R.SSW_SPLICE_CTL : Nat := 0x200084
def R.SSW_SPLICE_STATE : Nat := 0x200088
def R.SSW_REEL_NOW : Nat := 0x20008c
def R.SSW_LAST_SPLICE : Nat := 0x200090
def R.SSW_SEAM_YIELD : Nat := 0x200094
def R.SSW_SEAM_IDLE : Nat := 0x200098
def R.SSW_SPLICE_SKIP : Nat := 0x20009c
def R.SSW_FACET_MAP (k : Nat) : Nat := 0x200400 + 0x4 * k
def R.SSW_FACET (k : Nat) : Nat := 0x201000 + 0x4 * k
def R.SSW_FACET_ERR (k : Nat) : Nat := 0x201800 + 0x4 * k
def R.CIRC_STATE : Nat := 0x300000
def R.CIRC_FDI : Nat := 0x300004
def R.CIRC_DAILIES_CTL : Nat := 0x300010
def R.CIRC_DAILIES_STAT : Nat := 0x300014
def R.CIRC_DAILIES_SEQ : Nat := 0x300018
def R.CIRC_POOL : Nat := 0x300020
def R.CIRC_MERGE (k : Nat) : Nat := 0x300400 + 0x4 * k
def R.CIRC_SKEW (k : Nat) : Nat := 0x300800 + 0x4 * k
def R.TIME_STATE : Nat := 0x400000
def R.TIME_DISC_LEFT : Nat := 0x400004
def R.TIME_INCR_LO : Nat := 0x400010
def R.TIME_INCR_HI : Nat := 0x400014
def R.TIME_ANCHOR_0 : Nat := 0x400020
def R.TIME_ANCHOR_1 : Nat := 0x400024
def R.TIME_ANCHOR_2 : Nat := 0x400028
def R.TIME_ANCHOR_3 : Nat := 0x40002c
def R.TIME_ANCHOR_4 : Nat := 0x400030
def R.TIME_STEP_CTL : Nat := 0x400040
def R.TIME_STEP_NS_LO : Nat := 0x400044
def R.TIME_STEP_NS_HI : Nat := 0x400048
def R.TIME_STEP_REEL : Nat := 0x40004c
def R.TIME_UTC : Nat := 0x400050
def R.TIME_TSK (k : Nat) : Nat := 0x400060 + 0x4 * k
def R.TIME_ASYM_CTL : Nat := 0x400070
def R.TIME_PTP_CTL : Nat := 0x400100
def R.TIME_PTP_STAT : Nat := 0x400104
def R.TIME_PTP_MAC_LO : Nat := 0x400108
def R.TIME_PTP_MAC_HI : Nat := 0x40010c
def R.TIME_PTP_RXDLY : Nat := 0x400110
def R.TIME_PTP_TXDLY : Nat := 0x400114
def R.TIME_TSQ_POP_0 : Nat := 0x400120
def R.TIME_TSQ_POP_1 : Nat := 0x400124
def R.TIME_TSQ_POP_2 : Nat := 0x400128
def R.TIME_TSQ_STAT : Nat := 0x40012c
def R.TIME_TSQ_OVERFLOW : Nat := 0x400130
def R.REF_STATE : Nat := 0x480000
def R.REF_CTL : Nat := 0x480004
def R.REF_SLOPE : Nat := 0x480008
def R.REF_BUILDOUT : Nat := 0x48000c
def R.REF_FREQ : Nat := 0x480010
def R.REF_QUAL_CTL : Nat := 0x480014
def R.REF_PTP_SAMPLE : Nat := 0x480018
def R.REF_HO_CTL : Nat := 0x480020
def R.REF_HO_STAT : Nat := 0x480024
def R.REF_HO_FREQ : Nat := 0x480028
def R.REF_HO_TEMP : Nat := 0x48002c
def R.REF_HO_MODEL : Nat := 0x480030
def R.REF_HO_RANGE : Nat := 0x480034
def R.REF_PPSO (k : Nat) : Nat := 0x480040 + 0x4 * k
def R.REF_PPSO_DLY (k : Nat) : Nat := 0x480048 + 0x4 * k
def R.REF_FOUT (k : Nat) : Nat := 0x480050 + 0x4 * k
def R.REF_CANDn_CTL (k : Nat) : Nat := 0x480100 + 0x20 * k
def R.REF_CANDn_BANDS (k : Nat) : Nat := 0x480104 + 0x20 * k
def R.REF_CANDn_BW (k : Nat) : Nat := 0x480108 + 0x20 * k
def R.REF_CANDn_STAT (k : Nat) : Nat := 0x48010c + 0x20 * k
def R.REF_CANDn_FOFS (k : Nat) : Nat := 0x480110 + 0x20 * k
def R.REF_CANDn_POFS (k : Nat) : Nat := 0x480114 + 0x20 * k
def R.REF_CANDn_DLY (k : Nat) : Nat := 0x480118 + 0x20 * k
def R.PAIR_CFG : Nat := 0x500000
def R.PAIR_ID : Nat := 0x500004
def R.PAIR_STATE : Nat := 0x500008
def R.PAIR_CLAIM : Nat := 0x50000c
def R.PAIR_MATE_CLAIM : Nat := 0x500010
def R.PAIR_EPOCH_FLOOR : Nat := 0x500014
def R.PAIR_ABSENT_MS : Nat := 0x500018
def R.PAIR_WIT_MASK (k : Nat) : Nat := 0x500020 + 0x4 * k
def R.PAIR_WIT_CTL : Nat := 0x500030
def R.PAIR_WIT_STAT : Nat := 0x500034
def R.PAIR_ORDER_CTL : Nat := 0x500040
def R.PAIR_ORDER_STAT : Nat := 0x500044
def R.PAIR_ORDER_REEL : Nat := 0x500048
def R.PAIR_DIGEST_STAT : Nat := 0x500050
def R.PAIR_DIGEST_REEL : Nat := 0x500054
def R.PAIR_CONT_STAT : Nat := 0x500060
def R.PAIR_CONT_ERR : Nat := 0x500064
def R.PAIR_MATE_DELAY : Nat := 0x500068
def R.PAIR_PROVE : Nat := 0x500070
def R.PAIR_KEY : Nat := 0x50007c
def R.HIF_STATE : Nat := 0x600000
def R.HIF_HOST_KICK : Nat := 0x600004
def R.HIF_POLL : Nat := 0x600008
def R.HIF_ERR : Nat := 0x60000c
def R.HIF_DB_ADDR_LO : Nat := 0x600010
def R.HIF_DB_ADDR_HI : Nat := 0x600014
def R.HIF_ST_ADDR_LO : Nat := 0x600018
def R.HIF_ST_ADDR_HI : Nat := 0x60001c
def R.HIF_DMA_CTL : Nat := 0x600020
def R.HIF_DMA_FAULTS : Nat := 0x600024
def R.HIF_EV_BASE_LO : Nat := 0x600028
def R.HIF_EV_BASE_HI : Nat := 0x60002c
def R.HIF_EV_CTL : Nat := 0x600030
def R.HIF_CMC_BASE_LO : Nat := 0x600038
def R.HIF_CMC_BASE_HI : Nat := 0x60003c
def R.HIF_CMC_CTL : Nat := 0x600040
def R.HIF_CR_BASE_LO (k : Nat) : Nat := 0x600100 + 0x10 * k
def R.HIF_CR_BASE_HI (k : Nat) : Nat := 0x600104 + 0x10 * k
def R.HIF_CR_CTL (k : Nat) : Nat := 0x600108 + 0x10 * k
def R.HIF_CR_STAT (k : Nat) : Nat := 0x60010c + 0x10 * k
def R.HIF_CQ_BASE_LO (k : Nat) : Nat := 0x600200 + 0x10 * k
def R.HIF_CQ_BASE_HI (k : Nat) : Nat := 0x600204 + 0x10 * k
def R.HIF_CQ_CTL (k : Nat) : Nat := 0x600208 + 0x10 * k
def R.HIF_CQ_STAT (k : Nat) : Nat := 0x60020c + 0x10 * k
def R.HIF_MSIX_ADDR_LO (k : Nat) : Nat := 0x608000 + 0x10 * k
def R.HIF_MSIX_ADDR_HI (k : Nat) : Nat := 0x608004 + 0x10 * k
def R.HIF_MSIX_DATA (k : Nat) : Nat := 0x608008 + 0x10 * k
def R.HIF_MSIX_VCTL (k : Nat) : Nat := 0x60800c + 0x10 * k
def R.HIF_MSIX_PBA (k : Nat) : Nat := 0x609000 + 0x4 * k
def R.I3CT_CTL : Nat := 0x680000
def R.I3CT_STAT : Nat := 0x680004
def R.I3CT_ERR : Nat := 0x680008
def R.I3CT_ERR2 : Nat := 0x68000c
def R.I3CT_MBX_CTL : Nat := 0x680010
def R.I3CT_MBX_STAT : Nat := 0x680014
def R.I3CT_MBX_UNIT : Nat := 0x680018
def R.I3CT_MBX_DESC (k : Nat) : Nat := 0x680040 + 0x4 * k
def R.I3CT_MBX_CPL (k : Nat) : Nat := 0x680080 + 0x4 * k
def R.I3CT_RCV_CTL : Nat := 0x6800c0
def R.I3CT_RCV_BYTES : Nat := 0x6800c4
def R.I3CT_RCV_STAT : Nat := 0x6800c8
def R.I3CT_BUF (k : Nat) : Nat := 0x681000 + 0x4 * k
def R.IC_CTL : Nat := 0x700000
def R.IC_STAT : Nat := 0x700004
def R.IC_SWI_SET : Nat := 0x700008
def R.IC_HOST_SET : Nat := 0x70000c
def R.IC_VTBASE (k : Nat) : Nat := 0x700010 + 0x4 * k
def R.IC_CORE (k : Nat) : Nat := 0x700020 + 0x4 * k
def R.IC_SRC (k : Nat) : Nat := 0x701000 + 0x4 * k
def R.IC_PEND (k : Nat) : Nat := 0x703000 + 0x4 * k
def R.MSS_BOOT : Nat := 0x800000
def R.MSS_CORE_CTL : Nat := 0x800004
def R.MSS_CORE_STAT : Nat := 0x800008
def R.MSS_RESTART : Nat := 0x80000c
def R.MSS_RESTART_CTL : Nat := 0x800010
def R.MSS_KEY : Nat := 0x800014
def R.MSS_SRAM_ERR : Nat := 0x800020
def R.MSS_SRAM_UE_ADDR : Nat := 0x800024
def R.MSS_MEM_ERR : Nat := 0x800028
def R.MSS_MTEST_CTL : Nat := 0x800030
def R.MSS_MTEST_STAT : Nat := 0x800034
def R.MSS_MTEST_REPAIR : Nat := 0x800038
def R.MSS_BM_WEIGHT_0 : Nat := 0x800040
def R.MSS_BM_WEIGHT_1 : Nat := 0x800044
def R.MSS_BM_ORPHAN : Nat := 0x800048
def R.MSS_BM_ORPHAN_ADDR : Nat := 0x80004c
def R.MSS_BM_DENIED : Nat := 0x800050
def R.MSS_BM_DENIED_ADDR : Nat := 0x800054
def R.MSS_PERF_CTL : Nat := 0x801000
def R.MSS_PERF_OVF (k : Nat) : Nat := 0x801100 + 0x20 * k
def R.MSS_TAG_CTL (k : Nat) : Nat := 0x801104 + 0x20 * k
def R.MSS_TAG_PERIOD (k : Nat) : Nat := 0x801108 + 0x20 * k
def R.MSS_TAG_STAT (k : Nat) : Nat := 0x80110c + 0x20 * k
def R.MSS_TAG_SAMPLE (k : Nat) : Nat := 0x801110 + 0x20 * k
def R.MSS_TAG_PC (k : Nat) : Nat := 0x801114 + 0x20 * k
def R.MSS_LC_STATE : Nat := 0x802000
def R.MSS_LC_CTL : Nat := 0x802004
def R.MSS_ZEROISE : Nat := 0x802008
def R.MSS_KEYLOAD_CTL : Nat := 0x80200c
def R.MSS_KEYLOAD (k : Nat) : Nat := 0x802010 + 0x4 * k
def R.MSS_FW_VERSION : Nat := 0x802040
def R.MSS_FW_TRIAL : Nat := 0x802044
def R.MSS_FW_ROLLBACK : Nat := 0x802048
def R.MSS_EVQ_STAT : Nat := 0x802050
def R.MSS_SENSE_STAT : Nat := 0x802080
def R.MSS_TEMP (k : Nat) : Nat := 0x802100 + 0x4 * k
def R.MSS_VOLT (k : Nat) : Nat := 0x802180 + 0x4 * k
def R.MSS_CURR (k : Nat) : Nat := 0x8021c0 + 0x4 * k
def R.TEST_LOOP (k : Nat) : Nat := 0x900000 + 0x100 * k
def R.TEST_PRBS_GEN (k : Nat) : Nat := 0x900004 + 0x100 * k
def R.TEST_PRBS_CHK (k : Nat) : Nat := 0x900008 + 0x100 * k
def R.TEST_PRBS_BITS_LO (k : Nat) : Nat := 0x900010 + 0x100 * k
def R.TEST_PRBS_BITS_HI (k : Nat) : Nat := 0x900014 + 0x100 * k
def R.TEST_PRBS_ERR_LO (k : Nat) : Nat := 0x900018 + 0x100 * k
def R.TEST_PRBS_ERR_HI (k : Nat) : Nat := 0x90001c + 0x100 * k

def F.GCTL_ID_PART : Fld := ⟨R.GCTL_ID, 16, 16⟩
def F.GCTL_ID_FAMILY : Fld := ⟨R.GCTL_ID, 8, 8⟩
def F.GCTL_ID_STEPPING : Fld := ⟨R.GCTL_ID, 0, 8⟩
def F.GCTL_DEVNUM_LO_NUM_LO : Fld := ⟨R.GCTL_DEVNUM_LO, 0, 32⟩
def F.GCTL_DEVNUM_HI_NUM_HI : Fld := ⟨R.GCTL_DEVNUM_HI, 0, 32⟩
def F.GCTL_STATE_MGMT_IN_RESET : Fld := ⟨R.GCTL_STATE, 4, 1⟩
def F.GCTL_STATE_FLYWHEEL : Fld := ⟨R.GCTL_STATE, 3, 1⟩
def F.GCTL_STATE_FENCED : Fld := ⟨R.GCTL_STATE, 2, 1⟩
def F.GCTL_STATE_THERMAL_WARN : Fld := ⟨R.GCTL_STATE, 1, 1⟩
def F.GCTL_FENCE_CAUSE_TAMPER : Fld := ⟨R.GCTL_FENCE_CAUSE, 8, 1⟩
def F.GCTL_FENCE_CAUSE_INTERNAL_LINK : Fld := ⟨R.GCTL_FENCE_CAUSE, 7, 1⟩
def F.GCTL_FENCE_CAUSE_MEMORY_STUCK : Fld := ⟨R.GCTL_FENCE_CAUSE, 6, 1⟩
def F.GCTL_FENCE_CAUSE_REFCLK_LOST : Fld := ⟨R.GCTL_FENCE_CAUSE, 5, 1⟩
def F.GCTL_FENCE_CAUSE_THERMAL : Fld := ⟨R.GCTL_FENCE_CAUSE, 4, 1⟩
def F.GCTL_FENCE_CAUSE_FLYWHEEL_TIMEOUT : Fld := ⟨R.GCTL_FENCE_CAUSE, 3, 1⟩
def F.GCTL_FENCE_CAUSE_FACETS_SHORT : Fld := ⟨R.GCTL_FENCE_CAUSE, 2, 1⟩
def F.GCTL_FENCE_CAUSE_COMMAND : Fld := ⟨R.GCTL_FENCE_CAUSE, 1, 1⟩
def F.GCTL_FENCE_CAUSE_START : Fld := ⟨R.GCTL_FENCE_CAUSE, 0, 1⟩
def F.GCTL_FENCE_CTL_FENCE_REQ : Fld := ⟨R.GCTL_FENCE_CTL, 0, 1⟩
def F.GCTL_ALIVE_ALIVE : Fld := ⟨R.GCTL_ALIVE, 0, 32⟩
def F.GCTL_ALIVE_AGE_AGE_MS : Fld := ⟨R.GCTL_ALIVE_AGE, 0, 16⟩
def F.GCTL_KEY_KEY : Fld := ⟨R.GCTL_KEY, 0, 32⟩
def F.GCTL_FENCE_LIVE_LIVE : Fld := ⟨R.GCTL_FENCE_LIVE, 0, 9⟩
def F.GCTL_IO_CTL_FREQIN_B_LVDS : Fld := ⟨R.GCTL_IO_CTL, 5, 1⟩
def F.GCTL_IO_CTL_FREQIN_A_LVDS : Fld := ⟨R.GCTL_IO_CTL, 4, 1⟩
def F.GCTL_IO_CTL_SLEW_GPIO : Fld := ⟨R.GCTL_IO_CTL, 2, 2⟩
def F.GCTL_IO_CTL_SLEW_I3C : Fld := ⟨R.GCTL_IO_CTL, 0, 2⟩
def F.GCTL_ALERT_MASK_EVENT_LOST : Fld := ⟨R.GCTL_ALERT_MASK, 9, 1⟩
def F.GCTL_ALERT_MASK_MAILBOX : Fld := ⟨R.GCTL_ALERT_MASK, 8, 1⟩
def F.GCTL_ALERT_MASK_MGMT_RESTART : Fld := ⟨R.GCTL_ALERT_MASK, 7, 1⟩
def F.GCTL_ALERT_MASK_HOLDOVER : Fld := ⟨R.GCTL_ALERT_MASK, 6, 1⟩
def F.GCTL_ALERT_MASK_PAIR_ISOLATED : Fld := ⟨R.GCTL_ALERT_MASK, 5, 1⟩
def F.GCTL_ALERT_MASK_BOOT : Fld := ⟨R.GCTL_ALERT_MASK, 4, 1⟩
def F.GCTL_ALERT_MASK_FENCE : Fld := ⟨R.GCTL_ALERT_MASK, 3, 1⟩
def F.GCTL_ALERT_MASK_TAMPER : Fld := ⟨R.GCTL_ALERT_MASK, 2, 1⟩
def F.GCTL_ALERT_MASK_VOLTAGE : Fld := ⟨R.GCTL_ALERT_MASK, 1, 1⟩
def F.GCTL_ALERT_MASK_THERMAL : Fld := ⟨R.GCTL_ALERT_MASK, 0, 1⟩
def F.GCTL_ALERT_STAT_EVENT_LOST : Fld := ⟨R.GCTL_ALERT_STAT, 9, 1⟩
def F.GCTL_ALERT_STAT_MAILBOX : Fld := ⟨R.GCTL_ALERT_STAT, 8, 1⟩
def F.GCTL_ALERT_STAT_MGMT_RESTART : Fld := ⟨R.GCTL_ALERT_STAT, 7, 1⟩
def F.GCTL_ALERT_STAT_HOLDOVER : Fld := ⟨R.GCTL_ALERT_STAT, 6, 1⟩
def F.GCTL_ALERT_STAT_PAIR_ISOLATED : Fld := ⟨R.GCTL_ALERT_STAT, 5, 1⟩
def F.GCTL_ALERT_STAT_BOOT : Fld := ⟨R.GCTL_ALERT_STAT, 4, 1⟩
def F.GCTL_ALERT_STAT_FENCE : Fld := ⟨R.GCTL_ALERT_STAT, 3, 1⟩
def F.GCTL_ALERT_STAT_TAMPER : Fld := ⟨R.GCTL_ALERT_STAT, 2, 1⟩
def F.GCTL_ALERT_STAT_VOLTAGE : Fld := ⟨R.GCTL_ALERT_STAT, 1, 1⟩
def F.GCTL_ALERT_STAT_THERMAL : Fld := ⟨R.GCTL_ALERT_STAT, 0, 1⟩
def F.GCTL_AVS_TARGET_MV : Fld := ⟨R.GCTL_AVS, 16, 10⟩
def F.GCTL_AVS_SET_MV : Fld := ⟨R.GCTL_AVS, 0, 10⟩
def F.GCTL_STRAP_STRAP : Fld := ⟨R.GCTL_STRAP, 0, 4⟩
def F.LANE_CTL_AUTO_QUIET (n : Nat) : Fld := ⟨R.LANE_CTL n, 15, 1⟩
def F.LANE_CTL_CHASSIS (n : Nat) : Fld := ⟨R.LANE_CTL n, 14, 1⟩
def F.LANE_CTL_RX_PRECODE (n : Nat) : Fld := ⟨R.LANE_CTL n, 13, 1⟩
def F.LANE_CTL_TX_PRECODE (n : Nat) : Fld := ⟨R.LANE_CTL n, 12, 1⟩
def F.LANE_CTL_RX_PSTATE (n : Nat) : Fld := ⟨R.LANE_CTL n, 8, 3⟩
def F.LANE_CTL_TX_PSTATE (n : Nat) : Fld := ⟨R.LANE_CTL n, 4, 3⟩
def F.LANE_CTL_EN (n : Nat) : Fld := ⟨R.LANE_CTL n, 0, 1⟩
def F.LANE_STATE_START_MODE (n : Nat) : Fld := ⟨R.LANE_STATE n, 17, 2⟩
def F.LANE_STATE_HELD (n : Nat) : Fld := ⟨R.LANE_STATE n, 16, 1⟩
def F.LANE_STATE_RX_STATE (n : Nat) : Fld := ⟨R.LANE_STATE n, 8, 3⟩
def F.LANE_STATE_TX_STATE (n : Nat) : Fld := ⟨R.LANE_STATE n, 4, 3⟩
def F.LANE_STATE_LANE (n : Nat) : Fld := ⟨R.LANE_STATE n, 0, 3⟩
def F.LANE_STATUS_FREEZE (n : Nat) : Fld := ⟨R.LANE_STATUS n, 7, 1⟩
def F.LANE_STATUS_FAST_CONV (n : Nat) : Fld := ⟨R.LANE_STATUS n, 6, 1⟩
def F.LANE_STATUS_FOFS_ALARM (n : Nat) : Fld := ⟨R.LANE_STATUS n, 5, 1⟩
def F.LANE_STATUS_LOS_EXPECTED (n : Nat) : Fld := ⟨R.LANE_STATUS n, 4, 1⟩
def F.LANE_STATUS_LOL (n : Nat) : Fld := ⟨R.LANE_STATUS n, 3, 1⟩
def F.LANE_STATUS_LOS (n : Nat) : Fld := ⟨R.LANE_STATUS n, 2, 1⟩
def F.LANE_STATUS_RICH (n : Nat) : Fld := ⟨R.LANE_STATUS n, 1, 1⟩
def F.LANE_FLAGS_PSTATE_REFUSED (n : Nat) : Fld := ⟨R.LANE_FLAGS n, 7, 1⟩
def F.LANE_FLAGS_FFE_REFUSED (n : Nat) : Fld := ⟨R.LANE_FLAGS n, 6, 1⟩
def F.LANE_FLAGS_TAP_LOAD_REFUSED (n : Nat) : Fld := ⟨R.LANE_FLAGS n, 5, 1⟩
def F.LANE_FLAGS_FOFS_ALARM (n : Nat) : Fld := ⟨R.LANE_FLAGS n, 4, 1⟩
def F.LANE_FLAGS_FREEZE (n : Nat) : Fld := ⟨R.LANE_FLAGS n, 3, 1⟩
def F.LANE_FLAGS_LOL (n : Nat) : Fld := ⟨R.LANE_FLAGS n, 2, 1⟩
def F.LANE_FLAGS_LOS (n : Nat) : Fld := ⟨R.LANE_FLAGS n, 1, 1⟩
def F.LANE_TX_FFE_MAIN (n : Nat) : Fld := ⟨R.LANE_TX_FFE n, 24, 7⟩
def F.LANE_TX_FFE_PRE3 (n : Nat) : Fld := ⟨R.LANE_TX_FFE n, 18, 6⟩
def F.LANE_TX_FFE_PRE2 (n : Nat) : Fld := ⟨R.LANE_TX_FFE n, 12, 6⟩
def F.LANE_TX_FFE_PRE1 (n : Nat) : Fld := ⟨R.LANE_TX_FFE n, 6, 6⟩
def F.LANE_TX_FFE_POST1 (n : Nat) : Fld := ⟨R.LANE_TX_FFE n, 0, 6⟩
def F.LANE_TX_AMP_AMP (n : Nat) : Fld := ⟨R.LANE_TX_AMP n, 0, 4⟩
def F.LANE_EQ_CTL_CURSOR (n : Nat) : Fld := ⟨R.LANE_EQ_CTL n, 16, 4⟩
def F.LANE_EQ_CTL_WIN (n : Nat) : Fld := ⟨R.LANE_EQ_CTL n, 12, 4⟩
def F.LANE_EQ_CTL_ADAPT (n : Nat) : Fld := ⟨R.LANE_EQ_CTL n, 11, 1⟩
def F.LANE_EQ_CTL_CTLE_MANUAL (n : Nat) : Fld := ⟨R.LANE_EQ_CTL n, 10, 1⟩
def F.LANE_RICH_CTL_TRANS_MIN (n : Nat) : Fld := ⟨R.LANE_RICH_CTL n, 16, 10⟩
def F.LANE_RICH_CTL_LEVEL_MIN (n : Nat) : Fld := ⟨R.LANE_RICH_CTL n, 0, 8⟩
def F.LANE_CTLE_CODE (n : Nat) : Fld := ⟨R.LANE_CTLE n, 0, 5⟩
def F.LANE_TAP_LOAD_SET (n : Nat) : Fld := ⟨R.LANE_TAP_LOAD n, 31, 1⟩
def F.LANE_TAP_LOAD_BANK (n : Nat) : Fld := ⟨R.LANE_TAP_LOAD n, 29, 2⟩
def F.LANE_TAP_LOAD_INDEX (n : Nat) : Fld := ⟨R.LANE_TAP_LOAD n, 24, 5⟩
def F.LANE_TAP_LOAD_VALUE (n : Nat) : Fld := ⟨R.LANE_TAP_LOAD n, 0, 10⟩
def F.LANE_SEED_INFO_VALID (n : Nat) : Fld := ⟨R.LANE_SEED_INFO n, 31, 1⟩
def F.LANE_SEED_INFO_LOAD_CLASS (n : Nat) : Fld := ⟨R.LANE_SEED_INFO n, 16, 2⟩
def F.LANE_SEED_INFO_TEMP (n : Nat) : Fld := ⟨R.LANE_SEED_INFO n, 0, 16⟩
def F.LANE_FFE_TAPS_TAP_HI (n : Nat) (k : Nat) : Fld := ⟨R.LANE_FFE_TAPS n k, 20, 10⟩
def F.LANE_FFE_TAPS_TAP_MID (n : Nat) (k : Nat) : Fld := ⟨R.LANE_FFE_TAPS n k, 10, 10⟩
def F.LANE_FFE_TAPS_TAP_LO (n : Nat) (k : Nat) : Fld := ⟨R.LANE_FFE_TAPS n k, 0, 10⟩
def F.LANE_DFE_TAPS_0_TAP3 (n : Nat) : Fld := ⟨R.LANE_DFE_TAPS_0 n, 24, 8⟩
def F.LANE_DFE_TAPS_0_TAP2 (n : Nat) : Fld := ⟨R.LANE_DFE_TAPS_0 n, 16, 8⟩
def F.LANE_DFE_TAPS_0_TAP1 (n : Nat) : Fld := ⟨R.LANE_DFE_TAPS_0 n, 8, 8⟩
def F.LANE_DFE_TAPS_0_TAP0 (n : Nat) : Fld := ⟨R.LANE_DFE_TAPS_0 n, 0, 8⟩
def F.LANE_DFE_TAPS_1_TAP5 (n : Nat) : Fld := ⟨R.LANE_DFE_TAPS_1 n, 8, 8⟩
def F.LANE_DFE_TAPS_1_TAP4 (n : Nat) : Fld := ⟨R.LANE_DFE_TAPS_1 n, 0, 8⟩
def F.LANE_CDR_CTL_BW (n : Nat) : Fld := ⟨R.LANE_CDR_CTL n, 0, 2⟩
def F.LANE_FOFS_FOFS (n : Nat) : Fld := ⟨R.LANE_FOFS n, 0, 32⟩
def F.LANE_FOFS_LIM_LIM (n : Nat) : Fld := ⟨R.LANE_FOFS_LIM n, 0, 16⟩
def F.LANE_SIG_CTL_LOS_TH (n : Nat) : Fld := ⟨R.LANE_SIG_CTL n, 0, 4⟩
def F.LANE_SNR_SNR (n : Nat) : Fld := ⟨R.LANE_SNR n, 0, 10⟩
def F.LANE_SYNC_STATE_STATE (n : Nat) : Fld := ⟨R.LANE_SYNC_STATE n, 30, 2⟩
def F.LANE_SYNC_STATE_BARRED (n : Nat) : Fld := ⟨R.LANE_SYNC_STATE n, 29, 1⟩
def F.LANE_SYNC_STATE_LOA_KIND (n : Nat) : Fld := ⟨R.LANE_SYNC_STATE n, 28, 1⟩
def F.LANE_SYNC_STATE_CANDIDATES (n : Nat) : Fld := ⟨R.LANE_SYNC_STATE n, 24, 4⟩
def F.LANE_DEFECT_LOS (n : Nat) : Fld := ⟨R.LANE_DEFECT n, 8, 1⟩
def F.LANE_DEFECT_LOL (n : Nat) : Fld := ⟨R.LANE_DEFECT n, 7, 1⟩
def F.LANE_DEFECT_LOA (n : Nat) : Fld := ⟨R.LANE_DEFECT n, 6, 1⟩
def F.LANE_DEFECT_UCB (n : Nat) : Fld := ⟨R.LANE_DEFECT n, 5, 1⟩
def F.LANE_DEFECT_SEQ (n : Nat) : Fld := ⟨R.LANE_DEFECT n, 4, 1⟩
def F.LANE_DEFECT_TIM (n : Nat) : Fld := ⟨R.LANE_DEFECT n, 3, 1⟩
def F.LANE_DEFECT_FDI_RX (n : Nat) : Fld := ⟨R.LANE_DEFECT n, 2, 1⟩
def F.LANE_DEFECT_BDI_RX (n : Nat) : Fld := ⟨R.LANE_DEFECT n, 1, 1⟩
def F.LANE_DEFECT_DEG (n : Nat) : Fld := ⟨R.LANE_DEFECT n, 0, 1⟩
def F.LANE_DEFECT_RPT_LOS (n : Nat) : Fld := ⟨R.LANE_DEFECT_RPT n, 8, 1⟩
def F.LANE_DEFECT_RPT_LOL (n : Nat) : Fld := ⟨R.LANE_DEFECT_RPT n, 7, 1⟩
def F.LANE_DEFECT_RPT_LOA (n : Nat) : Fld := ⟨R.LANE_DEFECT_RPT n, 6, 1⟩
def F.LANE_DEFECT_RPT_UCB (n : Nat) : Fld := ⟨R.LANE_DEFECT_RPT n, 5, 1⟩
def F.LANE_DEFECT_RPT_SEQ (n : Nat) : Fld := ⟨R.LANE_DEFECT_RPT n, 4, 1⟩
def F.LANE_DEFECT_RPT_TIM (n : Nat) : Fld := ⟨R.LANE_DEFECT_RPT n, 3, 1⟩
def F.LANE_DEFECT_RPT_FDI_RX (n : Nat) : Fld := ⟨R.LANE_DEFECT_RPT n, 2, 1⟩
def F.LANE_DEFECT_RPT_BDI_RX (n : Nat) : Fld := ⟨R.LANE_DEFECT_RPT n, 1, 1⟩
def F.LANE_DEFECT_RPT_DEG (n : Nat) : Fld := ⟨R.LANE_DEFECT_RPT n, 0, 1⟩
def F.LANE_DEFECT_FLAGS_LOS (n : Nat) : Fld := ⟨R.LANE_DEFECT_FLAGS n, 8, 1⟩
def F.LANE_DEFECT_FLAGS_LOL (n : Nat) : Fld := ⟨R.LANE_DEFECT_FLAGS n, 7, 1⟩
def F.LANE_DEFECT_FLAGS_LOA (n : Nat) : Fld := ⟨R.LANE_DEFECT_FLAGS n, 6, 1⟩
def F.LANE_DEFECT_FLAGS_UCB (n : Nat) : Fld := ⟨R.LANE_DEFECT_FLAGS n, 5, 1⟩
def F.LANE_DEFECT_FLAGS_SEQ (n : Nat) : Fld := ⟨R.LANE_DEFECT_FLAGS n, 4, 1⟩
def F.LANE_DEFECT_FLAGS_TIM (n : Nat) : Fld := ⟨R.LANE_DEFECT_FLAGS n, 3, 1⟩
def F.LANE_DEFECT_FLAGS_FDI_RX (n : Nat) : Fld := ⟨R.LANE_DEFECT_FLAGS n, 2, 1⟩
def F.LANE_DEFECT_FLAGS_BDI_RX (n : Nat) : Fld := ⟨R.LANE_DEFECT_FLAGS n, 1, 1⟩
def F.LANE_DEFECT_FLAGS_DEG (n : Nat) : Fld := ⟨R.LANE_DEFECT_FLAGS n, 0, 1⟩
def F.LANE_UCB_CTL_CLR (n : Nat) : Fld := ⟨R.LANE_UCB_CTL n, 16, 16⟩
def F.LANE_UCB_CTL_SET (n : Nat) : Fld := ⟨R.LANE_UCB_CTL n, 0, 16⟩
def F.LANE_DEG_SET_SET (n : Nat) : Fld := ⟨R.LANE_DEG_SET n, 0, 32⟩
def F.LANE_DEG_CLR_CLR (n : Nat) : Fld := ⟨R.LANE_DEG_CLR n, 0, 32⟩
def F.LANE_TIM_CTL_MODE (n : Nat) : Fld := ⟨R.LANE_TIM_CTL n, 0, 2⟩
def F.LANE_SEQ_LAST_SEQ (n : Nat) : Fld := ⟨R.LANE_SEQ_LAST n, 0, 32⟩
def F.LANE_HUNT_STAT_HUNT_ENTRIES (n : Nat) : Fld := ⟨R.LANE_HUNT_STAT n, 16, 16⟩
def F.LANE_HUNT_STAT_CAND_DISCARDED (n : Nat) : Fld := ⟨R.LANE_HUNT_STAT n, 0, 16⟩
def F.LANE_TRACE_EXP_BYTE3 (n : Nat) (k : Nat) : Fld := ⟨R.LANE_TRACE_EXP n k, 24, 8⟩
def F.LANE_TRACE_EXP_BYTE2 (n : Nat) (k : Nat) : Fld := ⟨R.LANE_TRACE_EXP n k, 16, 8⟩
def F.LANE_TRACE_EXP_BYTE1 (n : Nat) (k : Nat) : Fld := ⟨R.LANE_TRACE_EXP n k, 8, 8⟩
def F.LANE_TRACE_EXP_BYTE0 (n : Nat) (k : Nat) : Fld := ⟨R.LANE_TRACE_EXP n k, 0, 8⟩
def F.LANE_TRACE_RX_BYTE3 (n : Nat) (k : Nat) : Fld := ⟨R.LANE_TRACE_RX n k, 24, 8⟩
def F.LANE_TRACE_RX_BYTE2 (n : Nat) (k : Nat) : Fld := ⟨R.LANE_TRACE_RX n k, 16, 8⟩
def F.LANE_TRACE_RX_BYTE1 (n : Nat) (k : Nat) : Fld := ⟨R.LANE_TRACE_RX n k, 8, 8⟩
def F.LANE_TRACE_RX_BYTE0 (n : Nat) (k : Nat) : Fld := ⟨R.LANE_TRACE_RX n k, 0, 8⟩
def F.LANE_STEER_CTL_EN (n : Nat) : Fld := ⟨R.LANE_STEER_CTL n, 31, 1⟩
def F.LANE_STEER_CTL_TOL (n : Nat) : Fld := ⟨R.LANE_STEER_CTL n, 16, 8⟩
def F.LANE_STEER_CTL_GUARD (n : Nat) : Fld := ⟨R.LANE_STEER_CTL n, 0, 10⟩
def F.LANE_ARRIVAL_WAIT (n : Nat) : Fld := ⟨R.LANE_ARRIVAL n, 0, 32⟩
def F.LANE_STEER_STAT_STATE (n : Nat) : Fld := ⟨R.LANE_STEER_STAT n, 29, 3⟩
def F.LANE_STEER_STAT_ACK (n : Nat) : Fld := ⟨R.LANE_STEER_STAT n, 8, 8⟩
def F.LANE_STEER_STAT_ID (n : Nat) : Fld := ⟨R.LANE_STEER_STAT n, 0, 8⟩
def F.LANE_STEER_ADV_ADV (n : Nat) : Fld := ⟨R.LANE_STEER_ADV n, 0, 32⟩
def F.LANE_TT_CTL_EN (n : Nat) : Fld := ⟨R.LANE_TT_CTL n, 31, 1⟩
def F.LANE_TT_CTL_MATE_WATCH (n : Nat) : Fld := ⟨R.LANE_TT_CTL n, 30, 1⟩
def F.LANE_TT_CTL_PAIR_WATCH (n : Nat) : Fld := ⟨R.LANE_TT_CTL n, 29, 1⟩
def F.LANE_TT_CTL_SUSPECT_CLR (n : Nat) : Fld := ⟨R.LANE_TT_CTL n, 28, 1⟩
def F.LANE_TT_CTL_PARTNER (n : Nat) : Fld := ⟨R.LANE_TT_CTL n, 16, 7⟩
def F.LANE_TT_CTL_MATE_LANE (n : Nat) : Fld := ⟨R.LANE_TT_CTL n, 0, 7⟩
def F.LANE_TT_ASYM_ASYM (n : Nat) : Fld := ⟨R.LANE_TT_ASYM n, 0, 32⟩
def F.LANE_TT_OFS_OFS (n : Nat) : Fld := ⟨R.LANE_TT_OFS n, 0, 32⟩
def F.LANE_TT_DELAY_DELAY (n : Nat) : Fld := ⟨R.LANE_TT_DELAY n, 0, 32⟩
def F.LANE_TT_STAT_STATE (n : Nat) : Fld := ⟨R.LANE_TT_STAT n, 29, 3⟩
def F.LANE_TT_STAT_FAR_TRACEABLE (n : Nat) : Fld := ⟨R.LANE_TT_STAT n, 28, 1⟩
def F.LANE_TT_STAT_FAR_HOLDOVER (n : Nat) : Fld := ⟨R.LANE_TT_STAT n, 27, 1⟩
def F.LANE_TT_STAT_FAR_FREE_RUN (n : Nat) : Fld := ⟨R.LANE_TT_STAT n, 26, 1⟩
def F.LANE_TT_STAT_MATE_PATH_SUSPECT (n : Nat) : Fld := ⟨R.LANE_TT_STAT n, 25, 1⟩
def F.LANE_TT_STAT_FAR_EPOCH (n : Nat) : Fld := ⟨R.LANE_TT_STAT n, 16, 8⟩
def F.LANE_TT_DISC_DELAY (n : Nat) : Fld := ⟨R.LANE_TT_DISC n, 16, 16⟩
def F.LANE_TT_DISC_OTHER (n : Nat) : Fld := ⟨R.LANE_TT_DISC n, 0, 16⟩
def F.LANE_TT_ASYM_EST_EST (n : Nat) : Fld := ⟨R.LANE_TT_ASYM_EST n, 0, 32⟩
def F.LANE_TT_DBASE_RX_BASE (n : Nat) : Fld := ⟨R.LANE_TT_DBASE n, 16, 16⟩
def F.LANE_TT_DBASE_TX_BASE (n : Nat) : Fld := ⟨R.LANE_TT_DBASE n, 0, 16⟩
def F.LANE_TT_PATHDLY_TXDLY (n : Nat) : Fld := ⟨R.LANE_TT_PATHDLY n, 16, 16⟩
def F.LANE_TT_PATHDLY_RXDLY (n : Nat) : Fld := ⟨R.LANE_TT_PATHDLY n, 0, 16⟩
def F.MATE_HB_CTL_RX_EN : Fld := ⟨R.MATE_HB_CTL, 1, 1⟩
def F.MATE_HB_CTL_TX_EN : Fld := ⟨R.MATE_HB_CTL, 0, 1⟩
def F.MATE_HB_STAT_LOCKED : Fld := ⟨R.MATE_HB_STAT, 31, 1⟩
def F.MATE_HB_STAT_FLAGS : Fld := ⟨R.MATE_HB_STAT, 16, 8⟩
def F.MATE_HB_STAT_ACK_TAG : Fld := ⟨R.MATE_HB_STAT, 8, 8⟩
def F.MATE_HB_CLAIM_CLAIM : Fld := ⟨R.MATE_HB_CLAIM, 0, 32⟩
def F.MATE_HB_ERR_CRC_ERR : Fld := ⟨R.MATE_HB_ERR, 16, 16⟩
def F.MATE_HB_ERR_LOCK_LOSS : Fld := ⟨R.MATE_HB_ERR, 0, 16⟩
def F.SSW_PAGE_STATE_ACTIVE_SET : Fld := ⟨R.SSW_PAGE_STATE, 8, 1⟩
def F.SSW_PAGE_STATE_SBY : Fld := ⟨R.SSW_PAGE_STATE, 0, 4⟩
def F.SSW_ACTIVE_TAKE_TAKE : Fld := ⟨R.SSW_ACTIVE_TAKE, 0, 32⟩
def F.SSW_STANDBY_TAKE_TAKE : Fld := ⟨R.SSW_STANDBY_TAKE, 0, 32⟩
def F.SSW_SBY_PORT_CONTINUITY_EN : Fld := ⟨R.SSW_SBY_PORT, 1, 1⟩
def F.SSW_SBY_PORT_COLOURIST_EN : Fld := ⟨R.SSW_SBY_PORT, 0, 1⟩
def F.SSW_SBY_COLLIDE_COUNT : Fld := ⟨R.SSW_SBY_COLLIDE, 0, 32⟩
def F.SSW_SBY_DIRTY_DIRTY : Fld := ⟨R.SSW_SBY_DIRTY, 0, 20⟩
def F.SSW_COL_STATE_RESYNC : Fld := ⟨R.SSW_COL_STATE, 8, 1⟩
def F.SSW_COL_STATE_REPAIR : Fld := ⟨R.SSW_COL_STATE, 7, 1⟩
def F.SSW_COL_STATE_HOST_JOB : Fld := ⟨R.SSW_COL_STATE, 0, 4⟩
def F.SSW_COL_RESULT_CODE : Fld := ⟨R.SSW_COL_RESULT, 24, 8⟩
def F.SSW_COL_RESULT_BEAT : Fld := ⟨R.SSW_COL_RESULT, 0, 11⟩
def F.SSW_COL_DETAIL_DETAIL : Fld := ⟨R.SSW_COL_DETAIL, 0, 32⟩
def F.SSW_COL_TIME_TIME : Fld := ⟨R.SSW_COL_TIME, 0, 32⟩
def F.SSW_FACET_SUMMARY_USABLE : Fld := ⟨R.SSW_FACET_SUMMARY, 18, 9⟩
def F.SSW_FACET_SUMMARY_SPARE : Fld := ⟨R.SSW_FACET_SUMMARY, 9, 9⟩
def F.SSW_FACET_SUMMARY_ISOLATED : Fld := ⟨R.SSW_FACET_SUMMARY, 0, 9⟩
def F.SSW_RETIRE_CTL_AUTO : Fld := ⟨R.SSW_RETIRE_CTL, 31, 1⟩
def F.SSW_RETIRE_CTL_UE_LIMIT : Fld := ⟨R.SSW_RETIRE_CTL, 24, 4⟩
def F.SSW_RETIRE_CTL_CE_LIMIT : Fld := ⟨R.SSW_RETIRE_CTL, 0, 16⟩
def F.SSW_CONN_ERR_UE : Fld := ⟨R.SSW_CONN_ERR, 16, 16⟩
def F.SSW_CONN_ERR_CE : Fld := ⟨R.SSW_CONN_ERR, 0, 16⟩
def F.SSW_KEY_KEY : Fld := ⟨R.SSW_KEY, 0, 32⟩
def F.SSW_FACET_BAR_FACET : Fld := ⟨R.SSW_FACET_BAR, 0, 9⟩
def F.SSW_SPLICE_AT_REEL : Fld := ⟨R.SSW_SPLICE_AT, 0, 32⟩
def F.SSW_SPLICE_CTL_CANCEL : Fld := ⟨R.SSW_SPLICE_CTL, 1, 1⟩
def F.SSW_SPLICE_CTL_ARM : Fld := ⟨R.SSW_SPLICE_CTL, 0, 1⟩
def F.SSW_SPLICE_STATE_RESULT : Fld := ⟨R.SSW_SPLICE_STATE, 8, 8⟩
def F.SSW_SPLICE_STATE_STATE : Fld := ⟨R.SSW_SPLICE_STATE, 0, 2⟩
def F.SSW_REEL_NOW_REEL : Fld := ⟨R.SSW_REEL_NOW, 0, 32⟩
def F.SSW_LAST_SPLICE_REEL : Fld := ⟨R.SSW_LAST_SPLICE, 0, 32⟩
def F.SSW_SEAM_YIELD_COUNT : Fld := ⟨R.SSW_SEAM_YIELD, 0, 19⟩
def F.SSW_SEAM_IDLE_COUNT : Fld := ⟨R.SSW_SEAM_IDLE, 0, 19⟩
def F.SSW_SPLICE_SKIP_COUNT : Fld := ⟨R.SSW_SPLICE_SKIP, 0, 16⟩
def F.SSW_FACET_MAP_FACET_HI (k : Nat) : Fld := ⟨R.SSW_FACET_MAP k, 16, 9⟩
def F.SSW_FACET_MAP_FACET_LO (k : Nat) : Fld := ⟨R.SSW_FACET_MAP k, 0, 9⟩
def F.SSW_FACET_STATE (k : Nat) : Fld := ⟨R.SSW_FACET k, 29, 3⟩
def F.SSW_FACET_COLOUR (k : Nat) : Fld := ⟨R.SSW_FACET k, 21, 8⟩
def F.SSW_FACET_TEST_HOURS (k : Nat) : Fld := ⟨R.SSW_FACET k, 16, 5⟩
def F.SSW_FACET_ERR_CE_WIN (k : Nat) : Fld := ⟨R.SSW_FACET_ERR k, 16, 16⟩
def F.SSW_FACET_ERR_UE_WIN (k : Nat) : Fld := ⟨R.SSW_FACET_ERR k, 8, 8⟩
def F.CIRC_STATE_PRESENT : Fld := ⟨R.CIRC_STATE, 0, 17⟩
def F.CIRC_FDI_COUNT : Fld := ⟨R.CIRC_FDI, 0, 17⟩
def F.CIRC_DAILIES_CTL_PERIODIC : Fld := ⟨R.CIRC_DAILIES_CTL, 31, 1⟩
def F.CIRC_DAILIES_CTL_RELEASE : Fld := ⟨R.CIRC_DAILIES_CTL, 30, 1⟩
def F.CIRC_DAILIES_CTL_INTERVAL : Fld := ⟨R.CIRC_DAILIES_CTL, 0, 12⟩
def F.CIRC_DAILIES_STAT_STATE : Fld := ⟨R.CIRC_DAILIES_STAT, 30, 2⟩
def F.CIRC_DAILIES_STAT_DEFERRED : Fld := ⟨R.CIRC_DAILIES_STAT, 29, 1⟩
def F.CIRC_DAILIES_SEQ_SEQ : Fld := ⟨R.CIRC_DAILIES_SEQ, 0, 32⟩
def F.CIRC_POOL_FILLING : Fld := ⟨R.CIRC_POOL, 16, 9⟩
def F.CIRC_POOL_IN_USE : Fld := ⟨R.CIRC_POOL, 0, 9⟩
def F.CIRC_MERGE_STATE (k : Nat) : Fld := ⟨R.CIRC_MERGE k, 29, 3⟩
def F.CIRC_MERGE_IN_STEP (k : Nat) : Fld := ⟨R.CIRC_MERGE k, 28, 1⟩
def F.CIRC_MERGE_FILLING (k : Nat) : Fld := ⟨R.CIRC_MERGE k, 27, 1⟩
def F.CIRC_MERGE_DELAY (k : Nat) : Fld := ⟨R.CIRC_MERGE k, 24, 3⟩
def F.CIRC_MERGE_PARTNER (k : Nat) : Fld := ⟨R.CIRC_MERGE k, 16, 7⟩
def F.CIRC_MERGE_REANCHORS (k : Nat) : Fld := ⟨R.CIRC_MERGE k, 0, 16⟩
def F.CIRC_SKEW_SKEW (k : Nat) : Fld := ⟨R.CIRC_SKEW k, 0, 32⟩
def F.TIME_STATE_STEP_EPOCH : Fld := ⟨R.TIME_STATE, 24, 8⟩
def F.TIME_STATE_TIME_DISC : Fld := ⟨R.TIME_STATE, 23, 1⟩
def F.TIME_STATE_STEP_PENDING : Fld := ⟨R.TIME_STATE, 22, 1⟩
def F.TIME_STATE_XO_SYNTH : Fld := ⟨R.TIME_STATE, 4, 1⟩
def F.TIME_STATE_TRACEABLE : Fld := ⟨R.TIME_STATE, 3, 1⟩
def F.TIME_STATE_HOLDOVER : Fld := ⟨R.TIME_STATE, 2, 1⟩
def F.TIME_STATE_FREE_RUN : Fld := ⟨R.TIME_STATE, 1, 1⟩
def F.TIME_DISC_LEFT_REELS : Fld := ⟨R.TIME_DISC_LEFT, 0, 19⟩
def F.TIME_INCR_LO_FRAC : Fld := ⟨R.TIME_INCR_LO, 0, 32⟩
def F.TIME_INCR_HI_INT : Fld := ⟨R.TIME_INCR_HI, 0, 8⟩
def F.TIME_ANCHOR_0_NS32 : Fld := ⟨R.TIME_ANCHOR_0, 0, 32⟩
def F.TIME_ANCHOR_1_STEP_EPOCH : Fld := ⟨R.TIME_ANCHOR_1, 24, 8⟩
def F.TIME_ANCHOR_1_FRAC : Fld := ⟨R.TIME_ANCHOR_1, 0, 8⟩
def F.TIME_ANCHOR_2_SEC_LO : Fld := ⟨R.TIME_ANCHOR_2, 0, 32⟩
def F.TIME_ANCHOR_3_SEC_HI : Fld := ⟨R.TIME_ANCHOR_3, 0, 16⟩
def F.TIME_ANCHOR_4_NS : Fld := ⟨R.TIME_ANCHOR_4, 0, 30⟩
def F.TIME_STEP_CTL_PERMIT : Fld := ⟨R.TIME_STEP_CTL, 30, 2⟩
def F.TIME_STEP_CTL_CONFIRM : Fld := ⟨R.TIME_STEP_CTL, 20, 8⟩
def F.TIME_STEP_CTL_THRESH : Fld := ⟨R.TIME_STEP_CTL, 0, 20⟩
def F.TIME_STEP_NS_LO_NS_LO : Fld := ⟨R.TIME_STEP_NS_LO, 0, 32⟩
def F.TIME_STEP_NS_HI_NS_HI : Fld := ⟨R.TIME_STEP_NS_HI, 0, 32⟩
def F.TIME_STEP_REEL_REEL : Fld := ⟨R.TIME_STEP_REEL, 0, 32⟩
def F.TIME_UTC_VALID : Fld := ⟨R.TIME_UTC, 18, 1⟩
def F.TIME_UTC_LEAP59 : Fld := ⟨R.TIME_UTC, 17, 1⟩
def F.TIME_UTC_LEAP61 : Fld := ⟨R.TIME_UTC, 16, 1⟩
def F.TIME_UTC_UTC_OFFSET : Fld := ⟨R.TIME_UTC, 0, 16⟩
def F.TIME_TSK_K_RX (k : Nat) : Fld := ⟨R.TIME_TSK k, 16, 16⟩
def F.TIME_TSK_K_TX (k : Nat) : Fld := ⟨R.TIME_TSK k, 0, 16⟩
def F.TIME_ASYM_CTL_HOLD_MS : Fld := ⟨R.TIME_ASYM_CTL, 16, 16⟩
def F.TIME_ASYM_CTL_THRESH : Fld := ⟨R.TIME_ASYM_CTL, 0, 16⟩
def F.TIME_PTP_CTL_EN : Fld := ⟨R.TIME_PTP_CTL, 31, 1⟩
def F.TIME_PTP_STAT_BLOCK_LOCK : Fld := ⟨R.TIME_PTP_STAT, 31, 1⟩
def F.TIME_PTP_STAT_LINK_FAULT : Fld := ⟨R.TIME_PTP_STAT, 30, 1⟩
def F.TIME_PTP_STAT_RX_DISCARDED : Fld := ⟨R.TIME_PTP_STAT, 0, 16⟩
def F.TIME_PTP_MAC_LO_MAC_LO : Fld := ⟨R.TIME_PTP_MAC_LO, 0, 32⟩
def F.TIME_PTP_MAC_HI_MAC_HI : Fld := ⟨R.TIME_PTP_MAC_HI, 0, 16⟩
def F.TIME_PTP_RXDLY_DELAY : Fld := ⟨R.TIME_PTP_RXDLY, 0, 24⟩
def F.TIME_PTP_TXDLY_DELAY : Fld := ⟨R.TIME_PTP_TXDLY, 0, 24⟩
def F.TIME_TSQ_POP_0_VALID : Fld := ⟨R.TIME_TSQ_POP_0, 31, 1⟩
def F.TIME_TSQ_POP_0_MSG_TYPE : Fld := ⟨R.TIME_TSQ_POP_0, 24, 4⟩
def F.TIME_TSQ_POP_0_STEP_EPOCH : Fld := ⟨R.TIME_TSQ_POP_0, 16, 8⟩
def F.TIME_TSQ_POP_0_TAG : Fld := ⟨R.TIME_TSQ_POP_0, 0, 16⟩
def F.TIME_TSQ_POP_1_SEQUENCE_ID : Fld := ⟨R.TIME_TSQ_POP_1, 16, 16⟩
def F.TIME_TSQ_POP_1_FRAC : Fld := ⟨R.TIME_TSQ_POP_1, 0, 8⟩
def F.TIME_TSQ_POP_2_NS32 : Fld := ⟨R.TIME_TSQ_POP_2, 0, 32⟩
def F.TIME_TSQ_STAT_FILL : Fld := ⟨R.TIME_TSQ_STAT, 0, 7⟩
def F.TIME_TSQ_OVERFLOW_COUNT : Fld := ⟨R.TIME_TSQ_OVERFLOW, 0, 32⟩
def F.REF_STATE_MODE : Fld := ⟨R.REF_STATE, 29, 3⟩
def F.REF_STATE_SELECTED : Fld := ⟨R.REF_STATE, 24, 4⟩
def F.REF_STATE_FORCED : Fld := ⟨R.REF_STATE, 23, 1⟩
def F.REF_STATE_XO_DRIFT : Fld := ⟨R.REF_STATE, 22, 1⟩
def F.REF_STATE_REVERSALS : Fld := ⟨R.REF_STATE, 0, 16⟩
def F.REF_CTL_REVERTIVE : Fld := ⟨R.REF_CTL, 31, 1⟩
def F.REF_CTL_FORCE_EN : Fld := ⟨R.REF_CTL, 30, 1⟩
def F.REF_CTL_FORCE_HO : Fld := ⟨R.REF_CTL, 29, 1⟩
def F.REF_CTL_FORCE_CAND : Fld := ⟨R.REF_CTL, 24, 3⟩
def F.REF_CTL_GLITCH_MS : Fld := ⟨R.REF_CTL, 12, 12⟩
def F.REF_CTL_WTR : Fld := ⟨R.REF_CTL, 0, 12⟩
def F.REF_SLOPE_SLOPE : Fld := ⟨R.REF_SLOPE, 0, 14⟩
def F.REF_BUILDOUT_B : Fld := ⟨R.REF_BUILDOUT, 0, 32⟩
def F.REF_FREQ_FREQ : Fld := ⟨R.REF_FREQ, 0, 32⟩
def F.REF_QUAL_CTL_QUAL_S : Fld := ⟨R.REF_QUAL_CTL, 24, 8⟩
def F.REF_QUAL_CTL_JUMP : Fld := ⟨R.REF_QUAL_CTL, 16, 8⟩
def F.REF_QUAL_CTL_VOTE : Fld := ⟨R.REF_QUAL_CTL, 0, 16⟩
def F.REF_PTP_SAMPLE_OFS : Fld := ⟨R.REF_PTP_SAMPLE, 0, 32⟩
def F.REF_HO_CTL_TSENSE : Fld := ⟨R.REF_HO_CTL, 27, 5⟩
def F.REF_HO_CTL_BUDGET : Fld := ⟨R.REF_HO_CTL, 0, 21⟩
def F.REF_HO_STAT_HISTORY : Fld := ⟨R.REF_HO_STAT, 31, 1⟩
def F.REF_HO_STAT_EXTRAPOLATED : Fld := ⟨R.REF_HO_STAT, 30, 1⟩
def F.REF_HO_STAT_MODEL_UNAVAILABLE : Fld := ⟨R.REF_HO_STAT, 29, 1⟩
def F.REF_HO_STAT_EXPIRED : Fld := ⟨R.REF_HO_STAT, 28, 1⟩
def F.REF_HO_STAT_ELAPSED : Fld := ⟨R.REF_HO_STAT, 0, 20⟩
def F.REF_HO_FREQ_H : Fld := ⟨R.REF_HO_FREQ, 0, 32⟩
def F.REF_HO_TEMP_TEMP : Fld := ⟨R.REF_HO_TEMP, 0, 16⟩
def F.REF_HO_MODEL_K_T : Fld := ⟨R.REF_HO_MODEL, 0, 32⟩
def F.REF_HO_RANGE_T_MAX : Fld := ⟨R.REF_HO_RANGE, 16, 16⟩
def F.REF_HO_RANGE_T_MIN : Fld := ⟨R.REF_HO_RANGE, 0, 16⟩
def F.REF_PPSO_EN (k : Nat) : Fld := ⟨R.REF_PPSO k, 31, 1⟩
def F.REF_PPSO_SQUELCH (k : Nat) : Fld := ⟨R.REF_PPSO k, 29, 2⟩
def F.REF_PPSO_WIDTH (k : Nat) : Fld := ⟨R.REF_PPSO k, 0, 19⟩
def F.REF_PPSO_DLY_DLY (k : Nat) : Fld := ⟨R.REF_PPSO_DLY k, 0, 32⟩
def F.REF_FOUT_EN (k : Nat) : Fld := ⟨R.REF_FOUT k, 31, 1⟩
def F.REF_FOUT_SQUELCH (k : Nat) : Fld := ⟨R.REF_FOUT k, 29, 2⟩
def F.REF_FOUT_FREQ (k : Nat) : Fld := ⟨R.REF_FOUT k, 0, 2⟩
def F.REF_CANDn_CTL_EN (k : Nat) : Fld := ⟨R.REF_CANDn_CTL k, 31, 1⟩
def F.REF_CANDn_CTL_PRIO (k : Nat) : Fld := ⟨R.REF_CANDn_CTL k, 26, 4⟩
def F.REF_CANDn_CTL_FW_VALID (k : Nat) : Fld := ⟨R.REF_CANDn_CTL k, 24, 1⟩
def F.REF_CANDn_CTL_FREQ (k : Nat) : Fld := ⟨R.REF_CANDn_CTL k, 18, 2⟩
def F.REF_CANDn_CTL_BAUD (k : Nat) : Fld := ⟨R.REF_CANDn_CTL k, 14, 3⟩
def F.REF_CANDn_CTL_LANE (k : Nat) : Fld := ⟨R.REF_CANDn_CTL k, 7, 7⟩
def F.REF_CANDn_BANDS_HARD (k : Nat) : Fld := ⟨R.REF_CANDn_BANDS k, 16, 16⟩
def F.REF_CANDn_BANDS_SOFT (k : Nat) : Fld := ⟨R.REF_CANDn_BANDS k, 0, 16⟩
def F.REF_CANDn_BW_BW (k : Nat) : Fld := ⟨R.REF_CANDn_BW k, 0, 17⟩
def F.REF_CANDn_STAT_STATE (k : Nat) : Fld := ⟨R.REF_CANDn_STAT k, 29, 3⟩
def F.REF_CANDn_STAT_CAUSE (k : Nat) : Fld := ⟨R.REF_CANDn_STAT k, 24, 5⟩
def F.REF_CANDn_STAT_SOFT (k : Nat) : Fld := ⟨R.REF_CANDn_STAT k, 23, 1⟩
def F.REF_CANDn_STAT_VOTE_SPLIT (k : Nat) : Fld := ⟨R.REF_CANDn_STAT k, 22, 1⟩
def F.REF_CANDn_STAT_WINDOW_FULL (k : Nat) : Fld := ⟨R.REF_CANDn_STAT k, 21, 1⟩
def F.REF_CANDn_STAT_SELECTED (k : Nat) : Fld := ⟨R.REF_CANDn_STAT k, 20, 1⟩
def F.REF_CANDn_STAT_LEFT (k : Nat) : Fld := ⟨R.REF_CANDn_STAT k, 0, 16⟩
def F.REF_CANDn_FOFS_FOFS (k : Nat) : Fld := ⟨R.REF_CANDn_FOFS k, 0, 32⟩
def F.REF_CANDn_POFS_POFS (k : Nat) : Fld := ⟨R.REF_CANDn_POFS k, 0, 32⟩
def F.REF_CANDn_DLY_DLY (k : Nat) : Fld := ⟨R.REF_CANDn_DLY k, 0, 32⟩
def F.PAIR_CFG_ACCEPT_JOIN : Fld := ⟨R.PAIR_CFG, 2, 1⟩
def F.PAIR_CFG_AUTO_TAKEOVER : Fld := ⟨R.PAIR_CFG, 1, 1⟩
def F.PAIR_CFG_UNIT : Fld := ⟨R.PAIR_CFG, 0, 1⟩
def F.PAIR_ID_ID : Fld := ⟨R.PAIR_ID, 0, 32⟩
def F.PAIR_STATE_ROLE : Fld := ⟨R.PAIR_STATE, 28, 4⟩
def F.PAIR_STATE_TAKE_SPLIT : Fld := ⟨R.PAIR_STATE, 7, 1⟩
def F.PAIR_STATE_DIGEST_BAD : Fld := ⟨R.PAIR_STATE, 6, 1⟩
def F.PAIR_STATE_HANDOVER : Fld := ⟨R.PAIR_STATE, 5, 1⟩
def F.PAIR_STATE_MATE_FENCED : Fld := ⟨R.PAIR_STATE, 4, 1⟩
def F.PAIR_STATE_ISOLATED : Fld := ⟨R.PAIR_STATE, 3, 1⟩
def F.PAIR_STATE_EV_WITNESS : Fld := ⟨R.PAIR_STATE, 2, 1⟩
def F.PAIR_STATE_EV_HEARTBEAT : Fld := ⟨R.PAIR_STATE, 1, 1⟩
def F.PAIR_STATE_EV_MATE_LANES : Fld := ⟨R.PAIR_STATE, 0, 1⟩
def F.PAIR_CLAIM_CLAIM : Fld := ⟨R.PAIR_CLAIM, 0, 32⟩
def F.PAIR_MATE_CLAIM_CLAIM : Fld := ⟨R.PAIR_MATE_CLAIM, 0, 32⟩
def F.PAIR_EPOCH_FLOOR_FLOOR : Fld := ⟨R.PAIR_EPOCH_FLOOR, 0, 31⟩
def F.PAIR_ABSENT_MS_MS : Fld := ⟨R.PAIR_ABSENT_MS, 0, 16⟩
def F.PAIR_WIT_MASK_LANES (k : Nat) : Fld := ⟨R.PAIR_WIT_MASK k, 0, 32⟩
def F.PAIR_WIT_CTL_QUORUM : Fld := ⟨R.PAIR_WIT_CTL, 0, 8⟩
def F.PAIR_WIT_STAT_COUNTING : Fld := ⟨R.PAIR_WIT_STAT, 24, 8⟩
def F.PAIR_WIT_STAT_PRESENT : Fld := ⟨R.PAIR_WIT_STAT, 16, 8⟩
def F.PAIR_WIT_STAT_ABSENT : Fld := ⟨R.PAIR_WIT_STAT, 8, 8⟩
def F.PAIR_WIT_STAT_HIGHER : Fld := ⟨R.PAIR_WIT_STAT, 0, 8⟩
def F.PAIR_ORDER_CTL_LEAD : Fld := ⟨R.PAIR_ORDER_CTL, 0, 19⟩
def F.PAIR_ORDER_STAT_TAG : Fld := ⟨R.PAIR_ORDER_STAT, 24, 8⟩
def F.PAIR_ORDER_STAT_RESULT : Fld := ⟨R.PAIR_ORDER_STAT, 16, 8⟩
def F.PAIR_ORDER_REEL_REEL : Fld := ⟨R.PAIR_ORDER_REEL, 0, 32⟩
def F.PAIR_DIGEST_STAT_LAST : Fld := ⟨R.PAIR_DIGEST_STAT, 30, 2⟩
def F.PAIR_DIGEST_STAT_MISMATCHES : Fld := ⟨R.PAIR_DIGEST_STAT, 0, 16⟩
def F.PAIR_DIGEST_REEL_REEL : Fld := ⟨R.PAIR_DIGEST_REEL, 0, 32⟩
def F.PAIR_CONT_STAT_STATE : Fld := ⟨R.PAIR_CONT_STAT, 28, 4⟩
def F.PAIR_CONT_STAT_OUTSTANDING : Fld := ⟨R.PAIR_CONT_STAT, 0, 16⟩
def F.PAIR_CONT_ERR_AUTH_FAIL : Fld := ⟨R.PAIR_CONT_ERR, 24, 8⟩
def F.PAIR_CONT_ERR_DISCARDED : Fld := ⟨R.PAIR_CONT_ERR, 16, 8⟩
def F.PAIR_CONT_ERR_RETRANSMITS : Fld := ⟨R.PAIR_CONT_ERR, 0, 16⟩
def F.PAIR_MATE_DELAY_DELAY : Fld := ⟨R.PAIR_MATE_DELAY, 0, 32⟩
def F.PAIR_PROVE_LANES_UCB : Fld := ⟨R.PAIR_PROVE, 8, 8⟩
def F.PAIR_PROVE_LANES_RESCUED : Fld := ⟨R.PAIR_PROVE, 0, 8⟩
def F.PAIR_KEY_KEY : Fld := ⟨R.PAIR_KEY, 0, 32⟩
def F.HIF_STATE_FW_READY : Fld := ⟨R.HIF_STATE, 31, 1⟩
def F.HIF_STATE_MAILBOX_15 : Fld := ⟨R.HIF_STATE, 30, 1⟩
def F.HIF_STATE_LINK_SPEED : Fld := ⟨R.HIF_STATE, 27, 3⟩
def F.HIF_STATE_LINK_WIDTH : Fld := ⟨R.HIF_STATE, 24, 3⟩
def F.HIF_STATE_OPEN : Fld := ⟨R.HIF_STATE, 0, 11⟩
def F.HIF_HOST_KICK_KICK : Fld := ⟨R.HIF_HOST_KICK, 0, 32⟩
def F.HIF_POLL_US : Fld := ⟨R.HIF_POLL, 0, 16⟩
def F.HIF_ERR_RING : Fld := ⟨R.HIF_ERR, 16, 4⟩
def F.HIF_ERR_RING_REFUSED : Fld := ⟨R.HIF_ERR, 5, 1⟩
def F.HIF_ERR_DB_ADDR_REFUSED : Fld := ⟨R.HIF_ERR, 4, 1⟩
def F.HIF_ERR_BAD_INDEX : Fld := ⟨R.HIF_ERR, 3, 1⟩
def F.HIF_ERR_EV_LOST : Fld := ⟨R.HIF_ERR, 2, 1⟩
def F.HIF_ERR_CMC_NO_BUFFER : Fld := ⟨R.HIF_ERR, 1, 1⟩
def F.HIF_DB_ADDR_LO_ADDR_LO : Fld := ⟨R.HIF_DB_ADDR_LO, 12, 20⟩
def F.HIF_DB_ADDR_HI_ADDR_HI : Fld := ⟨R.HIF_DB_ADDR_HI, 0, 32⟩
def F.HIF_ST_ADDR_LO_ADDR_LO : Fld := ⟨R.HIF_ST_ADDR_LO, 12, 20⟩
def F.HIF_ST_ADDR_HI_ADDR_HI : Fld := ⟨R.HIF_ST_ADDR_HI, 0, 32⟩
def F.HIF_DMA_CTL_CPL_TO_US : Fld := ⟨R.HIF_DMA_CTL, 0, 16⟩
def F.HIF_DMA_FAULTS_CPL_TIMEOUT : Fld := ⟨R.HIF_DMA_FAULTS, 24, 8⟩
def F.HIF_DMA_FAULTS_UR_CA : Fld := ⟨R.HIF_DMA_FAULTS, 16, 8⟩
def F.HIF_DMA_FAULTS_POISONED : Fld := ⟨R.HIF_DMA_FAULTS, 8, 8⟩
def F.HIF_DMA_FAULTS_SG_BOUND : Fld := ⟨R.HIF_DMA_FAULTS, 0, 8⟩
def F.HIF_EV_BASE_LO_ADDR_LO : Fld := ⟨R.HIF_EV_BASE_LO, 12, 20⟩
def F.HIF_EV_BASE_HI_ADDR_HI : Fld := ⟨R.HIF_EV_BASE_HI, 0, 32⟩
def F.HIF_EV_CTL_EN : Fld := ⟨R.HIF_EV_CTL, 31, 1⟩
def F.HIF_EV_CTL_VECTOR : Fld := ⟨R.HIF_EV_CTL, 24, 6⟩
def F.HIF_EV_CTL_COAL_N : Fld := ⟨R.HIF_EV_CTL, 16, 8⟩
def F.HIF_EV_CTL_COAL_US : Fld := ⟨R.HIF_EV_CTL, 6, 10⟩
def F.HIF_EV_CTL_SIZE_LOG2 : Fld := ⟨R.HIF_EV_CTL, 0, 4⟩
def F.HIF_CMC_BASE_LO_ADDR_LO : Fld := ⟨R.HIF_CMC_BASE_LO, 12, 20⟩
def F.HIF_CMC_BASE_HI_ADDR_HI : Fld := ⟨R.HIF_CMC_BASE_HI, 0, 32⟩
def F.HIF_CMC_CTL_EN : Fld := ⟨R.HIF_CMC_CTL, 31, 1⟩
def F.HIF_CMC_CTL_VECTOR : Fld := ⟨R.HIF_CMC_CTL, 24, 6⟩
def F.HIF_CMC_CTL_HOLD_US : Fld := ⟨R.HIF_CMC_CTL, 6, 10⟩
def F.HIF_CMC_CTL_SIZE_LOG2 : Fld := ⟨R.HIF_CMC_CTL, 0, 4⟩
def F.HIF_CR_BASE_LO_ADDR_LO (k : Nat) : Fld := ⟨R.HIF_CR_BASE_LO k, 12, 20⟩
def F.HIF_CR_BASE_HI_ADDR_HI (k : Nat) : Fld := ⟨R.HIF_CR_BASE_HI k, 0, 32⟩
def F.HIF_CR_CTL_EN (k : Nat) : Fld := ⟨R.HIF_CR_CTL k, 31, 1⟩
def F.HIF_CR_CTL_URGENT (k : Nat) : Fld := ⟨R.HIF_CR_CTL k, 30, 1⟩
def F.HIF_CR_CTL_CQ (k : Nat) : Fld := ⟨R.HIF_CR_CTL k, 24, 4⟩
def F.HIF_CR_CTL_SIZE_LOG2 (k : Nat) : Fld := ⟨R.HIF_CR_CTL k, 0, 4⟩
def F.HIF_CR_STAT_STATE (k : Nat) : Fld := ⟨R.HIF_CR_STAT k, 30, 2⟩
def F.HIF_CR_STAT_OPEN (k : Nat) : Fld := ⟨R.HIF_CR_STAT k, 0, 11⟩
def F.HIF_CQ_BASE_LO_ADDR_LO (k : Nat) : Fld := ⟨R.HIF_CQ_BASE_LO k, 12, 20⟩
def F.HIF_CQ_BASE_HI_ADDR_HI (k : Nat) : Fld := ⟨R.HIF_CQ_BASE_HI k, 0, 32⟩
def F.HIF_CQ_CTL_EN (k : Nat) : Fld := ⟨R.HIF_CQ_CTL k, 31, 1⟩
def F.HIF_CQ_CTL_VECTOR (k : Nat) : Fld := ⟨R.HIF_CQ_CTL k, 24, 6⟩
def F.HIF_CQ_CTL_COAL_N (k : Nat) : Fld := ⟨R.HIF_CQ_CTL k, 16, 8⟩
def F.HIF_CQ_CTL_COAL_US (k : Nat) : Fld := ⟨R.HIF_CQ_CTL k, 6, 10⟩
def F.HIF_CQ_CTL_SIZE_LOG2 (k : Nat) : Fld := ⟨R.HIF_CQ_CTL k, 0, 4⟩
def F.HIF_CQ_STAT_STATE (k : Nat) : Fld := ⟨R.HIF_CQ_STAT k, 30, 2⟩
def F.HIF_CQ_STAT_HELD (k : Nat) : Fld := ⟨R.HIF_CQ_STAT k, 0, 9⟩
def F.HIF_MSIX_ADDR_LO_ADDR_LO (k : Nat) : Fld := ⟨R.HIF_MSIX_ADDR_LO k, 2, 30⟩
def F.HIF_MSIX_ADDR_HI_ADDR_HI (k : Nat) : Fld := ⟨R.HIF_MSIX_ADDR_HI k, 0, 32⟩
def F.HIF_MSIX_DATA_DATA (k : Nat) : Fld := ⟨R.HIF_MSIX_DATA k, 0, 32⟩
def F.HIF_MSIX_VCTL_MASK (k : Nat) : Fld := ⟨R.HIF_MSIX_VCTL k, 0, 1⟩
def F.HIF_MSIX_PBA_PBA (k : Nat) : Fld := ⟨R.HIF_MSIX_PBA k, 0, 32⟩
def F.I3CT_CTL_EN : Fld := ⟨R.I3CT_CTL, 31, 1⟩
def F.I3CT_CTL_MBX_EN : Fld := ⟨R.I3CT_CTL, 30, 1⟩
def F.I3CT_STAT_DA_VALID : Fld := ⟨R.I3CT_STAT, 31, 1⟩
def F.I3CT_STAT_DYN_ADDR : Fld := ⟨R.I3CT_STAT, 24, 7⟩
def F.I3CT_STAT_STATIC_ADDR : Fld := ⟨R.I3CT_STAT, 16, 7⟩
def F.I3CT_STAT_IBI_EN : Fld := ⟨R.I3CT_STAT, 15, 1⟩
def F.I3CT_STAT_IBI_PENDING : Fld := ⟨R.I3CT_STAT, 0, 4⟩
def F.I3CT_ERR_PARITY : Fld := ⟨R.I3CT_ERR, 24, 8⟩
def F.I3CT_ERR_HDR_ERR : Fld := ⟨R.I3CT_ERR, 16, 8⟩
def F.I3CT_ERR_BAD_OP : Fld := ⟨R.I3CT_ERR, 8, 8⟩
def F.I3CT_ERR_REFUSED : Fld := ⟨R.I3CT_ERR, 0, 8⟩
def F.I3CT_ERR2_MBX_BUSY : Fld := ⟨R.I3CT_ERR2, 8, 8⟩
def F.I3CT_ERR2_MBX_REFUSED : Fld := ⟨R.I3CT_ERR2, 0, 8⟩
def F.I3CT_MBX_CTL_GO : Fld := ⟨R.I3CT_MBX_CTL, 31, 1⟩
def F.I3CT_MBX_CTL_UNIT_DONE : Fld := ⟨R.I3CT_MBX_CTL, 30, 1⟩
def F.I3CT_MBX_CTL_UNIT_TO_MS : Fld := ⟨R.I3CT_MBX_CTL, 0, 16⟩
def F.I3CT_MBX_STAT_STATE : Fld := ⟨R.I3CT_MBX_STAT, 30, 2⟩
def F.I3CT_MBX_STAT_CPL_WAITING : Fld := ⟨R.I3CT_MBX_STAT, 29, 1⟩
def F.I3CT_MBX_UNIT_INDEX : Fld := ⟨R.I3CT_MBX_UNIT, 16, 12⟩
def F.I3CT_MBX_UNIT_LEN : Fld := ⟨R.I3CT_MBX_UNIT, 0, 13⟩
def F.I3CT_MBX_DESC_DESC (k : Nat) : Fld := ⟨R.I3CT_MBX_DESC k, 0, 32⟩
def F.I3CT_MBX_CPL_CPL (k : Nat) : Fld := ⟨R.I3CT_MBX_CPL k, 0, 32⟩
def F.I3CT_RCV_CTL_START : Fld := ⟨R.I3CT_RCV_CTL, 31, 1⟩
def F.I3CT_RCV_CTL_UNIT_DONE : Fld := ⟨R.I3CT_RCV_CTL, 30, 1⟩
def F.I3CT_RCV_CTL_ABORT : Fld := ⟨R.I3CT_RCV_CTL, 29, 1⟩
def F.I3CT_RCV_BYTES_BYTES : Fld := ⟨R.I3CT_RCV_BYTES, 0, 32⟩
def F.I3CT_RCV_STAT_STATE : Fld := ⟨R.I3CT_RCV_STAT, 29, 3⟩
def F.I3CT_RCV_STAT_CAUSE : Fld := ⟨R.I3CT_RCV_STAT, 24, 5⟩
def F.I3CT_RCV_STAT_UNIT : Fld := ⟨R.I3CT_RCV_STAT, 0, 12⟩
def F.I3CT_BUF_BUF (k : Nat) : Fld := ⟨R.I3CT_BUF k, 0, 32⟩
def F.IC_CTL_FALLBACK : Fld := ⟨R.IC_CTL, 0, 2⟩
def F.IC_STAT_STORMS : Fld := ⟨R.IC_STAT, 16, 16⟩
def F.IC_STAT_REDIRECTS : Fld := ⟨R.IC_STAT, 0, 16⟩
def F.IC_SWI_SET_SWI : Fld := ⟨R.IC_SWI_SET, 0, 16⟩
def F.IC_HOST_SET_NUM : Fld := ⟨R.IC_HOST_SET, 0, 8⟩
def F.IC_VTBASE_BASE (k : Nat) : Fld := ⟨R.IC_VTBASE k, 14, 18⟩
def F.IC_CORE_OFFLINE (k : Nat) : Fld := ⟨R.IC_CORE k, 31, 1⟩
def F.IC_CORE_CUR_SRC (k : Nat) : Fld := ⟨R.IC_CORE k, 16, 11⟩
def F.IC_CORE_DEPTH (k : Nat) : Fld := ⟨R.IC_CORE k, 8, 5⟩
def F.IC_CORE_RUN_PRIO (k : Nat) : Fld := ⟨R.IC_CORE k, 0, 5⟩
def F.IC_SRC_PENDING (k : Nat) : Fld := ⟨R.IC_SRC k, 31, 1⟩
def F.IC_SRC_RAW (k : Nat) : Fld := ⟨R.IC_SRC k, 30, 1⟩
def F.IC_SRC_HELD (k : Nat) : Fld := ⟨R.IC_SRC k, 29, 1⟩
def F.IC_SRC_STORM (k : Nat) : Fld := ⟨R.IC_SRC k, 28, 1⟩
def F.IC_SRC_REDIR (k : Nat) : Fld := ⟨R.IC_SRC k, 27, 1⟩
def F.IC_SRC_TYPE (k : Nat) : Fld := ⟨R.IC_SRC k, 26, 1⟩
def F.IC_SRC_ARM (k : Nat) : Fld := ⟨R.IC_SRC k, 25, 1⟩
def F.IC_SRC_MASK (k : Nat) : Fld := ⟨R.IC_SRC k, 16, 1⟩
def F.IC_SRC_PRIO (k : Nat) : Fld := ⟨R.IC_SRC k, 12, 4⟩
def F.IC_SRC_KIND (k : Nat) : Fld := ⟨R.IC_SRC k, 8, 1⟩
def F.IC_SRC_TARGET (k : Nat) : Fld := ⟨R.IC_SRC k, 0, 6⟩
def F.IC_PEND_PEND (k : Nat) : Fld := ⟨R.IC_PEND k, 0, 32⟩
def F.MSS_BOOT_BOOT_SRC : Fld := ⟨R.MSS_BOOT, 10, 2⟩
def F.MSS_BOOT_IMAGE : Fld := ⟨R.MSS_BOOT, 8, 2⟩
def F.MSS_BOOT_REMAP_PENDING : Fld := ⟨R.MSS_BOOT, 1, 1⟩
def F.MSS_BOOT_REMAP : Fld := ⟨R.MSS_BOOT, 0, 1⟩
def F.MSS_CORE_CTL_HOLD_3 : Fld := ⟨R.MSS_CORE_CTL, 3, 1⟩
def F.MSS_CORE_CTL_HOLD_2 : Fld := ⟨R.MSS_CORE_CTL, 2, 1⟩
def F.MSS_CORE_CTL_HOLD_1 : Fld := ⟨R.MSS_CORE_CTL, 1, 1⟩
def F.MSS_CORE_STAT_CORE3 : Fld := ⟨R.MSS_CORE_STAT, 6, 2⟩
def F.MSS_CORE_STAT_CORE2 : Fld := ⟨R.MSS_CORE_STAT, 4, 2⟩
def F.MSS_CORE_STAT_CORE1 : Fld := ⟨R.MSS_CORE_STAT, 2, 2⟩
def F.MSS_CORE_STAT_CORE0 : Fld := ⟨R.MSS_CORE_STAT, 0, 2⟩
def F.MSS_RESTART_REQ : Fld := ⟨R.MSS_RESTART, 31, 1⟩
def F.MSS_RESTART_LAST_CAUSE : Fld := ⟨R.MSS_RESTART, 16, 8⟩
def F.MSS_RESTART_COUNT : Fld := ⟨R.MSS_RESTART, 0, 16⟩
def F.MSS_RESTART_CTL_AUTO_AGE : Fld := ⟨R.MSS_RESTART_CTL, 0, 16⟩
def F.MSS_KEY_KEY : Fld := ⟨R.MSS_KEY, 0, 32⟩
def F.MSS_SRAM_ERR_UE : Fld := ⟨R.MSS_SRAM_ERR, 16, 16⟩
def F.MSS_SRAM_ERR_CE : Fld := ⟨R.MSS_SRAM_ERR, 0, 16⟩
def F.MSS_SRAM_UE_ADDR_ADDR : Fld := ⟨R.MSS_SRAM_UE_ADDR, 0, 32⟩
def F.MSS_MEM_ERR_SCRATCH_UE : Fld := ⟨R.MSS_MEM_ERR, 24, 8⟩
def F.MSS_MEM_ERR_SCRATCH_CE : Fld := ⟨R.MSS_MEM_ERR, 16, 8⟩
def F.MSS_MEM_ERR_ROM_UE : Fld := ⟨R.MSS_MEM_ERR, 8, 8⟩
def F.MSS_MEM_ERR_ROM_CE : Fld := ⟨R.MSS_MEM_ERR, 0, 8⟩
def F.MSS_MTEST_CTL_EN : Fld := ⟨R.MSS_MTEST_CTL, 31, 1⟩
def F.MSS_MTEST_CTL_INTERVAL_US : Fld := ⟨R.MSS_MTEST_CTL, 0, 16⟩
def F.MSS_MTEST_STAT_BORROWED : Fld := ⟨R.MSS_MTEST_STAT, 31, 1⟩
def F.MSS_MTEST_STAT_WINDOW : Fld := ⟨R.MSS_MTEST_STAT, 16, 12⟩
def F.MSS_MTEST_STAT_PASSES : Fld := ⟨R.MSS_MTEST_STAT, 0, 16⟩
def F.MSS_MTEST_REPAIR_FAILED : Fld := ⟨R.MSS_MTEST_REPAIR, 8, 8⟩
def F.MSS_MTEST_REPAIR_SPARES_USED : Fld := ⟨R.MSS_MTEST_REPAIR, 0, 3⟩
def F.MSS_BM_WEIGHT_0_W_7 : Fld := ⟨R.MSS_BM_WEIGHT_0, 28, 4⟩
def F.MSS_BM_WEIGHT_0_W_6 : Fld := ⟨R.MSS_BM_WEIGHT_0, 24, 4⟩
def F.MSS_BM_WEIGHT_0_W_5 : Fld := ⟨R.MSS_BM_WEIGHT_0, 20, 4⟩
def F.MSS_BM_WEIGHT_0_W_4 : Fld := ⟨R.MSS_BM_WEIGHT_0, 16, 4⟩
def F.MSS_BM_WEIGHT_0_W_3 : Fld := ⟨R.MSS_BM_WEIGHT_0, 12, 4⟩
def F.MSS_BM_WEIGHT_0_W_2 : Fld := ⟨R.MSS_BM_WEIGHT_0, 8, 4⟩
def F.MSS_BM_WEIGHT_0_W_1 : Fld := ⟨R.MSS_BM_WEIGHT_0, 4, 4⟩
def F.MSS_BM_WEIGHT_0_W_0 : Fld := ⟨R.MSS_BM_WEIGHT_0, 0, 4⟩
def F.MSS_BM_WEIGHT_1_W_12 : Fld := ⟨R.MSS_BM_WEIGHT_1, 16, 4⟩
def F.MSS_BM_WEIGHT_1_W_11 : Fld := ⟨R.MSS_BM_WEIGHT_1, 12, 4⟩
def F.MSS_BM_WEIGHT_1_W_10 : Fld := ⟨R.MSS_BM_WEIGHT_1, 8, 4⟩
def F.MSS_BM_WEIGHT_1_W_9 : Fld := ⟨R.MSS_BM_WEIGHT_1, 4, 4⟩
def F.MSS_BM_WEIGHT_1_W_8 : Fld := ⟨R.MSS_BM_WEIGHT_1, 0, 4⟩
def F.MSS_BM_ORPHAN_COUNT : Fld := ⟨R.MSS_BM_ORPHAN, 16, 16⟩
def F.MSS_BM_ORPHAN_MASTER : Fld := ⟨R.MSS_BM_ORPHAN, 0, 4⟩
def F.MSS_BM_ORPHAN_ADDR_ADDR : Fld := ⟨R.MSS_BM_ORPHAN_ADDR, 0, 32⟩
def F.MSS_BM_DENIED_COUNT : Fld := ⟨R.MSS_BM_DENIED, 16, 16⟩
def F.MSS_BM_DENIED_CAUSE : Fld := ⟨R.MSS_BM_DENIED, 4, 4⟩
def F.MSS_BM_DENIED_MASTER : Fld := ⟨R.MSS_BM_DENIED, 0, 4⟩
def F.MSS_BM_DENIED_ADDR_ADDR : Fld := ⟨R.MSS_BM_DENIED_ADDR, 0, 32⟩
def F.MSS_PERF_CTL_USER_RD : Fld := ⟨R.MSS_PERF_CTL, 0, 4⟩
def F.MSS_PERF_OVF_OVF (k : Nat) : Fld := ⟨R.MSS_PERF_OVF k, 0, 8⟩
def F.MSS_TAG_CTL_EN (k : Nat) : Fld := ⟨R.MSS_TAG_CTL k, 31, 1⟩
def F.MSS_TAG_CTL_FILL (k : Nat) : Fld := ⟨R.MSS_TAG_CTL k, 0, 6⟩
def F.MSS_TAG_PERIOD_M (k : Nat) : Fld := ⟨R.MSS_TAG_PERIOD k, 0, 20⟩
def F.MSS_TAG_STAT_DROPPED (k : Nat) : Fld := ⟨R.MSS_TAG_STAT k, 16, 16⟩
def F.MSS_TAG_STAT_COUNT (k : Nat) : Fld := ⟨R.MSS_TAG_STAT k, 0, 6⟩
def F.MSS_TAG_SAMPLE_VALID (k : Nat) : Fld := ⟨R.MSS_TAG_SAMPLE k, 31, 1⟩
def F.MSS_TAG_SAMPLE_USER (k : Nat) : Fld := ⟨R.MSS_TAG_SAMPLE k, 30, 1⟩
def F.MSS_TAG_SAMPLE_TRAPPED (k : Nat) : Fld := ⟨R.MSS_TAG_SAMPLE k, 29, 1⟩
def F.MSS_TAG_SAMPLE_MISS (k : Nat) : Fld := ⟨R.MSS_TAG_SAMPLE k, 25, 4⟩
def F.MSS_TAG_SAMPLE_STALL (k : Nat) : Fld := ⟨R.MSS_TAG_SAMPLE k, 20, 5⟩
def F.MSS_TAG_SAMPLE_LATENCY (k : Nat) : Fld := ⟨R.MSS_TAG_SAMPLE k, 0, 16⟩
def F.MSS_TAG_PC_PC (k : Nat) : Fld := ⟨R.MSS_TAG_PC k, 0, 32⟩
def F.MSS_LC_STATE_PAIR_KEY : Fld := ⟨R.MSS_LC_STATE, 7, 1⟩
def F.MSS_LC_STATE_DEVICE_SECRET : Fld := ⟨R.MSS_LC_STATE, 6, 1⟩
def F.MSS_LC_STATE_DEBUG_OPEN : Fld := ⟨R.MSS_LC_STATE, 5, 1⟩
def F.MSS_LC_STATE_OWNER_KEY : Fld := ⟨R.MSS_LC_STATE, 4, 1⟩
def F.MSS_LC_STATE_STATE : Fld := ⟨R.MSS_LC_STATE, 0, 2⟩
def F.MSS_LC_CTL_GO : Fld := ⟨R.MSS_LC_CTL, 31, 1⟩
def F.MSS_LC_CTL_RESULT : Fld := ⟨R.MSS_LC_CTL, 8, 8⟩
def F.MSS_LC_CTL_TARGET : Fld := ⟨R.MSS_LC_CTL, 0, 2⟩
def F.MSS_ZEROISE_REQ : Fld := ⟨R.MSS_ZEROISE, 31, 1⟩
def F.MSS_ZEROISE_ZEROISE_FAIL : Fld := ⟨R.MSS_ZEROISE, 3, 1⟩
def F.MSS_ZEROISE_ZEROISED : Fld := ⟨R.MSS_ZEROISE, 2, 1⟩
def F.MSS_ZEROISE_TAMPER_SEEN : Fld := ⟨R.MSS_ZEROISE, 1, 1⟩
def F.MSS_ZEROISE_BUSY : Fld := ⟨R.MSS_ZEROISE, 0, 1⟩
def F.MSS_KEYLOAD_CTL_GO : Fld := ⟨R.MSS_KEYLOAD_CTL, 31, 1⟩
def F.MSS_KEYLOAD_CTL_RESULT : Fld := ⟨R.MSS_KEYLOAD_CTL, 8, 8⟩
def F.MSS_KEYLOAD_CTL_OP : Fld := ⟨R.MSS_KEYLOAD_CTL, 0, 3⟩
def F.MSS_KEYLOAD_DATA (k : Nat) : Fld := ⟨R.MSS_KEYLOAD k, 0, 32⟩
def F.MSS_FW_VERSION_VERSION : Fld := ⟨R.MSS_FW_VERSION, 0, 32⟩
def F.MSS_FW_TRIAL_CONFIRM : Fld := ⟨R.MSS_FW_TRIAL, 31, 1⟩
def F.MSS_FW_TRIAL_ARMED : Fld := ⟨R.MSS_FW_TRIAL, 3, 1⟩
def F.MSS_FW_TRIAL_TRIED : Fld := ⟨R.MSS_FW_TRIAL, 2, 1⟩
def F.MSS_FW_TRIAL_TRY_SLOT : Fld := ⟨R.MSS_FW_TRIAL, 0, 2⟩
def F.MSS_FW_ROLLBACK_RAISE : Fld := ⟨R.MSS_FW_ROLLBACK, 31, 1⟩
def F.MSS_FW_ROLLBACK_TO : Fld := ⟨R.MSS_FW_ROLLBACK, 8, 6⟩
def F.MSS_FW_ROLLBACK_COUNT : Fld := ⟨R.MSS_FW_ROLLBACK, 0, 6⟩
def F.MSS_EVQ_STAT_FILL : Fld := ⟨R.MSS_EVQ_STAT, 16, 11⟩
def F.MSS_EVQ_STAT_DROPPED : Fld := ⟨R.MSS_EVQ_STAT, 0, 16⟩
def F.MSS_SENSE_STAT_WARN : Fld := ⟨R.MSS_SENSE_STAT, 31, 1⟩
def F.MSS_SENSE_STAT_CRIT : Fld := ⟨R.MSS_SENSE_STAT, 30, 1⟩
def F.MSS_SENSE_STAT_VOLT_ALARM : Fld := ⟨R.MSS_SENSE_STAT, 29, 1⟩
def F.MSS_SENSE_STAT_HOT_SENSOR : Fld := ⟨R.MSS_SENSE_STAT, 16, 5⟩
def F.MSS_SENSE_STAT_HOT_TEMP : Fld := ⟨R.MSS_SENSE_STAT, 0, 16⟩
def F.MSS_TEMP_TEMP (k : Nat) : Fld := ⟨R.MSS_TEMP k, 0, 16⟩
def F.MSS_VOLT_MV (k : Nat) : Fld := ⟨R.MSS_VOLT k, 0, 16⟩
def F.MSS_CURR_DA (k : Nat) : Fld := ⟨R.MSS_CURR k, 0, 16⟩
def F.TEST_LOOP_STATUS (k : Nat) : Fld := ⟨R.TEST_LOOP k, 30, 2⟩
def F.TEST_LOOP_MODE (k : Nat) : Fld := ⟨R.TEST_LOOP k, 0, 2⟩
def F.TEST_PRBS_GEN_EN (k : Nat) : Fld := ⟨R.TEST_PRBS_GEN k, 31, 1⟩
def F.TEST_PRBS_GEN_INJECT (k : Nat) : Fld := ⟨R.TEST_PRBS_GEN k, 30, 1⟩
def F.TEST_PRBS_GEN_SENDING (k : Nat) : Fld := ⟨R.TEST_PRBS_GEN k, 29, 1⟩
def F.TEST_PRBS_GEN_PATTERN (k : Nat) : Fld := ⟨R.TEST_PRBS_GEN k, 0, 2⟩
def F.TEST_PRBS_CHK_EN (k : Nat) : Fld := ⟨R.TEST_PRBS_CHK k, 31, 1⟩
def F.TEST_PRBS_CHK_CLEAR (k : Nat) : Fld := ⟨R.TEST_PRBS_CHK k, 30, 1⟩
def F.TEST_PRBS_CHK_PRECODE (k : Nat) : Fld := ⟨R.TEST_PRBS_CHK k, 28, 2⟩
def F.TEST_PRBS_CHK_LOCKED (k : Nat) : Fld := ⟨R.TEST_PRBS_CHK k, 27, 1⟩
def F.TEST_PRBS_CHK_LOCK_LOST (k : Nat) : Fld := ⟨R.TEST_PRBS_CHK k, 26, 1⟩
def F.TEST_PRBS_CHK_PATTERN (k : Nat) : Fld := ⟨R.TEST_PRBS_CHK k, 0, 2⟩
def F.TEST_PRBS_BITS_LO_BITS_LO (k : Nat) : Fld := ⟨R.TEST_PRBS_BITS_LO k, 0, 32⟩
def F.TEST_PRBS_BITS_HI_BITS_HI (k : Nat) : Fld := ⟨R.TEST_PRBS_BITS_HI k, 0, 16⟩
def F.TEST_PRBS_ERR_LO_ERR_LO (k : Nat) : Fld := ⟨R.TEST_PRBS_ERR_LO k, 0, 32⟩
def F.TEST_PRBS_ERR_HI_ERR_HI (k : Nat) : Fld := ⟨R.TEST_PRBS_ERR_HI k, 0, 16⟩

/-- Rows of a lane window, offsets counted from the window (R74, R131, R190, R283), part 0. -/
def laneRows0 : List RegRow := [
  ⟨0x0, 1, 0x4, 0xb000, 0xf771, 0x0, 0x0, 0x0, 0x0⟩,
  ⟨0x4, 1, 0x4, 0x444, 0x0, 0x0, 0x0, 0x0, 0x0⟩,
  ⟨0x8, 1, 0x4, 0xc, 0x0, 0x0, 0x0, 0x0, 0x0⟩,
  ⟨0xc, 1, 0x4, 0x0, 0x0, 0xfe, 0x0, 0x0, 0x0⟩,
  ⟨0x10, 1, 0x4, 0x34000e3c, 0x7fffffff, 0x0, 0x0, 0x0, 0x0⟩,
  ⟨0x14, 1, 0x4, 0xa, 0xf, 0x0, 0x0, 0x0, 0x0⟩,
  ⟨0x20, 1, 0x4, 0x6c800, 0xffc00, 0x0, 0x0, 0x0, 0x0⟩,
  ⟨0x24, 1, 0x4, 0x2000080, 0x3ff00ff, 0x0, 0x0, 0x0, 0x0⟩,
  ⟨0x28, 1, 0x4, 0x0, 0x0, 0x0, 0x0, 0x0, 0x0⟩,
  ⟨0x30, 1, 0x4, 0x0, 0x0, 0x0, 0x0, 0x0, 0xff0003ff⟩,
  ⟨0x34, 1, 0x4, 0x0, 0x8003ffff, 0x0, 0x0, 0x0, 0x0⟩,
  ⟨0x40, 8, 0x4, 0x0, 0x0, 0x0, 0x0, 0x0, 0x0⟩,
  ⟨0x60, 1, 0x4, 0x0, 0x0, 0x0, 0x0, 0x0, 0x0⟩,
  ⟨0x64, 1, 0x4, 0x0, 0x0, 0x0, 0x0, 0x0, 0x0⟩,
  ⟨0x70, 1, 0x4, 0x1, 0x3, 0x0, 0x0, 0x0, 0x0⟩,
  ⟨0x74, 1, 0x4, 0x80000000, 0x0, 0x0, 0x0, 0x0, 0x0⟩,
  ⟨0x78, 1, 0x4, 0x64, 0xffff, 0x0, 0x0, 0x0, 0x0⟩,
  ⟨0x80, 1, 0x4, 0x4, 0xf, 0x0, 0x0, 0x0, 0x0⟩,
  ⟨0x84, 1, 0x4, 0x0, 0x0, 0x0, 0x0, 0x0, 0x0⟩,
  ⟨0x100, 1, 0x4, 0x0, 0x0, 0x0, 0x0, 0x0, 0x0⟩,
  ⟨0x104, 1, 0x4, 0x1c0, 0x0, 0x0, 0x0, 0x0, 0x0⟩,
  ⟨0x108, 1, 0x4, 0x100, 0x0, 0x0, 0x0, 0x0, 0x0⟩,
  ⟨0x10c, 1, 0x4, 0x0, 0x0, 0x1ff, 0x0, 0x0, 0x0⟩,
  ⟨0x110, 1, 0x4, 0xc007d, 0xffffffff, 0x0, 0x0, 0x0, 0x0⟩]

/-- Rows of a lane window, offsets counted from the window (R74, R131, R190, R283), part 1. -/
def laneRows1 : List RegRow := [
  ⟨0x114, 1, 0x4, 0x36b00, 0xffffffff, 0x0, 0x0, 0x0, 0x0⟩,
  ⟨0x118, 1, 0x4, 0x5780, 0xffffffff, 0x0, 0x0, 0x0, 0x0⟩,
  ⟨0x11c, 1, 0x4, 0x1, 0x3, 0x0, 0x0, 0x0, 0x0⟩,
  ⟨0x120, 1, 0x4, 0x0, 0x0, 0x0, 0x0, 0x0, 0x0⟩,
  ⟨0x124, 1, 0x4, 0x0, 0x0, 0x0, 0x0, 0xffffffff, 0x0⟩,
  ⟨0x140, 16, 0x4, 0x0, 0xffffffff, 0x0, 0x0, 0x0, 0x0⟩,
  ⟨0x180, 16, 0x4, 0x0, 0x0, 0x0, 0x0, 0x0, 0x0⟩,
  ⟨0x200, 1, 0x4, 0x80040028, 0x80ff03ff, 0x0, 0x0, 0x0, 0x0⟩,
  ⟨0x204, 1, 0x4, 0xffffffff, 0x0, 0x0, 0x0, 0x0, 0x0⟩,
  ⟨0x208, 1, 0x4, 0x0, 0x0, 0x0, 0x0, 0x0, 0x0⟩,
  ⟨0x20c, 1, 0x4, 0x0, 0x0, 0x0, 0x0, 0x0, 0x0⟩,
  ⟨0x300, 1, 0x4, 0xc0000000, 0xe07f007f, 0x0, 0x0, 0x0, 0x10000000⟩,
  ⟨0x304, 1, 0x4, 0x0, 0xffffffff, 0x0, 0x0, 0x0, 0x0⟩,
  ⟨0x308, 1, 0x4, 0x80000000, 0x0, 0x0, 0x0, 0x0, 0x0⟩,
  ⟨0x30c, 1, 0x4, 0xffffffff, 0x0, 0x0, 0x0, 0x0, 0x0⟩,
  ⟨0x310, 1, 0x4, 0x0, 0x0, 0x0, 0x0, 0x0, 0x0⟩,
  ⟨0x314, 1, 0x4, 0x0, 0x0, 0x0, 0x0, 0xffffffff, 0x0⟩,
  ⟨0x318, 1, 0x4, 0x80000000, 0x0, 0x0, 0x0, 0x0, 0x0⟩,
  ⟨0x31c, 1, 0x4, 0x0, 0x0, 0x0, 0x0, 0x0, 0x0⟩,
  ⟨0x320, 1, 0x4, 0x0, 0x0, 0x0, 0x0, 0x0, 0x0⟩]

/-- Rows of a lane window, offsets counted from the window (R74, R131, R190, R283). -/
def laneRows : List RegRow := laneRows0 ++ laneRows1

/-- Rows of every other block, offsets in the register space (R498), part 0. -/
def flatRows0 : List RegRow := [
  ⟨0x0, 1, 0x4, 0x71281a00, 0x0, 0x0, 0x0, 0x0, 0x0⟩,
  ⟨0x4, 1, 0x4, 0x0, 0x0, 0x0, 0x0, 0x0, 0x0⟩,
  ⟨0x8, 1, 0x4, 0x0, 0x0, 0x0, 0x0, 0x0, 0x0⟩,
  ⟨0x100, 1, 0x4, 0x14, 0x0, 0x0, 0x0, 0x0, 0x0⟩,
  ⟨0x104, 1, 0x4, 0x1, 0x0, 0x0, 0x0, 0x0, 0x0⟩,
  ⟨0x108, 1, 0x4, 0x0, 0x0, 0x0, 0x1, 0x0, 0x0⟩,
  ⟨0x10c, 1, 0x4, 0x0, 0x0, 0x0, 0x0, 0x0, 0xffffffff⟩,
  ⟨0x110, 1, 0x4, 0x0, 0x0, 0x0, 0x0, 0x0, 0x0⟩,
  ⟨0x114, 1, 0x4, 0x0, 0x0, 0x0, 0x0, 0x0, 0xffffffff⟩,
  ⟨0x118, 1, 0x4, 0x0, 0x0, 0x0, 0x0, 0x0, 0x0⟩,
  ⟨0x200, 1, 0x4, 0x0, 0x3f, 0x0, 0x0, 0x0, 0x0⟩,
  ⟨0x204, 1, 0x4, 0x1f, 0x3ff, 0x0, 0x0, 0x0, 0x0⟩,
  ⟨0x208, 1, 0x4, 0x0, 0x0, 0x3ff, 0x0, 0x0, 0x0⟩,
  ⟨0x20c, 1, 0x4, 0x320, 0x3ff, 0x0, 0x0, 0x0, 0x0⟩,
  ⟨0x210, 1, 0x4, 0x0, 0x0, 0x0, 0x0, 0x0, 0x0⟩,
  ⟨0x182000, 1, 0x4, 0x3, 0x3, 0x0, 0x0, 0x0, 0x0⟩,
  ⟨0x182004, 1, 0x4, 0x0, 0x0, 0x0, 0x0, 0x0, 0x0⟩,
  ⟨0x182008, 1, 0x4, 0x0, 0x0, 0x0, 0x0, 0x0, 0x0⟩,
  ⟨0x18200c, 1, 0x4, 0x0, 0x0, 0x0, 0x0, 0xffffffff, 0x0⟩,
  ⟨0x200000, 1, 0x4, 0x1, 0x0, 0x0, 0x0, 0x0, 0x0⟩,
  ⟨0x200004, 1, 0x4, 0x0, 0x0, 0x0, 0x0, 0x0, 0x0⟩,
  ⟨0x200008, 1, 0x4, 0x0, 0x0, 0x0, 0x0, 0x0, 0x0⟩,
  ⟨0x200010, 1, 0x4, 0x1, 0x0, 0x0, 0x3, 0x0, 0x0⟩,
  ⟨0x200014, 1, 0x4, 0x0, 0x0, 0x0, 0x0, 0xffffffff, 0x0⟩]

/-- Rows of every other block, offsets in the register space (R498), part 1. -/
def flatRows1 : List RegRow := [
  ⟨0x200018, 1, 0x4, 0x0, 0x0, 0x0, 0x0, 0x0, 0x0⟩,
  ⟨0x200020, 1, 0x4, 0x0, 0x0, 0x0, 0x0, 0x0, 0x0⟩,
  ⟨0x200024, 1, 0x4, 0x0, 0x0, 0x0, 0x0, 0x0, 0x0⟩,
  ⟨0x200028, 1, 0x4, 0x0, 0x0, 0x0, 0x0, 0x0, 0x0⟩,
  ⟨0x20002c, 1, 0x4, 0x0, 0x0, 0x0, 0x0, 0x0, 0x0⟩,
  ⟨0x200040, 1, 0x4, 0x0, 0x0, 0x0, 0x0, 0x0, 0x0⟩,
  ⟨0x200044, 1, 0x4, 0x840003e8, 0x8f00ffff, 0x0, 0x0, 0x0, 0x0⟩,
  ⟨0x200048, 1, 0x4, 0x0, 0x0, 0x0, 0x0, 0xffffffff, 0x0⟩,
  ⟨0x20004c, 1, 0x4, 0x0, 0x0, 0x0, 0x0, 0x0, 0xffffffff⟩,
  ⟨0x200050, 1, 0x4, 0x0, 0x0, 0x0, 0x1ff, 0x0, 0x0⟩,
  ⟨0x200080, 1, 0x4, 0x0, 0x0, 0x0, 0xffffffff, 0x0, 0x0⟩,
  ⟨0x200084, 1, 0x4, 0x0, 0x0, 0x0, 0x3, 0x0, 0x0⟩,
  ⟨0x200088, 1, 0x4, 0x0, 0x0, 0x0, 0x0, 0x0, 0x0⟩,
  ⟨0x20008c, 1, 0x4, 0x0, 0x0, 0x0, 0x0, 0x0, 0x0⟩,
  ⟨0x200090, 1, 0x4, 0x0, 0x0, 0x0, 0x0, 0x0, 0x0⟩,
  ⟨0x200094, 1, 0x4, 0x0, 0x0, 0x0, 0x0, 0x0, 0x0⟩,
  ⟨0x200098, 1, 0x4, 0x0, 0x0, 0x0, 0x0, 0x0, 0x0⟩,
  ⟨0x20009c, 1, 0x4, 0x0, 0x0, 0x0, 0x0, 0xffff, 0x0⟩,
  ⟨0x200400, 128, 0x4, 0x0, 0x0, 0x0, 0x0, 0x0, 0x0⟩,
  ⟨0x201000, 272, 0x4, 0x0, 0x0, 0x0, 0x0, 0x0, 0x0⟩,
  ⟨0x201800, 272, 0x4, 0x0, 0x0, 0x0, 0x0, 0x0, 0x0⟩,
  ⟨0x300000, 1, 0x4, 0x0, 0x0, 0x0, 0x0, 0x0, 0x0⟩,
  ⟨0x300004, 1, 0x4, 0x0, 0x0, 0x0, 0x0, 0x0, 0x0⟩,
  ⟨0x300010, 1, 0x4, 0x1, 0x80000fff, 0x0, 0x0, 0x0, 0x40000000⟩]

/-- Rows of every other block, offsets in the register space (R498), part 2. -/
def flatRows2 : List RegRow := [
  ⟨0x300014, 1, 0x4, 0x0, 0x0, 0x0, 0x0, 0x0, 0x0⟩,
  ⟨0x300018, 1, 0x4, 0x0, 0x0, 0x0, 0x0, 0x0, 0x0⟩,
  ⟨0x300020, 1, 0x4, 0x0, 0x0, 0x0, 0x0, 0x0, 0x0⟩,
  ⟨0x300400, 128, 0x4, 0x0, 0x0, 0x0, 0x0, 0xffff, 0x0⟩,
  ⟨0x300800, 128, 0x4, 0x80000000, 0x0, 0x0, 0x0, 0x0, 0x0⟩,
  ⟨0x400000, 1, 0x4, 0x2, 0x0, 0x0, 0x0, 0x0, 0x0⟩,
  ⟨0x400004, 1, 0x4, 0x0, 0x0, 0x0, 0x0, 0x0, 0x0⟩,
  ⟨0x400010, 1, 0x4, 0x80000000, 0x0, 0x0, 0x0, 0x0, 0x0⟩,
  ⟨0x400014, 1, 0x4, 0x2, 0x0, 0x0, 0x0, 0x0, 0x0⟩,
  ⟨0x400020, 1, 0x4, 0x0, 0x0, 0x0, 0x0, 0x0, 0x0⟩,
  ⟨0x400024, 1, 0x4, 0x0, 0x0, 0x0, 0x0, 0x0, 0x0⟩,
  ⟨0x400028, 1, 0x4, 0x0, 0x0, 0x0, 0x0, 0x0, 0x0⟩,
  ⟨0x40002c, 1, 0x4, 0x0, 0x0, 0x0, 0x0, 0x0, 0x0⟩,
  ⟨0x400030, 1, 0x4, 0x0, 0x0, 0x0, 0x0, 0x0, 0x0⟩,
  ⟨0x400040, 1, 0x4, 0x864003e8, 0xcfffffff, 0x0, 0x0, 0x0, 0x0⟩,
  ⟨0x400044, 1, 0x4, 0x0, 0x0, 0x0, 0x0, 0x0, 0x0⟩,
  ⟨0x400048, 1, 0x4, 0x0, 0x0, 0x0, 0x0, 0x0, 0x0⟩,
  ⟨0x40004c, 1, 0x4, 0x0, 0x0, 0x0, 0x0, 0x0, 0x0⟩,
  ⟨0x400050, 1, 0x4, 0x0, 0x7ffff, 0x0, 0x0, 0x0, 0x0⟩,
  ⟨0x400060, 4, 0x4, 0x0, 0xffffffff, 0x0, 0x0, 0x0, 0x0⟩,
  ⟨0x400070, 1, 0x4, 0x3e8000a, 0xffffffff, 0x0, 0x0, 0x0, 0x0⟩,
  ⟨0x400100, 1, 0x4, 0x0, 0x80000000, 0x0, 0x0, 0x0, 0x0⟩,
  ⟨0x400104, 1, 0x4, 0x0, 0x0, 0x0, 0x0, 0xffff, 0x0⟩,
  ⟨0x400108, 1, 0x4, 0x0, 0xffffffff, 0x0, 0x0, 0x0, 0x0⟩]

/-- Rows of every other block, offsets in the register space (R498), part 3. -/
def flatRows3 : List RegRow := [
  ⟨0x40010c, 1, 0x4, 0x0, 0xffff, 0x0, 0x0, 0x0, 0x0⟩,
  ⟨0x400110, 1, 0x4, 0x0, 0xffffff, 0x0, 0x0, 0x0, 0x0⟩,
  ⟨0x400114, 1, 0x4, 0x0, 0xffffff, 0x0, 0x0, 0x0, 0x0⟩,
  ⟨0x400120, 1, 0x4, 0x0, 0x0, 0x0, 0x0, 0x8fffffff, 0x0⟩,
  ⟨0x400124, 1, 0x4, 0x0, 0x0, 0x0, 0x0, 0x0, 0x0⟩,
  ⟨0x400128, 1, 0x4, 0x0, 0x0, 0x0, 0x0, 0x0, 0x0⟩,
  ⟨0x40012c, 1, 0x4, 0x0, 0x0, 0x0, 0x0, 0x0, 0x0⟩,
  ⟨0x400130, 1, 0x4, 0x0, 0x0, 0x0, 0x0, 0xffffffff, 0x0⟩,
  ⟨0x480000, 1, 0x4, 0xf000000, 0x0, 0x0, 0x0, 0xffff, 0x0⟩,
  ⟨0x480004, 1, 0x4, 0x803e812c, 0xe7ffffff, 0x0, 0x0, 0x0, 0x0⟩,
  ⟨0x480008, 1, 0x4, 0x4b, 0x3fff, 0x0, 0x0, 0x0, 0x0⟩,
  ⟨0x48000c, 1, 0x4, 0x0, 0x0, 0x0, 0x0, 0x0, 0x0⟩,
  ⟨0x480010, 1, 0x4, 0x0, 0x0, 0x0, 0x0, 0x0, 0x0⟩,
  ⟨0x480014, 1, 0x4, 0x140a0032, 0xffffffff, 0x0, 0x0, 0x0, 0x0⟩,
  ⟨0x480018, 1, 0x4, 0x0, 0x0, 0x0, 0x0, 0x0, 0xffffffff⟩,
  ⟨0x480020, 1, 0x4, 0x15180, 0xf81fffff, 0x0, 0x0, 0x0, 0x0⟩,
  ⟨0x480024, 1, 0x4, 0x0, 0x0, 0x0, 0x0, 0x0, 0x0⟩,
  ⟨0x480028, 1, 0x4, 0x0, 0x0, 0x0, 0x0, 0x0, 0x0⟩,
  ⟨0x48002c, 1, 0x4, 0x0, 0xffff, 0x0, 0x0, 0x0, 0x0⟩,
  ⟨0x480030, 1, 0x4, 0x0, 0x0, 0x0, 0x0, 0x0, 0x0⟩,
  ⟨0x480034, 1, 0x4, 0x0, 0x0, 0x0, 0x0, 0x0, 0x0⟩,
  ⟨0x480040, 2, 0x4, 0x400186a0, 0xe007ffff, 0x0, 0x0, 0x0, 0x0⟩,
  ⟨0x480048, 2, 0x4, 0x0, 0xffffffff, 0x0, 0x0, 0x0, 0x0⟩,
  ⟨0x480050, 2, 0x4, 0x40000000, 0xe0000003, 0x0, 0x0, 0x0, 0x0⟩]

/-- Rows of every other block, offsets in the register space (R498), part 4. -/
def flatRows4 : List RegRow := [
  ⟨0x480100, 8, 0x20, 0x0, 0xbd0dff80, 0x0, 0x0, 0x0, 0x0⟩,
  ⟨0x480104, 8, 0x20, 0x11f801f4, 0xffffffff, 0x0, 0x0, 0x0, 0x0⟩,
  ⟨0x480108, 8, 0x20, 0x0, 0x1ffff, 0x0, 0x0, 0x0, 0x0⟩,
  ⟨0x48010c, 8, 0x20, 0x0, 0x0, 0x0, 0x0, 0x0, 0x0⟩,
  ⟨0x480110, 8, 0x20, 0x80000000, 0x0, 0x0, 0x0, 0x0, 0x0⟩,
  ⟨0x480114, 8, 0x20, 0x80000000, 0x0, 0x0, 0x0, 0x0, 0x0⟩,
  ⟨0x480118, 8, 0x20, 0x0, 0xffffffff, 0x0, 0x0, 0x0, 0x0⟩,
  ⟨0x500000, 1, 0x4, 0x2, 0x0, 0x0, 0x7, 0x0, 0x0⟩,
  ⟨0x500004, 1, 0x4, 0x0, 0x0, 0x0, 0xffffffff, 0x0, 0x0⟩,
  ⟨0x500008, 1, 0x4, 0x0, 0x0, 0x0, 0x0, 0x0, 0x0⟩,
  ⟨0x50000c, 1, 0x4, 0x0, 0x0, 0x0, 0x0, 0x0, 0x0⟩,
  ⟨0x500010, 1, 0x4, 0x0, 0x0, 0x0, 0x0, 0x0, 0x0⟩,
  ⟨0x500014, 1, 0x4, 0x1, 0x0, 0x0, 0x7fffffff, 0x0, 0x0⟩,
  ⟨0x500018, 1, 0x4, 0x0, 0x0, 0x0, 0x0, 0x0, 0x0⟩,
  ⟨0x500020, 4, 0x4, 0x0, 0xffffffff, 0x0, 0x0, 0x0, 0x0⟩,
  ⟨0x500030, 1, 0x4, 0x0, 0xff, 0x0, 0x0, 0x0, 0x0⟩,
  ⟨0x500034, 1, 0x4, 0x0, 0x0, 0x0, 0x0, 0x0, 0x0⟩,
  ⟨0x500040, 1, 0x4, 0xa0, 0x7ffff, 0x0, 0x0, 0x0, 0x0⟩,
  ⟨0x500044, 1, 0x4, 0x0, 0x0, 0x0, 0x0, 0x0, 0x0⟩,
  ⟨0x500048, 1, 0x4, 0x0, 0x0, 0x0, 0x0, 0x0, 0x0⟩,
  ⟨0x500050, 1, 0x4, 0x0, 0x0, 0x0, 0x0, 0xffff, 0x0⟩,
  ⟨0x500054, 1, 0x4, 0x0, 0x0, 0x0, 0x0, 0x0, 0x0⟩,
  ⟨0x500060, 1, 0x4, 0x0, 0x0, 0x0, 0x0, 0x0, 0x0⟩,
  ⟨0x500064, 1, 0x4, 0x0, 0x0, 0x0, 0x0, 0xffffffff, 0x0⟩]

/-- Rows of every other block, offsets in the register space (R498), part 5. -/
def flatRows5 : List RegRow := [
  ⟨0x500068, 1, 0x4, 0xffffffff, 0x0, 0x0, 0x0, 0x0, 0x0⟩,
  ⟨0x500070, 1, 0x4, 0x0, 0x0, 0x0, 0x0, 0x0, 0x0⟩,
  ⟨0x50007c, 1, 0x4, 0x0, 0x0, 0x0, 0x0, 0x0, 0xffffffff⟩,
  ⟨0x600000, 1, 0x4, 0x0, 0x0, 0x0, 0x0, 0x0, 0x0⟩,
  ⟨0x600004, 1, 0x4, 0x0, 0x0, 0x0, 0x0, 0x0, 0xffffffff⟩,
  ⟨0x600008, 1, 0x4, 0x0, 0xffff, 0x0, 0x0, 0x0, 0x0⟩,
  ⟨0x60000c, 1, 0x4, 0x0, 0x0, 0x3e, 0x0, 0x0, 0x0⟩,
  ⟨0x600010, 1, 0x4, 0x0, 0xfffff000, 0x0, 0x0, 0x0, 0x0⟩,
  ⟨0x600014, 1, 0x4, 0x0, 0xffffffff, 0x0, 0x0, 0x0, 0x0⟩,
  ⟨0x600018, 1, 0x4, 0x0, 0xfffff000, 0x0, 0x0, 0x0, 0x0⟩,
  ⟨0x60001c, 1, 0x4, 0x0, 0xffffffff, 0x0, 0x0, 0x0, 0x0⟩,
  ⟨0x600020, 1, 0x4, 0x2710, 0xffff, 0x0, 0x0, 0x0, 0x0⟩,
  ⟨0x600024, 1, 0x4, 0x0, 0x0, 0x0, 0x0, 0xffffffff, 0x0⟩,
  ⟨0x600028, 1, 0x4, 0x0, 0xfffff000, 0x0, 0x0, 0x0, 0x0⟩,
  ⟨0x60002c, 1, 0x4, 0x0, 0xffffffff, 0x0, 0x0, 0x0, 0x0⟩,
  ⟨0x600030, 1, 0x4, 0x11906, 0xbfffffcf, 0x0, 0x0, 0x0, 0x0⟩,
  ⟨0x600038, 1, 0x4, 0x0, 0xfffff000, 0x0, 0x0, 0x0, 0x0⟩,
  ⟨0x60003c, 1, 0x4, 0x0, 0xffffffff, 0x0, 0x0, 0x0, 0x0⟩,
  ⟨0x600040, 1, 0x4, 0x1904, 0xbf00ffcf, 0x0, 0x0, 0x0, 0x0⟩,
  ⟨0x600100, 16, 0x10, 0x0, 0xfffff000, 0x0, 0x0, 0x0, 0x0⟩,
  ⟨0x600104, 16, 0x10, 0x0, 0xffffffff, 0x0, 0x0, 0x0, 0x0⟩,
  ⟨0x600108, 16, 0x10, 0x4, 0xcf00000f, 0x0, 0x0, 0x0, 0x0⟩,
  ⟨0x60010c, 16, 0x10, 0x0, 0x0, 0x0, 0x0, 0x0, 0x0⟩,
  ⟨0x600200, 16, 0x10, 0x0, 0xfffff000, 0x0, 0x0, 0x0, 0x0⟩]

/-- Rows of every other block, offsets in the register space (R498), part 6. -/
def flatRows6 : List RegRow := [
  ⟨0x600204, 16, 0x10, 0x0, 0xffffffff, 0x0, 0x0, 0x0, 0x0⟩,
  ⟨0x600208, 16, 0x10, 0x11904, 0xbfffffcf, 0x0, 0x0, 0x0, 0x0⟩,
  ⟨0x60020c, 16, 0x10, 0x0, 0x0, 0x0, 0x0, 0x0, 0x0⟩,
  ⟨0x608000, 64, 0x10, 0x0, 0xfffffffc, 0x0, 0x0, 0x0, 0x0⟩,
  ⟨0x608004, 64, 0x10, 0x0, 0xffffffff, 0x0, 0x0, 0x0, 0x0⟩,
  ⟨0x608008, 64, 0x10, 0x0, 0xffffffff, 0x0, 0x0, 0x0, 0x0⟩,
  ⟨0x60800c, 64, 0x10, 0x1, 0x1, 0x0, 0x0, 0x0, 0x0⟩,
  ⟨0x609000, 2, 0x4, 0x0, 0x0, 0x0, 0x0, 0x0, 0x0⟩,
  ⟨0x680000, 1, 0x4, 0x80000000, 0xc0000000, 0x0, 0x0, 0x0, 0x0⟩,
  ⟨0x680004, 1, 0x4, 0x0, 0x0, 0x0, 0x0, 0x0, 0x0⟩,
  ⟨0x680008, 1, 0x4, 0x0, 0x0, 0x0, 0x0, 0xffffffff, 0x0⟩,
  ⟨0x68000c, 1, 0x4, 0x0, 0x0, 0x0, 0x0, 0xffff, 0x0⟩,
  ⟨0x680010, 1, 0x4, 0x3e8, 0xffff, 0x0, 0x0, 0x0, 0xc0000000⟩,
  ⟨0x680014, 1, 0x4, 0x0, 0x0, 0x0, 0x0, 0x0, 0x0⟩,
  ⟨0x680018, 1, 0x4, 0x0, 0x0, 0x0, 0x0, 0x0, 0x0⟩,
  ⟨0x680040, 16, 0x4, 0x0, 0xffffffff, 0x0, 0x0, 0x0, 0x0⟩,
  ⟨0x680080, 4, 0x4, 0x0, 0x0, 0x0, 0x0, 0x0, 0x0⟩,
  ⟨0x6800c0, 1, 0x4, 0x0, 0x0, 0x0, 0x0, 0x0, 0xe0000000⟩,
  ⟨0x6800c4, 1, 0x4, 0x0, 0xffffffff, 0x0, 0x0, 0x0, 0x0⟩,
  ⟨0x6800c8, 1, 0x4, 0x0, 0x0, 0x0, 0x0, 0x0, 0x0⟩,
  ⟨0x681000, 1024, 0x4, 0x0, 0xffffffff, 0x0, 0x0, 0x0, 0x0⟩,
  ⟨0x700000, 1, 0x4, 0x0, 0x3, 0x0, 0x0, 0x0, 0x0⟩,
  ⟨0x700004, 1, 0x4, 0x0, 0x0, 0x0, 0x0, 0xffffffff, 0x0⟩,
  ⟨0x700008, 1, 0x4, 0x0, 0x0, 0x0, 0x0, 0x0, 0xffff⟩]

/-- Rows of every other block, offsets in the register space (R498), part 7. -/
def flatRows7 : List RegRow := [
  ⟨0x70000c, 1, 0x4, 0x0, 0x0, 0x0, 0x0, 0x0, 0xff⟩,
  ⟨0x700010, 4, 0x4, 0x0, 0xffffc000, 0x0, 0x0, 0x0, 0x0⟩,
  ⟨0x700020, 4, 0x4, 0x7ff001f, 0x80000000, 0x0, 0x0, 0x0, 0x0⟩,
  ⟨0x701000, 1280, 0x4, 0x10000, 0x1f13f, 0x8000000, 0x0, 0x0, 0x2000000⟩,
  ⟨0x703000, 40, 0x4, 0x0, 0x0, 0x0, 0x0, 0x0, 0x0⟩,
  ⟨0x800000, 1, 0x4, 0x0, 0x1, 0x0, 0x0, 0x0, 0x0⟩,
  ⟨0x800004, 1, 0x4, 0xe, 0xe, 0x0, 0x0, 0x0, 0x0⟩,
  ⟨0x800008, 1, 0x4, 0x0, 0x0, 0x0, 0x0, 0x0, 0x0⟩,
  ⟨0x80000c, 1, 0x4, 0x0, 0x0, 0x0, 0x80000000, 0x0, 0x0⟩,
  ⟨0x800010, 1, 0x4, 0x7d0, 0xffff, 0x0, 0x0, 0x0, 0x0⟩,
  ⟨0x800014, 1, 0x4, 0x0, 0x0, 0x0, 0x0, 0x0, 0xffffffff⟩,
  ⟨0x800020, 1, 0x4, 0x0, 0x0, 0x0, 0x0, 0xffffffff, 0x0⟩,
  ⟨0x800024, 1, 0x4, 0x0, 0x0, 0x0, 0x0, 0x0, 0x0⟩,
  ⟨0x800028, 1, 0x4, 0x0, 0x0, 0x0, 0x0, 0xffffffff, 0x0⟩,
  ⟨0x800030, 1, 0x4, 0x800003e8, 0x8000ffff, 0x0, 0x0, 0x0, 0x0⟩,
  ⟨0x800034, 1, 0x4, 0x0, 0x0, 0x0, 0x0, 0x0, 0x0⟩,
  ⟨0x800038, 1, 0x4, 0x0, 0x0, 0x0, 0x0, 0x0, 0x0⟩,
  ⟨0x800040, 1, 0x4, 0x44444444, 0xffffffff, 0x0, 0x0, 0x0, 0x0⟩,
  ⟨0x800044, 1, 0x4, 0x14128, 0xfffff, 0x0, 0x0, 0x0, 0x0⟩,
  ⟨0x800048, 1, 0x4, 0x0, 0x0, 0x0, 0x0, 0xffff0000, 0x0⟩,
  ⟨0x80004c, 1, 0x4, 0x0, 0x0, 0x0, 0x0, 0x0, 0x0⟩,
  ⟨0x800050, 1, 0x4, 0x0, 0x0, 0x0, 0x0, 0xffff0000, 0x0⟩,
  ⟨0x800054, 1, 0x4, 0x0, 0x0, 0x0, 0x0, 0x0, 0x0⟩,
  ⟨0x801000, 1, 0x4, 0x0, 0x0, 0x0, 0xf, 0x0, 0x0⟩]

/-- Rows of every other block, offsets in the register space (R498), part 8. -/
def flatRows8 : List RegRow := [
  ⟨0x801100, 4, 0x20, 0x0, 0x0, 0xff, 0x0, 0x0, 0x0⟩,
  ⟨0x801104, 4, 0x20, 0x10, 0x8000003f, 0x0, 0x0, 0x0, 0x0⟩,
  ⟨0x801108, 4, 0x20, 0x2710, 0xfffff, 0x0, 0x0, 0x0, 0x0⟩,
  ⟨0x80110c, 4, 0x20, 0x0, 0x0, 0x0, 0x0, 0xffff0000, 0x0⟩,
  ⟨0x801110, 4, 0x20, 0x0, 0x0, 0x0, 0x0, 0xfff0ffff, 0x0⟩,
  ⟨0x801114, 4, 0x20, 0x0, 0x0, 0x0, 0x0, 0x0, 0x0⟩,
  ⟨0x802000, 1, 0x4, 0x0, 0x0, 0x0, 0x0, 0x0, 0x0⟩,
  ⟨0x802004, 1, 0x4, 0x0, 0x0, 0x0, 0x80000003, 0x0, 0x0⟩,
  ⟨0x802008, 1, 0x4, 0x0, 0x0, 0x6, 0x80000000, 0x0, 0x0⟩,
  ⟨0x80200c, 1, 0x4, 0x0, 0x0, 0x0, 0x80000007, 0x0, 0x0⟩,
  ⟨0x802010, 12, 0x4, 0x0, 0x0, 0x0, 0xffffffff, 0x0, 0x0⟩,
  ⟨0x802040, 1, 0x4, 0x0, 0x0, 0x0, 0x0, 0x0, 0x0⟩,
  ⟨0x802044, 1, 0x4, 0x0, 0x0, 0x0, 0x8000000b, 0x0, 0x0⟩,
  ⟨0x802048, 1, 0x4, 0x0, 0x0, 0x0, 0x80003f00, 0x0, 0x0⟩,
  ⟨0x802050, 1, 0x4, 0x0, 0x0, 0x0, 0x0, 0xffff, 0x0⟩,
  ⟨0x802080, 1, 0x4, 0x0, 0x0, 0x0, 0x0, 0x0, 0x0⟩,
  ⟨0x802100, 24, 0x4, 0x0, 0x0, 0x0, 0x0, 0x0, 0x0⟩,
  ⟨0x802180, 12, 0x4, 0x0, 0x0, 0x0, 0x0, 0x0, 0x0⟩,
  ⟨0x8021c0, 4, 0x4, 0x0, 0x0, 0x0, 0x0, 0x0, 0x0⟩,
  ⟨0x900000, 130, 0x100, 0x0, 0x3, 0x0, 0x0, 0x0, 0x0⟩,
  ⟨0x900004, 130, 0x100, 0x0, 0x80000003, 0x0, 0x0, 0x0, 0x40000000⟩,
  ⟨0x900008, 130, 0x100, 0x0, 0xb0000003, 0x4000000, 0x0, 0x0, 0x40000000⟩,
  ⟨0x900010, 130, 0x100, 0x0, 0x0, 0x0, 0x0, 0x0, 0x0⟩,
  ⟨0x900014, 130, 0x100, 0x0, 0x0, 0x0, 0x0, 0x0, 0x0⟩]

/-- Rows of every other block, offsets in the register space (R498), part 9. -/
def flatRows9 : List RegRow := [
  ⟨0x900018, 130, 0x100, 0x0, 0x0, 0x0, 0x0, 0x0, 0x0⟩,
  ⟨0x90001c, 130, 0x100, 0x0, 0x0, 0x0, 0x0, 0x0, 0x0⟩]

/-- Rows of every other block, offsets in the register space (R498). -/
def flatRows : List RegRow := flatRows0 ++ flatRows1 ++ flatRows2 ++ flatRows3 ++ flatRows4 ++ flatRows5 ++ flatRows6 ++ flatRows7 ++ flatRows8 ++ flatRows9

/-- The row that holds an offset of a row list, if one does. -/
def findRow (rows : List RegRow) (off : Nat) : Option RegRow :=
  rows.find? fun r => decide (r.off ≤ off ∧ off < r.off + r.count * r.stride) && ((off - r.off) % r.stride == 0)

/-- Whether an offset lies in a lane window, and the lane number it belongs to. -/
def laneOfOffset (off : Nat) : Option Nat :=
  if 0x100000 ≤ off ∧ off < 0x180000 then some ((off - 0x100000) / 0x1000)
  else if 0x180000 ≤ off ∧ off < 0x182000 then some (128 + (off - 0x180000) / 0x1000)
  else none

/-- The register row at an offset of the register space. On M0 and M1 the steering offsets are absent (R187). -/
def regRow (off : Nat) : Option RegRow :=
  match laneOfOffset off with
  | some n =>
    let o := off % 0x1000
    if 128 ≤ n ∧ 0x200 ≤ o ∧ o < 0x210 then none else findRow laneRows o
  | none => findRow flatRows off

/-- Edge sources of the interrupt controller (R411). Every other source is level, or unlisted. -/
def icIsEdge (n : Nat) : Bool :=
  decide (n ≤ 15 ∨ n = 33 ∨ n = 36 ∨ n = 37 ∨ n = 39 ∨ (43 ≤ n ∧ n ≤ 46) ∨ (256 ≤ n ∧ n ≤ 263)
    ∨ (272 ≤ n ∧ n ≤ 277) ∨ (288 ≤ n ∧ n ≤ 559) ∨ (1024 ≤ n ∧ n ≤ 1279))

/-- Level sources of the interrupt controller (R411). -/
def icIsLevel (n : Nat) : Bool :=
  decide ((16 ≤ n ∧ n ≤ 23) ∨ n = 32 ∨ n = 34 ∨ n = 35 ∨ n = 38 ∨ (40 ≤ n ∧ n ≤ 42) ∨ n = 47 ∨ (64 ≤ n ∧ n ≤ 193))

/-- The reset value of every register: the row's value, with the values that vary by instance. Fuses, calibration and
straps are as spec 18 names them; facet registers read 0 until the start-up test sets them (log entry 6). -/
def resetReg (off : Nat) : Word :=
  if off = R.GCTL_DEVNUM_LO then Config.deviceNumber.setWidth 32
  else if off = R.GCTL_DEVNUM_HI then (Config.deviceNumber >>> 32).setWidth 32
  else if off = R.GCTL_AVS then (Config.avsTargetMv.setWidth 32 <<< 16) ||| 0x320#32
  else if off = R.I3CT_STAT then 0x580000#32
  else if 0x480100 ≤ off ∧ off < 0x480200 ∧ off % 0x20 = 0 then
    if off = R.REF_CANDn_CTL 5 then 0x18000080#32
    else BitVec.ofNat 32 (0x4000000 * ((off - 0x480100) / 0x20 + 1))
  else if 0x480100 ≤ off ∧ off < 0x480200 ∧ off % 0x20 = 8 then
    let k := (off - 0x480108) / 0x20
    if k = 7 then 0x2710#32 else if k = 2 ∨ k = 3 ∨ k = 6 then 0x64#32 else 0x3E8#32
  else if 0x701000 ≤ off ∧ off < 0x702400 ∧ off % 4 = 0 then
    if icIsEdge ((off - 0x701000) / 4) then 0x4010000#32 else 0x10000#32
  else if 0x400060 ≤ off ∧ off < 0x400070 ∧ off % 4 = 0 then Config.ttCoefficient ((off - 0x400060) / 4)
  else match laneOfOffset off with
    | some n =>
      let o := off % 0x1000
      if o = 0x300 then (if n < 128 then BitVec.ofNat 32 (0xC0000000 + n) else 0x80000000#32)
      else if o = 0x31C then Config.ttBaseDelay n
      else if o = 0x320 then
        -- before the first update the delays in force are the base delays, transmit half above (R260, R283)
        let b := Config.ttBaseDelay n
        (b <<< 16) ||| (b >>> 16)
      else match regRow off with | some r => BitVec.ofNat 32 r.reset | none => 0
    | none => match regRow off with | some r => BitVec.ofNat 32 r.reset | none => 0

end Sys2Proof.Machine
end

