-- ==== Sys2Proof/Machine/Tbl.lean ====
section
/-!
DEFINITION. Sparse tables in one canonical form: keys strictly rising and no entry equal to what an unlisted
key reads as. Registers, lanes, memories, slot rings and pages are such tables, so equal contents are equal data.
-/
namespace Sys2Proof.Machine
open Sys2Proof

/-- A sparse table: key and value pairs in rising key order. -/
abbrev Tbl (α : Type) := List (Nat × α)

/-- The listed value at a key, if there is one. -/
def Tbl.find? {α : Type} : Tbl α → Nat → Option α
  | [], _ => none
  | (k', v) :: t, k => if k' = k then some v else Tbl.find? t k

/-- The value at a key; `d` says what an unlisted key reads as. -/
def Tbl.get {α : Type} (d : Nat → α) (t : Tbl α) (k : Nat) : α := (Tbl.find? t k).getD (d k)

/-- The table with the entry of a key removed. -/
def Tbl.erase {α : Type} : Tbl α → Nat → Tbl α
  | [], _ => []
  | (k', v) :: t, k => if k' = k then Tbl.erase t k else (k', v) :: Tbl.erase t k

/-- The table with an entry placed at a key. -/
def Tbl.insert {α : Type} : Tbl α → Nat → α → Tbl α
  | [], k, v => [(k, v)]
  | (k', v') :: t, k, v =>
    if k' = k then (k, v) :: t
    else if k < k' then (k, v) :: (k', v') :: t
    else (k', v') :: Tbl.insert t k v

/-- Write a value at a key, keeping the canonical form: writing what an unlisted key reads as removes the entry. -/
def Tbl.put {α : Type} [DecidableEq α] (d : Nat → α) (t : Tbl α) (k : Nat) (v : α) : Tbl α :=
  if v = d k then Tbl.erase t k else Tbl.insert t k v

/-- Every key of the table lies above `lo`, keys rise strictly, and no entry equals the unlisted value. -/
def Tbl.wfFrom {α : Type} [DecidableEq α] (d : Nat → α) : Option Nat → Tbl α → Bool
  | _, [] => true
  | lo, (k, v) :: t =>
    (match lo with | none => true | some l => decide (l < k)) && decide (v ≠ d k) && Tbl.wfFrom d (some k) t

/-- The canonical form. -/
def Tbl.wf {α : Type} [DecidableEq α] (d : Nat → α) (t : Tbl α) : Bool := Tbl.wfFrom d none t

/-- Byte memory (Host.Cell pairs). -/
abbrev Memory := List Host.Cell

/-- What a byte nothing has written reads as: 0 (working SRAM is cleared at start, R390). -/
def Memory.unlisted : Nat → Byte := fun _ => 0

/-- Read one byte. -/
def Memory.read (m : Memory) (a : Nat) : Byte := Tbl.get Memory.unlisted m a

/-- Write one byte, keeping the canonical form. -/
def Memory.write (m : Memory) (a : Nat) (b : Byte) : Memory := Tbl.put Memory.unlisted m a b

/-- Write consecutive bytes from an address. -/
def Memory.writeBytes : Memory → Nat → List Byte → Memory
  | m, _, [] => m
  | m, a, b :: bs => Memory.writeBytes (Memory.write m a b) (a + 1) bs

/-- Read consecutive bytes. -/
def Memory.readBytes (m : Memory) (a n : Nat) : List Byte := (List.range n).map fun i => Memory.read m (a + i)

/-- The canonical form of a memory: addresses strictly rising, no entry equal to the unlisted byte. -/
def Memory.wf (m : Memory) : Bool := Tbl.wf Memory.unlisted m

end Sys2Proof.Machine
end

