-- ==== Sys2Proof/Machine/State.lean ====
section
/-!
DEFINITION. The state of the IZ7128 as plain data: every register (one table keyed by offset), and beside it everything
the spec gives the machine that no register shows. INVENTORY.md lists each with its rule and reset value.
-/
namespace Sys2Proof.Machine
open Sys2Proof

/-- A set of receiver taps as a seed set, snapshot or stored record keeps it (R63): CTLE code, 24 FFE taps, 6 DFE taps,
CDR phase offset in 1/256 UI, and the lane die temperature in 1/16 °C and load class at capture. -/
structure TapSet where
  ctle : Nat := 0
  ffe : List Int := List.replicate 24 0
  dfe : List Int := List.replicate 6 0
  cdr : Int := 0
  temp : Int := 0
  loadClass : Nat := 0
  deriving DecidableEq, Repr

/-- A clapper candidate of the hunt (R110, R111). -/
structure Candidate where
  offset : Nat
  blockNo : Nat
  seqByte : Nat
  headers : Nat
  deriving DecidableEq, Repr

/-- Decode class of a block (R84). -/
inductive BlockClass where
  | clean
  | corrected
  | uncorrectable
  deriving DecidableEq, Repr

/-- The block last decoded on a lane: number, class, corrected symbols, the 16,960 data bits after correction, the raw
header, whether its header was judged good, and which overhead uses have been made of it. -/
structure RxBlock where
  no : Nat
  cls : BlockClass
  csym : Nat
  data : BitVec 16960
  rawHeader : BitVec 80
  headerJudged : Bool := false
  headerGood : Bool := false
  used : Bool := false
  deriving DecidableEq, Repr

/-- CMC mode of a lane (R106 to R108, R360). -/
inductive CmcMode where
  | none
  | terminated
  | courier (peer : Nat)
  deriving DecidableEq, Repr

/-- A CMC record: TYPE, FLAGS and body (R105), with the REEL_SEQ in which its last byte arrived (R107). -/
structure CmcRecord where
  type : Nat
  flags : Nat
  body : List Byte
  reel : Nat := 0
  deriving DecidableEq, Repr

/-- CMC state of a lane: mode, mode waiting for the boundary, record in progress, synchronisation, transmit queue,
courier queue and partly sent record (R104 to R108); while stream bytes in uncorrectable blocks are lost, how many of the bytes
since then belong to the record that was in progress (R106). -/
structure Cmc where
  mode : CmcMode := .none
  next : Option CmcMode := .none
  rxSync : Bool := false
  rxPart : List Byte := []
  txQueue : List CmcRecord := []
  txPart : List Byte := []
  courierPart : List Byte := []
  courierQueue : List CmcRecord := []
  rxLost : Option Nat := none
  deriving DecidableEq, Repr

/-- One received reel of a lane in the reel alignment buffer (R16): the blocks received, each with its bad flag and 64
grains. -/
structure RxReel where
  seq : Nat := 0
  valid : Bool := false
  blocks : List (Nat × Bool × List Grain) := []
  deriving DecidableEq, Repr

/-- The slip waiting for the next core reel (R16). -/
inductive Slip where
  | none
  | slow
  | fast
  deriving DecidableEq, Repr

/-- One departure or arrival stamp kept for the two-way exchange (R93, R263); `good` says that the reel control of an arrived
reel was not bad (R94). -/
structure Stamp where
  seq : Nat
  time : Nat
  epoch : Nat
  good : Bool := true
  deriving DecidableEq, Repr

/-- Time transfer on a lane (R261 to R265, R279 to R281): STEP_EPOCH of the previous exchange, offsets and delays of the last
4,096 exchanges with the newest first, run of delay discards, offset of the last exchange and own reel in which it was
made, last good offsets of the lane and, in the mate comparison, of the lead's lane, the delay at which the
serialiser phase stands in 1/256 ns, and whether one has been formed. -/
structure LaneTt where
  epoch : Option Nat := none
  ofs : List Int := []
  delay : List Int := []
  badRun : Nat := 0
  latest : Option Int := none
  lastReel : Option Nat := none
  good : Option Int := none
  mateGood : Option Int := none
  suspect : Bool := false
  trim : Int := 0
  trimmed : Bool := false
  deriving DecidableEq, Repr

/-- What a lane holds beyond its registers. Power: EN and AUTO_QUIET of the LANE_CTL last acted on (R68), clock at the last stop
notice (R67), clock of the newest snapshot (R58), the set that the start in progress starts from (R59, R64). Line: state of the
transmit precoder at the start and at the end of the reel being sent (R44). LOL asserted in the running 10 ms window (R49). Steering:
GUARD and TOL in force (R187), and LANE_ARRIVAL, guard and steering state as they stood at the start of the core reel (R188). -/
structure Lane where
  txPrecode : Bool := true
  rxPrecode : Bool := true
  chassis : Bool := false
  cursor : Nat := 6
  ffeInForce : Word := 0x34000E3C#32
  cdrPhase : Int := 0
  seed : TapSet := {}
  snapNew : Option TapSet := none
  snapOld : Option TapSet := none
  held : Option TapSet := none
  fofsOut : Nat := 0
  fofsIn : Nat := 0
  noticeLeft : Nat := 0
  txTarget : Nat := 4
  rxTarget : Nat := 4
  byEn : Bool := false
  autoQuiet : Bool := false
  sigPresent : Bool := false
  stopAt : Option Nat := none
  snapAt : Nat := 0
  startSet : TapSet := {}
  ctlEn : Bool := false
  ctlAutoQuiet : Bool := true
  txY : Nat := 0
  txYEnd : Nat := 0
  lolInWindow : Bool := false
  expectLos : Bool := false
  candidates : List Candidate := []
  barred : Option Nat := none
  offset : Nat := 0
  blkNo : Nat := 0
  reelByte : Option Nat := none
  badHeaders : Nat := 0
  badControls : Nat := 0
  reelsInBlock : Nat := 0
  qualRun : Nat := 0
  qualSeq : Nat := 0
  reelsSince : Nat := 0
  seqRun : Nat := 0
  fdiRun1 : Nat := 0
  fdiRun0 : Nat := 0
  bdiRun1 : Nat := 0
  bdiRun0 : Nat := 0
  ucbCount : Nat := 0
  ucbLowRun : Nat := 0
  csymCount : Nat := 0
  degHighRun : Nat := 0
  degLowRun : Nat := 0
  ucbSet : Nat := 125
  ucbClr : Nat := 12
  degSet : Nat := 224000
  degClr : Nat := 22400
  timMode : Nat := 1
  traceExp : List Byte := List.replicate 64 0
  traceExpTouched : Bool := false
  asm : List (List Byte) := []
  asmOk : Bool := false
  timDiffRun : Nat := 0
  timSameRun : Nat := 0
  traceTx : List Byte := List.replicate 64 0
  traceTxNext : Option (List Byte) := none
  blk : Option RxBlock := none
  rx : RxReel := {}
  slip : Slip := .none
  blanking : Bool := false
  steerCap : Bool := false
  ttCap : Bool := false
  timeDisc : Bool := false
  farArrival : Nat := 0xFFFFFFFF
  rptUcb : Nat := 0
  rptCsym : Nat := 0
  rptRescued : Nat := 0
  rptHdr : Nat := 0
  rptValid : Bool := false
  feLast : Option (Nat × Nat × Nat × Nat) := none
  ucbRose : Bool := false
  rescuedRose : Bool := false
  hist : List RxReel := []
  reelOff : Option Nat := none
  arrivals : List Stamp := []
  waits : List Nat := []
  skews : List Int := []
  skewStamps : List (Nat × Nat) := []
  steerId : Nat := 0
  steerNext : Nat := 1
  steerTail : Nat := 0
  steerG : Nat := 40
  steerT : Nat := 4
  waitAt : Nat := 0xFFFFFFFF
  guardAt : Nat := 40
  steerAt : Nat := 0
  capRun : Nat := 0
  ackRun : Nat := 0
  cmc : Cmc := {}
  tt : LaneTt := {}
  txOverhead : List (List Byte) := []
  deriving DecidableEq, Repr

/-- A log entry or event (R448, R352). `queued` and `restored` are its FLAGS. -/
structure LogEntry where
  tai : Nat
  epoch : Nat
  queued : Bool := false
  restored : Bool := false
  source : Nat
  code : Nat
  num : Nat := 0
  data : List Byte
  deriving DecidableEq, Repr

/-- A completion (R331) before its PHASE is known. -/
structure Completion where
  handle : Nat
  status : Nat
  outcome : Nat
  first : Bool
  final : Bool
  inherited : Bool := false
  fault : Bool := false
  result : Nat := 0
  deriving DecidableEq, Repr

/-- Handle states (R335). -/
inductive HandleState where
  | waiting
  | running
  | closed
  deriving DecidableEq, Repr

/-- An entry of the handle table (R327, R335): the descriptor as fetched (R328), whether the first completion has been
written, `pred` the handle it DEPENDS on and `after` the compile whose take it names while these are open (R341, R342),
`result` a first and final completion waiting for its turn, `held` a final completion waiting for the mate's ACK of record
`ack` (R234), `orphan` after a link reset, what a running command keeps (scatter list and context), and whether the
units of a mailbox command have all moved (R475). -/
structure Handle where
  handle : Nat
  opcode : Nat
  fence : Bool := false
  depends : Bool := false
  list : Bool := false
  bufAddr : Nat := 0
  bufLen : Nat := 0
  bufOffset : Nat := 0
  params : List Byte := []
  state : HandleState := .waiting
  firstWritten : Bool := false
  pred : Nat := 0
  after : Nat := 0
  result : Option Completion := none
  held : Option Completion := none
  ack : Nat := 0
  orphan : Bool := false
  sg : List (Nat × Nat) := []
  ctx : Nat := 0
  ready : Bool := false
  deriving DecidableEq, Repr

/-- A staged prefix of an object moving to the device (R348), kept for 10 s. -/
structure Staged where
  opcode : Nat
  params : List Byte
  data : List Byte
  deriving DecidableEq, Repr

/-- A CMC receive buffer posted by the host (R349). -/
structure CmcBuffer where
  entry : Nat
  addr : Nat
  len : Nat
  deriving DecidableEq, Repr

/-- Errors that the function reports through AER (R318). -/
inductive AerError where
  | completionTimeout
  | advisoryNonFatal
  | poisoned
  deriving DecidableEq, Repr

/-- Host interface state beyond its registers (R318 to R352): `cmcError` is state ERROR of the CMC receive ring (R321), `aer` the errors
reported through AER, one each. -/
structure Hif where
  hostMem : Memory := []
  cqTail : Tbl Nat := []
  cqHead : Tbl Nat := []
  cqPhase : Tbl Nat := []
  cqHeld : Tbl (List Completion) := []
  cqUnsig : Tbl Nat := []
  crCons : Tbl Nat := []
  crProd : Tbl Nat := []
  crEnHeld : Tbl Bool := []
  serial : Tbl Nat := []
  evTail : Nat := 0
  evHead : Nat := 0
  evPhase : Nat := 1
  evMissed : Nat := 0
  evUnsig : Nat := 0
  cmcCons : Nat := 0
  cmcPosted : List CmcBuffer := []
  cmcFill : Nat := 0
  statusSeq : Nat := 0
  handles : List Handle := []
  crLast : Tbl (Nat × Option Bool) := []
  mbxOut : List Completion := []
  orphans : List Completion := []
  staged : List Staged := []
  d3hot : Bool := false
  kickHeld : Bool := false
  fetchHeld : Bool := false
  msixSent : Tbl Nat := []
  cmcError : Bool := false
  aer : List AerError := []
  deriving DecidableEq, Repr

/-- Platform state beyond the GCTL registers: keep-alive started, sub-millisecond age, pins FAULT_N and PORST_N, the
state of REFCLK_A, REFCLK_B and XO_IN, block keys, the 1 s persistence of R39, the startup
tests, local reel boundaries until the lanes power down under the thermal cause and whether they have (R31), and whether a
fence cause has been detected that has not yet taken effect (R32), and whether PERST_N has been released since PORST_N. -/
structure Gctl where
  everAlive : Bool := false
  ageNs : Nat := 0
  faultN : Bool := true
  porstLow : Bool := false
  refA : Bool := true
  refB : Bool := true
  refSelB : Bool := false
  xoGood : Bool := true
  keyGctl : Bool := false
  keySsw : Bool := false
  keyPair : Bool := false
  keyMss : Bool := false
  memStuckNs : Nat := 0
  linkErrNs : Nat := 0
  thermalLeft : Nat := 0
  lanesDown : Bool := false
  causeNew : Bool := false
  perstHigh : Bool := false
  deriving DecidableEq, Repr

/-- A word latched for one reading master by a latching read (R500): master index, register offset and word. -/
structure Latch where
  master : Nat
  off : Nat
  value : Word
  deriving DecidableEq, Repr

/-- A valid connection entry (R148): colour, source beat and lane, circuit. LAG follows from the slot and the beat. -/
structure Conn where
  colour : Nat
  beat : Nat
  lane : Nat
  circuit : Nat
  deriving DecidableEq, Repr

/-- A circuit entry (R194). -/
structure CircEntry where
  flags : Nat
  label : Nat
  deriving DecidableEq, Repr

/-- A merge entry (R194): role, partner lane and merge-pair number. -/
structure MergeEntry where
  secondary : Bool
  partner : Nat
  mp : Nat
  deriving DecidableEq, Repr

/-- A page set with the header of its take image (R146, R151): connection memory by 2,048 m + t, facet map by colour,
circuit table by number, merge table by 2,048 ℓ + s. The write map follows from the connection memory (R149). `lost`
names words whose image is lost (R160). -/
structure PageSet where
  take : Nat := 0
  parent : Nat := 0xFFFFFFFF
  increment : Bool := false
  repair : Bool := false
  compileTime : Nat := 0
  conn : Tbl (Option Conn) := []
  facetMap : Tbl Nat := []
  circuits : Tbl (Option CircEntry) := []
  merges : Tbl (Option MergeEntry) := []
  lost : List (MemKind × Nat) := []
  deriving DecidableEq, Repr

/-- Kinds of colourist job (R141). -/
inductive JobKind where
  | full
  | increment
  | repair
  deriving DecidableEq, Repr

/-- A colourist job (R141, R153): its take, base, connection records and circuit section, and the host handle to
complete. -/
structure Job where
  kind : JobKind
  take : Nat
  base : Nat
  records : List Byte
  section_ : List Byte
  handle : Nat
  deriving DecidableEq, Repr

/-- A retirement in progress (R166 to R168, R503): the facet, its colour, the reserved replacement, whether it ends
FAILED rather than TESTING, and whether the new binding is in the standby set. -/
structure Retire where
  facet : Nat
  colour : Nat
  repl : Option Nat
  toFailed : Bool
  written : Bool
  deriving DecidableEq, Repr

/-- Slot store, page sets and colourist beyond their registers (spec 05, 06): `moreJobs` wait beside the host job (R153), `dirty` are the
standby words that a continuity write has lost (R156), `stuck` the entries that recurred in this fence (R39), and `due` the facets whose
retirement waits for firmware (R25). -/
structure Ssw where
  setA : PageSet := {}
  setB : PageSet := {}
  slots : Tbl (Grain × Bool) := []
  tx : Tbl Grain := []
  hostJob : Option Job := none
  moreJobs : List Job := []
  repairWaiting : Bool := false
  repairRunning : Bool := false
  retires : List Retire := []
  spliceHandle : Nat := 0
  refreshed : List (MemKind × Nat × Nat) := []
  seamCounted : List (MemKind × Nat) := []
  errWin : Tbl (Nat × Nat) := []
  cleanNs : Tbl Nat := []
  dirty : List (MemKind × Nat) := []
  stuck : List (MemKind × Nat) := []
  due : List Nat := []
  deriving DecidableEq, Repr

/-- A loupe bank (R207 to R210): counters by their offset in the dailies record (R214), circuits present and reused, and
the start of its interval. -/
structure Bank where
  counts : Tbl Nat := []
  present : List Nat := []
  reused : List Nat := []
  startReel : Nat := 0
  startTai : Nat := 0
  splices : Nat := 0
  deriving DecidableEq, Repr

/-- The dailies record header kept for the shadow (R214). -/
structure DailiesHead where
  seq : Nat
  flags : Nat
  endReel : Nat
  endTai : Nat
  take : Nat
  claim : Nat
  epoch : Nat
  deriving DecidableEq, Repr

/-- A lane pair (R198 to R206), `lo` its lower lane and `pri` its primary: anchor, once there is one, reels still to blank
after a fall of the anchor, pool buffers granted and how many have filled. -/
structure LanePair where
  lo : Nat
  hi : Nat
  pri : Nat
  anchor : Option Nat := none
  blank : Nat := 0
  bufs : Nat := 0
  fill : Nat := 0
  deriving DecidableEq, Repr

/-- FDI integration of a circuit (R129). -/
structure FdiRun where
  inFdi : Bool := false
  run : Nat := 0
  deriving DecidableEq, Repr

/-- A circuit change waiting for its effect reel (R195): whether it adds, and whether that reel has come while the standby was COMPILING or
RECEIVING. -/
structure CircChange where
  reel : Nat
  circuit : Nat
  flags : Nat
  label : Nat
  add : Bool
  waits : Bool := false
  handle : Nat
  deriving DecidableEq, Repr

/-- What a splice replaced, kept for its seam reel (R35, R197, R214): SSW_LAST_SPLICE, lane pairs, FDI states, circuits that had left, and
those present and reused in the running interval. -/
structure SpliceBefore where
  last : Nat
  pairs : List LanePair
  fdi : Tbl FdiRun
  left : List Nat
  present : List Nat
  reused : List Nat
  deriving DecidableEq, Repr

/-- Circuits, merge and loupe beyond their registers (spec 07): `pairs` of the active take, `newPairs` of an ordered take,
buffers `leaving` until the end of a seam reel, and `left`, the circuits that left the active table in the interval. `wanted` holds the
FLAGS of a capture that waits for its boundary, `deferred` FLAGS and handle of those that wait for the release of the shadow, and `before` what
the splice of the seam reel replaced. -/
structure Circ where
  live : Bank := {}
  frozen : Bank := {}
  shadow : Bank := {}
  head : DailiesHead := ⟨0, 0, 0, 0, 0, 0, 0⟩
  copying : Bool := false
  wanted : Option Nat := none
  wantedHandle : Nat := 0
  deferred : List (Nat × Nat) := []
  copyHandle : Nat := 0
  intervalNow : Nat := 1
  pairs : List LanePair := []
  newPairs : List LanePair := []
  leaving : Nat := 0
  fdi : Tbl FdiRun := []
  changes : List CircChange := []
  left : List Nat := []
  before : Option SpliceBefore := none
  deriving DecidableEq, Repr

/-- A continuity record sent by this unit and not yet acknowledged (R229, R231): kind, counter, APPLY_REEL and the body in
clear; `sent` counts how often it has been sent. -/
structure Record where
  kind : Nat
  counter : Nat
  applyReel : Nat := 0
  body : List Byte := []
  resent : Bool := false
  deriving DecidableEq, Repr

/-- A record on its way to the mate lanes, with the key and SESSION it is sent under (R230). -/
structure Outgoing where
  record : Record
  key : List Byte
  session : Nat
  deriving DecidableEq, Repr

/-- An accepted record with APPLY_REEL not 0, waiting for its reel (R233): reel, KIND and body. -/
structure JournalEntry where
  reel : Nat
  kind : Nat
  body : List Byte
  deriving DecidableEq, Repr

/-- A handle of the old lead as HANDLE records gave it (R232, R243). -/
structure MateHandle where
  handle : Nat
  opcode : Nat
  state : Nat
  status : Nat
  take : Nat
  reel : Nat
  deriving DecidableEq, Repr

/-- What a witness lane last said (R223). -/
structure Witness where
  absentRun : Nat := 0
  absent : Bool := false
  present : Bool := false
  dual : Bool := false
  other : Nat := 0
  deriving DecidableEq, Repr

/-- The order the lead has open (R238 to R240): splice handle, take, reel, tag, whether sent and acknowledged, and the
cancels that wait for the answer. -/
structure Order where
  handle : Nat
  take : Nat
  reel : Nat
  tag : Nat
  acked : Bool := false
  cancels : List Nat := []
  deriving DecidableEq, Repr

/-- A change of role and claim that waits for the next local reel boundary (R217): `clears` ends a fence (R38), and the
handle of the command that it completes (0 none). -/
structure PairChange where
  role : Nat
  claim : Nat
  clears : Bool := false
  handle : Nat := 0
  deriving DecidableEq, Repr

/-- Pair logic and continuity engine beyond the PAIR registers (spec 08). Session: SESSION, key and both nonces (R230), next
counters each way, counter acknowledged, records unacknowledged, records that wait to go out and how many grains of the first have gone
(R228), records accepted since the last ACK (R231). Join: step of
R245, whether this unit is the lead of it, its handle and take, TAI of failed authentications and the lockout (R246), a
snapshot that waits for a splice, and the last TIME_ALIGN as (REEL_SEQ, TAI_NS, STEP_EPOCH) (R235). Image in progress:
pieces, take, purpose (0 prepare, 1 catch-up, 2 snapshot, 3 increment), and whether it waits for MIRROR (R155, R250).
Takes: take whose digest has matched (R237), take whose PREPARED the lead awaits, the lead's order, next TAG, TAG and time
left of ACK_VALID (R226), take and reel of the order acknowledged here (R241). Evidence: E_seen (R219), claims seen on the
mate lanes, witnesses, runs of differing TAKE_ID (R242), frame runs of the heartbeat (R227), whether its last valid frame
had FENCED and the clock at that frame, time with all evidence absent (R224). Handles of the old lead; handover (R247) with its
handle, and whether this unit is the one that becomes lead; a yield and inherited handles
that firmware still has to finish; digests of the own active take (R249); catch-up splice armed or done (R250); take and
reel of the last splice that was not local (R243). -/
structure Pair where
  session : Nat := 0
  key : List Byte := []
  nonceOwn : List Byte := []
  nonceMate : List Byte := []
  txNext : Nat := 1
  rxNext : Nat := 1
  acked : Nat := 1
  unacked : List Record := []
  txQueue : List Outgoing := []
  txPos : Nat := 0
  sinceAck : Nat := 0
  joinStep : Nat := 0
  joinLead : Bool := false
  joinHandle : Nat := 0
  snapWaiting : Bool := false
  authFails : List Nat := []
  lockout : Bool := false
  align : Option (Nat × Nat × Nat) := none
  image : List (List Byte) := []
  imageTake : Nat := 0
  imagePurpose : Nat := 0
  imageBytes : Nat := 0
  imageDone : Bool := false
  imageWaiting : Bool := false
  matchedTake : Option Nat := none
  prepareTake : Nat := 0
  order : Option Order := none
  tagNext : Nat := 1
  ackTag : Nat := 0
  ackNs : Nat := 0
  ackOrder : Option (Nat × Nat) := none
  eSeen : Nat := 0
  mateClaims : Tbl Nat := []
  witness : Tbl Witness := []
  splitRun : Tbl Nat := []
  hbGoodRun : Nat := 0
  hbBadRun : Nat := 0
  hbFencedSign : Bool := false
  hbAt : Nat := 0
  absentNs : Nat := 0
  journal : List JournalEntry := []
  mateHandles : List MateHandle := []
  handoverHandle : Nat := 0
  handoverAhead : Bool := false
  yielded : Bool := false
  change : Option PairChange := none
  digestOwn : Option (Nat × List Byte) := none
  catchUp : Bool := false
  caughtUp : Bool := false
  inheritSplice : Nat := 0
  inheritDue : Bool := false
  splicedOrder : Option (Nat × Nat) := none
  deriving DecidableEq, Repr

/-- An entry of the transmit timestamp queue (R278). -/
structure TsqEntry where
  tag : Nat
  msgType : Nat
  seqId : Nat
  ns : Nat
  frac : Nat
  epoch : Nat
  deriving DecidableEq, Repr

/-- A timing-port frame handed to firmware with its receive stamp in 1/256 ns, 40 bits, and step epoch (R275). -/
structure PtpFrame where
  bytes : List Byte
  stamp : Nat
  epoch : Nat
  deriving DecidableEq, Repr

/-- Timebase beyond the TIME registers (spec 09): nanoseconds run since PORST_N without steps, departure stamps of the last
16 reels sent in ns, residual of a scheduled step in 1/256 ns, whether TRACEABLE has been 1, the transmit timestamp queue,
whether it has dropped a stamp since it was last below 64, frames for firmware, the last frame sent, and the lead's
LANE_OFS and TIME_FLAGS as TIME_ALIGN gave them; for each PPS output its last edge on this clock in 1/256 ns with the width of
its pulse in µs, and for each frequency output whether it ran in the reel before (R312, R313). -/
structure Time where
  clock : Nat := 0
  departures : List Stamp := []
  residual : Option Int := none
  everTraceable : Bool := false
  tsq : List TsqEntry := []
  tsqDropped : Bool := false
  ptpRx : List PtpFrame := []
  ptpTx : List Byte := []
  leadOfs : Tbl Nat := []
  leadFlags : Nat := 0
  pps : Tbl (Option (Int × Nat)) := []
  fout : Tbl Bool := []
  deriving DecidableEq, Repr

/-- A reference candidate beyond its registers (spec 10): phase samples of the last 10 s against XO_IN as (clock ns, phase in
1/256 ns) with the newest first, the line last fitted as (time, phase, slope in 0.001 ppb), outlying samples held for
R295, whole seconds of window, deviations of the last 60 evaluations, seconds of passed tests, whether it has not yet
qualified since EN, seconds with the offset below THRESH, clock of the last sample, the pulse that awaits its ToD
message, runs of pulses without and with one, messages discarded, the offset last measured in 1/256 ns, the clock of the
window's first sample and of the entry into QUALIFYING, and exchanges with TRACEABLE 1 and 0 in this second. -/
structure Cand where
  samples : List (Int × Int) := []
  line : Option (Int × Int × Int) := none
  odd : List (Int × Int) := []
  devs : List (Option Int) := []
  qualRun : Nat := 0
  first : Bool := true
  goodRun : Nat := 0
  lastSample : Nat := 0
  pulse : Option Int := none
  pulseAt : Nat := 0
  todMiss : Nat := 0
  todRun : Nat := 0
  todBad : Nat := 0
  ofs : Option Int := none
  start : Option Int := none
  since : Nat := 0
  traced : Nat := 0
  untraced : Nat := 0
  deriving DecidableEq, Repr

/-- A history sample (R308): second of recording, mean frequency word and holdover temperature. -/
structure HistSample where
  sec : Nat
  freq : Int
  temp : Int
  deriving DecidableEq, Repr

/-- A holdover seed record (R311). -/
structure Seed where
  loadClass : Nat
  tMin : Int
  tMax : Int
  h : Int
  kT : Int
  deriving DecidableEq, Repr

/-- What is kept of a selected candidate at its loss (R303): number, clock, timebase phase and last offset. -/
structure LostRef where
  cand : Nat
  clock : Nat
  phase : Int
  ofs : Int
  deriving DecidableEq, Repr

/-- DPLL and holdover beyond the REF registers (spec 10): build-out and the part of it that a step left, in 10^-4 of
1/256 ns; phase the timebase has gained on XO_IN in 10^-6 of 1/256 ns; sum and number of frequency words in this second;
history of 24 h with the newest first and samples recorded in all; evaluations since PORST_N and the second at which
holdover was entered; seconds of agreement that will clear XO_DRIFT. -/
structure Ref where
  cands : Tbl Cand := []
  build : Int := 0
  residual : Int := 0
  phase : Int := 0
  freqSum : Int := 0
  freqN : Nat := 0
  hist : List HistSample := []
  histN : Nat := 0
  seed : Option Seed := none
  secs : Nat := 0
  hoSec : Nat := 0
  driftRun : Nat := 0
  lost : Option LostRef := none
  deriving DecidableEq, Repr

/-- A sample of a tagged instruction (R431): PC and the word that MSS_TAG_SAMPLE shows. -/
structure TagEntry where
  pc : Word
  word : Word
  deriving DecidableEq, Repr

/-- A management core beyond its registers in the MSS and IC blocks (spec 13, 14): its own registers as last seen, an exception
that a command has raised and that is not yet taken (cause, value), the block it holds a reservation on, whether it waits in WFI, the trap-origin stack
(top first), the in-service stack (source and priority, top first), its counters (0 is mcycle, 3 to 10 the programmable
ones) with their shadows and event selections, its tag samples, instructions to the next tag, and the lines of its instruction
cache that commands have filled (newest first). -/
structure CoreSt where
  r : CoreRegs := {}
  exc : Option (Nat × Nat) := none
  resv : Option Nat := none
  wfi : Bool := false
  traps : List Bool := []
  service : List (Nat × Nat) := []
  counters : Tbl Nat := []
  shadow : Tbl (Option Nat) := []
  events : Tbl Nat := []
  tags : List TagEntry := []
  tagNext : Nat := 0
  icache : List Nat := []
  deriving DecidableEq, Repr

/-- Management subsystem beyond its registers (spec 13, 15, 16): the pair key in the secure scratchpad (R440), working SRAM
and scratchpad as atomic and loading commands have written them, the cores, whether the start-up test of R390 has ended, whether
firmware has written GCTL_ALIVE since core 0 last started, the value a pending remap will take, whether the automatic
restart has been used since the last keep-alive, the next window of the memory test and the windows that spares replace,
for each source the core of its last delivery; the training records of the calibration area by lane (R64), bytes that commands
have stored over the take images of R391, the facets that the flash records as FAILED (R163), the epoch and the holdover record it holds (R219, R311); whether the scratchpad port is denied, whether TAMPER_N has had its first assertion since PORST_N, a life-cycle
target whose fuse write runs, result words of the last key operation, the owner key hash, the image slots of the flash and the
preferred slot, the staged slot and version, the security version of the running image, the handle of a
running FW_ACTIVATE and whether its trial has failed, whether the boot ROM has chosen since core 0 started, the sensors that read critical last
time, and the voltage monitors in alarm. -/
structure Mss where
  pairKey : Option (List Byte) := none
  sram : Memory := []
  scratch : Memory := []
  cores : Tbl CoreSt := []
  started : Bool := false
  fwUp : Bool := false
  remapNext : Bool := false
  autoDone : Bool := false
  window : Nat := 0
  repaired : List Nat := []
  lastTo : Tbl (Option Nat) := []
  calib : Tbl (List Byte) := []
  imageBytes : Tbl (Option Byte) := []
  badFacets : List Nat := []
  epochRecord : Option Nat := none
  hoRecord : Option Seed := none
  scratchDenied : Bool := false
  tamperDone : Bool := false
  lcTarget : Option Nat := none
  resultWords : Nat := 0
  ownerHash : List Byte := []
  slotA : List Byte := []
  slotB : List Byte := []
  preferred : Nat := 1
  staged : Option (Nat × Nat) := none
  runSec : Nat := 0
  activateHandle : Nat := 0
  activateFailed : Bool := false
  booted : Bool := false
  hotLast : List Nat := []
  voltAlarms : List Nat := []
  deriving DecidableEq, Repr

/-- The I3C target, mailbox and recovery beyond their registers (spec 16): lengths set by SETMWL and SETMRL, in-band interrupts waiting, protocol
error since the last GETSTATUS, the action set by RSTACT, the words of a SET_READ not yet delivered, what the target last put
on the bus and whether it last NACKed; the mailbox command in progress with its data, whether they go to the host, bytes moved
and bytes in all, whether the completion in I3CT_MBX_CPL is unread, and a disable that waits for IDLE; the
owner of a recovery reception, its size and the image bytes received. -/
structure I3c where
  mwl : Nat := 4101
  mrl : Nat := 4096
  ibis : List Nat := []
  protoErr : Bool := false
  rstact : Option Nat := none
  words : Option (List Word) := none
  reply : List Byte := []
  nacked : Bool := false
  mbxHandle : Nat := 0
  mbxData : List Byte := []
  mbxOut : Bool := false
  mbxPos : Nat := 0
  mbxTotal : Nat := 0
  cplUnread : Bool := false
  disableHeld : Bool := false
  rcvOwner : Option Master := none
  rcvTotal : Nat := 0
  rcvData : List Byte := []
  deriving DecidableEq, Repr

/-- A loop, PRBS generator and PRBS checker of a lane beyond their registers (R481 to R487): loop in force, reels of stop notice
still to send before the transmitter leaves reels, whether the lane was already in use when the loop or generator was
accepted, whether transmitter and receiver have been ACTIVE since then, the generator's register at its start, bits it has generated, whether the next bit is to be inverted and whether
the first bit of this reel period was, and the checker's two counts. -/
structure TestLane where
  active : Nat := 0
  notice : Option Nat := none
  wasInUse : Bool := false
  wasTx : Bool := false
  wasRx : Bool := false
  genStart : Nat := 1
  genBits : Nat := 0
  inject : Bool := false
  flip : Bool := false
  chkBits : Nat := 0
  chkErrs : Nat := 0
  deriving DecidableEq, Repr

/-- The test access port (R491 to R495): current instruction, boundary cells as preloaded and as last sampled, and the
data register captured for the instruction. -/
structure Jtag where
  ir : Nat := 0x01
  preload : List Bool := []
  sample : List Bool := []
  dr : Nat := 0
  deriving DecidableEq, Repr

/-- The machine. `pending` is the queue of commands waiting, first in, first out; `free` numbers the free values; `mirror` is
the log as the flash kept it over the last PORST_N (R450). -/
structure State where
  regs : Tbl Word := []
  gctl : Gctl := {}
  rdata : Tbl Word := []
  latches : List Latch := []
  tai : Nat := 0
  reelSeq : Nat := 0
  lanes : Tbl Lane := []
  evq : List LogEntry := []
  evDropped : Nat := 0
  log : List LogEntry := []
  logNext : Nat := 0
  mirror : List LogEntry := []
  stormEdges : Tbl (List Nat) := []
  hif : Hif := {}
  ssw : Ssw := {}
  circ : Circ := {}
  pair : Pair := {}
  time : Time := {}
  ref : Ref := {}
  mss : Mss := {}
  i3c : I3c := {}
  test : Tbl TestLane := []
  jtag : Jtag := {}
  free : Nat := 0
  pending : List Instr := []
  deriving DecidableEq, Repr

/-- Faults of the model. -/
inductive Fault where
  /-- Raised by no command of this model: reserved so that the type is closed and inhabited. Safe. -/
  | none
  deriving DecidableEq, Repr

/-- Refusals of the model. -/
inductive Refusal where
  /-- The command has no meaning yet: raised only by an arm of `exec`. Safe. -/
  | notModelled (mnemonic : String)
  deriving DecidableEq, Repr

/-- The machine right after the release of PORST_N (R33, R412, R448): fenced with cause START, the FENCE_ENTERED event in
the hardware event queue, the interrupt sources EVENT_QUEUE and FENCE pending, everything else at reset. -/
def State.reset : State :=
  { regs := [(0x701080, 0x80010000#32), (0x701088, 0x80010000#32)]
    evq := [{ tai := 0, epoch := 0, source := 0xFFFF, code := 0x0106, data := [1, 0, 0, 0] ++ List.replicate 12 0 }] }

end Sys2Proof.Machine
end

