-- ==== Sys2Proof/Machine/Line.lean ====
section
/-!
DEFINITION. The line format, bit by bit: PAM4 mapping and precoding (spec 02 R42, R44), clapper and header check (spec
03 R78 to R80), scrambler (R81), block layout and codewords (R76, R82 to R84).
-/
namespace Sys2Proof.Machine
open Sys2Proof

/-- Symbol value of a bit pair (R42): Gray mapping. -/
def pam4Symbol (first second : Bool) : Nat :=
  match first, second with | false, false => 0 | false, true => 1 | true, true => 2 | true, false => 3

/-- Normalised level of a symbol value (R42). -/
def pam4Level (sym : Nat) : Int := 2 * (sym : Int) - 3

/-- Bit pair of a symbol value (R42). -/
def pam4Bits : Nat → Bool × Bool
  | 0 => (false, false) | 1 => (false, true) | 2 => (true, true) | _ => (true, false)

/-- Precoding of a transmitter (R44): y(n) = (x(n) - y(n-1)) mod 4. -/
def precode (y0 : Nat) : List Nat → List Nat
  | [] => []
  | x :: xs => let y := (x + 4 - y0 % 4) % 4; y :: precode y xs

/-- Bits of a field in line order as symbol values, the first bit of each pair first (R42, R43). -/
def pairSymbols : List Bool → List Nat
  | a :: b :: l => pam4Symbol a b :: pairSymbols l
  | _ => []

/-- Symbol values as bits in line order. -/
def symbolBits (l : List Nat) : List Bool := l.flatMap fun x => [(pam4Bits x).1, (pam4Bits x).2]

/-- The 8,960 symbol values of a block on the line (R41, R43): bit 0 is the first bit of a pair. -/
def blockPam4 (b : RawBlock) : List Nat := pairSymbols (msbBits 17920 b.toNat)

/-- The symbol the precoder sent last, after a run of symbol values (R44). -/
def precodeEnd (y0 : Nat) (l : List Nat) : Nat := l.foldl (fun y x => (x + 4 - y % 4) % 4) y0

/-- Precoder removal of a receiver (R44): x(n) = (y(n) + y(n-1)) mod 4. -/
def unprecode (y0 : Nat) : List Nat → List Nat
  | [] => []
  | y :: ys => (y + y0) % 4 :: unprecode y ys

/-- The `w` bits of a field after the PAM4 decision, as a receiver with precoding on or off makes them of the symbols decided on
the line (R43 to R45): `v` codes these symbols as R42 does, `prev` is the symbol decided just before them. -/
def recovered (on : Bool) (prev w v : Nat) : Nat :=
  if on then ofMsbBits (symbolBits (unprecode prev (pairSymbols (msbBits w v)))) else v

/-- The clapper (R79). -/
def clapper : Nat := 0xF3A60C59D21E

/-- CRC with polynomial x^16 + x^12 + x^5 + 1, initial 0xFFFF, most significant bit first, no inversion (R80). -/
def crc16 (bits : List Bool) : Nat :=
  bits.foldl (fun r b =>
    let top := Bool.xor (r.testBit 15) b
    let r := (r <<< 1) % 65536
    if top then r ^^^ 0x1021 else r) 0xFFFF

/-- The header check of the first 64 header bits (R80). -/
def headerCheck (h64 : Nat) : Nat := crc16 (msbBits 64 h64)

/-- The 80 header bits of block b of a reel (R78). -/
def blockHeader (b seq : Nat) : Nat :=
  let h := clapper * 2 ^ 16 + (b % 256) * 2 ^ 8 + seq % 256
  h * 2 ^ 16 + headerCheck h

/-- Fields of an 80-bit header. -/
def hdrClapper (h : Nat) : Nat := bitsOf h 32 48
def hdrBlock (h : Nat) : Nat := bitsOf h 24 8
def hdrSeq (h : Nat) : Nat := bitsOf h 16 8
def hdrCheckOk (h : Nat) : Bool := decide (headerCheck (bitsOf h 16 64) = bitsOf h 0 16)

/-- One step of the scrambler (R81): the register after it and the bit produced. -/
def scramStep (s : Nat) : Nat × Bool :=
  let f := Bool.xor (s.testBit 57) (s.testBit 38)
  ((s * 2 + f.toNat) % 2 ^ 58, f)

/-- `n` scrambling bits from a register value, as a number with the first bit most significant. -/
def scramBits : Nat → Nat → Nat → Nat
  | 0, _, acc => acc
  | n + 1, s, acc => let (s', f) := scramStep s; scramBits n s' (acc * 2 + f.toNat)

/-- The scrambling bits of block bits 80 to 17,919 (R81). -/
def scramKey : Nat := scramBits 17840 0x2C59A37E1D064BB 0

/-- Scramble or descramble a block; the header stays (R81). -/
def scrambleBlock (b : RawBlock) : RawBlock := b ^^^ BitVec.ofNat 17920 scramKey

/-- The 1,792 symbols of a block in line order (R83). -/
def blockSymbols (b : RawBlock) : List Nat := (List.range 1792).map fun k => bitsOf b.toNat (17910 - 10 * k) 10

/-- Elements of even or odd place. -/
def everyOther {α : Type} (odd : Bool) (l : List α) : List α :=
  (l.zipIdx.filter fun (_, i) => (i % 2 == 1) == odd).map (·.1)

/-- Interleave two codewords again (R83). -/
def interleave : List Nat → List Nat → List Nat
  | a :: as, b :: bs => a :: b :: interleave as bs
  | _, _ => []

/-- A number from 10-bit symbols in line order. -/
def ofSymbols (l : List Nat) : Nat := l.foldl (fun a x => a * 1024 + x) 0

/-- The raw, scrambled block that carries 16,960 data bits (R76, R81 to R83). -/
def encodeBlock (data : BitVec 16960) : RawBlock :=
  let syms := (List.range 1696).map fun k => bitsOf data.toNat (16950 - 10 * k) 10
  let pa := rsParity (everyOther false syms)
  let pb := rsParity (everyOther true syms)
  scrambleBlock (BitVec.ofNat 17920 (ofSymbols (syms ++ interleave pa pb)))

/-- The outcome of decoding a received block (R84): class, corrected symbols and data bits. In an uncorrectable block the symbols
corrected in a codeword that does decode are not counted (DESIGN CHOICE, assumption 83). -/
structure Decoded where
  cls : BlockClass
  csym : Nat
  data : BitVec 16960

/-- Descramble, decode both codewords and class the block (R81 to R84). -/
def decodeBlock (raw : RawBlock) : Decoded :=
  let b := scrambleBlock raw
  let syms := blockSymbols b
  match rsDecode (everyOther false syms), rsDecode (everyOther true syms) with
  | some (a, na), some (c, nc) =>
    { cls := if na + nc = 0 then .clean else .corrected, csym := na + nc,
      data := BitVec.ofNat 16960 (ofSymbols ((interleave a c).take 1696)) }
  | _, _ => { cls := .uncorrectable, csym := 0, data := BitVec.ofNat 16960 (b.toNat >>> 960) }

/-- Data bits of a block from its header, grains and overhead bytes (R76, R77). -/
def assembleBlock (hdr : Nat) (grains : List Grain) (overhead : List Byte) : BitVec 16960 :=
  let g := grains.foldl (fun a x => a * 2 ^ 256 + x.toNat) hdr
  BitVec.ofNat 16960 (overhead.foldl (fun a x => a * 256 + x.toNat) g)

/-- Header of decoded data bits. -/
def dataHeader (d : BitVec 16960) : Nat := d.toNat >>> 16880

/-- The grain of position p of decoded data bits (R76). -/
def dataGrain (d : BitVec 16960) (p : Nat) : Grain := BitVec.ofNat 256 (d.toNat >>> (16624 - 256 * p))

/-- The 64 grains of decoded data bits. -/
def dataGrains (d : BitVec 16960) : List Grain := (List.range 64).map (dataGrain d)

/-- The 62 overhead bytes of decoded data bits. -/
def dataOverhead (d : BitVec 16960) : List Byte :=
  (List.range 62).map fun i => BitVec.ofNat 8 (d.toNat >>> (488 - 8 * i))

/-- The idle grain (R85). -/
def idleGrain : Grain := 0

/-- The blank grain: 0xB1 in even bytes, 0xA7 in odd bytes (R85). -/
def blankGrain : Grain := BitVec.ofNat 256 ((List.range 16).foldl (fun a _ => a * 65536 + 0xB1A7) 0)

end Sys2Proof.Machine
end

