-- ==== Sys2Proof/Machine/EventCodes.lean ====
section
/-!
DEFINITION. The event codes of R449: CODE is 0x100 times the block number plus the index of the name in its row.
-/
namespace Sys2Proof.Machine

def Ev.REG_ACCESS_SIZE : Nat := 0x0101
def Ev.KEY_REFUSED : Nat := 0x0102
def Ev.REFCLK_SWITCH : Nat := 0x0103
def Ev.XO_LOST : Nat := 0x0104
def Ev.EVENT_LOST : Nat := 0x0105
def Ev.FENCE_ENTERED : Nat := 0x0106
def Ev.FENCE_LEFT : Nat := 0x0107
def Ev.REFCLK_RETURN : Nat := 0x0108
def Ev.XO_RETURN : Nat := 0x0109
def Ev.LANE_DEFECT : Nat := 0x0201
def Ev.LANE_FOFS : Nat := 0x0202
def Ev.LANE_FFE_RANGE : Nat := 0x0203
def Ev.REEL_SLIP : Nat := 0x0204
def Ev.STEER_FAILED : Nat := 0x0205
def Ev.CMC_RX_DROP : Nat := 0x0206
def Ev.CONN_REFRESH : Nat := 0x0301
def Ev.CONN_IMAGE_LOST : Nat := 0x0302
def Ev.SPLICE_SKIPPED : Nat := 0x0303
def Ev.FACET_RETIRE_DUE : Nat := 0x0304
def Ev.FACET_FAILED : Nat := 0x0305
def Ev.FACET_REINSTATABLE : Nat := 0x0306
def Ev.MERGE_STATE : Nat := 0x0401
def Ev.MERGE_REANCHOR : Nat := 0x0402
def Ev.CIRC_FDI : Nat := 0x0403
def Ev.DAILIES_DEFERRED : Nat := 0x0404
def Ev.PAIR_ROLE : Nat := 0x0501
def Ev.TAKEOVER : Nat := 0x0502
def Ev.PAIR_ISOLATED : Nat := 0x0503
def Ev.EPOCH_EXHAUSTED : Nat := 0x0504
def Ev.CONT_STALLED : Nat := 0x0505
def Ev.JOURNAL_LATE : Nat := 0x0506
def Ev.REEL_SEQ_SPLIT : Nat := 0x0507
def Ev.MATE_DELAY_LIMIT : Nat := 0x0508
def Ev.TAKE_SPLIT : Nat := 0x0509
def Ev.DIGEST_MISMATCH : Nat := 0x050A
def Ev.JOIN_FAILED : Nat := 0x050B
def Ev.MATE_AUTH_FAIL : Nat := 0x050C
def Ev.HANDLE_INHERITED : Nat := 0x050D
def Ev.CONT_SOURCE_ERROR : Nat := 0x050E
def Ev.TIME_STEP : Nat := 0x0601
def Ev.TIME_INCONSISTENT : Nat := 0x0602
def Ev.TT_DELAY_CHANGE : Nat := 0x0603
def Ev.TSQ_OVERFLOW : Nat := 0x0604
def Ev.ASYM_SUSPECT : Nat := 0x0605
def Ev.ASYM_CLEAR : Nat := 0x0606
def Ev.REF_LANE_REFUSED : Nat := 0x0701
def Ev.REF_SOFT_ALARM : Nat := 0x0702
def Ev.REF_PHASE_JUMP : Nat := 0x0703
def Ev.XO_DRIFT : Nat := 0x0704
def Ev.DISSOLVE_REVERSED : Nat := 0x0705
def Ev.HOLDOVER_MODEL_EXTRAPOLATED : Nat := 0x0706
def Ev.HOLDOVER_EXPIRED : Nat := 0x0707
def Ev.HANDLE_ORPHAN_DONE : Nat := 0x0801
def Ev.MSS_WRITE_REFUSED : Nat := 0x0901
def Ev.BUS_DENIED : Nat := 0x0902
def Ev.BURST_ORPHAN : Nat := 0x0903
def Ev.SRAM_UE : Nat := 0x0904
def Ev.SRAM_WINDOW_REPAIRED : Nat := 0x0905
def Ev.SRAM_WINDOW_FAILED : Nat := 0x0906
def Ev.TAKE_IMAGE_REBUILT : Nat := 0x0907
def Ev.STORM : Nat := 0x0908
def Ev.TAMPER : Nat := 0x0A01
def Ev.ZEROISED : Nat := 0x0A02
def Ev.ZEROISE_FAILED : Nat := 0x0A03
def Ev.LIFE_CYCLE : Nat := 0x0A04
def Ev.KEY_LOADED : Nat := 0x0A05
def Ev.KEYLOAD_REFUSED : Nat := 0x0A06
def Ev.FW_STAGED : Nat := 0x0A07
def Ev.FW_ACTIVATED : Nat := 0x0A08
def Ev.FW_FALLBACK : Nat := 0x0A09
def Ev.BOOT_IMAGE_BAD : Nat := 0x0A0A
def Ev.THERMAL_WARN : Nat := 0x0A0B
def Ev.THERMAL_CRITICAL : Nat := 0x0A0C
def Ev.VOLTAGE_ALARM : Nat := 0x0A0D
def Ev.LOG_MIRROR_GAP : Nat := 0x0A0E

end Sys2Proof.Machine
end

