-- ==== Sys2Proof/Machine/Ops.lean ====
section
/-!
DEFINITION. The named operations over registers, fields and lanes that every family uses (spec 00 R6 to R11, 02 R74).
-/
namespace Sys2Proof.Machine
open Sys2Proof

/-- The stored word of a register; a register nothing has written holds its reset value. -/
def State.reg (s : State) (off : Nat) : Word := Tbl.get resetReg s.regs off

/-- Store a whole register word. -/
def State.setReg (s : State) (off : Nat) (w : Word) : State := { s with regs := Tbl.put resetReg s.regs off w }

/-- The value of a field. -/
def State.fld (s : State) (f : Fld) : Nat := bitsOf (s.reg f.reg).toNat f.lo f.width

/-- Store a field, truncated to its width; the other bits of the register stay. -/
def State.setFld (s : State) (f : Fld) (v : Nat) : State :=
  s.setReg f.reg (BitVec.ofNat 32 (putBits (s.reg f.reg).toNat f.lo f.width v))

/-- A field read as a two's complement number. -/
def State.fldI (s : State) (f : Fld) : Int := toSigned f.width (s.fld f)

/-- Store a signed number in a field. -/
def State.setFldI (s : State) (f : Fld) (v : Int) : State := s.setFld f (ofSigned f.width v)

/-- A one-bit field as a Bool. -/
def State.flag (s : State) (f : Fld) : Bool := decide (s.fld f ≠ 0)

/-- Store a one-bit field. -/
def State.setFlag (s : State) (f : Fld) (b : Bool) : State := s.setFld f b.toNat

/-- Add to a saturating counter field. -/
def State.incFld (s : State) (f : Fld) (k : Nat := 1) : State := s.setFld f (satAdd f.width (s.fld f) k)

/-- What a lane holds beyond its registers. -/
def State.lane (s : State) (n : Nat) : Lane := Tbl.get (fun _ => {}) s.lanes n

/-- Replace a lane. -/
def State.setLane (s : State) (n : Nat) (l : Lane) : State := { s with lanes := Tbl.put (fun _ => {}) s.lanes n l }

/-- Change a lane. -/
def State.updLane (s : State) (n : Nat) (f : Lane → Lane) : State := s.setLane n (f (s.lane n))

/-- Test state of a lane. -/
def State.testLane (s : State) (n : Nat) : TestLane := Tbl.get (fun _ => {}) s.test n

/-- Whether a loop is active on a lane (R481). -/
def State.looped (s : State) (n : Nat) : Bool := (s.testLane n).active != 0

/-- Change the host interface state. -/
def State.updHif (s : State) (f : Hif → Hif) : State := { s with hif := f s.hif }

/-- Change the platform state. -/
def State.updGctl (s : State) (f : Gctl → Gctl) : State := { s with gctl := f s.gctl }

/-- Apply an operation for each element of a list, in order. -/
def State.forEach {α : Type} (s : State) (l : List α) (f : State → α → State) : State := l.foldl f s

/-- Take the next free value counter; the values it indexes are opaque (`Config.freeBits`). -/
def State.fresh (s : State) (w : Nat) : BitVec w × State := (Config.freeBits s.free w, { s with free := s.free + 1 })

/-- Apply an operation only when a condition holds. -/
def State.when (s : State) (b : Bool) (f : State → State) : State := if b then f s else s

/-- Number of a reading master for its latches (R500): the ports of cores 0 to 3, PCIe inbound, the I3C bridge. -/
def masterIdx : Master → Nat
  | .core c _ => c.val | .pcie => 4 | .i3c => 5

/-- Latch words for one reading master (R500). -/
def State.latch (s : State) (m : Master) (l : List (Nat × Word)) : State :=
  let keep := s.latches.filter fun x => !(x.master == masterIdx m && l.any fun y => y.1 == x.off)
  { s with latches := l.foldl (fun a y => a ++ [{ master := masterIdx m, off := y.1, value := y.2 }]) keep }

/-- A master's latch of a word; before its first latching read the word's reset value, which for the device number are the fuses
(R2, R501). -/
def State.latched (s : State) (m : Master) (off : Nat) : Word :=
  match s.latches.find? fun x => x.master == masterIdx m && x.off == off with | some x => x.value | none => resetReg off

/-- What a master read last. -/
def State.setRdata (s : State) (m : Master) (v : Word) : State :=
  { s with rdata := Tbl.put (fun _ => 0) s.rdata (masterIdx m) v }

/-- FLYWHEEL (R26, R40): after the first keep-alive, while the age exceeds 100 ms or MGMT_IN_RESET is 1. -/
def State.flywheel (s : State) : Bool :=
  s.gctl.everAlive && (decide (100 < s.fld F.GCTL_ALIVE_AGE_AGE_MS) || s.flag F.GCTL_STATE_MGMT_IN_RESET)

/-- Whether firmware runs and takes events and host work: it has written GCTL_ALIVE since core 0 last started, and the
flywheel does not apply (R25, R27, R406). -/
def State.fwRuns (s : State) : Bool := s.mss.fwUp && !s.flywheel

/-- Whether the unit is fenced. -/
def State.fenced (s : State) : Bool := s.flag F.GCTL_STATE_FENCED

/-- The lane die of a lane (spec 01): M0 on die 0, M1 on die 3. -/
def laneDie (n : Nat) : Nat := if n = 128 then 0 else if n = 129 then 3 else n / 32

/-- The lanes of a die. -/
def dieLanes (g : Nat) : List Nat :=
  (List.range 32).map (32 * g + ·) ++ (if g = 0 then [128] else if g = 3 then [129] else [])

/-- Lane die temperature, exact: the mean of sensors 8 + 4g to 11 + 4g (R451) in 1/64 °C, which is the sum of the four. -/
def State.dieTempSum (s : State) (g : Nat) : Int :=
  (List.range 4).foldl (fun a i => a + s.fldI (F.MSS_TEMP_TEMP (8 + 4 * g + i))) 0

/-- The same in the 1/16 °C of temperature tags (R63), rounded down. -/
def State.dieTemp (s : State) (g : Nat) : Int := s.dieTempSum g / 4

end Sys2Proof.Machine
end

