-- ==== Sys2Proof/Machine/Events.lean ====
section
/-!
DEFINITION. Interrupt sources and MSI-X (spec 14 R411 to R423), what the device writes to host memory (spec 11 R320 to
R338), the event log, queue and ring (R27, R352, R448) and the fence causes (spec 01 R31 to R39).
-/
namespace Sys2Proof.Machine
open Sys2Proof

-- Host memory ----------------------------------------------------------------------------------------------

/-- Write bytes to host memory. In D3hot nothing is written (R319). -/
def State.hostWrite (s : State) (a : Nat) (bs : List Byte) : State :=
  if s.hif.d3hot then s else { s with hif := { s.hif with hostMem := Memory.writeBytes s.hif.hostMem a bs } }

/-- Address held by a pair of address registers. -/
def State.addr64 (s : State) (lo hi : Nat) : Nat := (s.reg lo).toNat + 2 ^ 32 * (s.reg hi).toNat

/-- Number of entries of a ring: 2^SIZE_LOG2 with the exponent held to its range (R320). -/
def ringSize (lo hi sz : Nat) : Nat := 2 ^ clampNat lo hi sz

def State.cqSize (s : State) (k : Nat) : Nat := ringSize 4 12 (s.fld (F.HIF_CQ_CTL_SIZE_LOG2 k))
def State.crSize (s : State) (n : Nat) : Nat := ringSize 4 12 (s.fld (F.HIF_CR_CTL_SIZE_LOG2 n))
def State.evSize (s : State) : Nat := ringSize 6 14 (s.fld F.HIF_EV_CTL_SIZE_LOG2)
def State.cmcSize (s : State) : Nat := ringSize 4 10 (s.fld F.HIF_CMC_CTL_SIZE_LOG2)

/-- Next serial of a ring, 1 after the release of PORST_N (R329). -/
def State.nextSerial (s : State) (n : Nat) : Nat := Tbl.get (fun _ => 1) s.hif.serial n

/-- Write the status page (R323). -/
def State.writeStatusPage (s : State) : State :=
  let seq := (s.hif.statusSeq + 1) % 2 ^ 32
  let a := s.addr64 R.HIF_ST_ADDR_LO R.HIF_ST_ADDR_HI
  let w (v : Nat) := leBytes 4 v
  let page := (List.range 16).flatMap (fun n => w (Tbl.get (fun _ => 0) s.hif.crCons n))
    ++ (List.range 16).flatMap (fun k => w (Tbl.get (fun _ => 0) s.hif.cqTail k))
    ++ w s.hif.evTail ++ w s.hif.cmcCons ++ w seq ++ List.replicate 52 0
    ++ (List.range 16).flatMap (fun n => w (s.nextSerial n))
  (s.hostWrite a page).updHif fun h => { h with statusSeq := seq }

/-- Send an MSI-X message, or record it in the PBA while the vector is masked (R338, R416). -/
def State.msix (s : State) (v : Nat) : State :=
  if s.flag (F.HIF_MSIX_VCTL_MASK v) then
    let f : Fld := ⟨R.HIF_MSIX_PBA (v / 32), v % 32, 1⟩
    s.setFld f 1
  else s.updHif fun h =>
    { h with msixSent := Tbl.put (fun _ => 0) h.msixSent v (Tbl.get (fun _ => 0) h.msixSent v + 1) }

-- Interrupt sources -------------------------------------------------------------------------------------------

/-- PENDING of source n, as IC_SRC shows it. IC_PEND_k is a view of these bits. -/
def State.icPending (s : State) (n : Nat) : Bool := s.flag (F.IC_SRC_PENDING n)

/-- Delivery of a source (R412, R413): PENDING clears, and a level source is HELD until it is re-armed. -/
def State.icDelivered (s : State) (n : Nat) : State :=
  (s.setFlag (F.IC_SRC_PENDING n) false).when (icIsLevel n) fun s => s.setFlag (F.IC_SRC_HELD n) true

/-- A source with KIND = 1 is delivered as MSI-X vector TARGET as soon as it may be (R416); its last delivery is then to no core (R421). -/
def State.icTryMsix (s : State) (n : Nat) : State :=
  if s.icPending n && s.flag (F.IC_SRC_KIND n) && !s.flag (F.IC_SRC_MASK n) && !s.flag (F.IC_SRC_STORM n) then
    let s := s.icDelivered n
    ({ s with mss := { s.mss with lastTo := s.mss.lastTo.filter fun x => x.1 != n } }).msix (s.fld (F.IC_SRC_TARGET n))
  else s

/-- A management core. -/
def State.core (s : State) (c : Nat) : CoreSt := Tbl.get (fun _ => {}) s.mss.cores c

/-- Change a management core. -/
def State.updCore (s : State) (c : Nat) (f : CoreSt → CoreSt) : State :=
  { s with mss := { s.mss with cores := Tbl.put (fun _ => {}) s.mss.cores c (f (s.core c)) } }

/-- Whether a core is offline (R420): declared so, held, or in reset. -/
def State.coreOffline (s : State) (c : Nat) : Bool :=
  s.flag (F.IC_CORE_OFFLINE c) || s.fld ⟨R.MSS_CORE_STAT, 2 * c, 2⟩ == 0 || (decide (0 < c) && s.flag ⟨R.MSS_CORE_CTL, c, 1⟩)

/-- The core a source is presented to (R420): its target, the fallback core, or the lowest-numbered core that is not
offline; none where all are. The Bool says that it is redirected. -/
def State.icCore (s : State) (n : Nat) : Option (Nat × Bool) :=
  let t := s.fld (F.IC_SRC_TARGET n)
  let t := if t < 4 then t else 0
  if !s.coreOffline t then some (t, false)
  else
    let f := s.fld F.IC_CTL_FALLBACK
    if !s.coreOffline f then some (f, true)
    else ((List.range 4).find? fun c => !s.coreOffline c).map fun c => (c, true)

/-- Whether a source with KIND = 0 is presentable (R414). -/
def State.presentable (s : State) (n : Nat) : Bool :=
  s.icPending n && !s.flag (F.IC_SRC_KIND n) && !s.flag (F.IC_SRC_MASK n) && !s.flag (F.IC_SRC_STORM n)

/-- A presentable source wakes a core that waits in WFI (R419). -/
def State.icWake (s : State) (n : Nat) : State :=
  if s.presentable n then
    match s.icCore n with
    | some (c, _) => if (s.core c).wfi then s.updCore c fun x => { x with wfi := false } else s
    | none => s
  else s

/-- Bring a source to delivery after a change of its state: as a vector at once, or by waking its core (R416, R419). -/
def State.icSettle (s : State) (n : Nat) : State := (s.icTryMsix n).icWake n

/-- Set PENDING and deliver at once where the source goes to a vector. -/
def State.icPend (s : State) (n : Nat) : State := (s.setFlag (F.IC_SRC_PENDING n) true).icSettle n

/-- The condition of a level source has become true (R412): pending unless HELD. -/
def State.icRaise (s : State) (n : Nat) : State := if s.flag (F.IC_SRC_HELD n) then s else s.icPend n

-- Event log ---------------------------------------------------------------------------------------------------

/-- The 16 DATA bytes of an entry: the items in order, then zeros (R448). -/
def eventData (bs : List Byte) : List Byte := (bs ++ List.replicate 16 0).take 16

/-- A log entry as the retained region holds it and LOG_READ gives it (R377, R391, R448). -/
def logBytes (e : LogEntry) : List Byte :=
  leBytes 8 e.tai ++ leBytes 1 e.epoch ++ leBytes 1 (e.queued.toNat + 2 * e.restored.toNat) ++ leBytes 2 e.source
    ++ leBytes 2 e.code ++ leBytes 2 e.num ++ eventData e.data

/-- An event ring entry (R352). -/
def eventBytes (e : LogEntry) (phase : Nat) : List Byte :=
  leBytes 8 e.tai ++ leBytes 1 e.epoch ++ leBytes 1 (128 * phase) ++ leBytes 2 e.source ++ leBytes 2 e.code
    ++ leBytes 2 0 ++ eventData e.data

/-- Write one entry to the event ring while it is enabled; while it is full, or in D3hot, count it as lost (R352). -/
def State.evRing (s : State) (e : LogEntry) : State :=
  if !s.flag F.HIF_EV_CTL_EN then s
  else
    let h := s.hif
    let nxt := (h.evTail + 1) % s.evSize
    if nxt = h.evHead || h.d3hot || decide (0 < h.evMissed) then
      ({ s with hif := { h with evMissed := h.evMissed + 1 } }).setFlag F.HIF_ERR_EV_LOST true
    else
      let s := s.hostWrite (s.addr64 R.HIF_EV_BASE_LO R.HIF_EV_BASE_HI + 32 * h.evTail) (eventBytes e h.evPhase)
      let s := { s with hif := { s.hif with evTail := nxt, evPhase := if nxt = 0 then 1 - h.evPhase else h.evPhase,
                                              evUnsig := h.evUnsig + 1 } }
      let s := s.writeStatusPage
      if s.fld F.HIF_EV_CTL_COAL_US = 0 ∨ max 1 (s.fld F.HIF_EV_CTL_COAL_N) ≤ s.hif.evUnsig then
        (s.updHif fun h => { h with evUnsig := 0 }).msix (s.fld F.HIF_EV_CTL_VECTOR)
      else s

/-- Firmware writes an entry into the log: it is numbered, held among the newest 16,384, and written to the event ring
(R448, R352). -/
def State.logWrite (s : State) (e : LogEntry) : State :=
  let e := { e with num := s.logNext, data := eventData e.data }
  { s with log := (s.log ++ [e]).drop (s.log.length + 1 - 16384), logNext := (s.logNext + 1) % 2 ^ 32 }.evRing e

/-- An event enters the hardware event queue, or is dropped and counted when 1,024 entries wait (R27). -/
def State.queueEvent (s : State) (e : LogEntry) : State :=
  if s.evq.length < 1024 then
    ({ s with evq := s.evq ++ [{ e with queued := s.flywheel, data := eventData e.data }] }).icRaise 32
  else ({ s with evDropped := s.evDropped + 1 }).incFld F.MSS_EVQ_STAT_DROPPED

/-- The alert bit an event latches in GCTL_ALERT_STAT, if it has one (R479). -/
def alertOf (code : Nat) : Option Fld :=
  if code = Ev.EVENT_LOST then some F.GCTL_ALERT_STAT_EVENT_LOST
  else if code = Ev.FENCE_ENTERED then some F.GCTL_ALERT_STAT_FENCE
  else if code = Ev.TAMPER then some F.GCTL_ALERT_STAT_TAMPER
  else if code = Ev.FW_FALLBACK ∨ code = Ev.BOOT_IMAGE_BAD then some F.GCTL_ALERT_STAT_BOOT
  else none

/-- In-band interrupts (R472): while ENINT is enabled and a dynamic address is held, one waits per mandatory byte. -/
def State.raiseIbi (s : State) (b : Nat) : State :=
  if s.flag F.I3CT_STAT_IBI_EN && s.flag F.I3CT_STAT_DA_VALID && !s.i3c.ibis.contains b then
    ({ s with i3c := { s.i3c with ibis := s.i3c.ibis ++ [b] } }).setFld F.I3CT_STAT_IBI_PENDING (s.i3c.ibis.length + 1)
  else s

/-- Latch an alert bit, whatever the mask, with its in-band interrupt where the mask selects it (R472, R479). -/
def State.alert (s : State) (f : Fld) : State :=
  (s.setFlag f true).when (s.flag { f with reg := R.GCTL_ALERT_MASK }) fun s => s.raiseIbi 0x03

/-- Latch the alert bit of an event (R479). -/
def State.alertFor (s : State) (code : Nat) : State :=
  match alertOf code with | some f => s.alert f | none => s

/-- Log an event (R448): firmware takes it at once while it runs; otherwise it waits in the event queue (R27). -/
def State.logEvent (s : State) (code source : Nat) (data : List Byte) : State :=
  let e : LogEntry := { tai := s.tai, epoch := s.fld F.TIME_STATE_STEP_EPOCH, source := source, code := code, data := data }
  let s := s.alertFor code
  if s.fwRuns then s.logWrite e else s.queueEvent e

/-- The SOURCE of an event that concerns no numbered thing. -/
def noSource : Nat := 0xFFFF

/-- Firmware takes the event queue in order, and then the single EVENT_LOST for entries dropped (R27, R448). -/
def State.drainQueue (s : State) : State :=
  let q := s.evq
  let s := q.foldl State.logWrite { s with evq := [] }
  if s.evDropped = 0 then s
  else ({ s with evDropped := 0 }).logEvent Ev.EVENT_LOST noSource (leBytes 4 s.evDropped)

/-- An edge of an edge source (R413), watched by the storm guard (R422): more than 64 edges within 1 ms enter storm
state, which holds PENDING and stops delivery. TAMPER_N is exempt (R423). -/
def State.icEdge (s : State) (n : Nat) : State :=
  let recent := ((Tbl.get (fun _ => []) s.stormEdges n).filter fun t => decide (s.time.clock < t + 1000000)) ++ [s.time.clock]
  let s := { s with stormEdges := Tbl.put (fun _ => []) s.stormEdges n (recent.drop (recent.length - 65)) }
  if s.flag (F.IC_SRC_STORM n) then s.setFlag (F.IC_SRC_PENDING n) true
  else if n ≠ 276 ∧ 64 < recent.length then
    (((s.setFlag (F.IC_SRC_STORM n) true).setFlag (F.IC_SRC_PENDING n) true).incFld F.IC_STAT_STORMS).logEvent
      Ev.STORM n []
  else s.icPend n

-- Completions -------------------------------------------------------------------------------------------------

/-- The 16 bytes of a completion (R331). -/
def completionBytes (c : Completion) (phase : Nat) : List Byte :=
  leBytes 4 c.handle ++ leBytes 2 c.status ++ leBytes 1 c.outcome
    ++ leBytes 1 (128 * phase + 64 * c.first.toNat + 32 * c.final.toNat + 16 * c.inherited.toNat + 8 * c.fault.toNat)
    ++ leBytes 8 c.result

/-- Whether completion ring k has room for one more entry. -/
def State.cqRoom (s : State) (k : Nat) : Bool :=
  decide ((Tbl.get (fun _ => 0) s.hif.cqTail k + 1) % s.cqSize k ≠ Tbl.get (fun _ => 0) s.hif.cqHead k)

/-- Write one completion into its ring and signal by the coalescing rule (R324, R331, R338). -/
def State.cqWrite (s : State) (k : Nat) (c : Completion) : State :=
  let tail := Tbl.get (fun _ => 0) s.hif.cqTail k
  let phase := Tbl.get (fun _ => 1) s.hif.cqPhase k
  let nxt := (tail + 1) % s.cqSize k
  let s := s.hostWrite (s.addr64 (R.HIF_CQ_BASE_LO k) (R.HIF_CQ_BASE_HI k) + 16 * tail) (completionBytes c phase)
  let un := Tbl.get (fun _ => 0) s.hif.cqUnsig k + 1
  let s := { s with hif := { s.hif with
    cqTail := Tbl.put (fun _ => 0) s.hif.cqTail k nxt
    cqPhase := Tbl.put (fun _ => 1) s.hif.cqPhase k (if nxt = 0 then 1 - phase else phase)
    cqUnsig := Tbl.put (fun _ => 0) s.hif.cqUnsig k un } }
  let s := s.writeStatusPage
  let s := s.setFld (F.HIF_CQ_STAT_STATE k) (if s.cqRoom k then 1 else 2)
  if s.fld (F.HIF_CQ_CTL_COAL_US k) = 0 ∨ max 1 (s.fld (F.HIF_CQ_CTL_COAL_N k)) ≤ un then
    let s := { s with hif := { s.hif with cqUnsig := Tbl.put (fun _ => 0) s.hif.cqUnsig k 0 } }
    s.msix (s.fld (F.HIF_CQ_CTL_VECTOR k))
  else s

/-- Completions held for a full ring. -/
def State.cqHeldOf (s : State) (k : Nat) : List Completion := Tbl.get (fun _ => []) s.hif.cqHeld k

/-- Replace the held completions of a ring and the count HELD that shows them (R337). -/
def State.setHeld (s : State) (k : Nat) (l : List Completion) : State :=
  ({ s with hif := { s.hif with cqHeld := Tbl.put (fun _ => []) s.hif.cqHeld k l } }).setFld (F.HIF_CQ_STAT_HELD k) l.length

/-- Deliver a completion: written if the ring has room and nothing is held before it, held otherwise (R337). -/
def State.putCompletion (s : State) (k : Nat) (c : Completion) : State :=
  if (s.cqHeldOf k).isEmpty && s.cqRoom k && !s.hif.d3hot then s.cqWrite k c
  else s.setHeld k (s.cqHeldOf k ++ [c])

/-- Write held completions while the ring has room (R337). Fuel: at most the number held. -/
def State.drainHeld : Nat → State → Nat → State
  | 0, s, _ => s
  | fuel + 1, s, k =>
    match s.cqHeldOf k with
    | [] => s
    | c :: rest => if s.cqRoom k && !s.hif.d3hot then State.drainHeld fuel ((s.setHeld k rest).cqWrite k c) k else s

-- Fence -------------------------------------------------------------------------------------------------------

/-- The causes of R33, at their bits of GCTL_FENCE_CAUSE. -/
inductive FenceCause where
  | start | command | facetsShort | flywheelTimeout | thermal | refclkLost | memoryStuck | internalLink | tamper
  deriving DecidableEq, Repr

/-- Bit of a cause in GCTL_FENCE_CAUSE and GCTL_FENCE_LIVE (R37, R39). -/
def FenceCause.bit : FenceCause → Nat
  | .start => 0 | .command => 1 | .facetsShort => 2 | .flywheelTimeout => 3 | .thermal => 4 | .refclkLost => 5
  | .memoryStuck => 6 | .internalLink => 7 | .tamper => 8

/-- A cause is detected: recorded at once, FAULT_N asserted, effective at the next local reel boundary (R32, R38). -/
def State.detect (s : State) (c : FenceCause) : State :=
  { s with gctl := { s.gctl with faultN := true, causeNew := true } }.setFld ⟨R.GCTL_FENCE_CAUSE, c.bit, 1⟩ 1

/-- Whether a cause is recorded. -/
def State.recorded (s : State) (c : FenceCause) : Bool := s.flag ⟨R.GCTL_FENCE_CAUSE, c.bit, 1⟩

/-- Whether any cause waits to take effect. -/
def State.fencePending (s : State) : Bool := decide (s.reg R.GCTL_FENCE_CAUSE ≠ 0) && !s.fenced

/-- Usable facets (R162): IN_USE, RETIRING or SPARE. -/
def State.usableFacets (s : State) : Nat := s.fld F.SSW_FACET_SUMMARY_USABLE

/-- Whether the condition of a cause holds (R39). -/
def State.causeHolds (s : State) : FenceCause → Bool
  | .start => false
  | .command => false
  | .facetsShort => decide (s.usableFacets < 256)
  | .flywheelTimeout => s.gctl.everAlive && decide (10000 ≤ s.fld F.GCTL_ALIVE_AGE_AGE_MS)
  | .thermal => true
  | .refclkLost => !s.gctl.refA && !s.gctl.refB
  | .memoryStuck => decide (0 < s.gctl.memStuckNs)
  | .internalLink => decide (0 < s.gctl.linkErrNs)
  | .tamper => true

/-- All causes. -/
def FenceCause.all : List FenceCause :=
  [.start, .command, .facetsShort, .flywheelTimeout, .thermal, .refclkLost, .memoryStuck, .internalLink, .tamper]

/-- GCTL_FENCE_LIVE: the recorded causes that persist (R38, R39). A view, computed at each read. -/
def State.fenceLive (s : State) : Nat :=
  FenceCause.all.foldl (fun a c => if s.recorded c && s.causeHolds c then a + 2 ^ c.bit else a) 0

end Sys2Proof.Machine
end

