-- ==== Sys2Proof/Machine/Loupe.lean ====
section
/-!
DEFINITION. The loupe counters (spec 07 R207 to R210), held by their offset in the dailies record (R214).
-/
namespace Sys2Proof.Machine
open Sys2Proof

/-- Change the circuit and loupe state. -/
def State.updCirc (s : State) (f : Circ → Circ) : State := { s with circ := f s.circ }

/-- Change the slot store and page state. -/
def State.updSsw (s : State) (f : Ssw → Ssw) : State := { s with ssw := f s.ssw }

/-- Record offset of counter i of a lane (R208, R214). -/
def laneCtr (n i : Nat) : Nat := 0x40 + 128 * n + 8 * i
/-- Record offset of counter i of a circuit (R209). -/
def circCtr (c i : Nat) : Nat := 0x10000 + 32 * c + 8 * i
/-- Record offset of counter i of a merge-pair number (R210). -/
def mergeCtr (m i : Nat) : Nat := 0x210000 + 32 * m + 8 * i

/-- Value of a counter in a bank. -/
def Bank.get (b : Bank) (k : Nat) : Nat := Tbl.get (fun _ => 0) b.counts k

/-- Count in a bank, saturating at 2^48 - 1 (R207). -/
def Bank.add (b : Bank) (k x : Nat) : Bank :=
  { b with counts := Tbl.put (fun _ => 0) b.counts k (min (b.get k + x) (2 ^ 48 - 1)) }

/-- Count an occurrence in the live bank. -/
def State.count (s : State) (k : Nat) (x : Nat := 1) : State := s.updCirc fun c => { c with live := c.live.add k x }

end Sys2Proof.Machine
end

