-- ==== Sys2Proof/Machine/Defects.lean ====
section
/-!
DEFINITION. Defects of a lane and loss of alignment (spec 04 R116, R118 to R124).
-/
namespace Sys2Proof.Machine
open Sys2Proof

/-- The defects of R118, highest first; `Defect.bit` is the bit position in LANE_DEFECT (R131). -/
inductive Defect where
  | los | lol | loa | ucb | seq | tim | fdiRx | bdiRx | deg
  deriving DecidableEq, Repr

def Defect.bit : Defect → Nat
  | .los => 8 | .lol => 7 | .loa => 6 | .ucb => 5 | .seq => 4 | .tim => 3 | .fdiRx => 2 | .bdiRx => 1 | .deg => 0

/-- All defects in hierarchy order. -/
def Defect.all : List Defect := [.los, .lol, .loa, .ucb, .seq, .tim, .fdiRx, .bdiRx, .deg]

/-- Raw state of a defect. -/
def State.raw (s : State) (n : Nat) (d : Defect) : Bool := s.flag ⟨R.LANE_DEFECT n, d.bit, 1⟩

/-- Receiver state code of a lane (R74): 0 ACTIVE, 1 QUIET, 3 SLEEP, 4 OFF, 5 STOPPING, 6 STARTING. -/
def State.rxState (s : State) (n : Nat) : Nat := s.fld (F.LANE_STATE_RX_STATE n)

/-- Transmitter state code: 0 ACTIVE, 2 IDLE_TX, 3 SLEEP, 4 OFF, 5 STOPPING, 6 STARTING. -/
def State.txState (s : State) (n : Nat) : Nat := s.fld (F.LANE_STATE_TX_STATE n)

/-- Whether the transmitter has left reels, for the pattern or for a far-end loop (R481, R485). -/
def State.offReels (s : State) (n : Nat) : Bool := s.flag (F.TEST_PRBS_GEN_SENDING n) || (s.testLane n).active == 3

/-- Whether a lane sends reels: ACTIVE, or STOPPING with its notice, and no pattern or far-end loop in their place. -/
def State.sendsReels (s : State) (n : Nat) : Bool := (s.txState n == 0 || s.txState n == 5) && !s.offReels n

/-- A receiver in SLEEP or OFF shows LOS, LOL and LOA, logs no event and sends no BDI (R124). -/
def State.rxDown (s : State) (n : Nat) : Bool := s.rxState n == 3 || s.rxState n == 4

/-- Alignment state (R131): 0 HUNT, 1 BLOCK_SYNC, 2 REEL_SYNC. -/
def State.sync (s : State) (n : Nat) : Nat := s.fld (F.LANE_SYNC_STATE_STATE n)

/-- The reported states: the highest raw defect alone (R118). -/
def reportedOf (raw : Nat) : Nat :=
  match Defect.all.find? fun d => raw.testBit d.bit with | some d => 2 ^ d.bit | none => 0

/-- Bring the reported states up to date, log each change in hierarchy order and set the sticky flags (R118, R123). The
DATA of LANE_DEFECT is the defect's bit position, the direction (1 set), the REEL_SEQ of the last good reel control and
the flag EXPECTED for LOS (log entry 21). -/
def State.report (s : State) (n : Nat) : State :=
  let old := (s.reg (R.LANE_DEFECT_RPT n)).toNat
  let new := reportedOf (s.reg (R.LANE_DEFECT n)).toNat
  let s := s.setReg (R.LANE_DEFECT_RPT n) (BitVec.ofNat 32 new)
  let s := Defect.all.foldl (fun s d =>
    if old.testBit d.bit = new.testBit d.bit then s
    else
      let up := new.testBit d.bit
      let s := s.when up fun s => s.setFld ⟨R.LANE_DEFECT_FLAGS n, d.bit, 1⟩ 1
      let exp := if d = .los && s.flag (F.LANE_STATUS_LOS_EXPECTED n) then [1] else []
      s.logEvent Ev.LANE_DEFECT n
        ([BitVec.ofNat 8 d.bit, BitVec.ofNat 8 up.toNat] ++ leBytes 4 (s.fld (F.LANE_SEQ_LAST_SEQ n)) ++ exp)) s
  if s.reg (R.LANE_DEFECT_FLAGS n) ≠ 0 then s.icRaise (64 + n) else s

/-- The blanking defects of R125; TIM counts under the mode in force (R132). -/
def State.blankingRaw (s : State) (n : Nat) : Bool :=
  s.raw n .los || s.raw n .lol || s.raw n .loa || s.raw n .ucb || s.raw n .seq
    || (s.raw n .tim && decide (2 ≤ (s.lane n).timMode))

/-- A core reel is counted as blanking once, when a blanking defect's raw state is first set in it while the receiver is
ACTIVE or QUIET (R208). -/
def State.noteBlanking (s : State) (n : Nat) : State :=
  if s.blankingRaw n && decide (s.rxState n ≤ 1) && !(s.lane n).blanking then
    (s.updLane n fun l => { l with blanking := true }).count (laneCtr n 7)
  else s

/-- Set or clear raw states together, then report once. A powered-down receiver logs nothing (R124). -/
def State.setRaws (s : State) (n : Nat) (l : List (Defect × Bool)) : State :=
  let s := (l.foldl (fun s (d, b) => s.setFld ⟨R.LANE_DEFECT n, d.bit, 1⟩ b.toNat) s).noteBlanking n
  if s.rxDown n then s else s.report n

/-- What is forgotten when a lane leaves REEL_SYNC (R106, R120): windows, runs, the trace assembly, and the CMC record in progress,
which is discarded uncounted (DEDUCED, assumption 84). -/
def Lane.forgetDetection (l : Lane) : Lane :=
  { l with
    badControls := 0, seqRun := 0, fdiRun1 := 0, fdiRun0 := 0, bdiRun1 := 0, bdiRun0 := 0, ucbCount := 0
    ucbLowRun := 0, csymCount := 0, degHighRun := 0, degLowRun := 0, asm := [], asmOk := false, timDiffRun := 0
    timSameRun := 0, rptValid := false, feLast := none, reelOff := none
    cmc := { l.cmc with rxSync := false, rxPart := [], rxLost := none } }

/-- Raw clearings of R120. -/
def lowerClears : List (Defect × Bool) :=
  [(.ucb, false), (.seq, false), (.tim, false), (.fdiRx, false), (.bdiRx, false), (.deg, false)]

/-- PAIR_MATE_DELAY (R236, R267): the larger mean delay of M0 and M1; beyond 10 µs is an event. -/
def State.refreshMateDelay (s : State) : State :=
  let v := [128, 129].filterMap fun n =>
    let d := s.fld (F.LANE_TT_DELAY_DELAY n)
    if d = 0xFFFFFFFF then none else some d
  let old := s.fld F.PAIR_MATE_DELAY_DELAY
  let now := match v with | [] => 0xFFFFFFFF | _ => v.foldl max 0
  let late := fun d => decide (d ≠ 0xFFFFFFFF ∧ 2560000 < d)
  let s := s.setFld F.PAIR_MATE_DELAY_DELAY now
  if late now && !late old then s.logEvent Ev.MATE_DELAY_LIMIT noSource [] else s

/-- The exchange means of a lane restart (R265): both read none until 4,096 further exchanges. -/
def State.restartMeans (s : State) (n : Nat) : State :=
  let s := ((s.updLane n fun l => { l with tt := { l.tt with ofs := [], delay := [], badRun := 0 } }).setFld
    (F.LANE_TT_OFS_OFS n) 0x80000000).setFld (F.LANE_TT_DELAY_DELAY n) 0xFFFFFFFF
  if 128 ≤ n then s.refreshMateDelay else s

/-- The partner lane of a line lane in the active take, from the lane pairs. -/
def State.partner? (s : State) (n : Nat) : Option Nat :=
  match s.circ.pairs.find? fun p => p.lo == n || p.hi == n with
  | some p => some (if p.lo = n then p.hi else p.lo)
  | none => none

/-- A lane has no measured skew (R200). -/
def State.forgetSkew (s : State) (n : Nat) : State :=
  (s.updLane n fun l => { l with skews := [], skewStamps := [] }).setFld (F.CIRC_SKEW_SKEW n) 0x80000000

/-- What leaves with REEL_SYNC beside alignment (R183, R184, R265): arrival stamps and exchange means are forgotten, the mean
wait and skew are not measured, and the steering state is OFF. A request in force goes on being sent until it is acknowledged or
replaced (R185, log entry 26). -/
def State.steerLost (s : State) (n : Nat) : State :=
  let s := (s.restartMeans n).updLane n fun l => { l with
    arrivals := [], tt := { l.tt with epoch := none, latest := none } }
  if 128 ≤ n then s
  else
    let s := (s.setFld (F.LANE_ARRIVAL_WAIT n) 0xFFFFFFFF).forgetSkew n
    let s := match s.partner? n with | some p => s.forgetSkew p | none => s
    let s := s.updLane n fun l => { l with waits := [], capRun := 0, ackRun := 0 }
    s.setFld (F.LANE_STEER_STAT_STATE n) 0

/-- Loss of alignment to HUNT (R116), with further raw changes made at the same instant. Entering HUNT from another
state is counted; while LOS or LOL holds the machine stays in HUNT without candidates (R110). -/
def State.loseToHunt (s : State) (n kind : Nat) (more : List (Defect × Bool)) : State :=
  let was := s.sync n
  let s := s.steerLost n
  let s := s.updLane n fun l => { l.forgetDetection with
    candidates := [], badHeaders := 0, qualRun := 0, reelsInBlock := 0, blk := none, reelByte := none }
  let s := s.setFld (F.LANE_SYNC_STATE_CANDIDATES n) 0
  let s := s.setFld (F.LANE_SYNC_STATE_LOA_KIND n) kind
  let s := if was = 0 then s
    else (s.setFld (F.LANE_SYNC_STATE_STATE n) 0).incFld (F.LANE_HUNT_STAT_HUNT_ENTRIES n)
  s.setRaws n (more ++ [(.loa, true)] ++ lowerClears)

/-- Loss of reel sync to BLOCK_SYNC at the same offset (R116). -/
def State.loseReel (s : State) (n : Nat) : State :=
  let s := s.steerLost n
  let s := s.updLane n fun l => { l.forgetDetection with qualRun := 0, reelsInBlock := 0 }
  let s := (s.setFld (F.LANE_SYNC_STATE_STATE n) 1).setFld (F.LANE_SYNC_STATE_LOA_KIND n) 1
  s.setRaws n ([(.loa, true)] ++ lowerClears)

/-- BDI_CAUSE of a lane (R91, R128): the highest blanking defect, 0 for none. A receiver in SLEEP or OFF sends no BDI
(R124). -/
def State.bdiCause (s : State) (n : Nat) : Nat :=
  if s.rxDown n then 0
  else if s.raw n .los then 1 else if s.raw n .lol then 2 else if s.raw n .loa then 3 else if s.raw n .ucb then 4
  else if s.raw n .seq then 5 else if s.raw n .tim && decide (2 ≤ (s.lane n).timMode) then 6 else 0

/-- Levels of R61 in mV: assertion level, codes above 12 acting as 12. -/
def State.losLevel (s : State) (n : Nat) : Nat := 40 + 10 * min 12 (s.fld (F.LANE_SIG_CTL_LOS_TH n))

end Sys2Proof.Machine
end

