-- ==== Sys2Proof/Machine/LanePhy.lean ====
section
/-!
DEFINITION. The lane physical layer (spec 02): taps and adaptation, loss of signal and lock, power states, and the rows
whose rules lie there. The environment says when a moment has come and what was measured; each meaning judges it.
-/
namespace Sys2Proof.Machine
open Sys2Proof

-- Taps ----------------------------------------------------------------------------------------------------------

/-- FFE tap i of the live set (R74). -/
def ffeFld (n i : Nat) : Fld := ⟨R.LANE_FFE_TAPS n (i / 3), 10 * (i % 3), 10⟩

/-- DFE tap i of the live set. -/
def dfeFld (n i : Nat) : Fld := ⟨if i < 4 then R.LANE_DFE_TAPS_0 n else R.LANE_DFE_TAPS_1 n, 8 * (i % 4), 8⟩

/-- Load class of a lane die (R63): lanes whose transmitter or receiver is ACTIVE or QUIET. -/
def State.loadClass (s : State) (g : Nat) : Nat :=
  let k := ((dieLanes g).filter fun n => s.txState n == 0 || s.rxState n ≤ 1).length
  if k ≤ 10 then 0 else if k ≤ 21 then 1 else 2

/-- The live taps with their temperature and load class (R63). -/
def State.liveTaps (s : State) (n : Nat) : TapSet :=
  { ctle := s.fld (F.LANE_CTLE_CODE n)
    ffe := (List.range 24).map fun i => s.fldI (ffeFld n i)
    dfe := (List.range 6).map fun i => s.fldI (dfeFld n i)
    cdr := (s.lane n).cdrPhase
    temp := s.dieTemp (laneDie n)
    loadClass := s.loadClass (laneDie n) }

/-- Make a set of taps live. -/
def State.loadTaps (s : State) (n : Nat) (t : TapSet) : State :=
  let s := s.setFld (F.LANE_CTLE_CODE n) t.ctle
  let s := (List.range 24).foldl (fun s i => s.setFldI (ffeFld n i) (t.ffe.getD i 0)) s
  let s := (List.range 6).foldl (fun s i => s.setFldI (dfeFld n i) (t.dfe.getD i 0)) s
  s.updLane n fun l => { l with cdrPhase := t.cdr }

/-- A stored training record (R64): little-endian fields, closed by their CRC-32. -/
def trainingRecord (n : Nat) (precoded : Bool) (seconds : Nat) (t : TapSet) : List Byte :=
  let body := leBytes 2 n ++ leBytes 1 t.loadClass ++ leBytes 1 precoded.toNat ++ leBytes 2 (ofSigned 16 t.temp) ++ [0, 0]
    ++ leBytes 8 seconds ++ leBytes 1 t.ctle ++ [0]
    ++ ((List.range 24).flatMap fun i => leBytes 2 (ofSigned 16 (t.ffe.getD i 0)))
    ++ ((List.range 6).flatMap fun i => leBytes 1 (ofSigned 8 (t.dfe.getD i 0)))
    ++ leBytes 2 (ofSigned 16 t.cdr) ++ [0, 0]
  body ++ leBytes 4 (crc32 body)

/-- Whether a stored record is one of lane `n`, by its size, lane number and CRC (R64). -/
def trainingRecordOk (n : Nat) (r : List Byte) : Bool :=
  decide (r.length = 80 ∧ leAt r 0 2 = n ∧ leAt r 76 4 = crc32 (r.take 76))

/-- Copy the live taps to the seed set with their tags (R63). Firmware that runs stores them as the lane's training record in flash
(R64; DESIGN CHOICE, assumption 86). -/
def State.copyToSeed (s : State) (n : Nat) : State :=
  let t := s.liveTaps n
  let s := s.updLane n fun l => { l with seed := t }
  let s := (s.setFlag (F.LANE_SEED_INFO_VALID n) true).setFld (F.LANE_SEED_INFO_LOAD_CLASS n) t.loadClass
  let s := s.setFldI (F.LANE_SEED_INFO_TEMP n) t.temp
  if s.fwRuns then
    let r := trainingRecord n (s.lane n).rxPrecode (s.tai / 1000000000) t
    { s with mss := { s.mss with calib := Tbl.put (fun _ => []) s.mss.calib n r } }
  else s

/-- The LMS window exponent in use (R56, R59): below 8 acts as 8, and fast converge takes 3 away. -/
def State.lmsW (s : State) (n : Nat) : Nat :=
  let w := max 8 (s.fld (F.LANE_EQ_CTL_WIN n))
  if s.flag (F.LANE_STATUS_FAST_CONV n) then w - 3 else w

/-- The decision of an equalised sample, in 1/256 of a normalised level (R42): the nearest level. -/
def pam4Decision (z : Int) : Int := if z < -512 then -3 else if z < 0 then -1 else if z < 512 then 1 else 3

/-- The error e(n): the equalised sample minus the level of its decision (R56). -/
def lmsError (z : Int) : Int := z - 256 * pam4Decision z

/-- The sum over a window of sign(e(n)) times the sign of what `x` makes of the symbol `delay` before n (R56). -/
def lmsSum (w : LmsWindow) (x : Int × Int → Int) (delay : Nat) : Int :=
  let past := (w.before ++ w.samples).drop (w.before.length - delay)
  (List.zipWith (fun a b => (lmsError a.2).sign * (x b).sign) w.samples past).foldl (· + ·) 0

/-- The sums of a window (R56): sign(e(n)) sign(v(n - k)) of FFE tap k, then sign(e(n)) sign(d(n - j)) of the DFE taps, of which
tap i of the registers has the delay j = i + 1 (DEDUCED, assumption 87). -/
def lmsSums (w : LmsWindow) : List Int :=
  ((List.range 24).map fun k => lmsSum w (·.1) k) ++ (List.range 6).map fun i => lmsSum w (fun p => pam4Decision p.2) (i + 1)

/-- The end of one LMS window of 2^W symbols (R56): every tap whose sum reaches 2^(W-4) moves by one least significant bit, FFE
against and DFE with the sign of its sum; a tap at the end of its range stays there. -/
def State.lmsWindow (s : State) (n : Nat) (w : LmsWindow) : State :=
  if w.samples.length ≠ 2 ^ s.lmsW n then s
  else
  let sums := lmsSums w
  let th : Int := 2 ^ (s.lmsW n - 4)
  let move (x : Int) : Int := if th ≤ x then 1 else if x ≤ -th then -1 else 0
  let s := (List.range 24).foldl (fun s i =>
    s.setFldI (ffeFld n i) (clampInt (-512) 511 (s.fldI (ffeFld n i) - move (sums.getD i 0)))) s
  (List.range 6).foldl (fun s i =>
    s.setFldI (dfeFld n i) (clampInt (-128) 127 (s.fldI (dfeFld n i) + move (sums.getD (24 + i) 0)))) s

/-- Whether a window is rich (R56). -/
def State.isRich (s : State) (n : Nat) (w : RichWindow) : Bool :=
  let m := s.fld (F.LANE_RICH_CTL_LEVEL_MIN n)
  decide (m ≤ w.l0 ∧ m ≤ w.l1 ∧ m ≤ w.l2 ∧ m ≤ w.l3 ∧ s.fld (F.LANE_RICH_CTL_TRANS_MIN n) ≤ w.changes)

/-- Whether taps are being adapted: receiver on, adaptation enabled, signal and lock present, not frozen (R56 to R58), and
no near-end parallel loop (R481). -/
def State.adapting (s : State) (n : Nat) : Bool :=
  s.rxState n == 0 && (s.testLane n).active != 2 && s.flag (F.LANE_EQ_CTL_ADAPT n) && !s.flag (F.LANE_STATUS_LOS n) && !s.flag (F.LANE_STATUS_LOL n)
    && !s.flag (F.LANE_STATUS_FREEZE n) && (s.lane n).held.isNone

-- Held taps -----------------------------------------------------------------------------------------------------

/-- Adaptation stops and the most recent snapshot at least 10 µs old becomes the held taps (R58). Snapshots are taken
10 µs apart, so it is the newest one only if 10 µs have passed since it. Without one, the live taps are held. Taps that are held
already stay so. -/
def State.holdTaps (s : State) (n : Nat) (sinceSnapNs : Nat) : State :=
  let l := s.lane n
  if l.held.isSome then s
  else
  let t := (if 10000 ≤ sinceSnapNs then l.snapNew.orElse (fun _ => l.snapOld) else l.snapOld).getD (s.liveTaps n)
  ((s.loadTaps n t).setFlag (F.LANE_STATUS_FAST_CONV n) false).updLane n fun l => { l with held := some t }

-- Power states --------------------------------------------------------------------------------------------------

/-- LANE of LANE_STATE (R74): 5 or 6 while a direction stops or starts because of EN, otherwise by the EN last acted on (R68). -/
def State.refreshLaneState (s : State) (n : Nat) : State :=
  let tx := s.txState n; let rx := s.rxState n
  let v := if (s.lane n).byEn && (tx == 5 || rx == 5) then 5
    else if (s.lane n).byEn && (tx == 6 || rx == 6) then 6
    else if (s.lane n).ctlEn then 0 else 4
  s.setFld (F.LANE_STATE_LANE n) v

/-- Whether a direction of the lane is stopping or starting. -/
def State.inTransition (s : State) (n : Nat) : Bool :=
  s.txState n == 5 || s.txState n == 6 || s.rxState n == 5 || s.rxState n == 6

/-- The receiver enters SLEEP or OFF: it shows LOS, LOL and LOA and reports LOS, without an event (R62, R124). -/
def State.rxPowerDown (s : State) (n target : Nat) : State :=
  let s := s.setFld (F.LANE_STATE_RX_STATE n) target
  let s := (s.setFlag (F.LANE_STATUS_LOS n) true).setFlag (F.LANE_STATUS_LOL n) true
  let s := (s.setFlag (F.LANE_STATUS_LOS_EXPECTED n) false).setFlag (F.LANE_STATUS_FAST_CONV n) false
  let s := (s.setFlag (F.LANE_STATUS_FREEZE n) false).setFld (F.LANE_SNR_SNR n) 0
  (s.setReg (R.LANE_DEFECT n) 0x1C0#32).setReg (R.LANE_DEFECT_RPT n) 0x100#32

/-- Whether a die temperature lies within 15 °C of the present one of lane `n` (R59, R64). -/
def State.warmAs (s : State) (n : Nat) (temp : Int) : Bool := decide ((s.dieTempSum (laneDie n) - 4 * temp).natAbs ≤ 960)

/-- Start mode of R64 by the seed set, for a receiver that comes from state `from_`: 0 direct, 1 seed, 2 full. -/
def State.startMode (s : State) (n from_ : Nat) : Nat :=
  let g := laneDie n
  if !s.flag (F.LANE_SEED_INFO_VALID n) then 2
  else if s.warmAs n (s.fldI (F.LANE_SEED_INFO_TEMP n))
      ∧ s.loadClass g ≤ s.fld (F.LANE_SEED_INFO_LOAD_CLASS n) + 1 ∧ s.fld (F.LANE_SEED_INFO_LOAD_CLASS n) ≤ s.loadClass g + 1
      ∧ (from_ = 3 ∨ from_ = 1) then 0
  else 1

/-- A receiver starts (R45, R50, R64, R116, R119): it samples precoding, CHASSIS and CURSOR, takes the set it starts from and its start
mode, and raises LOA. -/
def State.startReceiver (s : State) (n target : Nat) (set : TapSet) (mode : Nat) : State :=
  let s := (s.setFld (F.LANE_STATE_RX_STATE n) 6).setFld (F.LANE_STATE_START_MODE n) mode
  let s := s.updLane n fun l => { l with
    rxTarget := target, autoQuiet := false, startSet := set, held := none, rxPrecode := s.flag (F.LANE_CTL_RX_PRECODE n)
    chassis := s.flag (F.LANE_CTL_CHASSIS n) && decide (n < 128), cursor := s.fld (F.LANE_EQ_CTL_CURSOR n) }
  s.loseToHunt n 0 []

/-- Resume from the held taps with fast converge; where the die temperature has moved more than 15 °C they only serve as the seed of
a seed start (R59, R64). -/
def State.resumeTaps (s : State) (n : Nat) : State :=
  match (s.lane n).held with
  | none => s
  | some t =>
    if s.warmAs n t.temp then
      ((s.loadTaps n t).updLane n fun l => { l with held := none }).setFlag (F.LANE_STATUS_FAST_CONV n) true
    else s.startReceiver n 0 t 1

/-- Send the transmitter towards a state (R66, R67). Between IDLE_TX, SLEEP and OFF it moves at once, without STOPPING or STARTING
(DESIGN CHOICE, assumption 22). -/
def State.txRequest (s : State) (n target : Nat) : State :=
  let cur := s.txState n
  if cur = target then s
  else if cur = 0 then
    (s.setFld (F.LANE_STATE_TX_STATE n) 5).updLane n fun l => { l with txTarget := target, noticeLeft := 8 }
  else if target = 0 then
    (s.setFld (F.LANE_STATE_TX_STATE n) 6).updLane n fun l =>
      { l with txTarget := 0, txPrecode := s.flag (F.LANE_CTL_TX_PRECODE n) }
  else s.setFld (F.LANE_STATE_TX_STATE n) target

/-- Send the receiver towards a state (R66 to R68). Leaving ACTIVE or QUIET downwards takes STOPPING and loses alignment;
ACTIVE to QUIET holds the taps; everything else that ends in ACTIVE or QUIET takes STARTING. Between SLEEP and OFF it moves at once
(DESIGN CHOICE, assumption 22), and a request for ACTIVE starts a receiver that is in QUIET of its own accord without its signal
(DESIGN CHOICE, assumption 88). -/
def State.rxRequest (s : State) (n target : Nat) : State :=
  let cur := s.rxState n
  if cur = target then s.updLane n fun l => { l with autoQuiet := false }
  else if cur ≤ 1 ∧ 3 ≤ target then
    let s := (s.setFld (F.LANE_STATE_RX_STATE n) 5).updLane n fun l => { l with rxTarget := target, autoQuiet := false }
    s.loseToHunt n 0 []
  else if cur = 0 ∧ target = 1 then
    (s.setFld (F.LANE_STATE_RX_STATE n) 1).holdTaps n (s.time.clock - (s.lane n).snapAt - 2560)
  else if 1 ≤ cur ∧ target ≤ 1 then
    s.startReceiver n target (s.lane n).seed (s.startMode n cur)
  else if target = 3 then (s.copyToSeed n).setFld (F.LANE_STATE_RX_STATE n) 3
  else s.setFld (F.LANE_STATE_RX_STATE n) target

/-- Act on the present LANE_CTL as one request (R66, R68): its EN and AUTO_QUIET come into force. Lanes that a thermal fence has
powered down stay off (R31). -/
def State.laneAct (s : State) (n : Nat) : State :=
  let want := s.flag (F.LANE_CTL_EN n)
  let enChanged := want != (s.lane n).ctlEn
  let en := want && !s.gctl.lanesDown
  let tx := if en then s.fld (F.LANE_CTL_TX_PSTATE n) else 4
  let rx := if en then s.fld (F.LANE_CTL_RX_PSTATE n) else 4
  let s := s.updLane n fun l => { l with byEn := enChanged, ctlEn := want, ctlAutoQuiet := s.flag (F.LANE_CTL_AUTO_QUIET n) }
  ((s.txRequest n tx).rxRequest n rx).refreshLaneState n

/-- End of a transition: when neither direction moves any more, a held LANE_CTL is acted on as one new request (R68). -/
def State.transitionEnd (s : State) (n : Nat) : State :=
  if s.inTransition n then s.refreshLaneState n
  else if s.flag (F.LANE_STATE_HELD n) then (s.setFlag (F.LANE_STATE_HELD n) false).laneAct n
  else (s.updLane n fun l => { l with byEn := false }).refreshLaneState n

/-- PSTATE codes that may be written (R69). -/
def txPstateOk (v : Nat) : Bool := v == 0 || v == 2 || v == 3 || v == 4
def rxPstateOk (v : Nat) : Bool := v == 0 || v == 1 || v == 3 || v == 4

/-- A write to LANE_CTL (R66, R68, R69). Reserved bits are ignored (R8), and CHASSIS on M0 and M1 (R51). -/
def State.writeLaneCtl (s : State) (n : Nat) (v : Word) : State :=
  let v := v.toNat
  if !txPstateOk (bitsOf v 4 3) || !rxPstateOk (bitsOf v 8 3) then s.setFlag (F.LANE_FLAGS_PSTATE_REFUSED n) true
  else
    let keep := v &&& (if n < 128 then 0xF771 else 0xB771)
    let s := s.setReg (R.LANE_CTL n) (BitVec.ofNat 32 keep)
    if s.inTransition n then (s.setFlag (F.LANE_STATE_HELD n) true).refreshLaneState n
    else s.laneAct n

/-- Whether LANE_CTL has a transmitter send. -/
def State.txWanted (s : State) (n : Nat) : Bool := s.flag (F.LANE_CTL_EN n) && s.fld (F.LANE_CTL_TX_PSTATE n) == 0

/-- A transmitter that has sent its 8 reels of stop notice stops at this local reel boundary (R67). One that a join stopped and that is
to send again meanwhile starts (R31). -/
def State.txStopNow (s : State) (n : Nat) : State :=
  if s.txState n = 5 ∧ (s.lane n).noticeLeft = 0 then
    let t := (s.lane n).txTarget
    let s := (s.setFld (F.LANE_STATE_TX_STATE n) (if t = 0 then 2 else t)).transitionEnd n
    if t = 0 ∧ s.txState n = 2 ∧ s.txWanted n then (s.txRequest n 0).refreshLaneState n else s
  else s

-- Rows ----------------------------------------------------------------------------------------------------------

/-- SIGNAL_LOSS (R58, R67): the amplitude has fallen below the assertion level. Adaptation stops and taps are held. A
receiver in reel sync that has seen the stop notice, within the last 10 reels, enters QUIET if AUTO_QUIET is 1; one that is in QUIET
of its own accord already stays so. -/
def execSignalLoss (n : LaneNo) (mv sinceSnapNs : Nat) (s : State) : Host.Outcome State Fault Refusal :=
  let n := n.val
  if s.losLevel n ≤ mv ∨ 2 ≤ s.rxState n ∨ (s.testLane n).active = 2 then .next s
  else
    let l := s.lane n
    let seen := match l.stopAt with | some a => decide (s.time.clock ≤ a + 25600) | none => false
    let quiet := seen && l.ctlAutoQuiet && s.sync n == 2 && s.rxState n == 0
    let again := l.autoQuiet && s.rxState n == 1
    let s := s.holdTaps n sinceSnapNs
    let s := s.updLane n fun l => { l with
      expectLos := seen || (again && l.expectLos), autoQuiet := quiet || again, sigPresent := false }
    .next (s.when quiet fun s => s.setFld (F.LANE_STATE_RX_STATE n) 1)

/-- SIGNAL_RETURN (R59): the signal is back on a receiver with held taps. A receiver put in QUIET by RX_PSTATE stays
there with its taps held. -/
def execSignalReturn (n : LaneNo) (mv : Nat) (s : State) : Host.Outcome State Fault Refusal :=
  let n := n.val
  if mv < s.losLevel n ∨ 2 ≤ s.rxState n then .next s
  else
    let s := s.updLane n fun l => { l with sigPresent := true }
    .next (if s.rxState n = 1 ∧ !(s.lane n).autoQuiet then s else s.resumeTaps n)

/-- LOS (R61): below the assertion level for 1 µs. LOL is asserted with it, and alignment is lost (R62, R116). -/
def execLos (n : LaneNo) (mv : Nat) (s : State) : Host.Outcome State Fault Refusal :=
  let n := n.val
  if s.losLevel n ≤ mv ∨ (s.testLane n).active = 2 ∨ s.rxState n = 3 ∨ s.rxState n = 4 ∨ s.flag (F.LANE_STATUS_LOS n) then .next s
  else
    let s := (s.setFlag (F.LANE_STATUS_LOS n) true).setFlag (F.LANE_STATUS_LOL n) true
    let s := s.setFlag (F.LANE_STATUS_LOS_EXPECTED n) (s.lane n).expectLos
    let s := (s.setFlag (F.LANE_FLAGS_LOS n) true).setFlag (F.LANE_FLAGS_LOL n) true
    let s := s.setFld (F.LANE_SNR_SNR n) 0
    .next (s.loseToHunt n 0 [(.los, true), (.lol, true)])

/-- LOS_CLEAR (R61, R67): at or above twice the assertion level for 100 µs, or 10 µs in QUIET. A receiver that entered
QUIET by itself returns to ACTIVE by itself. The event of an expected LOS that clears still carries the flag (R124). -/
def execLosClear (n : LaneNo) (mv : Nat) (s : State) : Host.Outcome State Fault Refusal :=
  let n := n.val
  if mv < 2 * s.losLevel n ∨ s.rxState n = 3 ∨ s.rxState n = 4 ∨ !s.flag (F.LANE_STATUS_LOS n) then .next s
  else
    let s := s.setFlag (F.LANE_STATUS_LOS n) false
    let auto := (s.lane n).autoQuiet
    let s := s.updLane n fun l => { l with expectLos := false, autoQuiet := false, stopAt := none }
    let s := s.when (auto && s.rxState n == 1) fun s => s.setFld (F.LANE_STATE_RX_STATE n) 0
    .next ((s.setRaws n [(.los, false)]).setFlag (F.LANE_STATUS_LOS_EXPECTED n) false)

/-- The conditions of R62 for a lane: mean frequency offset in units of 0.01 ppm, and phase samples beyond ±0.35 UI. -/
def State.lolHolds (s : State) (n : Nat) (ppm : Int) (bad samples : Nat) : Bool :=
  let lim := if (s.lane n).chassis then 300000 else 20000
  decide (lim < ppm.natAbs) || decide (samples < 16 * bad)

/-- LOL (R62). -/
def execLol (n : LaneNo) (ppm : Int) (badPhase samples : Nat) (s : State) : Host.Outcome State Fault Refusal :=
  let n := n.val
  if !s.lolHolds n ppm badPhase samples || (s.testLane n).active == 2 || s.rxState n == 3 || s.rxState n == 4
      || s.flag (F.LANE_STATUS_LOL n) then .next s
  else
    let s := (s.setFlag (F.LANE_STATUS_LOL n) true).setFlag (F.LANE_FLAGS_LOL n) true
    .next ((s.setFld (F.LANE_SNR_SNR n) 0).loseToHunt n 0 [(.lol, true)])

/-- LOL_CLEAR (R62): none of the conditions has held for 50 µs, and LOS is not asserted. -/
def execLolClear (n : LaneNo) (ppm : Int) (badPhase samples : Nat) (s : State) : Host.Outcome State Fault Refusal :=
  let n := n.val
  if s.lolHolds n ppm badPhase samples || s.rxState n == 3 || s.rxState n == 4 || s.flag (F.LANE_STATUS_LOS n)
      || !s.flag (F.LANE_STATUS_LOL n) then .next s
  else .next (((s.setFlag (F.LANE_STATUS_LOL n) false).updLane n fun l => { l with lolInWindow := true }).setRaws n [(.lol, false)])

/-- FAST_CONVERGE_END (R59): after 2 ms. -/
def execFastConvergeEnd (n : LaneNo) (s : State) : Host.Outcome State Fault Refusal :=
  .next (s.setFlag (F.LANE_STATUS_FAST_CONV n) false)

/-- FREEZE (R57): no window has been rich for 64 µs; the last such window is given. -/
def execFreeze (n : LaneNo) (w : RichWindow) (s : State) : Host.Outcome State Fault Refusal :=
  let n := n.val
  let rich := s.isRich n w
  let s := s.setFlag (F.LANE_STATUS_RICH n) rich
  .next (if rich then s else (s.setFlag (F.LANE_STATUS_FREEZE n) true).setFlag (F.LANE_FLAGS_FREEZE n) true)

/-- FREEZE_END (R57): every window of 1.28 µs has been rich; the last is given. -/
def execFreezeEnd (n : LaneNo) (w : RichWindow) (s : State) : Host.Outcome State Fault Refusal :=
  let n := n.val
  let rich := s.isRich n w
  let s := s.setFlag (F.LANE_STATUS_RICH n) rich
  .next (if rich then s.setFlag (F.LANE_STATUS_FREEZE n) false else s)

/-- TAP_SNAPSHOT (R56, R58): the LMS windows that ended since the last snapshot have moved the taps; an adapting receiver
with a rich window keeps a snapshot of them. -/
def execTapSnapshot (n : LaneNo) (w : RichWindow) (lms : List LmsWindow) (s : State) : Host.Outcome State Fault Refusal :=
  let n := n.val
  let s := s.setFlag (F.LANE_STATUS_RICH n) (s.isRich n w)
  if !s.adapting n then .next s
  else
    let s := lms.foldl (fun s x => s.lmsWindow n x) s
    if !s.flag (F.LANE_STATUS_RICH n) then .next s
    else
      let t := s.liveTaps n
      .next (s.updLane n fun l => { l with snapOld := l.snapNew, snapNew := some t, snapAt := s.time.clock })

/-- LANE_FOFS (R49): a 10 ms window ends with the given mean offset in 0.01 ppm, 0x8000_0000 if LOL was asserted in it.
Three windows beyond LANE_FOFS_LIM set the alarm, three within it clear it. A window without a measurement breaks both
runs (log entry 23). -/
def execLaneFofs (n : LaneNo) (mean : Int) (lolSeen : Bool) (s : State) : Host.Outcome State Fault Refusal :=
  let n := n.val
  let lol := lolSeen || s.flag (F.LANE_STATUS_LOL n) || (s.lane n).lolInWindow
  let s := s.updLane n fun l => { l with lolInWindow := false }
  if lol then
    .next ((s.setFld (F.LANE_FOFS_FOFS n) 0x80000000).updLane n fun l => { l with fofsOut := 0, fofsIn := 0 })
  else
    let s := s.setFldI (F.LANE_FOFS_FOFS n) mean
    if s.fld (F.LANE_FOFS_LIM_LIM n) < mean.natAbs then
      let s := s.updLane n fun l => { l with fofsOut := min 3 (l.fofsOut + 1), fofsIn := 0 }
      if (s.lane n).fofsOut = 3 ∧ !s.flag (F.LANE_STATUS_FOFS_ALARM n) then
        .next (((s.setFlag (F.LANE_STATUS_FOFS_ALARM n) true).setFlag (F.LANE_FLAGS_FOFS_ALARM n) true).logEvent
          Ev.LANE_FOFS n (leBytes 4 (ofSigned 32 mean)))
      else .next s
    else
      let s := s.updLane n fun l => { l with fofsIn := min 3 (l.fofsIn + 1), fofsOut := 0 }
      .next (if (s.lane n).fofsIn = 3 then s.setFlag (F.LANE_STATUS_FOFS_ALARM n) false else s)

/-- LANE_CTL_WRITE (R66, R68, R69). -/
def execLaneCtlWrite (n : LaneNo) (v : Word) (s : State) : Host.Outcome State Fault Refusal :=
  .next (s.writeLaneCtl n v)

/-- TRANSMITTER_STOP (R67). -/
def execTransmitterStop (n : LaneNo) (s : State) : Host.Outcome State Fault Refusal := .next (s.txStopNow n)

/-- The taps of LANE_TX_FFE come into force on a lane that sends block headers (R52). Headers come every 80 ns, finer than any row, so
they are in force before the next command (DESIGN CHOICE, assumption 89). -/
def State.ffeNow (s : State) (n : Nat) : State :=
  if s.sendsReels n then s.updLane n fun l => { l with ffeInForce := s.reg (R.LANE_TX_FFE n) } else s

/-- TRANSMITTER_START (R46, R66): a starting transmitter begins to send at this local reel boundary. -/
def execTransmitterStart (n : LaneNo) (s : State) : Host.Outcome State Fault Refusal :=
  let n := n.val
  .next (if s.txState n = 6 then ((s.setFld (F.LANE_STATE_TX_STATE n) 0).ffeNow n).transitionEnd n else s)

/-- RECEIVER_STOP_DONE (R63, R68): the taps are in the seed set and the receiver is powered down. -/
def execReceiverStopDone (n : LaneNo) (s : State) : Host.Outcome State Fault Refusal :=
  let n := n.val
  .next (if s.rxState n = 5 then (((s.copyToSeed n).rxPowerDown n (s.lane n).rxTarget).transitionEnd n) else s)

/-- RECEIVER_START (R55, R63, R64, R119): a starting receiver has usable taps. `t` is what training found; a direct
start takes the set it started from, a seed start keeps CTLE within ±3 of it, and CTLE_MANUAL takes its CTLE code. -/
def execReceiverStart (n : LaneNo) (t : Trained) (s : State) : Host.Outcome State Fault Refusal :=
  let n := n.val
  if s.rxState n ≠ 6 then .next s
  else
    let l := s.lane n
    let mode := s.fld (F.LANE_STATE_START_MODE n)
    let ctle := if s.flag (F.LANE_EQ_CTL_CTLE_MANUAL n) then l.startSet.ctle
      else if mode = 1 then clampNat (l.startSet.ctle - 3) (min 20 (l.startSet.ctle + 3)) t.ctle else min 20 t.ctle
    let taps : TapSet := if mode = 0 then l.startSet
      else { ctle := ctle, ffe := t.ffe, dfe := t.dfe, cdr := t.cdr }
    let s := s.loadTaps n taps
    let s := s.setFlag (F.LANE_STATUS_FAST_CONV n) (mode == 0)
    let s := s.setFld (F.LANE_STATE_RX_STATE n) l.rxTarget
    let s := s.updLane n fun l => { l with held := none, snapNew := none, snapOld := none, stopAt := none }
    let s := s.loseToHunt n 0 [(.los, s.flag (F.LANE_STATUS_LOS n)), (.lol, s.flag (F.LANE_STATUS_LOL n))]
    .next (s.transitionEnd n)

/-- LANE_TX_FFE_WRITE (R52): refused out of range or above the sum of 64; otherwise in force from the next block header sent. -/
def State.writeTxFfe (s : State) (n : Nat) (v : Word) : State :=
  let v := v.toNat
  let m : Int := bitsOf v 24 7
  let p3 := toSigned 6 (bitsOf v 18 6)
  let p2 := toSigned 6 (bitsOf v 12 6)
  let p1 := toSigned 6 (bitsOf v 6 6)
  let q1 := toSigned 6 (bitsOf v 0 6)
  let ok := decide (-8 ≤ p3 ∧ p3 ≤ 0 ∧ 0 ≤ p2 ∧ p2 ≤ 12 ∧ -24 ≤ p1 ∧ p1 ≤ 0 ∧ 24 ≤ m ∧ m ≤ 64 ∧ -16 ≤ q1 ∧ q1 ≤ 0
    ∧ p3.natAbs + p2.natAbs + p1.natAbs + m.natAbs + q1.natAbs ≤ 64)
  if ok then (s.setReg (R.LANE_TX_FFE n) (BitVec.ofNat 32 (v % 2 ^ 31))).ffeNow n
  else (s.setFlag (F.LANE_FLAGS_FFE_REFUSED n) true).logEvent Ev.LANE_FFE_RANGE n (leBytes 4 v)

def execLaneTxFfeWrite (n : LaneNo) (v : Word) (s : State) : Host.Outcome State Fault Refusal :=
  .next (s.writeTxFfe n v)

/-- The largest transition of a transmitter in mV (R53): V_FS times the sum of tap magnitudes over 64. -/
def State.txSwing (s : State) (n : Nat) : Nat :=
  let v := (s.lane n).ffeInForce.toNat
  let sum := bitsOf v 24 7 + ([18, 12, 6, 0].foldl (fun a lo => a + (toSigned 6 (bitsOf v lo 6)).natAbs) 0)
  (600 + 40 * s.fld (F.LANE_TX_AMP_AMP n)) * sum / 64

/-- The level at which a long run of one symbol settles, in 1/64 mV (R53): V_FS times the signed tap sum. -/
def State.txSettled (s : State) (n : Nat) : Int :=
  let v := (s.lane n).ffeInForce.toNat
  let sum := [18, 12, 6, 0].foldl (fun a lo => a + toSigned 6 (bitsOf v lo 6)) (bitsOf v 24 7 : Int)
  (600 + 40 * s.fld (F.LANE_TX_AMP_AMP n) : Nat) * sum

/-- Loop bandwidth of a receive CDR in MHz (R48): by LANE_CDR_CTL.BW, but at least 8 on a chassis lane. -/
def State.cdrBandwidth (s : State) (n : Nat) : Nat :=
  let bw := 2 ^ (s.fld (F.LANE_CDR_CTL_BW n) + 1)
  if (s.lane n).chassis then max 8 bw else bw

/-- Whether the CDR tracks a frequency offset in 0.01 ppm (R48, R50): up to ±150 ppm, and on a chassis lane the ±0.25 % of a far
end's spread. -/
def State.cdrTracks (s : State) (n : Nat) (ppm : Int) : Bool :=
  decide (ppm.natAbs ≤ if (s.lane n).chassis then 250000 else 15000)

/-- LANE_TAP_LOAD (R60): SET 0 loads one live value while ADAPT is 0, SET 1 one value of the seed set. A tap index
that does not exist loads nothing. A CTLE code above 20 is taken as it is, and BANK 3 with SET 0 loads the CDR phase offset in force
(DESIGN CHOICE, assumption 90). -/
def State.writeTapLoad (s : State) (n : Nat) (v : Word) : State :=
  let v := v.toNat
  let bank := bitsOf v 29 2; let idx := bitsOf v 24 5; let val := bitsOf v 0 10
  if v.testBit 31 then
    s.updLane n fun l => { l with seed :=
      match bank with
      | 0 => { l.seed with ffe := l.seed.ffe.set idx (toSigned 10 val) }
      | 1 => { l.seed with dfe := l.seed.dfe.set idx (toSigned 8 val) }
      | 2 => { l.seed with ctle := val % 32 }
      | _ => { l.seed with cdr := toSigned 10 val } }
  else if s.flag (F.LANE_EQ_CTL_ADAPT n) then s.setFlag (F.LANE_FLAGS_TAP_LOAD_REFUSED n) true
  else match bank with
    | 0 => if idx < 24 then s.setFldI (ffeFld n idx) (toSigned 10 val) else s
    | 1 => if idx < 6 then s.setFldI (dfeFld n idx) (toSigned 8 val) else s
    | 2 => s.setFld (F.LANE_CTLE_CODE n) (val % 32)
    | _ => s.updLane n fun l => { l with cdrPhase := toSigned 10 val }

def execLaneTapLoad (n : LaneNo) (v : Word) (s : State) : Host.Outcome State Fault Refusal :=
  .next (s.writeTapLoad n v)

end Sys2Proof.Machine
end

