-- ==== Sys2Proof/Machine/LaneAlign.lean ====
section
/-!
DEFINITION. Finding and keeping the reel, and what each received block sets (spec 03 R84, R88, R99 to R102; 04 R110 to
R122, R131, R132; 06 R183 to R187). For each block the environment gives BLOCK_DECODE, then BLOCK_HEADER, then the row of
its overhead (log entry 24).
-/
namespace Sys2Proof.Machine
open Sys2Proof

-- Hunt ----------------------------------------------------------------------------------------------------------

/-- Whether raw header bits open a candidate (R110): exact clapper, valid check, block number 0 to 31. -/
def hdrMatches (h : Nat) : Bool := decide (hdrClapper h = clapper) && hdrCheckOk h && decide (hdrBlock h ≤ 31)

/-- Whether a later header confirms a candidate (R111). At the wrap from 31 to 0 the REEL_SEQ byte must be one more; an equal byte fails
(DESIGN CHOICE, assumption 91). -/
def hdrConfirms (c : Candidate) (h : Nat) : Bool :=
  hdrMatches h && decide (hdrBlock h = (c.blockNo + 1) % 32)
    && decide (hdrSeq h = if c.blockNo = 31 then (c.seqByte + 1) % 256 else c.seqByte)

/-- Open candidates shown in LANE_SYNC_STATE. -/
def State.setCandidates (s : State) (n : Nat) (l : List Candidate) : State :=
  (s.updLane n fun x => { x with candidates := l }).setFld (F.LANE_SYNC_STATE_CANDIDATES n) l.length

/-- A header at a new offset in HUNT (R110, R111, R114). -/
def State.openCandidate (s : State) (n h offset : Nat) : State :=
  let l := s.lane n
  if hdrClapper h ≠ clapper ∨ l.barred = some offset then s
  else if 8 ≤ l.candidates.length then s.incFld (F.LANE_HUNT_STAT_CAND_DISCARDED n)
  else if hdrMatches h then
    s.setCandidates n (l.candidates ++ [{ offset := offset, blockNo := hdrBlock h, seqByte := hdrSeq h, headers := 1 }])
  else s

/-- A header in HUNT (R110 to R112): matches begin at symbol boundaries. The header that confirms a candidate for the third time gives
block sync, and decoding begins with the next block (DESIGN CHOICE, assumption 92). -/
def State.huntHeader (s : State) (n h offset : Nat) : State :=
  if s.flag (F.LANE_STATUS_LOS n) || s.flag (F.LANE_STATUS_LOL n) || decide (2 ≤ s.rxState n) || offset % 2 == 1 then s
  else match (s.lane n).candidates.find? (fun c => c.offset == offset) with
    | none => s.openCandidate n h offset
    | some c =>
      let rest := (s.lane n).candidates.filter fun x => x.offset != offset
      if !hdrConfirms c h then (s.setCandidates n rest).openCandidate n h offset
      else
        let c' : Candidate := { c with blockNo := hdrBlock h, seqByte := hdrSeq h, headers := c.headers + 1 }
        if c'.headers < 4 then s.setCandidates n (rest ++ [c'])
        else
          let s := (s.setCandidates n []).updLane n fun l => { l with
            offset := offset, blkNo := hdrBlock h, reelByte := some (hdrSeq h), badHeaders := 0, badControls := 0
            reelsInBlock := 0, qualRun := 0, blk := none }
          s.setFld (F.LANE_SYNC_STATE_STATE n) 1

-- Decoding and header judgement --------------------------------------------------------------------------------

/-- Counters of a decoded block: loupe (R208), reports to the far end (R101) and the 10 ms window (R119). -/
def State.countBlock (s : State) (n : Nat) (d : Decoded) : State :=
  let unc := d.cls == .uncorrectable
  let s := s.when unc fun s => s.count (laneCtr n 0)
  let s := s.when (d.cls == .corrected) fun s => (s.count (laneCtr n 1)).count (laneCtr n 2) d.csym
  if s.sync n ≠ 2 then s
  else
    let s := s.updLane n fun l => { l with
      rptUcb := (l.rptUcb + unc.toNat) % 2 ^ 32, rptCsym := (l.rptCsym + d.csym) % 2 ^ 32
      ucbCount := l.ucbCount + unc.toNat, csymCount := l.csymCount + d.csym }
    if unc ∧ max 1 (s.lane n).ucbSet ≤ (s.lane n).ucbCount ∧ !s.raw n .ucb then
      (s.updLane n fun l => { l with ucbLowRun := 0 }).setRaws n [(.ucb, true)]
    else s

/-- What the receiver of lane `n` makes of the symbols of a field on the line (R44, R45), by the precoding it has sampled. -/
def State.fromLine (s : State) (n : Nat) (prev : Fin 4) (w v : Nat) : Nat := recovered (s.lane n).rxPrecode prev.val w v

/-- BLOCK_DECODE (R84, R112): the next block at the held offset is descrambled, decoded and classed; its grains enter the
alignment buffer with its status (R16, R125). In HUNT nothing is decoded. `line` codes the symbols decided on the line in the bit
pairs of R42, and `prev` is the symbol before them (R43, R44). -/
def execBlockDecode (n : LaneNo) (line : RawBlock) (prev : Fin 4) (s : State) : Host.Outcome State Fault Refusal :=
  let n := n.val
  if s.sync n = 0 then .next s
  else
    let raw : RawBlock := BitVec.ofNat 17920 (s.fromLine n prev 17920 line.toNat)
    let d := decodeBlock raw
    let no := ((s.lane n).blkNo + 1) % 32
    let bad := d.cls == .uncorrectable
    let blk : RxBlock := { no := no, cls := d.cls, csym := d.csym, data := d.data, rawHeader := BitVec.ofNat 80 (raw.toNat >>> 17840) }
    let s := s.updLane n fun l => { l with
      blkNo := no, blk := some blk
      rx := if s.sync n ≠ 2 then l.rx
            else if no = 0 then { seq := 0, valid := true, blocks := [(0, bad, dataGrains d.data)] }
            else if l.rx.valid then { l.rx with blocks := l.rx.blocks ++ [(no, bad, dataGrains d.data)] } else l.rx }
    .next (s.countBlock n d)

/-- Judgement of the header of the block last decoded (R115): check, number, and REEL_SEQ byte of its reel. Where block 0
had a bad header, the first good header of the reel sets the byte (log entry 25). -/
def State.judgeHeader (s : State) (n : Nat) (b : RxBlock) : Bool × Option Nat :=
  let h := if b.cls = .uncorrectable then b.rawHeader.toNat else dataHeader b.data
  let base := if b.no = 0 then none else (s.lane n).reelByte
  let ok := hdrCheckOk h && decide (hdrBlock h = b.no)
  match base with
  | some x => (ok && decide (hdrSeq h = x), some x)
  | none => (ok, if ok then some (hdrSeq h) else none)

/-- BLOCK_HEADER: in HUNT a raw header at a bit offset is matched or confirms a candidate (R110 to R112); from block sync on
the header of the block last decoded is judged good or bad, and 8 bad headers in a row lose alignment (R115, R116). `hdr` and `prev`
are symbols on the line, as in BLOCK_DECODE. -/
def execBlockHeader (n : LaneNo) (hdr : BitVec 80) (prev : Fin 4) (offset : Fin 17920) (s : State) : Host.Outcome State Fault Refusal :=
  let n := n.val
  if s.sync n = 0 then .next (s.huntHeader n (s.fromLine n prev 80 hdr.toNat) offset.val)
  else match (s.lane n).blk with
    | none => .next s
    | some b =>
      if b.headerJudged then .next s
      else
        let (good, byte) := s.judgeHeader n b
        let bad := if good then 0 else (s.lane n).badHeaders + 1
        let s := s.updLane n fun l => { l with
          blk := some { b with headerJudged := true, headerGood := good }, reelByte := byte, badHeaders := bad
          rptHdr := if good then l.rptHdr else (l.rptHdr + 1) % 2 ^ 32 }
        let s := s.when (!good) fun s => s.count (laneCtr n 3)
        .next (if 8 ≤ bad then s.loseToHunt n 0 [] else s)

-- Reel control --------------------------------------------------------------------------------------------------

/-- Reel sync is declared (R113): the alignment buffer takes the phase of this reel, detection starts afresh (R119,
R120) and the report counts restart (R101). -/
def State.enterReelSync (s : State) (n seq : Nat) : State :=
  let s := s.updLane n fun l => { l.forgetDetection with
    reelsSince := 0, rptUcb := 0, rptCsym := 0, rptRescued := 0, rptHdr := 0, rptValid := true, rx := {}
    waits := [], skews := [], skewStamps := [], arrivals := [], hist := []
    ucbSet := s.fld (F.LANE_UCB_CTL_SET n), ucbClr := s.fld (F.LANE_UCB_CTL_CLR n)
    degSet := s.fld (F.LANE_DEG_SET_SET n), degClr := s.fld (F.LANE_DEG_CLR_CLR n) }
  let s := (s.setFld (F.LANE_SYNC_STATE_STATE n) 2).setFld (F.LANE_SEQ_LAST_SEQ n) seq
  s.setRaws n [(.loa, false)]

/-- Runs of FDI or BDI in good reel controls (R119): the raw state after a flag, with the runs of ones and zeros. -/
def flagRuns (raw flag : Bool) (r1 r0 : Nat) : Bool × Nat × Nat :=
  let r1' := if flag then min 3 (r1 + 1) else 0
  let r0' := if flag then 0 else min 3 (r0 + 1)
  ((if r1' = 3 then true else if r0' = 3 then false else raw), r1', r0')

/-- Effect of a good reel control in REEL_SYNC on SEQ, FDI and BDI (R119, R121). -/
def State.goodControl (s : State) (n seq flags : Nat) : State :=
  let l := s.lane n
  let expected := (s.fld (F.LANE_SEQ_LAST_SEQ n) + l.reelsSince + 1) % 2 ^ 32
  let same := decide (seq = expected)
  let run := if same then min 3 (l.seqRun + 1) else 1
  let seqRaw := if same then s.raw n .seq && decide (run < 3) else true
  let (fdi, f1, f0) := flagRuns (s.raw n .fdiRx) (flags.testBit 5) l.fdiRun1 l.fdiRun0
  let (bdi, b1, b0) := flagRuns (s.raw n .bdiRx) (flags.testBit 6) l.bdiRun1 l.bdiRun0
  let s := s.updLane n fun l => { l with
    seqRun := run, reelsSince := 0, badControls := 0, fdiRun1 := f1, fdiRun0 := f0, bdiRun1 := b1, bdiRun0 := b0
    rx := { l.rx with seq := seq } }
  let s := s.setFld (F.LANE_SEQ_LAST_SEQ n) seq
  s.setRaws n [(.seq, seqRaw), (.fdiRx, fdi), (.bdiRx, bdi)]

/-- Steering state of a lane (R184): codes of LANE_STEER_STAT.STATE. -/
def State.steerState (s : State) (n : Nat) : Nat := s.fld (F.LANE_STEER_STAT_STATE n)

/-- Guard and tolerance in force, in 1/256 ns (R187): what the registers held at the last mean, held to their ranges. -/
def State.steerGuard (s : State) (n : Nat) : Nat := 256 * clampNat 8 1000 (s.lane n).steerG
def State.steerTol (s : State) (n : Nat) : Nat := 256 * max 1 (s.lane n).steerT

/-- How far the mean wait lies from the guard, in 1/256 ns. -/
def State.steerDrift (s : State) (n : Nat) : Int := (s.steerGuard n : Int) - s.fld (F.LANE_ARRIVAL_WAIT n)

/-- Whether there is a mean wait (R183). -/
def State.waitKnown (s : State) (n : Nat) : Bool := s.fld (F.LANE_ARRIVAL_WAIT n) != 0xFFFFFFFF

/-- Whether the mean wait has drifted beyond the tolerance. -/
def State.drifted (s : State) (n : Nat) : Bool := decide (s.steerTol n < (s.steerDrift n).natAbs)

/-- Issue a steering request (R185). -/
def State.issueSteer (s : State) (n : Nat) : State :=
  let id := (s.lane n).steerNext
  let s := s.updLane n fun l => { l with
    steerId := id, steerNext := if id = 255 then 1 else id + 1, steerTail := 0, ackRun := 0 }
  let s := (s.setFld (F.LANE_STEER_STAT_ID n) id).setFldI (F.LANE_STEER_ADV_ADV n) (s.steerDrift n)
  s.setFld (F.LANE_STEER_STAT_STATE n) 4

/-- STEER_CAP and STEER_ACK of a good reel control (R184, R185). A request that is acknowledged is sent for 8 more reels; in REQUESTED
the state then follows the mean wait. -/
def State.steerControl (s : State) (n : Nat) (cap : Bool) (ack : Nat) : State :=
  if 128 ≤ n then s
  else
    let s := s.setFld (F.LANE_STEER_STAT_ACK n) ack
    let s := s.updLane n fun l => { l with
      steerCap := cap, capRun := if cap then min 3 (l.capRun + 1) else 0
      ackRun := if ack = l.steerId ∧ l.steerId ≠ 0 then min 3 (l.ackRun + 1) else 0 }
    let l := s.lane n
    let s := s.when (l.ackRun == 3 && l.steerTail == 0) fun s => s.updLane n fun l => { l with steerTail := 8 }
    if s.steerState n = 4 ∧ l.ackRun = 3 ∧ s.waitKnown n then
      s.setFld (F.LANE_STEER_STAT_STATE n) (if s.drifted n then 3 else 2)
    else if s.steerState n = 1 ∧ l.capRun = 3 then
      let s := s.setFld (F.LANE_STEER_STAT_STATE n) 3
      if s.drifted n then s.issueSteer n else s.setFld (F.LANE_STEER_STAT_STATE n) 2
    else if !cap ∧ (s.steerState n = 2 ∨ s.steerState n = 3) then s.setFld (F.LANE_STEER_STAT_STATE n) 1
    else s

/-- Arrival of a reel on a lane (R183, R200): the alignment wait from the arrival stamp of block 0, in 1/256 ns of TAI. -/
def waitOf (arrival : Nat) : Nat := ((280 * 256 * 655359 + 655360 * 655360 * 2 ^ 64) - arrival) % 655360

/-- Keep the arrival stamp of a reel received in REEL_SYNC, whatever its reel control (R94, R183, R259), and what follows from it:
wait and skew samples, the last 256 of each. A stamp waits for the reel of equal REEL_SEQ on the partner lane as long as CIRC_SKEW_n could
hold their difference, 3,277 reels. -/
def State.noteArrival (s : State) (n seq arrival : Nat) (good : Bool) : State :=
  if s.sync n ≠ 2 then s
  else
  let s := s.updLane n fun l => { l with
    arrivals := ((l.arrivals ++ [(⟨seq, arrival, s.fld F.TIME_STATE_STEP_EPOCH, good⟩ : Stamp)]).drop (l.arrivals.length + 1 - 16))
    waits := if s.sync n = 2 ∧ n < 128 then (l.waits ++ [waitOf arrival]).drop (l.waits.length + 1 - 256) else l.waits }
  match s.partner? n with
  | none => s
  | some p =>
    if s.sync n ≠ 2 ∨ s.sync p ≠ 2 then s
    else match (s.lane p).skewStamps.find? fun a => a.1 == seq with
      | none => s.updLane n fun l => { l with skewStamps := ((seq, arrival) :: l.skewStamps).take 3277 }
      | some a =>
        let d : Int := (a.2 : Int) - arrival
        let push (l : List Int) (x : Int) := (l ++ [x]).drop (l.length + 1 - 256)
        (s.updLane n fun l => { l with skews := push l.skews d }).updLane p fun l => { l with
          skews := push l.skews (-d), skewStamps := l.skewStamps.filter fun x => x.1 != seq }

/-- REEL_CONTROL (R89, R113, R114, R116, R119, R121, R184): the block last decoded is block 0. `arrival` is the instant captured
for it in 1/256 ns of TAI, from which the receive path delay in force is taken (R259, R260). -/
def execReelControl (n : LaneNo) (arrival : BitVec 72) (s : State) : Host.Outcome State Fault Refusal :=
  let n := n.val
  match (s.lane n).blk with
  | none => .next s
  | some b =>
    if b.no ≠ 0 ∨ b.used ∨ s.sync n = 0 then .next s
    else
      let s := s.updLane n fun l => { l with blk := some { b with used := true } }
      let oh := dataOverhead b.data
      let seq := beAt oh 0 4
      let flags := beAt oh 4 1
      let bad := b.cls == .uncorrectable || seq % 256 != hdrSeq (dataHeader b.data) || beAt oh 17 1 != 1
      let expected := (s.fld (F.LANE_SEQ_LAST_SEQ n) + (s.lane n).reelsSince + 1) % 2 ^ 32
      let s := s.noteArrival n (if bad then expected else seq)
        ((arrival.toNat + 2 ^ 72 - s.fld (F.LANE_TT_PATHDLY_RXDLY n)) % 2 ^ 72) (!bad)
      let fails := bad || !b.headerGood
      let s := s.when bad fun s => s.count (laneCtr n 4)
      let s := if bad then s else
        s.updLane n fun l => { l with
          ttCap := flags.testBit 3, timeDisc := (beAt oh 16 1).testBit 7, farArrival := beAt oh 12 4
          stopAt := if flags.testBit 7 then some s.time.clock else l.stopAt }
      if s.sync n = 1 then
        let l := s.lane n
        let run := if fails then 0 else if l.qualRun ≠ 0 ∧ seq = (l.qualSeq + 1) % 2 ^ 32 then l.qualRun + 1 else 1
        let s := s.updLane n fun l => { l with qualRun := run, qualSeq := seq, reelsInBlock := l.reelsInBlock + 1 }
        let s := s.when (!bad) fun s => s.setFld (F.LANE_SEQ_LAST_SEQ n) seq
        .next (if run = 3 then s.enterReelSync n seq else s)
      else if fails ∧ (s.lane n).badControls + 1 = 2 then .next (s.loseReel n)
      else
        let s := s.when fails fun s => s.updLane n fun l => { l with badControls := l.badControls + 1 }
        if bad then
          .next (s.updLane n fun l => { l with
            reelsSince := l.reelsSince + 1
            rx := { l.rx with seq := expected } })
        else
          let keep := if fails then (s.lane n).badControls else 0
          let s := (s.goodControl n seq flags).updLane n fun l => { l with badControls := keep }
          .next (s.steerControl n (flags.testBit 4) (beAt oh 7 1))

/-- REEL_SYNC_TIMEOUT (R114): 8 reels in BLOCK_SYNC; the offset is barred, replacing an earlier bar. -/
def execReelSyncTimeout (n : LaneNo) (s : State) : Host.Outcome State Fault Refusal :=
  let n := n.val
  if s.sync n ≠ 1 ∨ (s.lane n).reelsInBlock < 8 then .next s
  else
    let s := (s.updLane n fun l => { l with barred := some l.offset }).setFlag (F.LANE_SYNC_STATE_BARRED n) true
    .next (s.loseToHunt n 1 [])

/-- BAR_EXPIRY (R114): 64 reels have passed. -/
def execBarExpiry (n : LaneNo) (s : State) : Host.Outcome State Fault Refusal :=
  let n := n.val
  .next ((s.updLane n fun l => { l with barred := none }).setFlag (F.LANE_SYNC_STATE_BARRED n) false)

/-- DEFECT_WINDOW_END (R119, R132): a 10 ms window ends, UCB and DEG are judged, and the next window takes the thresholds
of the registers. -/
def execDefectWindowEnd (n : LaneNo) (s : State) : Host.Outcome State Fault Refusal :=
  let n := n.val
  if s.sync n ≠ 2 then .next s
  else
    let l := s.lane n
    let low := if l.ucbCount ≤ l.ucbClr then l.ucbLowRun + 1 else 0
    let ucb := s.raw n .ucb && decide (low < 2)
    let hi := if l.degSet ≠ 0 ∧ l.degSet ≤ l.csymCount then min 10 (l.degHighRun + 1) else 0
    let lo := if l.csymCount ≤ l.degClr then min 10 (l.degLowRun + 1) else 0
    let deg := if hi = 10 then true else if lo = 10 then false else s.raw n .deg
    let s := s.updLane n fun l => { l with
      ucbCount := 0, csymCount := 0, ucbLowRun := min 2 low, degHighRun := hi, degLowRun := lo
      ucbSet := s.fld (F.LANE_UCB_CTL_SET n), ucbClr := s.fld (F.LANE_UCB_CTL_CLR n)
      degSet := s.fld (F.LANE_DEG_SET_SET n), degClr := s.fld (F.LANE_DEG_CLR_CLR n) }
    .next (s.setRaws n [(.ucb, ucb), (.deg, deg)])

-- Trace and far-end report --------------------------------------------------------------------------------------

/-- The 64 expected trace bytes in the registers (R131). -/
def State.traceRegs (s : State) (n : Nat) : List Byte :=
  (List.range 16).flatMap fun k => leBytes 4 (s.reg (R.LANE_TRACE_EXP n k)).toNat

/-- An assembly boundary (R122, R132): the TIM mode and the expected trace of the registers come into force. A change of
the expected trace restarts both runs. -/
def State.assemblyBoundary (s : State) (n : Nat) : State :=
  let exp := s.traceRegs n
  s.updLane n fun l => { l with
    timMode := min 2 (s.fld (F.LANE_TIM_CTL_MODE n)), traceExp := exp, asm := [], asmOk := true, traceExpTouched := false
    timDiffRun := if exp = l.traceExp then l.timDiffRun else 0
    timSameRun := if exp = l.traceExp then l.timSameRun else 0 }

/-- A complete assembly (R119, R122). -/
def State.traceComplete (s : State) (n : Nat) (t : List Byte) : State :=
  let s := (List.range 16).foldl (fun s k => s.setReg (R.LANE_TRACE_RX n k) (BitVec.ofNat 32 (leAt t (4 * k) 4))) s
  let l := s.lane n
  let same := l.traceExp.all (· = 0) || t == l.traceExp
  let d := if same then 0 else min 3 (l.timDiffRun + 1)
  let e := if same then min 3 (l.timSameRun + 1) else 0
  let s := s.updLane n fun l => { l with timDiffRun := d, timSameRun := e }
  if l.timMode = 0 then s
  else if d = 3 then s.setRaws n [(.tim, true)]
  else if e = 3 then s.setRaws n [(.tim, false)]
  else s

/-- The segment of one reel (R122). -/
def State.traceSegment (s : State) (n seq : Nat) (oh : Option (List Byte)) : State :=
  let k := seq % 8
  let s := if k = 0 then s.assemblyBoundary n else s
  match oh with
  | some b =>
    let l := s.lane n
    if l.asmOk ∧ l.asm.length = k ∧ beAt b 8 1 % 8 = k then
      let s := s.updLane n fun l => { l with asm := l.asm ++ [b.take 8] }
      if k = 7 then (s.updLane n fun l => { l with asmOk := false }).traceComplete n (s.lane n).asm.flatten else s
    else s.updLane n fun l => { l with asmOk := false }
  | none => s.updLane n fun l => { l with asmOk := false }

/-- Difference of two counts modulo 2^32 (R101). -/
def cnt32 (a b : Nat) : Nat := (a + 2 ^ 32 - b) % 2 ^ 32

/-- The far end's report (R101, R208): differences between consecutive valid reports, and gaps. After a missing or invalid report
the difference across the gap is not used: consecutive means in consecutive reels (DESIGN CHOICE, assumption 93). -/
def State.farReport (s : State) (n : Nat) (oh : Option (List Byte)) : State :=
  let gap (s : State) := (s.count (laneCtr n 12)).updLane n fun l => { l with feLast := none }
  match oh with
  | none => gap s
  | some b =>
    if !(beAt b 9 1).testBit 7 then gap s
    else
      let now := (beAt b 10 4, beAt b 14 4, beAt b 18 4, beAt b 22 4)
      let s := match (s.lane n).feLast with
        | none => s
        | some (u, c, r, h) =>
          let s := (((s.count (laneCtr n 8) (cnt32 now.1 u)).count (laneCtr n 9) (cnt32 now.2.1 c)).count (laneCtr n 10)
            (cnt32 now.2.2.1 r)).count (laneCtr n 11) (cnt32 now.2.2.2 h)
          s.updLane n fun l => { l with
            ucbRose := l.ucbRose || cnt32 now.1 u != 0, rescuedRose := l.rescuedRose || cnt32 now.2.2.1 r != 0 }
      s.updLane n fun l => { l with feLast := some now }

/-- DEFECT_REPORT (R99 to R101, R122): the block last decoded is block 3. The counts of a looped signal are not used (R481). -/
def execDefectReport (n : LaneNo) (s : State) : Host.Outcome State Fault Refusal :=
  let n := n.val
  match (s.lane n).blk with
  | none => .next s
  | some b =>
    if b.no ≠ 3 ∨ b.used ∨ s.sync n ≠ 2 then .next s
    else
      let s := s.updLane n fun l => { l with blk := some { b with used := true } }
      let oh := if b.cls = .uncorrectable then none else some (dataOverhead b.data)
      let l := s.lane n
      let seq := (s.fld (F.LANE_SEQ_LAST_SEQ n) + l.reelsSince) % 2 ^ 32
      .next ((if s.looped n then s else s.farReport n oh).traceSegment n seq oh)

/-- LANE_TIM_CTL_WRITE (R132): MODE 0 acts at once and clears TIM; other modes act at the next assembly boundary. -/
def State.writeTimCtl (s : State) (n : Nat) (v : Word) : State :=
  let m := v.toNat % 4
  let s := s.setFld (F.LANE_TIM_CTL_MODE n) m
  if m = 0 then (s.updLane n fun l => { l with timMode := 0 }).setRaws n [(.tim, false)] else s

def execLaneTimCtlWrite (n : LaneNo) (v : Word) (s : State) : Host.Outcome State Fault Refusal :=
  .next (s.writeTimCtl n v)

/-- LANE_THRESHOLD_WRITE (R132): LANE_UCB_CTL, LANE_DEG_SET, LANE_DEG_CLR and the expected trace. The values come into
force at the next window or assembly boundary. `off` is the offset in the lane window; another offset is none of these
registers and changes nothing. -/
def State.writeThreshold (s : State) (n off : Nat) (v : Word) : State :=
  if off = 0x110 ∨ off = 0x114 ∨ off = 0x118 then s.setReg (laneBase n + off) v
  else if 0x140 ≤ off ∧ off < 0x180 ∧ off % 4 = 0 then
    (s.setReg (laneBase n + off) v).updLane n fun l => { l with traceExpTouched := true }
  else s

def execLaneThresholdWrite (n : LaneNo) (off : BitVec 12) (v : Word) (s : State) : Host.Outcome State Fault Refusal :=
  .next (s.writeThreshold n off.toNat v)

-- Arrival steering ----------------------------------------------------------------------------------------------

/-- ARRIVAL_MEAN (R183, R184, R200): the mean wait and the mean skew over the last 256 reels, rounded to the nearest
unit, a half away from zero. The new mean brings GUARD and TOL into force (R187), and the steering state moves by it. -/
def execArrivalMean (n : LaneNo) (s : State) : Host.Outcome State Fault Refusal :=
  let n := n.val
  let s := if (s.lane n).skews.length < 256 ∨ 128 ≤ n then s
    else s.setFldI (F.CIRC_SKEW_SKEW n) (roundDiv ((s.lane n).skews.foldl (· + ·) 0) 256)
  if s.sync n ≠ 2 ∨ 128 ≤ n ∨ (s.lane n).waits.length < 256 then .next s
  else
    let w := (roundDiv ((s.lane n).waits.foldl (· + ·) 0 : Nat) 256).toNat
    let s := (s.setFld (F.LANE_ARRIVAL_WAIT n) w).updLane n fun l => { l with
      steerG := s.fld (F.LANE_STEER_CTL_GUARD n), steerT := s.fld (F.LANE_STEER_CTL_TOL n) }
    match s.steerState n with
    | 0 =>
      if !s.flag (F.LANE_STEER_CTL_EN n) then .next s
      else if !(s.lane n).steerCap then .next (s.setFld (F.LANE_STEER_STAT_STATE n) 1)
      else
        let s := s.setFld (F.LANE_STEER_STAT_STATE n) 3
        .next (if s.drifted n then s.issueSteer n else s.setFld (F.LANE_STEER_STAT_STATE n) 2)
    | 2 => .next (if s.drifted n then s.setFld (F.LANE_STEER_STAT_STATE n) 3 else s)
    | 3 => .next (if s.drifted n then s else s.setFld (F.LANE_STEER_STAT_STATE n) 2)
    | _ => .next s

/-- STEER_REQUEST (R184, R185): the wait has stood beyond the tolerance for 1 s in DRIFTED. -/
def execSteerRequest (n : LaneNo) (s : State) : Host.Outcome State Fault Refusal :=
  let n := n.val
  .next (if s.steerState n = 3 ∧ s.drifted n ∧ n < 128 then s.issueSteer n else s)

/-- STEER_FAILED (R186): the request has timed out. -/
def execSteerFailed (n : LaneNo) (s : State) : Host.Outcome State Fault Refusal :=
  let n := n.val
  if s.steerState n ≠ 4 ∨ s.sync n ≠ 2 ∨ s.raw n .bdiRx then .next s
  else
    let id := (s.lane n).steerId
    let adv := s.fld (F.LANE_STEER_ADV_ADV n)
    let s := (s.updLane n fun l => { l with steerId := 0 }).setFld (F.LANE_STEER_STAT_ID n) 0
    let s := s.setFld (F.LANE_STEER_STAT_STATE n) 5
    .next (s.logEvent Ev.STEER_FAILED n (leBytes 1 id ++ leBytes 4 adv))

end Sys2Proof.Machine
end

