-- ==== Sys2Proof/Machine/Cmc.lean ====
section
/-!
DEFINITION. The carrier management channel (spec 03 R104 to R108): records out of received slices, delivery to host
buffers (spec 11 R349 to R351), the courier, and the stream sent in each reel.
-/
namespace Sys2Proof.Machine
open Sys2Proof

/-- Change the CMC state of a lane. -/
def State.updCmc (s : State) (n : Nat) (f : Cmc → Cmc) : State := s.updLane n fun l => { l with cmc := f l.cmc }

-- Host buffers --------------------------------------------------------------------------------------------------

/-- Close the buffer being filled: DONE_USED, CMC_RX_CONS and the signal (R350). -/
def State.closeCmcBuffer (s : State) : State :=
  match s.hif.cmcPosted with
  | [] => s
  | b :: rest =>
    let base := s.addr64 R.HIF_CMC_BASE_LO R.HIF_CMC_BASE_HI
    let s := s.hostWrite (base + 16 * b.entry + 12) (leBytes 4 (2 ^ 31 + s.hif.cmcFill))
    let s := s.updHif fun h => { h with cmcPosted := rest, cmcFill := 0, cmcCons := (b.entry + 1) % s.cmcSize }
    s.writeStatusPage.msix (s.fld F.HIF_CMC_CTL_VECTOR)

/-- A received record in the form of R350. -/
def cmcBufferBytes (lane : Nat) (r : CmcRecord) : List Byte :=
  let head := leBytes 1 lane ++ leBytes 1 r.type ++ leBytes 1 r.flags ++ [0] ++ leBytes 2 r.body.length ++ [0, 0]
    ++ leBytes 4 r.reel ++ leBytes 4 0 ++ r.body
  head ++ List.replicate ((8 - head.length % 8) % 8) 0

/-- Drop a record for want of a buffer (R107, R351). -/
def State.dropCmc (s : State) (lane : Nat) : State :=
  ((s.count (laneCtr lane 14)).setFlag F.HIF_ERR_CMC_NO_BUFFER true).logEvent Ev.CMC_RX_DROP lane []

/-- Deliver a record of a terminated lane (R107, R350). A record that does not fit closes the buffer and goes into the
next one. -/
def State.deliverCmc (s : State) (lane : Nat) (r : CmcRecord) : State :=
  let bytes := cmcBufferBytes lane r
  let s := match s.hif.cmcPosted with
    | b :: _ => if b.len < s.hif.cmcFill + bytes.length then s.closeCmcBuffer else s
    | [] => s
  match s.hif.cmcPosted with
  | b :: _ =>
    if s.flag F.HIF_CMC_CTL_EN && !s.hif.d3hot && decide (s.hif.cmcFill + bytes.length ≤ b.len) then
      (s.hostWrite (b.addr + s.hif.cmcFill) bytes).updHif fun h => { h with cmcFill := h.cmcFill + bytes.length }
    else s.dropCmc lane
  | [] => s.dropCmc lane

-- Receiving -----------------------------------------------------------------------------------------------------

/-- Bytes a record takes on the stream. -/
def CmcRecord.size (r : CmcRecord) : Nat := 4 + r.body.length

/-- A complete record: delivered, couriered or discarded by the mode of the lane (R106 to R108). The 8 KiB of a courier queue count a
record's 4 header bytes and what is still to be sent of the record ahead, and a record dropped for them counts on the lane that received
it (DESIGN CHOICE, assumption 94). -/
def State.cmcComplete (s : State) (n : Nat) (bytes : List Byte) : State :=
  let l := s.lane n
  let r : CmcRecord := { type := beAt bytes 0 1, flags := beAt bytes 1 1, body := bytes.drop 4
                         reel := (s.fld (F.LANE_SEQ_LAST_SEQ n) + l.reelsSince) % 2 ^ 32 }
  match l.cmc.mode with
  | .none => s
  | .terminated => s.deliverCmc n r
  | .courier p =>
    let c := (s.lane p).cmc
    if 8192 < c.courierQueue.foldl (fun a x => a + x.size) c.courierPart.length + r.size then s.count (laneCtr n 14)
    else s.updCmc p fun c => { c with courierQueue := c.courierQueue ++ [r] }

/-- Discard what is in progress and wait for a usable POINTER (R106). `lost` says how many of the stream bytes that follow belong to
the record just discarded, where an uncorrectable block hides what else begins in them. -/
def State.cmcDesync (s : State) (n : Nat) (counted : Bool) (lost : Option Nat := none) : State :=
  (s.when counted fun s => s.count (laneCtr n 13)).updCmc n fun c => { c with rxSync := false, rxPart := [], rxLost := lost }

/-- Bytes still to come of the record in progress, known once its header is complete (R105). -/
def Cmc.remaining (c : Cmc) : Option Nat :=
  if c.rxPart.isEmpty then some 0
  else if c.rxPart.length < 4 then none
  else some (4 + beAt c.rxPart 2 2 - c.rxPart.length)

/-- A slice that cannot be read, in an uncorrectable block (R106): a record in progress is discarded and counted. -/
def State.cmcLostSlice (s : State) (n : Nat) : State :=
  let c := (s.lane n).cmc
  if c.rxSync then s.cmcDesync n (!c.rxPart.isEmpty) (c.remaining.map (· - 61))
  else s.updCmc n fun c => { c with rxLost := c.rxLost.map (· - 61) }

/-- A readable slice before synchronisation: where its first `p` stream bytes go on with a record that is not the one discarded
before the loss, that record began in an uncorrectable block, and is discarded and counted (R106). -/
def State.cmcTail (s : State) (n p : Nat) : State :=
  match (s.lane n).cmc.rxLost with
  | some k =>
    let s := s.updCmc n fun c => { c with rxLost := if k < p then none else some (k - 61) }
    s.when (decide (k < p)) fun s => s.count (laneCtr n 13)
  | none => s

/-- One stream byte (R105, R106). -/
def State.cmcByte (s : State) (n : Nat) (b : Byte) : State :=
  let c := (s.lane n).cmc
  if !c.rxSync then s
  else if c.rxPart.isEmpty ∧ b = 0 then s
  else
    let part := c.rxPart ++ [b]
    if part.length = 1 ∧ 0xF0 ≤ b.toNat then s.cmcDesync n true
    else if part.length < 4 then s.updCmc n fun c => { c with rxPart := part }
    else
      let len := beAt part 2 2
      if 2048 < len then s.cmcDesync n true
      else if part.length < 4 + len then s.updCmc n fun c => { c with rxPart := part }
      else (s.updCmc n fun c => { c with rxPart := [] }).cmcComplete n part

/-- One slice: POINTER and 61 stream bytes (R104, R106). -/
def State.cmcSlice (s : State) (n : Nat) (slice : List Byte) : State :=
  let p := beAt slice 0 1
  let stream := (slice.drop 1).take 61
  let busy := !(s.lane n).cmc.rxPart.isEmpty
  if 61 ≤ p ∧ p ≤ 254 then s.cmcDesync n busy
  else if (s.lane n).cmc.rxSync then stream.foldl (fun s b => s.cmcByte n b) s
  else if p = 255 then s.cmcTail n 61
  else (stream.drop p).foldl (fun s b => s.cmcByte n b)
    ((s.cmcTail n p).updCmc n fun c => { c with rxSync := true, rxPart := [], rxLost := none })

/-- CMC_SLICE (R104 to R108): the block last decoded is one of blocks 4 to 31 of a lane in REEL_SYNC. A slice in an
uncorrectable block discards the record it belongs to. -/
def execCmcSlice (n : LaneNo) (s : State) : Host.Outcome State Fault Refusal :=
  let n := n.val
  match (s.lane n).blk with
  | none => .next s
  | some b =>
    if b.no < 4 ∨ b.used ∨ s.sync n ≠ 2 then .next s
    else
      let s := s.updLane n fun l => { l with blk := some { b with used := true } }
      if b.cls = .uncorrectable then .next (s.cmcLostSlice n)
      else .next (s.cmcSlice n (dataOverhead b.data))

/-- CMC_BUFFER_HOLD (R350): HOLD_US has passed since the first record of the buffer. -/
def execCmcBufferHold (s : State) : Host.Outcome State Fault Refusal :=
  .next (if 0 < s.hif.cmcFill then s.closeCmcBuffer else s)

-- Sending -------------------------------------------------------------------------------------------------------

/-- Bytes of a record as sent (R105). -/
def CmcRecord.bytes (r : CmcRecord) : List Byte :=
  [BitVec.ofNat 8 r.type, BitVec.ofNat 8 r.flags] ++ beBytes 2 r.body.length ++ r.body

/-- Take `k` stream bytes for the next reel, each marked where a record or pad begins: first the rest of the record being
sent, then whole records, then pad bytes. Returns what is left of record and queue. -/
def cmcStream (part : List Byte) (queue : List CmcRecord) (k : Nat) :
    List (Byte × Bool) × List Byte × List CmcRecord :=
  let marked := part.map (fun b => (b, false))
  let rec go : List CmcRecord → List (Byte × Bool) → List (Byte × Bool) × List Byte × List CmcRecord
    | [], acc =>
      if acc.length ≤ k then (acc ++ List.replicate (k - acc.length) (0, true), [], [])
      else (acc.take k, (acc.drop k).map (·.1), [])
    | r :: rs, acc =>
      if k ≤ acc.length then (acc.take k, (acc.drop k).map (·.1), r :: rs)
      else go rs (acc ++ (r.bytes.zipIdx.map fun (b, i) => (b, i == 0)))
  go queue marked

/-- A slice from 61 marked stream bytes: POINTER and the bytes (R104). -/
def cmcSliceBytes (l : List (Byte × Bool)) : List Byte :=
  (match l.findIdx? (·.2) with | some i => BitVec.ofNat 8 i | none => 0xFF#8) :: l.map (·.1)

/-- The 28 slices a lane sends in the next reel, and the lane after it. -/
def Lane.cmcSlices (l : Lane) : List (List Byte) × Lane :=
  let src := match l.cmc.mode with
    | .none => ([], [])
    | .terminated => (l.cmc.txPart, l.cmc.txQueue)
    | .courier _ => (l.cmc.courierPart, l.cmc.courierQueue)
  let (bytes, part, queue) := cmcStream src.1 src.2 1708
  let slices := (List.range 28).map fun i => cmcSliceBytes ((bytes.drop (61 * i)).take 61)
  match l.cmc.mode with
  | .none => (slices, l)
  | .terminated => (slices, { l with cmc := { l.cmc with txPart := part, txQueue := queue } })
  | .courier _ => (slices, { l with cmc := { l.cmc with courierPart := part, courierQueue := queue } })

/-- A change of CMC mode takes effect at a reel boundary; records queued under an old pairing, the one partly sent among them, are
dropped and counted on the lane that was to send them (R108; DESIGN CHOICE, assumption 94). A lane that leaves the terminated mode cuts
off the record it was sending and drops those queued, uncounted, and a record being received goes on and is treated under the new mode
(DESIGN CHOICE, assumption 95). -/
def State.cmcApplyNext (s : State) (n : Nat) : State :=
  match (s.lane n).cmc.next with
  | none => s
  | some m =>
    let c := (s.lane n).cmc
    let dropped := if c.mode = m then 0 else c.courierQueue.length + (!c.courierPart.isEmpty).toNat
    let s := s.when (decide (0 < dropped)) fun s => s.count (laneCtr n 14) dropped
    s.updCmc n fun c => if c.mode = m then { c with next := none }
      else { c with mode := m, next := none, courierQueue := [], courierPart := [], txPart := []
                    txQueue := if m = .terminated then c.txQueue else [] }

end Sys2Proof.Machine
end

