-- ==== Sys2Proof/Machine/Pages.lean ====
section
/-!
DEFINITION. Page sets, facets and the words of the memory windows (spec 05 R133 to R138, R146 to R152, R162, R170, R171;
07 R192, R194, R215).
-/
namespace Sys2Proof.Machine
open Sys2Proof

-- Page sets -----------------------------------------------------------------------------------------------------

/-- Whether set B is the active one (R151). -/
def State.activeIsB (s : State) : Bool := s.flag F.SSW_PAGE_STATE_ACTIVE_SET

/-- The active page set. -/
def State.active (s : State) : PageSet := if s.activeIsB then s.ssw.setB else s.ssw.setA

/-- The standby page set. -/
def State.standby (s : State) : PageSet := if s.activeIsB then s.ssw.setA else s.ssw.setB

/-- Replace the active page set. -/
def State.setActive (s : State) (p : PageSet) : State :=
  if s.activeIsB then s.updSsw fun x => { x with setB := p } else s.updSsw fun x => { x with setA := p }

/-- Replace the standby page set. -/
def State.setStandby (s : State) (p : PageSet) : State :=
  if s.activeIsB then s.updSsw fun x => { x with setA := p } else s.updSsw fun x => { x with setB := p }

/-- Standby state (R152): 0 STALE, 1 MIRROR, 2 COMPILING, 3 COMPILED, 4 ORDERED, 5 INVALID, 6 RECEIVING, 7 SEAM. -/
def State.sby (s : State) : Nat := s.fld F.SSW_PAGE_STATE_SBY

/-- Move the standby to a state. -/
def State.setSby (s : State) (v : Nat) : State := s.setFld F.SSW_PAGE_STATE_SBY v

/-- Number of the active take. -/
def State.activeTake (s : State) : Nat := (s.reg R.SSW_ACTIVE_TAKE).toNat

/-- LAG of a connection (R136): the integer difference of output slot and source beat is below 8. -/
def connLag (t : Nat) (c : Conn) : Bool := decide (t < c.beat + 8)

/-- Connection entry of an output slot by its index 2,048 m + t. -/
def PageSet.connAt (p : PageSet) (i : Nat) : Option Conn := Tbl.get (fun _ => none) p.conn i

/-- Facet bound to a colour in this set's facet map (R150). -/
def PageSet.facetOf (p : PageSet) (c : Nat) : Nat := Tbl.get (fun _ => 0) p.facetMap c

/-- Circuit entry of a set. -/
def PageSet.circAt (p : PageSet) (c : Nat) : Option CircEntry := Tbl.get (fun _ => none) p.circuits c

/-- Merge entry of a lane and slot, by its index 2,048 ℓ + s. -/
def PageSet.mergeAt (p : PageSet) (i : Nat) : Option MergeEntry := Tbl.get (fun _ => none) p.merges i

/-- Valid connections as (index, entry), in increasing index order. -/
def PageSet.conns (p : PageSet) : List (Nat × Conn) := p.conn.filterMap fun (i, c) => c.map fun c => (i, c)

/-- Present circuits as (number, entry), in increasing order. -/
def PageSet.circs (p : PageSet) : List (Nat × CircEntry) := p.circuits.filterMap fun (i, c) => c.map fun c => (i, c)

/-- Merge entries as (index, entry). -/
def PageSet.mergeList (p : PageSet) : List (Nat × MergeEntry) := p.merges.filterMap fun (i, c) => c.map fun c => (i, c)

/-- The source lane that the write map names for a beat and colour (R149): it follows from the connection entries. -/
def PageSet.writeLane (p : PageSet) (beat colour : Nat) : Option Nat :=
  (p.conns.find? fun (_, c) => c.beat == beat && c.colour == colour).map fun (_, c) => c.lane

/-- The writes of a core reel: one per valid write-map entry, as (beat, colour, lane). -/
def PageSet.writes (p : PageSet) : List (Nat × Nat × Nat) :=
  (p.conns.map fun (_, c) => (c.beat, c.colour, c.lane)).eraseDups

/-- Whether two sets hold the same connections, circuits and merge entries, so that one can stand in for the other. -/
def PageSet.sameContent (a b : PageSet) : Bool :=
  decide (a.conn = b.conn) && decide (a.circuits = b.circuits) && decide (a.merges = b.merges)

-- Facets --------------------------------------------------------------------------------------------------------

/-- Facet state (R162): 0 UNTESTED, 1 IN_USE, 2 SPARE, 3 RETIRING, 4 TESTING, 5 REINSTATABLE, 6 FAILED. -/
def State.facetState (s : State) (f : Nat) : Nat := s.fld (F.SSW_FACET_STATE f)

/-- Count the facets that satisfy a test. -/
def State.facetCount (s : State) (p : Nat → Bool) : Nat := ((List.range 272).filter fun f => p (s.facetState f)).length

/-- Bring SSW_FACET_SUMMARY up to date (R171). -/
def State.refreshFacets (s : State) : State :=
  let s := s.setFld F.SSW_FACET_SUMMARY_USABLE (s.facetCount fun x => x == 1 || x == 2 || x == 3)
  let s := s.setFld F.SSW_FACET_SUMMARY_SPARE (s.facetCount fun x => x == 2)
  s.setFld F.SSW_FACET_SUMMARY_ISOLATED (s.facetCount fun x => x == 4 || x == 5 || x == 6)

/-- Put a facet into a state with the colour bound or reserved (0 outside IN_USE and RETIRING) and bring the summary up
to date. A change of state is an edge of the facet's interrupt source (R411). -/
def State.setFacet (s : State) (f st colour : Nat) : State :=
  let old := s.facetState f
  let s := (((s.setFld (F.SSW_FACET_STATE f) st).setFld (F.SSW_FACET_COLOUR f) colour).setFld (F.SSW_FACET_TEST_HOURS f) 0
    ).refreshFacets
  if old = st then s else s.icEdge (288 + f)

/-- The lowest-numbered SPARE facet. -/
def State.lowestSpare (s : State) : Option Nat := (List.range 272).find? fun f => s.facetState f == 2

/-- A facet becomes FAILED (R163, R164): logged with the facet, and recorded in flash while firmware runs. Windows and clean time are
forgotten. -/
def State.failFacet (s : State) (f : Nat) : State :=
  let s := (s.setFacet f 6 0).logEvent Ev.FACET_FAILED f []
  if s.fwRuns && !s.mss.badFacets.contains f then { s with mss := { s.mss with badFacets := s.mss.badFacets ++ [f] } } else s

/-- Bind a colour to a facet in one set. -/
def PageSet.bind (p : PageSet) (c f : Nat) : PageSet := { p with facetMap := Tbl.put (fun _ => 0) p.facetMap c f }

-- Words of the formats ------------------------------------------------------------------------------------------

/-- Connection-memory entry (R148). -/
def connWord (t : Nat) (c : Conn) : Nat :=
  2 ^ 63 + (connLag t c).toNat * 2 ^ 62 + c.colour * 2 ^ 54 + c.beat * 2 ^ 43 + c.lane * 2 ^ 36 + c.circuit * 2 ^ 20

/-- CONN entry of a take image (R146). -/
def imageWord (c : Conn) : Nat :=
  2 ^ 47 + c.colour * 2 ^ 39 + c.beat * 2 ^ 28 + c.lane * 2 ^ 21 + c.circuit * 2 ^ 5

/-- A CONN entry of a take image read back; an invalid one is none. -/
def ofImageWord (w : Nat) : Option Conn :=
  if bitsOf w 47 1 = 0 then none
  else some { colour := bitsOf w 39 8, beat := bitsOf w 28 11, lane := bitsOf w 21 7, circuit := bitsOf w 5 16 }

/-- Circuit entry (R194). -/
def circWord (e : CircEntry) : Nat := 2 ^ 63 + e.flags % 2 ^ 15 * 2 ^ 32 + e.label % 2 ^ 32

/-- Merge entry (R194). -/
def mergeWord (e : MergeEntry) : Nat := 2 ^ 31 + e.secondary.toNat * 2 ^ 30 + e.partner * 2 ^ 23 + e.mp % 2 ^ 16

/-- 32-bit word `hi` of a 64-bit entry. -/
def half (v : Nat) (hi : Bool) : Word := BitVec.ofNat 32 (if hi then v / 2 ^ 32 else v)

/-- The write-map half-word of entry 256 s + c (R149). -/
def PageSet.writeWord (p : PageSet) (i : Nat) : Nat :=
  match p.writeLane (i / 256) (i % 256) with | some l => 2 ^ 15 + l | none => 0

/-- A counter field of the shadow as R214 holds it, with the flags of BLANK_GRAINS. -/
def Bank.field (b : Bank) (k : Nat) : Nat :=
  let flags := if 0x10000 ≤ k ∧ k < 0x210000 ∧ (k - 0x10000) % 32 = 0 then
      let c := (k - 0x10000) / 32
      (if b.present.contains c then 2 ^ 63 else 0) + (if b.reused.contains c then 2 ^ 62 else 0)
    else 0
  flags + b.get k

/-- A 32-bit word of the dailies record (R214): the header, then counters. -/
def recordWord (h : DailiesHead) (b : Bank) (k : Nat) : Word :=
  if k = 0x00 then BitVec.ofNat 32 h.seq
  else if k = 0x04 then BitVec.ofNat 32 (1 + 65536 * h.flags)
  else if k = 0x08 then BitVec.ofNat 32 b.startReel
  else if k = 0x0C then BitVec.ofNat 32 h.endReel
  else if k = 0x10 then BitVec.ofNat 32 b.startTai
  else if k = 0x14 then BitVec.ofNat 32 (b.startTai / 2 ^ 32)
  else if k = 0x18 then BitVec.ofNat 32 h.endTai
  else if k = 0x1C then BitVec.ofNat 32 (h.endTai / 2 ^ 32)
  else if k = 0x20 then BitVec.ofNat 32 h.take
  else if k = 0x24 then BitVec.ofNat 32 b.splices
  else if k = 0x28 then BitVec.ofNat 32 h.claim
  else if k = 0x2C then BitVec.ofNat 32 h.epoch
  else half (b.field (k / 8 * 8)) (k % 8 == 4)

/-- Size of a dailies record (R214). -/
def recordSize : Nat := 4259840

/-- A word of one page set's windows: `kind` 0 connection memory, 1 write map, 2 facet map, 3 circuit, 4 merge. -/
def PageSet.window (p : PageSet) (kind k : Nat) : Word :=
  match kind with
  | 0 => match p.connAt (k / 8) with | some c => half (connWord (k / 8 % 2048) c) (k % 8 == 4) | none => 0
  | 1 => BitVec.ofNat 32 (p.writeWord (k / 2) + 65536 * p.writeWord (k / 2 + 1))
  | 2 => BitVec.ofNat 32 (p.facetOf (k / 4))
  | 3 => match p.circAt (k / 8) with | some e => half (circWord e) (k % 8 == 4) | none => 0
  | _ => match p.mergeAt (k / 4) with | some e => BitVec.ofNat 32 (mergeWord e) | none => 0

/-- The memory windows of R170 and R215, as base, size and content. -/
def State.windowRead (s : State) (off : Nat) : Option Word :=
  if 0x1000000 ≤ off ∧ off < 0x1200000 then some (s.ssw.setA.window 0 (off - 0x1000000))
  else if 0x1200000 ≤ off ∧ off < 0x1400000 then some (s.ssw.setB.window 0 (off - 0x1200000))
  else if 0x1400000 ≤ off ∧ off < 0x1500000 then some (s.ssw.setA.window 1 (off - 0x1400000))
  else if 0x1500000 ≤ off ∧ off < 0x1600000 then some (s.ssw.setB.window 1 (off - 0x1500000))
  else if 0x1600000 ≤ off ∧ off < 0x1600400 then some (s.ssw.setA.window 2 (off - 0x1600000))
  else if 0x1601000 ≤ off ∧ off < 0x1601400 then some (s.ssw.setB.window 2 (off - 0x1601000))
  else if 0x1800000 ≤ off ∧ off < 0x1880000 then some (s.ssw.setA.window 3 (off - 0x1800000))
  else if 0x1880000 ≤ off ∧ off < 0x1900000 then some (s.ssw.setB.window 3 (off - 0x1880000))
  else if 0x1900000 ≤ off ∧ off < 0x1A00000 then some (s.ssw.setA.window 4 (off - 0x1900000))
  else if 0x1A00000 ≤ off ∧ off < 0x1B00000 then some (s.ssw.setB.window 4 (off - 0x1A00000))
  else if 0x1B00000 ≤ off ∧ off < 0x1F10000 then some (recordWord s.circ.head s.circ.shadow (off - 0x1B00000))
  else none

/-- Whether an offset lies in one of the read-only windows. -/
def inWindow (off : Nat) : Bool :=
  decide ((0x1000000 ≤ off ∧ off < 0x1600400) ∨ (0x1601000 ≤ off ∧ off < 0x1601400) ∨
    (0x1800000 ≤ off ∧ off < 0x1F10000))

-- Take images in SRAM -------------------------------------------------------------------------------------------

/-- Offset in working SRAM of the image slot of a page set (R391). -/
def imageBase (set : Nat) : Nat := if set = 0 then 0xFE000 else 0x27F000

/-- A byte of the CONN region of a set's take image (R146). -/
def PageSet.connByte (p : PageSet) (k : Nat) : Nat :=
  bitsOf (match p.connAt (k / 6) with | some c => imageWord c | none => 0) (8 * (k % 6)) 8

/-- What a command has stored over a byte of a set's image. -/
def State.imageEdit (s : State) (set off : Nat) : Option Byte := Tbl.get (fun _ => none) s.mss.imageBytes (imageBase set + off)

/-- Whether commands have stored over the six bytes of an image from an offset on. -/
def State.imageTouched (s : State) (set off : Nat) : Bool := (List.range 6).any fun k => (s.imageEdit set (off + k)).isSome

/-- A CONN entry as the image of a set holds it (R146, R391). -/
def State.imageConn (s : State) (set index : Nat) : Option Conn :=
  let p := if set = 0 then s.ssw.setA else s.ssw.setB
  ofImageWord (leNat ((List.range 6).map fun k =>
    (s.imageEdit set (128 + 6 * index + k)).getD (BitVec.ofNat 8 (p.connByte (6 * index + k)))))

/-- The hardware writes the image of the standby set afresh. -/
def State.writeImage (s : State) : State :=
  let b := imageBase (!s.activeIsB).toNat
  { s with mss := { s.mss with imageBytes := s.mss.imageBytes.filter fun x => x.1 < b || b + 1576960 ≤ x.1 } }

-- Circuit section -----------------------------------------------------------------------------------------------

/-- Runs of primary merge entries in the canonical form: joined while lane, partner, slot and number continue. -/
def mergeRuns : List (Nat × MergeEntry) → List (Nat × Nat × MergeEntry)
  | [] => []
  | (i, e) :: rest =>
    match mergeRuns rest with
    | (j, n, f) :: more =>
      if j = i + 1 ∧ i / 2048 = j / 2048 ∧ f.partner = e.partner ∧ f.mp = e.mp + 1 then (i, n + 1, e) :: more
      else (i, 1, e) :: (j, n, f) :: more
    | [] => [(i, 1, e)]

/-- A circuit record (R192). -/
def circRecord (c : Nat) (e : CircEntry) : List Byte :=
  leBytes 2 c ++ leBytes 2 (e.flags % 2 ^ 15) ++ leBytes 4 e.label ++ List.replicate 8 0

/-- A merge record (R192) of `n` pairs from the primary entry at index `i`. -/
def mergeRecord (i n : Nat) (e : MergeEntry) : List Byte :=
  leBytes 2 e.mp ++ leBytes 2 n ++ leBytes 2 (i % 2048) ++ leBytes 1 (i / 2048) ++ leBytes 1 e.partner ++ List.replicate 8 0

/-- The circuit section of a set in canonical form (R392). -/
def PageSet.circSection (p : PageSet) : List Byte :=
  let cs := p.circs
  let ms := mergeRuns (p.mergeList.filter fun (_, e) => !e.secondary)
  leBytes 4 cs.length ++ leBytes 4 ms.length ++ List.replicate 8 0
    ++ cs.flatMap (fun (c, e) => circRecord c e) ++ ms.flatMap (fun (i, n, e) => mergeRecord i n e)

end Sys2Proof.Machine
end

