-- ==== Sys2Proof/Machine/Colouring.lean ====
section
/-!
DEFINITION. Edge colouring (spec 05 R136 to R140): the full take's free placement and the deterministic placement of an
increment.
-/
namespace Sys2Proof.Machine
open Sys2Proof

/-- Coloured edges: index 2,048 m + t and connection. The left vertex is the source beat, the right vertex the output slot
t. -/
abbrev Edges := List (Nat × Conn)

/-- Left or right vertex of an edge. -/
def edgeAt (right : Bool) (e : Nat × Conn) : Nat := if right then e.1 % 2048 else e.2.beat

/-- The edge of a colour at a vertex. -/
def edgeOf (es : Edges) (right : Bool) (v c : Nat) : Option (Nat × Conn) :=
  es.find? fun e => edgeAt right e == v && e.2.colour == c

/-- Colours used at a vertex. -/
def coloursAt (es : Edges) (right : Bool) (v : Nat) : List Nat :=
  (es.filter fun e => edgeAt right e == v).map fun e => e.2.colour

/-- The lowest colour not in a list. -/
def lowestFree (used : List Nat) : Option Nat := (List.range 256).find? fun c => !used.contains c

/-- Indices of the edges on the path coloured alternately a and b from a vertex (R140 step 2). Fuel: the number of
edges. -/
def kempePath : Nat → Edges → Bool → Nat → Nat → Nat → List Nat
  | 0, _, _, _, _, _ => []
  | fuel + 1, es, right, v, a, b =>
    match edgeOf es right v a with
    | none => []
    | some e => e.1 :: kempePath fuel (es.filter fun x => x.1 != e.1) (!right) (edgeAt (!right) e) b a

/-- Exchange two colours on the edges of a path. -/
def swapColours (es : Edges) (path : List Nat) (a b : Nat) : Edges :=
  es.map fun e => if path.contains e.1 then
      (e.1, { e.2 with colour := if e.2.colour = a then b else if e.2.colour = b then a else e.2.colour })
    else e

/-- Colour one added connection (R140). -/
def addEdge (es : Edges) (idx : Nat) (c : Conn) : Edges :=
  let atU := coloursAt es false c.beat
  let atV := coloursAt es true (idx % 2048)
  match lowestFree (atU ++ atV) with
  | some k => es ++ [(idx, { c with colour := k })]
  | none =>
    match lowestFree atU, lowestFree atV with
    | some a, some b =>
      let path := kempePath es.length es true (idx % 2048) a b
      swapColours es path a b ++ [(idx, { c with colour := a })]
    | _, _ => es ++ [(idx, c)]

/-- Colour the additions of an increment in record order, after its removals (R140). -/
def colourIncrement (base adds : Edges) : Edges := adds.foldl (fun es x => addEdge es x.1 x.2) base

/-- Whether a list of colours is a proper colouring of edges with at most 256 colours (R137, R138). -/
def properColours (es : Edges) (cs : List Nat) : Bool :=
  let coloured := es.zip cs
  decide (cs.length = es.length) && cs.all (· < 256)
    && decide (coloured.map fun (e, c) => (e.2.beat, c)).Nodup
    && decide (coloured.map fun (e, c) => (e.1 % 2048, c)).Nodup

/-- The placement of a full take (R139, R140): any proper colouring may result, so it is a free value. Where the free
value is no proper colouring, the edges are coloured one by one. -/
def colourFull (es : Edges) : Edges :=
  let cs := Config.fullColouring (es.map fun e => (e.2.lane, e.2.beat, e.1 / 2048, e.1 % 2048))
  if properColours es cs then (es.zip cs).map fun (e, c) => (e.1, { e.2 with colour := c })
  else colourIncrement [] es

/-- A connection table from edges. -/
def edgesTable (es : Edges) : Tbl (Option Conn) := es.foldl (fun t e => Tbl.insert t e.1 (some e.2)) []

end Sys2Proof.Machine
end

