-- ==== Sys2Proof/Machine/Sections.lean ====
section
/-!
DEFINITION. Circuit sections, connection lists and take images (spec 05 R144 to R146, R157, R502; 07 R192, R193; 13 R392).
-/
namespace Sys2Proof.Machine
open Sys2Proof

/-- A merge pair: primary lane, secondary lane, slot and merge-pair number. -/
structure MergePair where
  pri : Nat
  sec : Nat
  slot : Nat
  mp : Nat
  deriving DecidableEq, Repr

/-- A circuit or merge record of a section (R192). -/
inductive SectionRec where
  | circuit (remove : Bool) (number : Nat) (e : CircEntry) (ok : Bool)
  | merge (remove : Bool) (pairs : List MergePair) (ok : Bool)
  deriving DecidableEq, Repr

/-- Read a circuit record. -/
def parseCircuit (b : List Byte) : SectionRec :=
  let flags := leAt b 2 2
  .circuit (flags.testBit 15) (leAt b 0 2) { flags := flags % 2 ^ 15, label := leAt b 4 4 }
    (decide (flags % 2 ^ 15 < 2) && leAt b 8 8 == 0)

/-- Read a merge record. -/
def parseMerge (b : List Byte) : SectionRec :=
  let mp := leAt b 0 2
  let n := leAt b 2 2
  let first := leAt b 4 2
  let pri := leAt b 6 1
  let sec := leAt b 7 1
  .merge (pri.testBit 7)
    ((List.range n).map fun i => { pri := pri % 128, sec := sec, slot := first + i, mp := mp + i })
    (decide (1 ≤ n ∧ n ≤ 2048 ∧ first + n ≤ 2048 ∧ mp + n ≤ 65536 ∧ sec < 128 ∧ sec ≠ pri % 128) && leAt b 8 8 == 0)

/-- The records of a section in order; none where its size does not fit its counts. -/
def parseSection (b : List Byte) : Option (List SectionRec) :=
  let cc := leAt b 0 4
  let mc := leAt b 4 4
  if b.length ≠ 16 + 16 * (cc + mc) ∨ 65536 < cc ∨ 4096 < mc ∨ leAt b 8 8 ≠ 0 then none
  else some (((List.range cc).map fun i => parseCircuit (bytesAt b (16 + 16 * i) 16))
    ++ (List.range mc).map fun i => parseMerge (bytesAt b (16 + 16 * (cc + i)) 16))

/-- Merge pairs of a set. -/
def PageSet.pairs (p : PageSet) : List MergePair :=
  (p.mergeList.filter fun (_, e) => !e.secondary).map fun (i, e) =>
    { pri := i / 2048, sec := e.partner, slot := i % 2048, mp := e.mp }

/-- What a section has come to, record by record: circuits, pairs, the last circuit number, pairs still removable. -/
structure SectionState where
  circuits : Tbl (Option CircEntry)
  pairs : List MergePair
  last : Option Nat := none

/-- Whether a pair agrees with those already held (R193): number, lane-and-slot and partner. -/
def pairFits (l : List MergePair) (m : MergePair) : Bool :=
  l.all fun x => x.mp != m.mp
    && !(x.slot == m.slot && (x.pri == m.pri || x.pri == m.sec || x.sec == m.pri || x.sec == m.sec))
    && ((x.pri == m.pri && x.sec == m.sec) || (x.pri == m.sec && x.sec == m.pri)
      || (x.pri != m.pri && x.pri != m.sec && x.sec != m.pri && x.sec != m.sec))

/-- Removals of an increment's section; the index of a record that names something absent is added. -/
def sectionRemove (st : SectionState × List Nat) (r : SectionRec × Nat) : SectionState × List Nat :=
  match r.1 with
  | .circuit true n _ _ =>
    if (Tbl.find? st.1.circuits n).isSome then ({ st.1 with circuits := Tbl.erase st.1.circuits n }, st.2)
    else (st.1, st.2 ++ [r.2])
  | .merge true ps _ =>
    if ps.all st.1.pairs.contains then ({ st.1 with pairs := st.1.pairs.filter fun x => !ps.contains x }, st.2)
    else (st.1, st.2 ++ [r.2])
  | _ => st

/-- Additions of a section, in record order, with the order rule of R192. -/
def sectionAdd (increment : Bool) (st : SectionState × List Nat) (r : SectionRec × Nat) : SectionState × List Nat :=
  match r.1 with
  | .circuit rem n e ok =>
    let order := match st.1.last with | some l => decide (l < n) | none => true
    let bad := !ok || !order || (rem && !increment)
    let s := { st.1 with last := some n, circuits := if rem then st.1.circuits else Tbl.insert st.1.circuits n (some e) }
    (s, if bad then st.2 ++ [r.2] else st.2)
  | .merge rem ps ok =>
    if rem then (st.1, if ok && increment then st.2 else st.2 ++ [r.2])
    else
      let fits := ok && ps.all (pairFits st.1.pairs)
      ({ st.1 with pairs := if fits then st.1.pairs ++ ps else st.1.pairs }, if fits then st.2 else st.2 ++ [r.2])

/-- The circuits and pairs that a section makes of a base, or the index of its first offending record (R193). -/
def checkSection (base : Option PageSet) (b : List Byte) : Except Nat (Tbl (Option CircEntry) × List MergePair) :=
  match parseSection b with
  | none => .error 0
  | some rs =>
    let st0 : SectionState := match base with
      | some p => { circuits := p.circuits, pairs := p.pairs }
      | none => { circuits := [], pairs := [] }
    let st := if base.isSome then rs.zipIdx.foldl sectionRemove (st0, []) else (st0, [])
    let st := rs.zipIdx.foldl (sectionAdd base.isSome) st
    match st.2.min? with
    | some i => .error i
    | none => .ok (st.1.circuits, st.1.pairs)

/-- Merge table from pairs: both entries of each (R194). -/
def mergeTable (l : List MergePair) : Tbl (Option MergeEntry) :=
  l.foldl (fun t m =>
    Tbl.insert (Tbl.insert t (2048 * m.pri + m.slot) (some { secondary := false, partner := m.sec, mp := m.mp }))
      (2048 * m.sec + m.slot) (some { secondary := true, partner := m.pri, mp := m.mp })) []

-- Connection lists ----------------------------------------------------------------------------------------------

/-- A connection record (R144). -/
structure ConnRec where
  out : Nat
  conn : Conn
  remove : Bool
  reserved : Bool
  deriving DecidableEq, Repr

/-- Read one record. -/
def parseConn (b : List Byte) : ConnRec :=
  let os := leAt b 0 2
  let ol := leAt b 2 1
  let il := leAt b 3 1
  let is := leAt b 4 2
  { out := 2048 * (ol % 128) + os % 2048
    conn := { colour := 0, beat := is % 2048, lane := il % 128, circuit := leAt b 6 2 }
    remove := il.testBit 7, reserved := decide (2048 ≤ os ∨ 128 ≤ ol ∨ 2048 ≤ is) }

/-- The records of a list. -/
def parseConns (b : List Byte) : List ConnRec := (List.range (b.length / 8)).map fun i => parseConn (bytesAt b (8 * i) 8)

/-- Result of a job (R157): code, beat and detail. -/
structure JobResult where
  code : Nat
  beat : Nat := 0
  detail : Nat := 0
  deriving DecidableEq, Repr

/-- First index whose record satisfies a test. -/
def firstRec {α : Type} (l : List α) (p : α → Bool) : Option Nat := l.findIdx? p

/-- Index of the first removal that names no connection of the base, or one already removed (R145). -/
def badRemoval (base : PageSet) : List ConnRec → List Nat → Nat → Option Nat
  | [], _, _ => none
  | r :: rs, gone, i =>
    if !r.remove then badRemoval base rs gone (i + 1)
    else
      let ok := match base.connAt r.out with
        | some c => c.lane == r.conn.lane && c.beat == r.conn.beat && c.circuit == r.conn.circuit
        | none => false
      if ok && !gone.contains r.out then badRemoval base rs (r.out :: gone) (i + 1) else some i

/-- The first addition whose output slot is taken (R138, R145). -/
def slotConflict (kept : List Nat) : List ConnRec → Option Nat
  | [] => none
  | r :: rs =>
    if r.remove then slotConflict kept rs
    else if kept.contains r.out then some r.out else slotConflict (r.out :: kept) rs

/-- Fanout sum of a beat (R137). -/
def fanout (es : List (Nat × Conn)) (beat : Nat) : Nat := (es.filter fun e => e.2.beat == beat).length

/-- Whether a section record deletes a circuit. -/
def recDeletes (c : Nat) : SectionRec → Bool
  | .circuit true n _ _ => n == c
  | _ => false

/-- Whether a section record makes a lane's slot a secondary copy. -/
def recMakesSec (l s : Nat) : SectionRec → Bool
  | .merge false ps _ => ps.any fun m => m.sec == l && m.slot == s
  | _ => false

/-- The checks of a job on its records in the order of R157 from BAD_RECORD on (R502), with the connections kept and
added, the circuits and pairs of the result and the increment's own section records. -/
def checkRecords (increment : Bool) (base : PageSet) (rs : List ConnRec) (circuits : Tbl (Option CircEntry))
    (pairs : List MergePair) (section_ : List SectionRec) : JobResult × List (Nat × Conn) × List (Nat × Conn) :=
  let removed := (rs.filter (·.remove)).map (·.out)
  let kept := if increment then base.conns.filter fun e => !removed.contains e.1 else []
  let adds : List (Nat × Conn) := (rs.filter fun r => !r.remove).map fun r => (r.out, r.conn)
  let all := kept ++ adds
  let hasCirc := fun (c : Nat) => (Tbl.find? circuits c).isSome
  let isSec := fun (l s : Nat) => pairs.any fun m => m.sec == l && m.slot == s
  let deletes := fun (c : Nat) => firstRec section_ (recDeletes c)
  let makesSec := fun (l s : Nat) => firstRec section_ (recMakesSec l s)
  let unnamed := fun (f : Conn → Option Nat) => ((kept.filterMap fun e => f e.2).min?).map fun k => rs.length + k
  let orElse := fun (a b : Option Nat) => match a with | some x => some x | none => b
  let res : JobResult :=
    match firstRec rs fun r => r.reserved || (r.remove && !increment) with
    | some i => { code := 0x06, detail := i }
    | none =>
    match badRemoval base rs [] 0 with
    | some i => { code := 0x07, detail := i }
    | none =>
    match slotConflict (kept.map (·.1)) rs with
    | some o => { code := 0x08, detail := o / 2048 * 65536 + o % 2048 }
    | none =>
    match orElse (firstRec rs fun r => !r.remove && !hasCirc r.conn.circuit)
        (unnamed fun c => if hasCirc c.circuit then none else deletes c.circuit) with
    | some i => { code := 0x09, detail := i }
    | none =>
    match orElse (firstRec rs fun r => !r.remove && isSec r.conn.lane r.conn.beat)
        (unnamed fun c => if isSec c.lane c.beat then makesSec c.lane c.beat else none) with
    | some i => { code := 0x0A, detail := i }
    | none =>
    match (List.range 2048).find? fun b => decide (256 < fanout all b) with
    | some b => { code := 0x0B, beat := b, detail := fanout all b }
    | none => { code := 0x00 }
  (res, kept, adds)

-- Take images ---------------------------------------------------------------------------------------------------

/-- CONN region of a take image (R146). -/
def PageSet.connRegion (p : PageSet) : List Byte :=
  (List.range 262144).flatMap fun i => leBytes 6 (match p.connAt i with | some c => imageWord c | none => 0)

/-- Bytes 128 to the end of the circuit section, which PREPARED digests (R237). -/
def PageSet.imageBody (p : PageSet) : List Byte := p.connRegion ++ p.circSection

/-- The take image of a set (R146, R392). -/
def PageSet.image (p : PageSet) : List Byte :=
  leBytes 4 p.take ++ leBytes 4 p.parent ++ leBytes 2 1 ++ leBytes 2 (p.increment.toNat + 2 * p.repair.toNat)
    ++ leBytes 4 p.conns.length ++ leBytes 4 p.circSection.length ++ leBytes 4 p.compileTime ++ List.replicate 8 0
    ++ sha384 p.connRegion ++ List.replicate 48 0 ++ p.imageBody

/-- A byte of a set's image slot (R391, R392): header and CONN, the rest reserved. -/
def PageSet.imageByte (p : PageSet) (k : Nat) : Byte :=
  if k < 32 then
    (leBytes 4 p.take ++ leBytes 4 p.parent ++ leBytes 2 1 ++ leBytes 2 (p.increment.toNat + 2 * p.repair.toNat)
      ++ leBytes 4 p.conns.length ++ leBytes 4 p.circSection.length ++ leBytes 4 p.compileTime).getD k 0
  else if k < 80 then (sha384 p.connRegion).getD (k - 32) 0
  else if 128 ≤ k ∧ k < 1572992 then BitVec.ofNat 8 (p.connByte (k - 128))
  else 0

/-- The digest of a take (R237). -/
def PageSet.takeDigest (p : PageSet) : List Byte := sha384 p.imageBody

/-- The pair digest (R249): connection, circuit and merge entries of a set. -/
def PageSet.pairDigest (p : PageSet) : List Byte :=
  sha384 (((List.range 262144).flatMap fun i => leBytes 8 (match p.connAt i with | some c => connWord (i % 2048) c | none => 0))
    ++ ((List.range 65536).flatMap fun i => leBytes 8 (match p.circAt i with | some e => circWord e | none => 0))
    ++ ((List.range 262144).flatMap fun i => leBytes 4 (match p.mergeAt i with | some e => mergeWord e | none => 0)))

/-- A page set read from a take image, with the facet map it is to keep. -/
def ofImage (b : List Byte) (facetMap : Tbl Nat) : PageSet :=
  let conn := (List.range 262144).foldl (fun (t : Tbl (Option Conn)) i =>
    match ofImageWord (leAt b (128 + 6 * i) 6) with | some c => Tbl.insert t i (some c) | none => t) []
  let flags := leAt b 10 2
  let (cs, ms) := match checkSection none (b.drop 1572992) with | .ok x => x | .error _ => ([], [])
  { take := leAt b 0 4, parent := leAt b 4 4, increment := flags.testBit 0, repair := flags.testBit 1
    compileTime := leAt b 20 4, conn := conn, facetMap := facetMap, circuits := cs, merges := mergeTable ms }

end Sys2Proof.Machine
end

