-- ==== Sys2Proof/Machine/Datapath.lean ====
section
/-!
DEFINITION. The core reel (spec 01 R13, R16, R18; 04 R125 to R129; 05 R134 to R136, R158 to R161; 06 R174 to R177; 07 R199
to R211). A core reel is made whole at its start: release of the received reels, merge, writes, reads and counts.
-/
namespace Sys2Proof.Machine
open Sys2Proof

-- Release of received reels -------------------------------------------------------------------------------------

/-- The grain of a slot in a received reel, or none where it is a bad copy by its block or by its content (R125). -/
def RxReel.grain (r : RxReel) (slot : Nat) : Option Grain :=
  match r.blocks.find? fun b => b.1 == slot / 64 with
  | some (_, false, gs) =>
    let g := gs.getD (slot % 64) blankGrain
    if g = blankGrain then none else some g
  | _ => none

/-- The copy of a slot in the reel released for this core reel. -/
def Lane.copy (l : Lane) (slot : Nat) : Option Grain :=
  match l.hist.head? with | some r => r.grain slot | none => none

/-- The received reel of a REEL_SEQ that the deskew pool holds, the one now presented among them, `fill` buffers having filled
(R199, R203). A core reel without a received reel fills no buffer. -/
def Lane.pooled (l : Lane) (fill seq : Nat) : Option RxReel :=
  ((l.hist.filter (·.valid)).take (fill + 1)).find? fun r => r.seq == seq

/-- Release of the reel of a lane at the start of core reel `q` (R14, R16, R126). A blanking defect makes every grain of
the reel a bad copy. A slow slip blank-fills this core reel and keeps the received reel for the next. Wait, guard and steering state at this
instant are kept for a take report (R188). -/
def State.releaseReel (s : State) (n q : Nat) : State :=
  let blank := s.blankingRaw n
  let counts := blank && decide (s.rxState n ≤ 1)
  let s := s.when counts fun s => s.count (laneCtr n 7)
  let synced := s.sync n == 2
  let s := s.updLane n fun l => { l with
    waitAt := s.fld (F.LANE_ARRIVAL_WAIT n), guardAt := s.steerGuard n / 256, steerAt := s.steerState n }
  s.updLane n fun l =>
    if l.slip = .slow then { l with blanking := counts, slip := .none, hist := ({} :: l.hist).take 5 }
    else
      let r := if blank then { l.rx with blocks := [] } else l.rx
      { l with
        blanking := counts, slip := .none, rx := {}, hist := (r :: l.hist).take 5
        reelOff := if synced && l.rx.valid then some ((l.rx.seq + 2 ^ 32 - q % 2 ^ 32) % 2 ^ 32) else l.reelOff }

/-- The released copy of an input slot outside merge pairs. A lane that is not enabled has none (R127). -/
def State.singleCopy (s : State) (n slot : Nat) : Option Grain :=
  if (s.lane n).ctlEn then (s.lane n).copy slot else none

-- Deskew --------------------------------------------------------------------------------------------------------

/-- Signed difference of two offsets modulo 2^32. -/
def offDiff (a b : Nat) : Int := toSigned 32 (a + 2 ^ 32 - b % 2 ^ 32)

/-- Offset of a lane, while it is in REEL_SYNC and has presented a reel (R199). -/
def State.offset? (s : State) (n : Nat) : Option Nat := if s.sync n = 2 then (s.lane n).reelOff else none

/-- SKEW_LIMIT (R200): the mean skew exceeds 10.24 µs in magnitude. -/
def State.skewLimit (s : State) (p : LanePair) : Bool :=
  s.reg (R.CIRC_SKEW p.lo) ≠ 0x80000000#32 && decide (2621440 < (s.fldI (F.CIRC_SKEW_SKEW p.lo)).natAbs)

/-- The re-anchor rule (R202); none keeps the anchor. -/
def State.anchorRule (s : State) (p : LanePair) : Option Nat :=
  match s.offset? p.lo, s.offset? p.hi with
  | some a, some b =>
    if 4 < (offDiff a b).natAbs || s.skewLimit p then (if p.pri = p.lo then some a else some b)
    else some (if offDiff a b ≤ 0 then a else b)
  | some a, none => some a
  | none, some b => some b
  | none, none => none

/-- Hold of a lane of a pair in reels (R199). -/
def State.hold? (s : State) (p : LanePair) (n : Nat) : Option Int :=
  match s.offset? n, p.anchor with | some a, some g => some (offDiff a g) | _, _ => none

/-- The reel that a pair presents in the core reel in progress (R199): received reel N + off_g. -/
def State.pairReel (s : State) (p : LanePair) (n : Nat) : Option RxReel :=
  match p.anchor with
  | some g => (s.lane n).pooled p.fill (((s.reg R.SSW_REEL_NOW).toNat + g) % 2 ^ 32)
  | none => none

/-- Whether a lane's copies are in step (R199): in REEL_SYNC, hold 0 to 4, and the pool holds the reels it needs, which it
does once as many buffers have filled or while it holds the very reel to present. -/
def State.inStep (s : State) (p : LanePair) (n : Nat) : Bool :=
  match s.hold? p n with
  | some k => decide (0 ≤ k ∧ k ≤ 4) && (decide (k ≤ p.fill ∧ k.toNat < (s.lane n).hist.length) || (s.pairReel p n).isSome)
  | none => false

/-- Merge entries by which a pair's numbers are found: primary entries of its two lanes. -/
def PageSet.pairEntries (t : PageSet) (p : LanePair) : List (Nat × MergeEntry) :=
  t.mergeList.filter fun (i, e) => !e.secondary && (i / 2048 == p.lo || i / 2048 == p.hi)

/-- Move the anchor of a pair by the re-anchor rule (R202): event, blank or skipped reels and counts. A pair that never
had an anchor takes its first one without an event. -/
def State.reanchor (s : State) (p : LanePair) : State × LanePair :=
  match p.anchor, s.anchorRule p with
  | _, none => (s, p)
  | none, some a => (s, { p with anchor := some a })
  | some old, some a =>
    if a = old then (s, p)
    else
      let d := offDiff a old
      let j := d.natAbs
      let s := s.when (decide (0 < d)) fun s =>
        (s.active.pairEntries p).foldl (fun s (_, e) => s.count (mergeCtr e.mp 2) j) s
      let s := (s.incFld (F.CIRC_MERGE_REANCHORS p.lo)).incFld (F.CIRC_MERGE_REANCHORS p.hi)
      let s := s.logEvent Ev.MERGE_REANCHOR p.lo
        (leBytes 1 p.lo ++ leBytes 1 p.hi ++ leBytes 4 old ++ leBytes 4 a ++ leBytes 4 j)
      (s, { p with anchor := some a, blank := ((p.blank : Int) - d).toNat })

/-- Pool buffers allocated (R203). -/
def Circ.poolUsed (c : Circ) : Nat :=
  (c.pairs ++ c.newPairs).foldl (fun a p => a + p.bufs) c.leaving

/-- Buffers a pair needs by the holds of its lanes; a lane without an offset keeps what it has. -/
def State.bufsNeeded (s : State) (p : LanePair) : Nat :=
  let need := fun n => match s.hold? p n with
    | some k => if 1 ≤ k ∧ k ≤ 4 then k.toNat else 0
    | none => p.bufs
  max (need p.lo) (need p.hi)

/-- Grant or free buffers (R203), within the 256 of the pool. -/
def State.grant (s : State) (p : LanePair) : LanePair :=
  let need := s.bufsNeeded p
  let bufs := if need ≤ p.bufs then need else min need (p.bufs + (256 - s.circ.poolUsed))
  { p with bufs := bufs, fill := min p.fill bufs }

/-- Replace a lane pair of the active take. -/
def State.setPair (s : State) (p : LanePair) : State :=
  s.updCirc fun c => { c with pairs := c.pairs.map fun x => if x.lo = p.lo then p else x }

/-- State of a pair (R206); none where both lanes are in REEL_SYNC and neither copy is in step. -/
def State.pairState (s : State) (p : LanePair) : Option Nat :=
  if s.skewLimit p then some 4
  else if s.sync p.lo ≠ 2 ∧ s.sync p.hi ≠ 2 then some 1
  else if s.inStep p p.lo && s.inStep p p.hi then some 2
  else if s.inStep p p.lo || s.inStep p p.hi then some 3
  else none

/-- Whether the pool buffers of a lane of a pair are still filling (R216). -/
def State.pairFilling (s : State) (p : LanePair) (n : Nat) : Bool :=
  match s.hold? p n with | some k => decide (0 < k ∧ k ≤ 4 ∧ (p.fill : Int) < k) | none => false

/-- Show a pair in CIRC_MERGE of both lanes, and log a change of its state (R206, R216). -/
def State.showPair (s : State) (p : LanePair) : State :=
  let old := s.fld (F.CIRC_MERGE_STATE p.lo)
  let st := (s.pairState p).getD old
  let one := fun (s : State) (n other : Nat) =>
    let step := s.inStep p n
    let k := ((s.hold? p n).getD 0)
    let s := (s.setFld (F.CIRC_MERGE_STATE n) st).setFlag (F.CIRC_MERGE_IN_STEP n) step
    let s := s.setFlag (F.CIRC_MERGE_FILLING n) (s.pairFilling p n)
    let s := s.setFld (F.CIRC_MERGE_DELAY n) (if step then k.toNat else 0)
    s.setFld (F.CIRC_MERGE_PARTNER n) other
  let s := one (one s p.lo p.hi) p.hi p.lo
  if st = old then s else s.logEvent Ev.MERGE_STATE p.lo (leBytes 1 p.lo ++ leBytes 1 p.hi ++ leBytes 1 st)

/-- One lane pair at a core reel boundary (R199 to R206): re-anchor where neither copy is in step, buffers, state. -/
def State.stepPair (s : State) (p : LanePair) : State :=
  let lost := if s.skewLimit p then !s.inStep p p.pri && (s.offset? p.pri).isSome
    else !s.inStep p p.lo && !s.inStep p p.hi && ((s.offset? p.lo).isSome || (s.offset? p.hi).isSome)
  let p := s.grant p
  let (s, p) := if lost then s.reanchor p else (s, p)
  let p := s.grant p
  (s.setPair p).showPair p

/-- Show the use of the pool, and which lanes of an ordered take's new pairs are still filling (R203, R216). -/
def State.showPool (s : State) : State :=
  let filling := s.circ.newPairs.foldl (fun a p => a + (p.bufs - p.fill)) 0
  let s := (s.setFld F.CIRC_POOL_IN_USE s.circ.poolUsed).setFld F.CIRC_POOL_FILLING filling
  s.circ.newPairs.foldl (fun s p => [p.lo, p.hi].foldl (fun s n =>
    let shown := s.circ.pairs.any (fun x => x.lo == n || x.hi == n) && s.flag (F.CIRC_MERGE_FILLING n)
    s.setFlag (F.CIRC_MERGE_FILLING n) (shown || s.pairFilling p n)) s) s

/-- The end of a core reel: each pool buffer has taken one more reel, and a blank reel has passed. -/
def State.fillPool (s : State) : State :=
  let f := fun (p : LanePair) => { p with fill := min p.bufs (p.fill + 1), blank := p.blank - 1 }
  (s.updCirc fun c => { c with pairs := c.pairs.map f, newPairs := c.newPairs.map f }).showPool

-- Merge ---------------------------------------------------------------------------------------------------------

/-- The pair of a lane in the active take. -/
def State.pairOf (s : State) (n : Nat) : Option LanePair := s.circ.pairs.find? fun p => p.lo == n || p.hi == n

/-- The copy of a merge pair on lane `n` (R199, R204): good only while in step. -/
def State.pairCopy (s : State) (p : LanePair) (n slot : Nat) : Option Grain :=
  if (s.lane n).ctlEn && s.inStep p n then (s.pairReel p n).bind fun r => r.grain slot else none

/-- The grain presented for an input slot, and whether it was rescued from the secondary copy (R127, R204). -/
def State.present (s : State) (n slot : Nat) : Option Grain × Bool :=
  match s.active.mergeAt (2048 * n + slot), s.pairOf n with
  | some e, some p =>
    if 0 < p.blank then (none, false)
    else match s.pairCopy p n slot with
      | some g => (some g, false)
      | none =>
        match if s.skewLimit p then none else s.pairCopy p e.partner slot with
        | some g => (some g, true)
        | none => (none, false)
  | _, _ => (s.singleCopy n slot, false)

/-- A grain of a lane in REEL_SYNC lost the merge because it was bad while the other copy was good (R99). -/
def State.countRescued (s : State) (n : Nat) : State :=
  s.when (s.sync n == 2) fun s => s.updLane n fun l => { l with rptRescued := (l.rptRescued + 1) % 2 ^ 32 }

/-- The counts of R204 and R210 for one merge pair, and RPT_RESCUED of the lane whose copy lost (R99, R101). -/
def State.countMerge (s : State) (i : Nat) (e : MergeEntry) : State :=
  let n := i / 2048
  match s.pairOf n with
  | none => s
  | some p =>
    if 0 < p.blank then s.count (mergeCtr e.mp 2)
    else
      let pri := (s.pairCopy p n (i % 2048)).isSome
      let sec := !s.skewLimit p && (s.pairCopy p e.partner (i % 2048)).isSome
      let s := s.when (!pri) fun s => s.count (mergeCtr e.mp 0)
      let s := s.when (!sec) fun s => s.count (mergeCtr e.mp 1)
      let s := s.when (!pri && !sec) fun s => s.count (mergeCtr e.mp 2)
      let s := s.when (!pri && sec) fun s => (s.count (mergeCtr e.mp 3)).countRescued n
      s.when (pri && !sec) fun s => s.countRescued e.partner

/-- Source slots of the active take as lane and slot (R208): sources of connections and copies of merge pairs. -/
def PageSet.sources (t : PageSet) : List (Nat × Nat) :=
  let feeding : List (Nat × Nat) := t.conns.map fun x => (x.2.lane, x.2.beat)
  let copies : List (Nat × Nat) := t.mergeList.map fun x => (x.1 / 2048, x.1 % 2048)
  (feeding ++ copies).eraseDups

/-- BAD_GRAINS of this core reel (R208). -/
def State.countBadGrains (s : State) : State :=
  s.active.sources.foldl (fun s (n, b) =>
    if ((s.lane n).copy b).isNone then s.count (laneCtr n 6) else s) s

-- Memory errors -------------------------------------------------------------------------------------------------

/-- Which set a memory word lies in, for events and recurrence. -/
def State.setOf (s : State) (outgoing : Bool) : Nat := (Bool.xor s.activeIsB outgoing).toNat

/-- CONN_REFRESH (R158): page set, index, and flags 1 SEAM, 2 RESYNC. -/
def State.connRefresh (s : State) (set index flags : Nat) : State :=
  (s.incFld F.SSW_CONN_ERR_UE).logEvent Ev.CONN_REFRESH noSource (leBytes 1 set ++ leBytes 4 index ++ leBytes 1 flags)

/-- A refresh starts the 1 s of the recurrence rule; a second one within it fences the unit (R158, R33). Any later error in an entry that
recurred starts the 1 s of R39 again. -/
def State.noteRefresh (s : State) (k : MemKind) (set index : Nat) : State :=
  let key := index + 2 ^ 24 * set
  let again := s.ssw.refreshed.any fun (k', i, _) => k' == k && i == key
  let was := s.ssw.stuck.contains (k, key)
  let s := s.updSsw fun x => { x with
    refreshed := (k, key, 1000000000) :: x.refreshed.filter fun (k', i, _) => !(k' == k && i == key) }
  let s := s.when (again || was) fun s => s.updGctl fun g => { g with memStuckNs := 1000000000 }
  if again then
    (s.updSsw fun x => { x with stuck := if was then x.stuck else (k, key) :: x.stuck }).detect .memoryStuck
  else s

/-- The hardware rewrites a connection word from the take image, as the image now stands (R158, R391). -/
def State.rewriteConn (s : State) (set index : Nat) : State :=
  if s.imageTouched set (128 + 6 * index) then
    s.setActive { s.active with conn := Tbl.put (fun _ => none) s.active.conn index (s.imageConn set index) }
  else s

/-- Facet error counts of the running window (R161, R165). -/
def State.facetError (s : State) (f ce ue : Nat) : State :=
  let (c, u) := Tbl.get (fun _ => (0, 0)) s.ssw.errWin f
  s.updSsw fun x => { x with errWin := Tbl.put (fun _ => (0, 0)) x.errWin f (c + ce, u + ue) }

/-- One memory error that the core reel meets (R158 to R161, R177). A word whose image is lost stays blank. -/
def State.memError (s : State) (e : MemError) : State :=
  let seam := decide (s.sby = 7) && e.outgoing
  let set := s.setOf seam
  match e.kind, e.correctable with
  | .facet, true => s.facetError (e.index / 4096) 1 0
  | .facet, false => s.facetError (e.index / 4096) 0 1
  | .circuit, true => s
  | .circuit, false => s.noteRefresh .circuit set e.index
  | _, true => s.incFld F.SSW_CONN_ERR_CE
  | k, false =>
    if seam then
      (s.connRefresh set e.index 1).updSsw fun x => { x with seamCounted := (k, e.index) :: x.seamCounted }
    else if e.image then
      let s := s.when (k == .conn) fun s => s.rewriteConn set e.index
      (s.connRefresh set e.index 0).noteRefresh k set e.index
    else
      (s.setActive { s.active with lost := (k, e.index) :: s.active.lost }).logEvent Ev.CONN_IMAGE_LOST noSource []

/-- Output slots blank in this reel for a bad connection word, of the active or of the outgoing set. -/
def blankSlots (errors : List MemError) (outgoing : Bool) : List Nat :=
  (errors.filter fun e => e.kind == .conn && !e.correctable && e.outgoing == outgoing).map fun e => e.index

/-- Write-map words blank in this reel (R159). -/
def blankWrites (errors : List MemError) : List Nat :=
  (errors.filter fun e => e.kind == .writeMap && !e.correctable && !e.outgoing).map fun e => e.index

-- Writes and reads ----------------------------------------------------------------------------------------------

/-- Facet entry of a connection for a reel (R134). -/
def ringEntry (facet beat q : Nat) : Nat := 4096 * facet + 2 * beat + q % 2

/-- The writes of core reel `q` (R135): one grain per valid write-map entry of the active set. -/
def State.writeSlots (s : State) (q : Nat) (badWords : List Nat) : State :=
  let t := s.active
  let bad := badWords ++ (t.lost.filterMap fun (k, i) => if k = .writeMap then some i else none)
  t.writes.foldl (fun s (b, c, l) =>
    let (g, r) := if bad.contains ((256 * b + c) / 4) then (none, false) else s.present l b
    let entry := ((g.getD blankGrain), r)
    s.updSsw fun x => { x with slots := Tbl.put (fun _ => (0, false)) x.slots (ringEntry (t.facetOf c) b q) entry }) s

/-- Read one entry; an uncorrectable entry gives the blank grain (R161). -/
def State.readSlot (s : State) (t : PageSet) (c : Conn) (q : Nat) (badEntries : List Nat) : Grain × Bool :=
  let k := ringEntry (t.facetOf c.colour) c.beat q
  if badEntries.contains k then (blankGrain, false) else Tbl.get (fun _ => (0, false)) s.ssw.slots k

/-- Which grain a slot of a reel takes (R136, R174). -/
inductive ReadFrom where
  | incoming (q : Nat)
  | outgoing (q : Nat)
  | idle
  deriving DecidableEq, Repr

/-- The choice of R136 outside a seam reel, of R174 in it, for output slot `t` of reel `q`. -/
def chooseRead (seam : Bool) (t q : Nat) (i o : Option Conn) : ReadFrom :=
  let prev := (q + 2 ^ 32 - 1) % 2 ^ 32
  let oLag := match o with | some c => connLag t c | none => false
  match i with
  | some c =>
    if !connLag t c then .incoming q
    else if !seam then .incoming prev
    else match o with
      | some d => if oLag && d.lane == c.lane && d.beat == c.beat then .outgoing prev else .idle
      | none => .idle
  | none => if seam && oLag then .outgoing prev else .idle

/-- The grain one output slot sends, whether it was rescued, and whether it is anything but idle. -/
def State.sendSlot (s : State) (seam : Bool) (q idx : Nat) (bad badOut badEntries : List Nat) : Grain × Bool :=
  if bad.contains idx || s.active.lost.contains (.conn, idx) then (blankGrain, false)
  else
    let i := s.active.connAt idx
    let o := s.standby.connAt idx
    match chooseRead seam (idx % 2048) q i o with
    | .incoming r => match i with | some c => s.readSlot s.active c r badEntries | none => (idleGrain, false)
    | .outgoing r =>
      if badOut.contains idx then (blankGrain, false)
      else match o with | some c => s.readSlot s.standby c r badEntries | none => (idleGrain, false)
    | .idle => (if badOut.contains idx then blankGrain else idleGrain, false)

/-- SSW_SEAM_YIELD and SSW_SEAM_IDLE of a seam reel (R175, R189). A slot that carried the blank grain for a bad word falls under no row of
R174. -/
def State.seamCounts (s : State) (bad badOut : List Nat) : State :=
  let early := fun i => match s.active.connAt i with | some c => !connLag (i % 2048) c | none => false
  let blank := fun i => bad.contains i || s.active.lost.contains (.conn, i) || (badOut.contains i && !early i)
  let idxs := (s.standby.conns.map (·.1)).filter fun i => !blank i
  let lagOut := fun i => match s.standby.connAt i with | some c => connLag (i % 2048) c | none => false
  let same := fun i => match s.active.connAt i, s.standby.connAt i with
    | some c, some d => c.lane == d.lane && c.beat == d.beat
    | _, _ => false
  let yields := (idxs.filter fun i => lagOut i && match s.active.connAt i with
    | some c => !connLag (i % 2048) c || !same i
    | none => false).length
  let idles := (s.active.conns.filter fun (i, c) => !blank i && connLag (i % 2048) c && !(lagOut i && same i)).length
  (s.setFld F.SSW_SEAM_YIELD_COUNT yields).setFld F.SSW_SEAM_IDLE_COUNT idles

-- Circuits ------------------------------------------------------------------------------------------------------

/-- Entry to or exit from FDI of a circuit (R129, R211). -/
def State.fdiEvent (s : State) (c : Nat) (e : CircEntry) (into : Bool) (q : Nat) : State :=
  if e.flags % 2 = 1 then
    s.logEvent Ev.CIRC_FDI noSource (leBytes 2 c ++ leBytes 4 e.label ++ leBytes 1 into.toNat ++ leBytes 4 q)
  else s

/-- FDI state of a circuit. -/
def State.fdiOf (s : State) (c : Nat) : FdiRun := Tbl.get (fun _ => {}) s.circ.fdi c

/-- One reel of a circuit with output slots (R129, R209): `sent` is what each slot carried. -/
def State.circuitReel (s : State) (c : Nat) (e : CircEntry) (sent : List (Grain × Bool)) (q : Nat) : State :=
  let blanks := (sent.filter fun x => x.1 == blankGrain).length
  let rescued := (sent.filter fun x => x.2 && x.1 != blankGrain).length
  let all := decide (blanks = sent.length) && decide (0 < sent.length)
  let f := s.fdiOf c
  let run := if all = f.inFdi then 0 else f.run + 1
  let flip := decide (run = 2)
  let now : FdiRun := if flip then { inFdi := all, run := 0 } else { f with run := run }
  let now := if sent.isEmpty then {} else now
  let s := s.updCirc fun x => { x with fdi := Tbl.put (fun _ => {}) x.fdi c now }
  let s := s.when (decide (0 < blanks)) fun s => s.count (circCtr c 0) blanks
  let s := s.when (decide (0 < rescued)) fun s => s.count (circCtr c 3) rescued
  let s := s.when now.inFdi fun s => s.count (circCtr c 1)
  let s := s.when (now.inFdi && !f.inFdi) fun s => s.count (circCtr c 2)
  if now.inFdi = f.inFdi then s else s.fdiEvent c e now.inFdi q

/-- All circuits of the active take (R129, R209). -/
def State.circuitsReel (s : State) (q : Nat) (sent : List (Nat × Nat × Grain × Bool)) : State :=
  let s := s.active.circs.foldl (fun s (c, e) =>
    s.circuitReel c e ((sent.filter fun x => x.2.1 == c).map fun x => x.2.2) q) s
  s.setFld F.CIRC_FDI_COUNT (s.circ.fdi.filter fun x => x.2.inFdi).length

-- The core reel -------------------------------------------------------------------------------------------------

/-- Connection words of the outgoing set that are uncorrectable because their image is lost (R160, R177), beside those named. -/
def State.lostOutgoing (s : State) (errors : List MemError) : List MemError :=
  (s.standby.lost.filter fun (k, i) => k == .conn && !errors.any fun e => e.kind == .conn && e.outgoing && e.index == i).map
    fun (_, i) => { kind := .conn, index := i, correctable := false, image := false, outgoing := true }

/-- CORE_REEL_START (R13): release, merge, writes, reads and counts of one core reel. `errors` are the memory errors it
meets; in a seam reel the outgoing words whose image is lost are met as uncorrectable too (R177). -/
def State.coreReel (s : State) (errors : List MemError) : State :=
  let q := seqNext s.reelSeq
  let seam := decide (s.sby = 7)
  let errors := if seam then errors ++ s.lostOutgoing errors else errors
  let s := s.setFld F.SSW_REEL_NOW_REEL q
  let s := (List.range 130).foldl (fun s n => s.releaseReel n q) s
  let s := s.circ.pairs.foldl (fun s p => s.stepPair p) s
  let s := s.countBadGrains
  let s := (s.active.mergeList.filter fun (_, e) => !e.secondary).foldl (fun s (i, e) => s.countMerge i e) s
  let s := s.writeSlots q (blankWrites errors)
  let s := errors.foldl State.memError s
  let badEntries := (errors.filter fun e => e.kind == .facet && !e.correctable).map fun e => e.index
  let bad := blankSlots errors false
  let badOut := if seam then blankSlots errors true else []
  let idxs := ((s.active.conns.map (·.1)) ++ bad ++ badOut
    ++ (if seam then s.standby.conns.map (·.1) else [])
    ++ s.active.lost.filterMap fun (k, i) => if k = .conn then some i else none).eraseDups
  let fenced := s.fenced || s.fencePending
  let sent := idxs.map fun i =>
    (i, if fenced then (blankGrain, false) else s.sendSlot seam q i bad badOut badEntries)
  let s := s.updSsw fun x => { x with tx := sent.foldl (fun t (i, g) => Tbl.put (fun _ => idleGrain) t i g.1) [] }
  let byCircuit := sent.filterMap fun (i, g) => (s.active.connAt i).map fun c => (i, c.circuit, g.1, g.2)
  let s := s.when seam fun s => if fenced then s.seamCounts idxs idxs else s.seamCounts bad badOut
  (s.circuitsReel q byCircuit).fillPool

def execCoreReelStart (errors : List MemError) (s : State) : Host.Outcome State Fault Refusal := .next (s.coreReel errors)

/-- REEL_SLIP (R16): the wait of a lane in REEL_SYNC would leave its range. A fast far end loses the reel that would have
fed the next core reel; a slow one has that core reel blank-filled. -/
def execReelSlip (n : LaneNo) (fast : Bool) (s : State) : Host.Outcome State Fault Refusal :=
  let n := n.val
  if s.sync n ≠ 2 then .next s
  else
    let s := s.updLane n fun l => if fast then { l with rx := {} } else { l with slip := .slow }
    .next ((s.count (laneCtr n 5)).logEvent Ev.REEL_SLIP n [])

end Sys2Proof.Machine
end

