-- ==== Sys2Proof/Machine/PairBase.lean ====
section
/-!
DEFINITION. Roles, claims and the sending side of the continuity stream (spec 08 R217 to R219, R225, R229 to R232).
-/
namespace Sys2Proof.Machine
open Sys2Proof

/-- Change the pair state. -/
def State.updPair (s : State) (f : Pair → Pair) : State := { s with pair := f s.pair }

/-- Role (R218): 0 NONE, 1 JOINING, 2 FOLLOWER, 3 LEAD, 4 SOLO. -/
def State.role (s : State) : Nat := s.fld F.PAIR_STATE_ROLE

/-- Session state: 0 DOWN, 1 AUTHENTICATING, 2 UP, 3 STALLED. -/
def State.session (s : State) : Nat := s.fld F.PAIR_CONT_STAT_STATE

/-- Unit identity, bit 0 of the claim (R217). -/
def State.unit (s : State) : Nat := s.fld F.PAIR_CFG_UNIT

/-- Own claim, as sent in the current reel. -/
def State.claim (s : State) : Nat := (s.reg R.PAIR_CLAIM).toNat

/-- Own epoch. -/
def State.epochOf (s : State) : Nat := s.claim / 2

/-- Next epoch of a solo start or takeover (R219); none where it would exceed 0x7FFF_FFFF. -/
def State.nextEpoch (s : State) : Option Nat :=
  let e := max (max 1 (s.fld F.PAIR_EPOCH_FLOOR_FLOOR)) s.pair.eSeen + 1
  if e ≤ 0x7FFFFFFF then some e else none

/-- A received claim raises E_seen (R219). -/
def State.seeClaim (s : State) (c : Nat) : State := s.updPair fun p => { p with eSeen := max p.eSeen (c / 2) }

/-- Whether mate evidence is absent on all three paths. -/
def State.allAbsent (s : State) : Bool :=
  !s.flag F.PAIR_STATE_EV_MATE_LANES && !s.flag F.PAIR_STATE_EV_HEARTBEAT && !s.flag F.PAIR_STATE_EV_WITNESS

/-- Isolation (R225): role LEAD or FOLLOWER, no session UP, witness evidence present, and the mate not fenced. -/
def State.isolatedNow (s : State) : Bool :=
  (s.role == 2 || s.role == 3) && s.session != 2 && s.flag F.PAIR_STATE_EV_WITNESS && !s.flag F.PAIR_STATE_MATE_FENCED

/-- Bring ISOLATED up to date and log each change (R225). -/
def State.refreshIsolated (s : State) : State :=
  let now := s.isolatedNow
  if now = s.flag F.PAIR_STATE_ISOLATED then s
  else (((s.setFlag F.PAIR_STATE_ISOLATED now).when now fun s => s.alert F.GCTL_ALERT_STAT_PAIR_ISOLATED).logEvent
    Ev.PAIR_ISOLATED noSource [])

/-- Set the role. -/
def State.setRole (s : State) (r : Nat) : State :=
  let old := s.role
  let s := (s.setFld F.PAIR_STATE_ROLE r).refreshIsolated
  if old = r then s else s.icEdge 39

/-- Number of records outstanding, as PAIR_CONT_STAT shows it. -/
def State.showOutstanding (s : State) : State :=
  s.setFld F.PAIR_CONT_STAT_OUTSTANDING (min 65535 s.pair.unacked.length)

/-- Send a record in the session (R231): it takes the next counter, waits for its turn on the mate lanes and is kept until it is
acknowledged. Without a session nothing is sent. -/
def State.sendRecord (s : State) (kind applyReel : Nat) (body : List Byte) : State :=
  if s.session = 0 then s
  else
    (s.updPair fun p =>
      let r : Record := { kind := kind, counter := p.txNext, applyReel := applyReel, body := body }
      { p with
        unacked := p.unacked ++ [r], txNext := p.txNext + 1
        txQueue := p.txQueue ++ [{ record := r, key := p.key, session := p.session }] }).showOutstanding

/-- What waits to go out once the records up to a counter are acknowledged: a record partly sent is finished. -/
def Pair.pruned (p : Pair) (next : Nat) : List Outgoing :=
  let started := if p.txPos = 0 then [] else p.txQueue.take 1
  started ++ (p.txQueue.drop started.length).filter fun o => decide (next ≤ o.record.counter)

/-- Everything unacknowledged goes out again, from the acknowledged counter on, after a record partly sent (R231). -/
def Pair.resend (p : Pair) : Pair :=
  let again := p.unacked.map fun r => { r with resent := true }
  let started := if p.txPos = 0 then [] else p.txQueue.take 1
  { p with unacked := again
           txQueue := started ++ again.map fun r => { record := r, key := p.key, session := p.session } }

/-- Header bytes 0 to 31 of a record (R229). -/
def recordHeader (kind flags len session counter applyReel : Nat) : List Byte :=
  let h := leBytes 1 kind ++ leBytes 1 flags ++ beBytes 2 ((len + 31) / 32) ++ beBytes 4 len ++ beBytes 4 session
    ++ beBytes 8 counter ++ beBytes 4 applyReel ++ beBytes 4 0
  h ++ beBytes 4 (crc32 h)

/-- Fill to whole grains. -/
def padGrains (bs : List Byte) : List Byte := bs ++ List.replicate ((32 - bs.length % 32) % 32) 0

/-- A record as it goes on the mate lanes (R229, R230): header, encrypted body, tag grain. -/
def wireRecord (key : List Byte) (session unit : Nat) (r : Record) : List Byte :=
  let counter := r.counter + unit * 2 ^ 63
  let h := recordHeader r.kind r.resent.toNat r.body.length session counter r.applyReel
  let nonce := beBytes 4 session ++ beBytes 8 counter
  let c := gcmCrypt key nonce r.body
  h ++ padGrains c ++ gcmTag key nonce h c ++ List.replicate 16 0

/-- AUTH_HELLO as it goes on the mate lanes: in clear, session 0, counter 0, no tag (R230). -/
def wireHello (body : List Byte) : List Byte := recordHeader 0x01 0 body.length 0 0 0 ++ padGrains body

/-- Body of this unit's AUTH_HELLO (R232). -/
def State.helloBody (s : State) : List Byte :=
  leBytes 1 s.unit ++ [0, 0, 0] ++ beBytes 4 (s.reg R.PAIR_ID).toNat ++ beBytes 8 Config.deviceNumber.toNat
    ++ s.pair.nonceOwn ++ beBytes 4 (s.reg R.MSS_FW_VERSION).toNat

/-- Grains of a record on the mate lanes (R229, R230): header, body, and a tag but for AUTH_HELLO. -/
def Outgoing.grains (o : Outgoing) : Nat := 1 + (o.record.body.length + 31) / 32 + (if o.record.kind = 0x01 then 0 else 1)

/-- A record that waits, as it goes on the mate lanes. -/
def Outgoing.wire (unit : Nat) (o : Outgoing) : List Byte :=
  if o.record.kind = 0x01 then wireHello o.record.body else wireRecord o.key o.session unit o.record

/-- AUTH_HELLO goes out in every reel while the session is AUTHENTICATING, between records. -/
def State.sendsHello (s : State) : Bool := s.session == 1 && s.pair.nonceOwn != [] && s.pair.txPos == 0

/-- What this unit sends on its mate lanes in the reel in progress and after it, in sending order (R228). -/
def State.stream (s : State) : List Byte :=
  (if s.sendsHello then wireHello s.helloBody else [])
    ++ (s.pair.txQueue.flatMap fun o => o.wire s.unit).drop (32 * s.pair.txPos)

/-- The records left after `n` grains, and how many grains of the first have gone. -/
def advanceGrains : List Outgoing → Nat → Nat → List Outgoing × Nat
  | [], _, _ => ([], 0)
  | o :: rest, pos, n => if n < o.grains - pos then (o :: rest, pos + n) else advanceGrains rest 0 (n - (o.grains - pos))

/-- A reel of 2,048 grains has been sent on the mate lanes (R228). -/
def State.advanceStream (s : State) : State :=
  let n := if s.sendsHello then 2045 else 2048
  s.updPair fun p => let (q, k) := advanceGrains p.txQueue p.txPos n; { p with txQueue := q, txPos := k }

/-- The stream of the mate in one reel (R228): each grain from M0 where M0's copy is good, otherwise from M1; none where it is lost. -/
def mateStream (m0 m1 : Nat → Option Grain) : List (Option Grain) :=
  (List.range 2048).map fun x => match m0 x with | some g => some g | none => m1 x

end Sys2Proof.Machine
end

