-- ==== Sys2Proof/Machine/Handles.lean ====
section
/-!
DEFINITION. Handles (spec 11 R327 to R345, R347, R348; 12 R354 to R358; 08 R234, R243): when a command may start, how it ends,
and how its object moves.
-/
namespace Sys2Proof.Machine
open Sys2Proof

-- Opcodes of R356 -----------------------------------------------------------------------------------------------

def Op.NOP : Nat := 0x0001
def Op.LANE_TRACE : Nat := 0x0101
def Op.LANE_CMC : Nat := 0x0102
def Op.CIRC_SET : Nat := 0x0201
def Op.MERGE_REANCHOR : Nat := 0x0202
def Op.TAKE_COMPILE : Nat := 0x0301
def Op.TAKE_INCREMENT : Nat := 0x0302
def Op.TAKE_DISCARD : Nat := 0x0303
def Op.TAKE_SPLICE : Nat := 0x0304
def Op.SPLICE_CANCEL : Nat := 0x0305
def Op.REPORT_TAKE : Nat := 0x0401
def Op.DAILIES : Nat := 0x0402
def Op.REF_FORCE : Nat := 0x0501
def Op.REF_SEED : Nat := 0x0502
def Op.PAIR_JOIN : Nat := 0x0601
def Op.PAIR_HANDOVER : Nat := 0x0602
def Op.PAIR_SOLO : Nat := 0x0603
def Op.FENCE : Nat := 0x0604
def Op.CMC_SEND : Nat := 0x0701
def Op.LOG_READ : Nat := 0x0801
def Op.FW_STAGE : Nat := 0x0901
def Op.FW_ACTIVATE : Nat := 0x0902
def Op.FACET_RETIRE : Nat := 0x0A01
def Op.FACET_REINSTATE : Nat := 0x0A02
def Op.EYE_HISTOGRAM : Nat := 0x0B01

/-- All opcodes. -/
def Op.all : List Nat :=
  [0x0001, 0x0101, 0x0102, 0x0201, 0x0202, 0x0301, 0x0302, 0x0303, 0x0304, 0x0305, 0x0401, 0x0402, 0x0501, 0x0502,
    0x0601, 0x0602, 0x0603, 0x0604, 0x0701, 0x0801, 0x0901, 0x0902, 0x0A01, 0x0A02, 0x0B01]

/-- Commands of pair scope. -/
def Op.isPair (o : Nat) : Bool := o == 0x0201 || (decide (0x0301 ≤ o) && decide (o ≤ 0x0305))

/-- Commands marked "at once": they always receive a single completion. -/
def Op.atOnce (o : Nat) : Bool := o == 0x0001 || o == 0x0501 || o == 0x0502 || o == 0x0A02

/-- Compiles. -/
def Op.isCompile (o : Nat) : Bool := o == 0x0301 || o == 0x0302

/-- Splice commands, whose failure outcome is NOT_SPLICED (R341, R347). -/
def Op.isSplice (o : Nat) : Bool := o == 0x0304

/-- Commands whose object moves to the IZ7128, and those whose object moves to the host. -/
def Op.toDevice (o : Nat) : Bool := o == 0x0101 || o == 0x0301 || o == 0x0302 || o == 0x0502 || o == 0x0701 || o == 0x0901
def Op.toHost (o : Nat) : Bool := o == 0x0401 || o == 0x0402 || o == 0x0801 || o == 0x0B01

/-- Commands that name a take (R342). -/
def Op.namesTake (o : Nat) : Bool := o == 0x0303 || o == 0x0304 || o == 0x0305 || o == 0x0401

-- Outcomes and status codes (R332, R334, R358) --------------------------------------------------------------------

def Out.OK : Nat := 1
def Out.FAILED : Nat := 2
def Out.SPLICED : Nat := 3
def Out.NOT_SPLICED : Nat := 4
def Out.ABANDONED : Nat := 5

def St.BAD_OPCODE : Nat := 0x0001
def St.BAD_DESCRIPTOR : Nat := 0x0002
def St.BAD_OFFSET : Nat := 0x0003
def St.NOT_LEAD : Nat := 0x0004
def St.PAIR_ISOLATED : Nat := 0x0005
def St.PREDECESSOR_FAILED : Nat := 0x0006
def St.MGMT_RESTART : Nat := 0x0007
def St.CPL_TIMEOUT : Nat := 0x0010
def St.SG_BOUND : Nat := 0x0014
def St.LINK_RESET : Nat := 0x0015
def St.SOURCE_ERROR : Nat := 0x0016
def St.NO_SUCH_CIRCUIT : Nat := 0x0109
def St.BAD_PARAMS : Nat := 0x0200
def St.BAD_LANE : Nat := 0x0201
def St.BUF_TOO_SMALL : Nat := 0x0202
def St.TAKE_STATE : Nat := 0x0203
def St.BAD_CIRCUIT_SECTION : Nat := 0x0204
def St.ID_PRESENT : Nat := 0x0205
def St.ID_BUSY : Nat := 0x0206
def St.PREPARE_FAILED : Nat := 0x0207
def St.NO_ACK : Nat := 0x0208
def St.LEAD_LOST : Nat := 0x0209
def St.CANCELLED : Nat := 0x020A
def St.FENCED_AT_SPLICE : Nat := 0x020B
def St.HANDOVER_IN_PROGRESS : Nat := 0x020C
def St.NO_MERGE_PAIR : Nat := 0x020D
def St.NO_RECORD : Nat := 0x020E
def St.FORCE_IGNORED : Nat := 0x020F
def St.RECORD_INVALID : Nat := 0x0210
def St.NOT_COMPILED : Nat := 0x0220
def St.TOO_LATE : Nat := 0x0223
def St.NOT_ARMED : Nat := 0x0224
def St.FENCE_CAUSE : Nat := 0x0240
def St.NO_PAIR_KEY : Nat := 0x0241
def St.PAIR_ID_ZERO : Nat := 0x0242
def St.MATE_NOT_SYNCED : Nat := 0x0243
def St.PAIR_ID_MISMATCH : Nat := 0x0244
def St.UNIT_CLASH : Nat := 0x0245
def St.JOIN_REFUSED : Nat := 0x0246
def St.AUTH_FAILED : Nat := 0x0247
def St.MATE_DELAY_LIMIT : Nat := 0x0248
def St.JOIN_TIMEOUT : Nat := 0x0249
def St.JOIN_ABORTED : Nat := 0x024A
def St.NOT_ALIGNED : Nat := 0x024B
def St.ISOLATED : Nat := 0x024C
def St.DIGEST_MISMATCH : Nat := 0x024D
def St.BUSY : Nat := 0x024E
def St.ACK_LATE : Nat := 0x024F
def St.MATE_PRESENT : Nat := 0x0250
def St.BAD_ROLE : Nat := 0x0251
def St.EPOCH_EXHAUSTED : Nat := 0x0252
def St.CMC_NOT_TERMINATED : Nat := 0x0260
def St.CMC_QUEUE_FULL : Nat := 0x0261
def St.LOG_RANGE : Nat := 0x0270
def St.SIGNATURE_BAD : Nat := 0x0280
def St.IMAGE_SIZE : Nat := 0x0281
def St.FLASH_ERROR : Nat := 0x0282
def St.NO_STAGED_IMAGE : Nat := 0x0283
def St.FACET_STATE : Nat := 0x0290
def St.NO_SPARE : Nat := 0x0291
def St.LANE_NOT_ACTIVE : Nat := 0x02A0

-- The handle table ----------------------------------------------------------------------------------------------

/-- Ring of a handle (R329). -/
def ringOf (h : Nat) : Nat := h / 2 ^ 28

/-- The entry of an open or fetched handle. -/
def State.handle? (s : State) (h : Nat) : Option Handle := s.hif.handles.find? fun x => x.handle == h

/-- Change one entry. -/
def State.updHandle (s : State) (h : Nat) (f : Handle → Handle) : State :=
  s.updHif fun x => { x with handles := x.handles.map fun e => if e.handle = h then f e else e }

/-- Whether a handle is open: from its first to its final completion (R327). -/
def Handle.isOpen (e : Handle) : Bool := e.firstWritten && e.state != .closed

/-- Open handles, orphans kept for the event ring included (R319, R327). -/
def State.openCount (s : State) : Nat := (s.hif.handles.filter Handle.isOpen).length + s.hif.orphans.length

/-- Show the counts of open handles (R353). -/
def State.showOpen (s : State) : State :=
  let s := s.setFld F.HIF_STATE_OPEN s.openCount
  (List.range 16).foldl (fun s n =>
    s.setFld (F.HIF_CR_STAT_OPEN n) (s.hif.handles.filter fun e => e.isOpen && ringOf e.handle == n).length) s

/-- Whether handles of a ring answer through the I3C mailbox (R345). -/
def State.isMailbox (s : State) (n : Nat) : Bool := n == 15 && s.flag F.HIF_STATE_MAILBOX_15

/-- Place the oldest waiting mailbox completion in I3CT_MBX_CPL once the one before it has been read (R477). Its PHASE is
0 (assumption 36). -/
def State.mbxPlace (s : State) : State :=
  match s.hif.mbxOut, s.i3c.cplUnread with
  | c :: rest, false =>
    let b := completionBytes c 0
    let s := (List.range 4).foldl (fun s k => s.setReg (R.I3CT_MBX_CPL k) (BitVec.ofNat 32 (leAt b (4 * k) 4))) s
    let s := s.updHif fun h => { h with mbxOut := rest }
    let s := { s with i3c := { s.i3c with cplUnread := true } }
    ((s.setFlag F.I3CT_MBX_STAT_CPL_WAITING (!rest.isEmpty)).alert F.GCTL_ALERT_STAT_MAILBOX).raiseIbi 0x01
  | l, u => s.setFlag F.I3CT_MBX_STAT_CPL_WAITING (u && !l.isEmpty)

/-- Hand a completion to the mailbox. -/
def State.mbxSend (s : State) (c : Completion) : State := (s.updHif fun h => { h with mbxOut := h.mbxOut ++ [c] }).mbxPlace

/-- Send a completion to the ring of its handle, or to the mailbox (R330, R345). -/
def State.sendCompletion (s : State) (c : Completion) : State :=
  let n := ringOf c.handle
  if s.isMailbox n then s.mbxSend c
  else s.putCompletion (s.fld (F.HIF_CR_CTL_CQ n)) c

/-- DATA of HANDLE_ORPHAN_DONE and HANDLE_INHERITED (R352). -/
def orphanData (c : Completion) : List Byte :=
  leBytes 4 c.handle ++ leBytes 1 c.outcome ++ [0] ++ leBytes 2 c.status ++ leBytes 8 c.result

/-- A final completion of a handle orphaned by a link reset (R319): an event once the event ring is enabled, kept until
then, up to 1,024. -/
def State.orphanDone (s : State) (c : Completion) : State :=
  if s.flag F.HIF_EV_CTL_EN then s.logEvent Ev.HANDLE_ORPHAN_DONE (ringOf c.handle) (orphanData c)
  else if s.hif.orphans.length < 1024 then s.updHif fun h => { h with orphans := h.orphans ++ [c] }
  else s

/-- The first completion of a fetched command that has not finished (R333). -/
def accepted (h : Nat) : Completion :=
  { handle := h, status := 0, outcome := 0, first := true, final := false }

/-- HANDLE record of the lead (R243), in a join from the snapshot on (R245): 1 WAITING, 2 RUNNING, 3 ORDERED, 4 PREPARED, 5 APPLIED,
6 CLOSED (log entry 31). -/
def State.sendHandle (s : State) (e : Handle) (st status reel : Nat) : State :=
  let take := if Op.namesTake e.opcode || Op.isCompile e.opcode then leAt e.params 0 4 else 0
  if s.role = 3 ∨ (s.pair.joinLead ∧ 3 ≤ s.pair.joinStep) then
    s.sendRecord 0x60 0 (beBytes 4 e.handle ++ beBytes 2 e.opcode ++ beBytes 1 st ++ beBytes 1 status ++ beBytes 4 take
      ++ beBytes 4 reel)
  else s

/-- Write the first completions of a ring that are due, in fetch order (R333): one that has finished already gets FIRST and
FINAL together, one that is at once and has not run yet holds the rest. Fuel: the number of handles. -/
def State.flushFirst : Nat → State → Nat → State
  | 0, s, _ => s
  | fuel + 1, s, n =>
    match s.hif.handles.find? fun e => ringOf e.handle == n && !e.firstWritten with
    | none => s
    | some e =>
      match e.result with
      | some c =>
        let s := s.updHif fun h => { h with handles := h.handles.filter fun x => x.handle != e.handle }
        State.flushFirst fuel (s.sendCompletion { c with first := true, final := true }) n
      | none =>
        if Op.atOnce e.opcode then s
        else
          let s := (s.updHandle e.handle fun x => { x with firstWritten := true }).sendHandle e 1 0 0
          State.flushFirst fuel (s.sendCompletion (accepted e.handle)) n

/-- Write the due first completions of a ring. -/
def State.flushRing (s : State) (n : Nat) : State := State.flushFirst (s.hif.handles.length + 1) s n

/-- End one command with a completion: written now, or with its first completion in its turn; an orphan's goes to the event
ring. Handles that waited for it see its outcome. -/
def State.endOne (s : State) (c : Completion) : State :=
  match s.handle? c.handle with
  | none => s
  | some e =>
    let n := ringOf c.handle
    let success := decide (c.outcome = Out.OK ∨ c.outcome = Out.SPLICED)
    let s := s.sendHandle e 6 (c.status % 256) 0
    let s := s.updHif fun h => { h with
      crLast := match Tbl.find? h.crLast n with
        | some (l, none) => if l = c.handle then Tbl.insert h.crLast n (l, some success) else h.crLast
        | _ => h.crLast
      handles := h.handles.map fun x => { x with
        pred := if success ∧ x.pred = c.handle then 0 else x.pred
        after := if success ∧ x.after = c.handle then 0 else x.after } }
    if e.orphan then
      (s.updHif fun h => { h with handles := h.handles.filter fun x => x.handle != c.handle }).orphanDone
        { c with first := false, final := true }
    else if e.firstWritten then
      (s.updHif fun h => { h with handles := h.handles.filter fun x => x.handle != c.handle }).sendCompletion
        { c with first := false, final := true }
    else s.updHandle c.handle fun x => { x with state := .closed, result := some c }

/-- End a command and, where it failed, the commands that depend on it (R341, R342). Fuel: the number of handles. -/
def State.endCascade : Nat → State → Completion → State
  | 0, s, c => s.endOne c
  | fuel + 1, s, c =>
    let s := s.endOne c
    if c.outcome = Out.OK ∨ c.outcome = Out.SPLICED then s
    else
      (s.hif.handles.filter fun x => x.state == .waiting && (x.pred == c.handle || x.after == c.handle)).foldl
        (fun s x => State.endCascade fuel s
          { handle := x.handle, status := St.PREDECESSOR_FAILED
            outcome := if Op.isSplice x.opcode then Out.NOT_SPLICED else Out.FAILED, first := false, final := true }) s

/-- End a command (R333, R335). Handle 0 is none. -/
def State.complete (s : State) (c : Completion) : State :=
  if c.handle = 0 ∨ (s.handle? c.handle).isNone then s
  else ((State.endCascade s.hif.handles.length s c).flushRing (ringOf c.handle)).showOpen

/-- End a command with an outcome, a status and a RESULT. -/
def State.finish (s : State) (h outcome status result : Nat) : State :=
  s.complete { handle := h, status := status, outcome := outcome, first := false, final := true, result := result }

/-- End a command as failed: NOT_SPLICED for a splice command. -/
def State.fail (s : State) (h status result : Nat) : State :=
  let out := match s.handle? h with
    | some e => if Op.isSplice e.opcode then Out.NOT_SPLICED else Out.FAILED
    | none => Out.FAILED
  s.finish h out status result

/-- End a command with a DMA fault (R347): FAULT set and the offset reached in RESULT. -/
def State.faultEnd (s : State) (h fault offset : Nat) : State :=
  let out := match s.handle? h with
    | some e => if Op.isSplice e.opcode then Out.NOT_SPLICED else Out.FAILED
    | none => Out.FAILED
  s.complete { handle := h, status := fault, outcome := out, first := false, final := true, fault := true, result := offset }

/-- A command's outcome at the lead that waits for the mate's ACK of the record last sent (R234); without a session UP
or STALLED it completes at once. -/
def State.finishAcked (s : State) (h outcome status result : Nat) : State :=
  if s.role = 3 ∧ 2 ≤ s.session then
    s.updHandle h fun e => { e with
      ack := s.pair.txNext - 1
      held := some { handle := h, status := status, outcome := outcome, first := false, final := true, result := result } }
  else s.finish h outcome status result

/-- Deliver the completions whose record the mate has acknowledged, or all of them when the session closes (R234). -/
def State.releaseHeld (s : State) (upTo : Option Nat) : State :=
  (s.hif.handles.filter fun e => e.held.isSome && (match upTo with | some k => decide (e.ack ≤ k) | none => true)).foldl
    (fun s e => match e.held with | some c => s.complete c | none => s) s

-- Starting ------------------------------------------------------------------------------------------------------

/-- A parameter field (R354). -/
def Handle.param (e : Handle) (off k : Nat) : Nat := leAt e.params off k

/-- What a command needs that a running command may hold (R357): class and lane. -/
def Handle.resources (e : Handle) (cmcLanes : List Nat) : List (Nat × Nat) :=
  if e.opcode = Op.LANE_TRACE then [(1, e.param 0 1)]
  else if e.opcode = Op.LANE_CMC then [(2, e.param 0 1)]
  else if e.opcode = Op.CMC_SEND then cmcLanes.map fun l => (2, l)
  else if e.opcode = Op.DAILIES then [(3, 0)]
  else if e.opcode = Op.FW_STAGE then [(4, 0)]
  else if e.opcode = Op.FW_ACTIVATE then [(4, 0), (5, 0)]
  else if e.opcode = Op.PAIR_JOIN ∨ e.opcode = Op.PAIR_HANDOVER ∨ e.opcode = Op.PAIR_SOLO then [(5, 0)]
  else []

/-- Whether a resource is held by a running command. -/
def State.resourceBusy (s : State) (e : Handle) (cmcLanes : List Nat) : Bool :=
  let mine := e.resources cmcLanes
  s.hif.handles.any fun x => x.state == .running && (x.resources []).any mine.contains

/-- Whether FW_ACTIVATE may start (R379): nothing open that it must not interrupt. -/
def State.activateClear (s : State) : Bool :=
  !s.hif.handles.any fun x => x.state != .closed && (x.opcode == Op.PAIR_JOIN || x.opcode == Op.PAIR_HANDOVER
    || x.opcode == Op.TAKE_SPLICE || (x.opcode == Op.FW_STAGE && x.state == .running))

/-- Whether a fetched command may start now (R339 to R342, R357, R25, R245): it waits, every earlier command of its ring has
started, FENCE (always met in the mailbox, R474) and DEPENDS let it, its named take is compiled, its resources are free, firmware runs, and no join at the
lead holds a take order. -/
def State.startable (s : State) (e : Handle) (cmcLanes : List Nat) : Bool :=
  let earlier := (s.hif.handles.takeWhile fun x => x.handle != e.handle).filter fun x => ringOf x.handle == ringOf e.handle
  (e.state == .waiting || (e.state == .running && e.ready)) && s.fwRuns
    && earlier.all (fun x => x.state != .waiting)
    && (!e.fence || s.isMailbox (ringOf e.handle) || earlier.all fun x => x.state == .closed)
    && e.pred == 0 && e.after == 0
    && (e.ready || !s.resourceBusy e cmcLanes)
    && !(e.opcode == Op.FW_ACTIVATE && !s.activateClear)
    && !(e.opcode == Op.TAKE_SPLICE && s.pair.joinLead && s.pair.joinStep != 0)

/-- Whether a command is a cancel at the follower of a splice whose order it has acknowledged (R240). -/
def State.cancelsBound (s : State) (e : Handle) : Bool :=
  e.opcode == Op.SPLICE_CANCEL && s.role == 2 && s.fld F.SSW_SPLICE_STATE_STATE == 1
    && s.pair.ackOrder == some (e.param 0 4, (s.reg R.SSW_SPLICE_AT).toNat)

/-- Refusal of a pair-scoped command by role, isolation or handover (R234, R225, R247); 0 for none. A follower's cancel of a splice it is
bound to is too late (R240). -/
def State.pairRefusal (s : State) (e : Handle) : Nat :=
  let o := e.opcode
  if !Op.isPair o then 0
  else if s.cancelsBound e then St.TOO_LATE
  else if s.role ≠ 3 ∧ s.role ≠ 4 then St.NOT_LEAD
  else if s.flag F.PAIR_STATE_ISOLATED then St.PAIR_ISOLATED
  else if s.flag F.PAIR_STATE_HANDOVER && o != Op.CIRC_SET then St.HANDOVER_IN_PROGRESS
  else 0

/-- Start a command of opcode `o` under handle `h` and run it; where it cannot start nothing changes. A pair-scoped command
that is refused ends at once. -/
def State.run (s : State) (o h : Nat) (body : Handle → State → State) (cmcLanes : List Nat := []) : State :=
  match s.handle? h with
  | none => s
  | some e =>
    if e.opcode ≠ o ∨ !s.startable e cmcLanes then s
    else
      let s := s.updHandle h fun x => { x with state := .running }
      let s := s.when (e.state == .waiting) fun s => s.sendHandle e 2 0 0
      let r := s.pairRefusal e
      if r ≠ 0 then s.fail h r 0 else body e s

-- Objects -------------------------------------------------------------------------------------------------------

/-- Show the mailbox unit at the bytes moved so far (R475): STATE UNIT_REQ or UNIT_READY, its index and length, the buffer
filled with a unit for the controller, and the in-band interrupt MBX_UNIT. -/
def State.mbxUnit (s : State) : State :=
  let x := s.i3c
  let len := min 4096 (x.mbxTotal - x.mbxPos)
  let s := ((s.setFld F.I3CT_MBX_UNIT_INDEX (x.mbxPos / 4096)).setFld F.I3CT_MBX_UNIT_LEN len).setFld F.I3CT_MBX_STAT_STATE
    (if x.mbxOut then 3 else 2)
  let s := if x.mbxOut then
      (List.range ((len + 3) / 4)).foldl (fun s k =>
        s.setReg (R.I3CT_BUF k) (BitVec.ofNat 32 (leAt x.mbxData (x.mbxPos + 4 * k) 4))) s
    else s
  s.raiseIbi 0x02

/-- Start moving the object of a mailbox command in units (R475): `data` goes to the controller, or `total` bytes are asked of
it. The command goes on once the last unit is done. -/
def State.mbxStart (s : State) (h : Nat) (out : Bool) (total : Nat) (data : List Byte) : State :=
  { s with i3c := { s.i3c with
    mbxHandle := h, mbxOut := out, mbxTotal := total, mbxPos := 0, mbxData := data } }.mbxUnit

/-- What the host's buffer of a command holds: `obj`, or what the mailbox has received (R475). -/
def State.hostObject (s : State) (h : Nat) (obj : List Byte) : List Byte := if s.isMailbox (ringOf h) then s.i3c.mbxData else obj

/-- A host DMA transfer ends (R411). -/
def State.dmaDone (s : State) (h : Nat) : State := if s.isMailbox (ringOf h) then s else s.icEdge 43

/-- Whether a scatter entry is well formed (R328, R347). -/
def sgOk (x : Nat × Nat) : Bool := x.1 % 4 == 0 && x.2 != 0 && x.2 % 4 == 0

/-- Length the buffer of a command describes. -/
def Handle.bufferLen (e : Handle) (sg : List (Nat × Nat)) : Nat :=
  if e.list then (sg.map (·.2)).foldl (· + ·) 0 else e.bufLen

/-- Bytes of the buffer before the first malformed scatter entry. -/
def Handle.goodLen (e : Handle) (sg : List (Nat × Nat)) : Nat :=
  if e.list then ((sg.takeWhile sgOk).map (·.2)).foldl (· + ·) 0 else e.bufLen

/-- The staged prefix that a reissue continues (R348). -/
def State.stagedFor (s : State) (e : Handle) : Option Staged :=
  s.hif.staged.find? fun x => x.opcode == e.opcode && x.params == e.params && x.data.length == e.bufOffset

/-- Receive the object of a command (R347, R348, R355): `size` is the object's, `obj` what the host's buffer holds. The
transfer continues a staged prefix at BUF_OFFSET, and ends with BUF_TOO_SMALL or SG_BOUND as the buffer makes it. A mailbox
command first asks the controller for its units (R475). -/
def State.receive (s : State) (e : Handle) (size : Nat) (sg : List (Nat × Nat)) (obj : List Byte)
    (body : List Byte → State → State) : State :=
  let mbx := s.isMailbox (ringOf e.handle)
  let need := size - e.bufOffset
  let prefix_ := if e.bufOffset = 0 then some [] else (s.stagedFor e).map (·.data)
  match prefix_ with
  | none => s.fail e.handle St.BAD_OFFSET 0
  | some p =>
    if mbx && !e.ready && decide (0 < e.bufLen) && (decide (need ≤ e.bufLen) || e.opcode == Op.CMC_SEND) then
      s.mbxStart e.handle false (if e.opcode = Op.CMC_SEND then e.bufLen else need) []
    else if e.goodLen sg < min need (e.bufferLen sg) then
      let units := (e.bufOffset + e.goodLen sg) / 4096 * 4096
      let s := (s.dmaDone e.handle).updHif fun h => { h with
        staged := { opcode := e.opcode, params := e.params
                    data := (p ++ bytesAt obj 0 (e.goodLen sg)).take units }
          :: h.staged.filter fun x => !(x.opcode == e.opcode) }
      (s.incFld F.HIF_DMA_FAULTS_SG_BOUND).faultEnd e.handle St.SG_BOUND units
    else if e.bufferLen sg < need then s.fail e.handle St.BUF_TOO_SMALL size
    else
      let s := (s.dmaDone e.handle).updHif fun h => { h with staged := h.staged.filter fun x => !(x.opcode == e.opcode) }
      body (p ++ bytesAt (s.hostObject e.handle obj) 0 need) s

/-- Write bytes over the entries of a scatter list. -/
def State.scatter (s : State) : List (Nat × Nat) → List Byte → State
  | [], _ => s
  | (a, n) :: rest, bs => State.scatter (s.hostWrite a (bs.take n)) rest (bs.drop n)

/-- Write the object, from BUF_OFFSET, into the buffer of a command (R347, R348, R355), then go on. A mailbox command first
offers its units to the controller (R475). -/
def State.deliver (s : State) (e : Handle) (sg : List (Nat × Nat)) (obj : List Byte) (body : State → State) : State :=
  let need := obj.length - e.bufOffset
  let mbx := s.isMailbox (ringOf e.handle)
  if mbx && e.ready then body s
  else if e.bufOffset ≠ 0 ∧ (e.bufOffset % 4096 ≠ 0 ∨ obj.length ≤ e.bufOffset) then s.fail e.handle St.BAD_OFFSET 0
  else if e.bufferLen sg < need ∧ e.goodLen sg = e.bufferLen sg then s.fail e.handle St.BUF_TOO_SMALL obj.length
  else
    let out := obj.drop e.bufOffset
    if mbx && !out.isEmpty then s.mbxStart e.handle true need out
    else
      let list := if e.list then sg.takeWhile sgOk else [(e.bufAddr, e.bufLen)]
      let s := (State.scatter s list (out.take (e.goodLen sg))).dmaDone e.handle
      if e.goodLen sg < need then
        (s.incFld F.HIF_DMA_FAULTS_SG_BOUND).faultEnd e.handle St.SG_BOUND (e.bufOffset + e.goodLen sg)
      else body s

end Sys2Proof.Machine
end

