-- ==== Sys2Proof/Machine/Keys.lean ====
section
/-!
DEFINITION. The key registers of the blocks that have WK fields (spec 00 R10).
-/
namespace Sys2Proof.Machine
open Sys2Proof

/-- Unlock value of a block's key (R37, R171, R253, R410). -/
def keyUnlock : KeyBlock → Nat
  | .gctl => 0x5AFE0128 | .ssw => 0xFACE0128 | .pair => 0x9A1E0128 | .mss => 0x6E550128

/-- Whether the key of a block is open. -/
def State.keyOpen (s : State) : KeyBlock → Bool
  | .gctl => s.gctl.keyGctl | .ssw => s.gctl.keySsw | .pair => s.gctl.keyPair | .mss => s.gctl.keyMss

/-- Open or close the key of a block. -/
def State.setKey (s : State) (b : KeyBlock) (v : Bool) : State :=
  s.updGctl fun g => match b with
    | .gctl => { g with keyGctl := v } | .ssw => { g with keySsw := v }
    | .pair => { g with keyPair := v } | .mss => { g with keyMss := v }

/-- KEY_WRITE (R10): the unlock value opens the key, any other value closes it. -/
def State.writeKey (s : State) (b : KeyBlock) (v : Word) : State := s.setKey b (decide (v.toNat = keyUnlock b))

def execKeyWrite (b : KeyBlock) (v : Word) (s : State) : Host.Outcome State Fault Refusal := .next (s.writeKey b v)

/-- KEY_TIMEOUT (R10): the key closes 1 ms after it was opened. -/
def execKeyTimeout (b : KeyBlock) (s : State) : Host.Outcome State Fault Refusal := .next (s.setKey b false)

/-- A WK write (R10): with the key open it acts and the key closes after it; with the key closed its WK fields are
discarded, and KEY_REFUSED is logged where `matters` says that a discarded field was written with another value than it
reads, or with a 1 that it acts on. -/
def State.wkWrite (s : State) (b : KeyBlock) (matters : Bool) (act : State → State) : State :=
  if s.keyOpen b then act (s.setKey b false)
  else if matters then s.logEvent Ev.KEY_REFUSED noSource [] else s

end Sys2Proof.Machine
end

