-- ==== Sys2Proof/Machine/Splice.lean ====
section
/-!
DEFINITION. Arming and cancelling a splice (spec 06 R178, R179) and the lane pairs of an ordered take (07 R201, R203).
-/
namespace Sys2Proof.Machine
open Sys2Proof

/-- Lane pairs of a set's merge table (R193, R198); the primary of a pair is the one of its lowest merge entry. -/
def lanePairsOf (p : PageSet) : List LanePair :=
  p.mergeList.foldl (fun acc (i, e) =>
    let n := i / 2048
    let lo := min n e.partner
    if acc.any (fun x => x.lo == lo) then acc
    else acc ++ [{ lo := lo, hi := max n e.partner, pri := if e.secondary then e.partner else n }]) []

/-- Whether a lane feeds a connection of the active take. -/
def State.feeds (s : State) (n : Nat) : Bool := s.active.conns.any fun x => x.2.lane == n

/-- Anchor of a lane pair new at a splice (R201). It has no measured skew yet, so it is not in SKEW_LIMIT (R200). -/
def State.firstAnchor (s : State) (p : LanePair) : Option Nat :=
  match s.offset? p.lo, s.offset? p.hi with
  | some a, some b =>
    if 4 < (offDiff a b).natAbs then (if p.pri = p.lo then some a else some b)
    else if s.feeds p.lo && !s.feeds p.hi then some a
    else if s.feeds p.hi && !s.feeds p.lo then some b
    else some (if offDiff a b ≤ 0 then a else b)
  | some a, none => some a
  | none, some b => some b
  | none, none => none

/-- Lane pairs of the ordered take that the active take lacks take buffers from those free and begin to fill (R203). -/
def State.armPairs (s : State) : State :=
  let fresh := (lanePairsOf s.standby).filter fun p => !s.circ.pairs.any fun x => x.lo == p.lo && x.hi == p.hi
  let s := s.updCirc fun c => { c with newPairs := [] }
  (fresh.foldl (fun s p =>
    let p := s.grant { p with anchor := s.firstAnchor p }
    s.updCirc fun c => { c with newPairs := c.newPairs ++ [p] }) s).showPool

/-- Buffers of an order that ends without a splice are free again, and its lanes fill none. -/
def State.dropPairs (s : State) : State :=
  let s := s.circ.newPairs.foldl (fun s p => [p.lo, p.hi].foldl (fun s n =>
    if (s.pairOf n).isSome then s else s.setFlag (F.CIRC_MERGE_FILLING n) false) s) s
  (s.updCirc fun c => { c with newPairs := [] }).showPool

/-- Result of the last arm or cancel write. -/
def State.spliceResult (s : State) (v : Nat) : State := s.setFld F.SSW_SPLICE_STATE_RESULT v

/-- Reels from the core reel in progress to the splice reel. -/
def State.spliceLead (s : State) : Nat := seqDiff (s.reg R.SSW_SPLICE_AT).toNat (s.reg R.SSW_REEL_NOW).toNat

/-- Whether a splice is armed. -/
def State.armed (s : State) : Bool := s.fld F.SSW_SPLICE_STATE_STATE == 1

/-- Arm a splice at SSW_SPLICE_AT (R178); RESULT gives the reason of a refusal. The lead is a difference modulo 2^32, so a reel that has passed
is too far ahead. -/
def State.armSplice (s : State) : State :=
  if s.sby ≠ 3 then s.spliceResult 0x20
  else if s.spliceLead < 64 then s.spliceResult 0x21
  else if 390625 < s.spliceLead then s.spliceResult 0x22
  else (((s.setSby 4).setFld F.SSW_SPLICE_STATE_STATE 1).spliceResult 0).armPairs

/-- Whether a splice may still be cancelled (R179). -/
def State.cancellable (s : State) : Bool := s.armed && decide (8 ≤ s.spliceLead ∧ s.spliceLead < 2 ^ 31)

/-- Whether the armed splice is of an order that the follower has acknowledged (R240). In role SOLO R179 alone governs. -/
def State.orderBound (s : State) : Bool :=
  s.role != 4 &&
    ((match s.pair.order with | some o => o.acked && s.fld F.PAIR_ORDER_STAT_RESULT == 1 | none => false)
      || s.pair.ackOrder == some (s.standby.take, (s.reg R.SSW_SPLICE_AT).toNat))

/-- Cancel an armed splice (R179, R181); one that both units are bound to is not cancelled (R240). -/
def State.cancelSplice (s : State) : State :=
  if !s.armed then s.spliceResult 0x24
  else if !s.cancellable || s.orderBound then s.spliceResult 0x23
  else
    let h := s.ssw.spliceHandle
    let s := (((s.setSby 3).setFld F.SSW_SPLICE_STATE_STATE 0).spliceResult 0).dropPairs
    (s.updSsw fun x => { x with spliceHandle := 0 }).finish h Out.NOT_SPLICED St.CANCELLED 0

/-- A write of SSW_SPLICE_CTL under the SSW key (R178, R179, R189): both bits set act as CANCEL alone. -/
def State.writeSpliceCtl (s : State) (v : Word) : State :=
  s.wkWrite .ssw (v.getLsbD 0 || v.getLsbD 1) fun s =>
    if v.getLsbD 1 then s.cancelSplice else if v.getLsbD 0 then s.armSplice else s

/-- A write of SSW_SPLICE_AT; one while ARMED is discarded (R189). -/
def State.writeSpliceAt (s : State) (v : Word) : State :=
  s.wkWrite .ssw (v != s.reg R.SSW_SPLICE_AT) fun s => if s.armed then s else s.setReg R.SSW_SPLICE_AT v

/-- SPLICE_ARM (R178): the write of ARM = 1. -/
def execSpliceArm (s : State) : Host.Outcome State Fault Refusal := .next (s.writeSpliceCtl 1#32)

/-- SPLICE_CTL_CANCEL (R179): the write of CANCEL = 1. -/
def execSpliceCtlCancel (s : State) : Host.Outcome State Fault Refusal := .next (s.writeSpliceCtl 2#32)

/-- Firmware arms a splice at reel `r` (R166, R238, R245, R366). -/
def State.armAt (s : State) (r : Nat) : State := (s.setFld F.SSW_SPLICE_AT_REEL r).armSplice

end Sys2Proof.Machine
end

