-- ==== Sys2Proof/Machine/Colourist.lean ====
section
/-!
DEFINITION. Colourist jobs, facet retirement and resync (spec 05 R141 to R145, R153 to R155, R157, R162 to R169, R502, R503;
08 R237).
-/
namespace Sys2Proof.Machine
open Sys2Proof

-- Standby -------------------------------------------------------------------------------------------------------

/-- The standby becomes STALE or INVALID and its resync begins (R154). A binding written into the take that leaves the standby waits for
a repair pass (R167). -/
def State.startResync (s : State) (st : Nat) : State :=
  ((s.setSby st).setFlag F.SSW_COL_STATE_RESYNC true).updSsw fun x => { x with
    retires := x.retires.map fun y => { y with written := false }, repairWaiting := x.repairWaiting || !x.retires.isEmpty }

/-- The resync ends, or gives way to a writer of the whole set (R153, R154). -/
def State.endResync (s : State) : State :=
  (s.setFlag F.SSW_COL_STATE_RESYNC false).updSsw fun x => { x with seamCounted := [] }

/-- The words still dirty (R156). -/
def State.setDirty (s : State) (ws : List (MemKind × Nat)) : State :=
  (s.updSsw fun x => { x with dirty := ws }).setFld F.SSW_SBY_DIRTY_DIRTY ws.length

/-- Continuity writes that met the colourist's in the same word and cycle, while both ports are enabled (R156): discarded and
counted, and their words are dirty until the continuity engine's next pass. -/
def State.collide (s : State) (ws : List (MemKind × Nat)) : State :=
  if s.flag F.SSW_SBY_PORT_COLOURIST_EN && s.flag F.SSW_SBY_PORT_CONTINUITY_EN && !ws.isEmpty then
    (s.incFld F.SSW_SBY_COLLIDE_COUNT ws.length).setDirty (s.ssw.dirty ++ ws).eraseDups
  else s

/-- Whether the standby holds a repair take (R155, R167). -/
def State.repairTake (s : State) : Bool := (s.sby == 3 || s.sby == 4) && s.standby.repair

/-- Whether a host job is running. -/
def State.jobRunning (s : State) : Bool := s.fld F.SSW_COL_STATE_HOST_JOB == 1 || s.fld F.SSW_COL_STATE_HOST_JOB == 2

-- Retirement ----------------------------------------------------------------------------------------------------

/-- Fewer than 256 usable facets fence the unit (R33, R168). -/
def State.judgeFacets (s : State) : State := if s.usableFacets < 256 then s.detect .facetsShort else s

/-- A facet that cannot be replaced becomes unusable (R168): FAILED where it is barred, TESTING otherwise (log entry 32). -/
def State.makeUnusable (s : State) (f : Nat) (toFailed : Bool) : State :=
  (if toFailed then s.failFacet f else s.setFacet f 4 0).judgeFacets

/-- Whether new bindings may go into the standby's host take now (R167). -/
def State.hostTakeWritable (s : State) : Bool :=
  !s.standby.repair && (s.sby == 3 || (s.sby == 4 && decide (8 ≤ s.spliceLead ∧ s.spliceLead < 2 ^ 31)))

/-- Write one retirement's new binding into the standby (R166, R167). -/
def State.writeBinding (s : State) (f : Nat) : State :=
  match s.ssw.retires.find? fun r => r.facet == f with
  | some r =>
    match r.repl with
    | some n =>
      (s.setStandby (s.standby.bind r.colour n)).updSsw fun x => { x with
        retires := x.retires.map fun y => if y.facet = f then { y with written := true } else y }
    | none => s
  | none => s

/-- What follows a new reservation: into the host take in the standby, or a repair pass (R166, R167). -/
def State.placeBinding (s : State) (f : Nat) : State :=
  if s.hostTakeWritable then s.writeBinding f else s.updSsw fun x => { x with repairWaiting := true }

/-- Retire an IN_USE facet (R166, R168): reserve the lowest SPARE facet, or lose the facet where there is none. -/
def State.retire (s : State) (f : Nat) (toFailed : Bool) : State :=
  let colour := s.fld (F.SSW_FACET_COLOUR f)
  match s.lowestSpare with
  | none => s.makeUnusable f toFailed
  | some n =>
    let s := (s.setFacet n 1 colour).setFacet f 3 colour
    let s := s.updSsw fun x => { x with
      retires := x.retires ++ [{ facet := f, colour := colour, repl := some n, toFailed := toFailed, written := false }] }
    s.placeBinding f

/-- The retirement for which a facet is reserved (R503); from its splice on the facet is bound like any other. -/
def State.reservedFor (s : State) (f : Nat) : Option Retire :=
  s.ssw.retires.find? fun r => r.repl == some f && s.active.facetOf r.colour != f

/-- Whether a repair pass runs or its take stands in the standby. -/
def State.repairing (s : State) : Bool := s.repairTake || (s.sby == 2 && s.flag F.SSW_COL_STATE_REPAIR)

/-- The repair take is given up and its armed splice cancelled; a pass for what is left to replace waits (R503). -/
def State.giveUpRepair (s : State) : State :=
  let s := if s.armed then s.cancelSplice else s
  let s := ((s.setStandby { s.standby with facetMap := s.active.facetMap, repair := false }).setSby 1).setFlag
    F.SSW_COL_STATE_REPAIR false
  s.updSsw fun x => { x with
    repairWaiting := !x.retires.isEmpty, repairRunning := false
    retires := x.retires.map fun y => { y with written := false } }

/-- Undo the standby's binding of a replaced reservation: a repair take is given up and made again, a host take is bound
anew (R503). -/
def State.remake (s : State) (f : Nat) : State := if s.repairing then s.giveUpRepair else s.placeBinding f

/-- A reserved facet leaves its reservation (R503): FAILED where barred, TESTING by order. With the splice less than 8 reels
away it is an IN_USE facet like any other. -/
def State.leaveReservation (s : State) (r : Retire) (f : Nat) (toFailed : Bool) : State :=
  if s.armed && r.written && !s.cancellable then s.retire f toFailed
  else
    let s := if toFailed then s.failFacet f else s.setFacet f 4 0
    match s.lowestSpare with
    | none =>
      let s := s.updSsw fun x => { x with retires := x.retires.filter fun y => y.facet != r.facet }
      let s := if s.repairing then s.giveUpRepair
        else if r.written then s.setStandby (s.standby.bind r.colour r.facet) else s
      s.makeUnusable r.facet r.toFailed
    | some n =>
      let s := (s.setFacet n 1 r.colour).updSsw fun x => { x with
        retires := x.retires.map fun y => if y.facet = r.facet then { y with repl := some n, written := false } else y }
      s.remake r.facet

/-- Bar a facet (R164, R503). -/
def State.barFacet (s : State) (f : Nat) : State :=
  match s.reservedFor f with
  | some r => s.leaveReservation r f true
  | none =>
    match s.facetState f with
    | 6 => s
    | 1 =>
      if s.active.take = 0 ∧ s.activeTake = 0 ∧ s.sby = 1 then
        match s.lowestSpare with
        | none => s.makeUnusable f true
        | some n =>
          let colour := s.fld (F.SSW_FACET_COLOUR f)
          let s := (s.setActive (s.active.bind colour n)).setStandby (s.standby.bind colour n)
          (s.setFacet n 1 colour).failFacet f
      else s.retire f true
    | 3 => s.updSsw fun x => { x with
        retires := x.retires.map fun y => if y.facet = f then { y with toFailed := true } else y }
    | _ =>
      let s := s.failFacet f
      if s.facetCount (fun x => x == 0) = 0 then s.judgeFacets else s

/-- A write of SSW_FACET_BAR under the SSW key (R164, R171). -/
def State.writeFacetBar (s : State) (v : Word) : State :=
  let f := v.toNat % 512
  s.wkWrite .ssw (f != s.fld F.SSW_FACET_BAR_FACET) fun s =>
    if 271 < f then s else (s.setFld F.SSW_FACET_BAR_FACET f).barFacet f

def execSswFacetBar (f : BitVec 9) (s : State) : Host.Outcome State Fault Refusal :=
  .next (s.writeFacetBar (f.zeroExtend 32))

/-- Retirements completed by a splice (R169, R380), at the end of its seam reel: the facets become TESTING or FAILED and
the commands that ordered them complete. Fewer than 256 facets may then be usable (R168). -/
def State.endRetires (s : State) : State :=
  let done := s.ssw.retires.filter (·.written)
  let s := s.updSsw fun x => { x with retires := x.retires.filter fun r => !r.written }
  let s := done.foldl (fun s r =>
    let s := if r.toFailed then s.failFacet r.facet else s.setFacet r.facet 4 0
    match s.hif.handles.find? fun e => e.opcode == Op.FACET_RETIRE && e.state == .running && e.ctx == r.facet + 1 with
    | some e => s.finish e.handle Out.OK 0 ((r.repl.getD 0x1FF) + 2 ^ 32 * (s.reg R.SSW_LAST_SPLICE).toNat)
    | none => s) s
  if done.isEmpty then s else s.judgeFacets

-- Windows and tests ---------------------------------------------------------------------------------------------

/-- FACET_ERROR_WINDOW (R165): the 1 s windows of all facets end; those at a limit are due. A reserved facet is never due
(R503). While no firmware runs, a retirement waits for it (R25). -/
def execFacetErrorWindow (s : State) : Host.Outcome State Fault Refusal :=
  let win := s.ssw.errWin
  let s := s.updSsw fun x => { x with errWin := [] }
  let s := (List.range 272).foldl (fun s f =>
    let (c, u) := Tbl.get (fun _ => (0, 0)) win f
    (s.setFld (F.SSW_FACET_ERR_CE_WIN f) (min c 65535)).setFld (F.SSW_FACET_ERR_UE_WIN f) (min u 255)) s
  let ce := s.fld F.SSW_RETIRE_CTL_CE_LIMIT
  let ue := max 1 (s.fld F.SSW_RETIRE_CTL_UE_LIMIT)
  .next (win.foldl (fun s (f, c, u) =>
    if s.facetState f = 1 ∧ (s.reservedFor f).isNone ∧ ((ce ≠ 0 ∧ ce ≤ c) ∨ ue ≤ u) then
      if !s.flag F.SSW_RETIRE_CTL_AUTO then s.logEvent Ev.FACET_RETIRE_DUE f []
      else if s.fwRuns then s.retire f false
      else s.updSsw fun x => { x with due := if x.due.contains f then x.due else x.due ++ [f] }
    else s) s)

/-- Facets that fell due without firmware are retired when it runs again (R25, R165). -/
def State.retireDue (s : State) : State :=
  let due := s.ssw.due
  due.foldl (fun s f => if s.facetState f = 1 ∧ (s.reservedFor f).isNone then s.retire f false else s)
    (s.updSsw fun x => { x with due := [] })

/-- FACET_TEST_PASS (R163, R169, R490): a pass of a SPARE or TESTING facet ends. A failing pass makes it FAILED. -/
def execFacetTestPass (f : Fin 272) (failed : Bool) (s : State) : Host.Outcome State Fault Refusal :=
  let st := s.facetState f.val
  .next (if failed ∧ (st = 2 ∨ st = 4) then
      (s.failFacet f.val).judgeFacets
    else s)

/-- FACET_REINSTATABLE (R169): 24 h of clean testing, as TEST_HOURS has counted them. -/
def execFacetReinstatable (f : Fin 272) (s : State) : Host.Outcome State Fault Refusal :=
  .next (if s.facetState f.val = 4 ∧ s.fld (F.SSW_FACET_TEST_HOURS f.val) = 24 then
      (s.setFacet f.val 5 0).logEvent Ev.FACET_REINSTATABLE f.val []
    else s)

/-- Bind the colours in increasing order to the facets that passed, in both sets (R163). -/
def State.bindColours (s : State) (passed : List Nat) : State :=
  let bound := (List.range 256).zip passed
  let t : Tbl Nat := bound.foldl (fun t (c, f) => Tbl.put (fun _ => 0) t c f) []
  let s := (s.setActive { s.active with facetMap := t }).setStandby { s.standby with facetMap := t }
  let s := bound.foldl (fun s (c, f) => (s.setFld (F.SSW_FACET_STATE f) 1).setFld (F.SSW_FACET_COLOUR f) c) s
  (passed.drop 256).foldl (fun s f => s.setFld (F.SSW_FACET_STATE f) 2) s

/-- STARTUP_FACET_TEST (R163, R490): the start-up test of the UNTESTED facets ends. Those that failed it are FAILED, as are those
barred before it ended (R164). -/
def execStartupFacetTest (failed : List (Fin 272)) (s : State) : Host.Outcome State Fault Refusal :=
  let untested := (List.range 272).filter fun f => s.facetState f == 0
  if untested.isEmpty then .next s
  else
    let bad := ((failed.map (·.val)).filter fun f => untested.contains f).eraseDups
    let s := s.bindColours (untested.filter fun f => !bad.contains f)
    let s := (bad.foldl (fun s f => s.setFld (F.SSW_FACET_STATE f) 6) s).refreshFacets
    let s := bad.foldl (fun s f => s.logEvent Ev.FACET_FAILED f []) s
    let s := untested.foldl (fun s f => s.icEdge (288 + f)) s
    .next s.judgeFacets

-- Jobs ----------------------------------------------------------------------------------------------------------

/-- Show a job's result (R157, R171). -/
def State.showResult (s : State) (r : JobResult) : State :=
  ((s.setFld F.SSW_COL_RESULT_CODE r.code).setFld F.SSW_COL_RESULT_BEAT r.beat).setFld F.SSW_COL_DETAIL_DETAIL r.detail

/-- RESULT of a failed compile (R364). -/
def JobResult.failResult (r : JobResult) : Nat := r.detail % 2 ^ 32 + r.beat * 2 ^ 32

/-- End a compile command with a code of R157. -/
def State.failJob (s : State) (h : Nat) (r : JobResult) : State :=
  (s.showResult r).finish h Out.FAILED (0x0100 + r.code) r.failResult

/-- The checks made before a job may start (R153, R155, R157, R168). A job that only waits does not make the standby busy. -/
def State.jobRefusal (s : State) (increment : Bool) (take base : Nat) : Option JobResult :=
  if (s.sby = 3 ∨ s.sby = 4) ∧ !s.standby.repair ∨ s.sby = 6 ∨ s.sby = 2 ∧ s.jobRunning then
    some { code := 0x01, detail := s.sby }
  else if !s.flag F.SSW_SBY_PORT_COLOURIST_EN then some { code := 0x02 }
  else if s.usableFacets < 256 then some { code := 0x03, detail := s.usableFacets }
  else if take = 0 ∨ take = s.activeTake then some { code := 0x04, detail := take }
  else if increment ∧ base ≠ s.activeTake then some { code := 0x05, detail := s.activeTake }
  else none

/-- Whether a host job starts in a standby state (R153): a full take in MIRROR, STALE or INVALID, an increment in MIRROR. -/
def Job.startsIn (j : Job) (sby : Nat) : Bool :=
  match j.kind with | .full => sby == 0 || sby == 1 || sby == 5 | _ => sby == 1

/-- Start what can start (R153), while firmware runs (R25): a waiting repair pass in MIRROR before a host job, else the first host job
that the state lets start. Compiles that then still wait meet COMPILING (another compile) and are refused. -/
def State.startJobs (s : State) : State :=
  if !s.fwRuns then s
  else if s.ssw.repairWaiting ∧ s.sby = 1 ∧ s.ssw.retires.any (fun r => !r.written) then
    let s := ((s.setSby 2).setFlag F.SSW_COL_STATE_REPAIR true).setFld F.SSW_STANDBY_TAKE_TAKE s.activeTake
    s.updSsw fun x => { x with repairWaiting := false, repairRunning := true }
  else if s.jobRunning then s
  else
    let jobs := s.ssw.hostJob.toList ++ s.ssw.moreJobs
    match jobs.find? fun j => j.startsIn s.sby with
    | none => s
    | some j =>
      let s := ((s.setSby 2).endResync).setFld F.SSW_STANDBY_TAKE_TAKE j.take
      let s := s.setFld F.SSW_COL_STATE_HOST_JOB (if j.kind = .full then 1 else 2)
      let s := s.updSsw fun x => { x with hostJob := some j, moreJobs := [] }
      (jobs.filter fun x => x.handle != j.handle).foldl (fun s x => s.failJob x.handle { code := 0x01, detail := 2 }) s

/-- COMPILE_START (R153): a waiting colourist job starts when the standby set allows. -/
def execCompileStart (s : State) : Host.Outcome State Fault Refusal := .next s.startJobs

/-- A compile command whose object has been received (R193, R363): the section is checked, then the job is refused, starts
or waits. -/
def State.requestJob (s : State) (h : Nat) (increment : Bool) (take base : Nat) (records section_ : List Byte) : State :=
  let early := s.jobRefusal increment take base
  let baseSet := if increment then some s.active else none
  match early, checkSection baseSet section_ with
  | some r, _ => if increment ∧ base ≠ s.activeTake then s.failJob h r else
      match checkSection baseSet section_ with
      | .error i => s.fail h St.BAD_CIRCUIT_SECTION i
      | .ok _ => s.failJob h r
  | none, .error i => s.fail h St.BAD_CIRCUIT_SECTION i
  | none, .ok _ =>
    let job : Job := { kind := if increment then .increment else .full, take := take, base := base, records := records
                       section_ := section_, handle := h }
    let s := s.updSsw fun x => if x.hostJob.isNone then { x with hostJob := some job } else { x with moreJobs := x.moreJobs ++ [job] }
    (s.setFld F.SSW_COL_STATE_HOST_JOB 3).startJobs

/-- What a job makes of its records (R138 to R140, R145, R157): its result and the page set compiled. -/
def State.compile (s : State) (j : Job) (time : Nat) : JobResult × PageSet :=
  let inc := j.kind == .increment
  let base := s.active
  match checkSection (if inc then some base else none) j.section_ with
  | .error i => ({ code := 0x06, detail := i }, base)
  | .ok (circuits, pairs) =>
    let rs := parseConns j.records
    let (r, kept, adds) := checkRecords inc base rs circuits pairs ((parseSection j.section_).getD [])
    let edges := if inc then colourIncrement kept adds else colourFull adds
    (r, { take := j.take, parent := if inc then j.base else 0xFFFFFFFF, increment := inc, compileTime := time
          conn := edgesTable edges, facetMap := base.facetMap, circuits := circuits, merges := mergeTable pairs })

/-- TAKE_IMAGE records of an image (R232, R237, R250), in pieces of 65,536 bytes (log entry 33). -/
def State.sendImage (s : State) (take purpose : Nat) (image : List Byte) : State :=
  (List.range ((image.length + 65535) / 65536)).foldl (fun s i =>
    s.sendRecord 0x20 0 (beBytes 4 take ++ beBytes 1 purpose ++ [0, 0, 0] ++ beBytes 4 (65536 * i)
      ++ (image.drop (65536 * i)).take 65536)) s

/-- TAKE_DELTA of an increment (R232, R237): every entry that differs from the base, then the increment's section. -/
def State.sendDelta (s : State) (p : PageSet) (base : PageSet) (section_ : List Byte) : State :=
  let idxs := ((p.conns.map (·.1)) ++ base.conns.map (·.1)).eraseDups.filter fun i => p.connAt i != base.connAt i
  let entries := idxs.flatMap fun i =>
    beBytes 4 i ++ leBytes 6 (match p.connAt i with | some c => imageWord c | none => 0)
  s.sendRecord 0x21 0 (beBytes 4 p.take ++ beBytes 4 p.parent ++ beBytes 4 idxs.length ++ entries ++ section_)

/-- RESULT of a successful compile (R364). -/
def PageSet.okResult (p : PageSet) : Nat := p.compileTime % 2 ^ 32 + p.conns.length * 2 ^ 32

/-- The end of a job with OK (R237, R364): in role LEAD with an unfenced mate the take is sent and PREPARED awaited. -/
def State.compiled (s : State) (j : Job) (p : PageSet) : State :=
  if s.role = 3 ∧ !s.flag F.PAIR_STATE_MATE_FENCED then
    let s := s.updPair fun x => { x with prepareTake := p.take, matchedTake := none }
    let s := s.updHandle j.handle fun e => { e with ctx := 1 }
    if j.kind = .increment then s.sendDelta p s.active j.section_ else s.sendImage p.take 0 p.image
  else s.finish j.handle Out.OK 0 p.okResult

/-- COMPILE_DONE (R141, R157): the running host job ends after `time` units of 0.1 µs, firmware running (R25). `collided` are the words in
which a write of the continuity port met one of the colourist (R156). -/
def execCompileDone (time : Nat) (collided : List (MemKind × Nat)) (s : State) : Host.Outcome State Fault Refusal :=
  match s.ssw.hostJob with
  | none => .next s
  | some j =>
    if !s.jobRunning ∨ !s.fwRuns then .next s
    else
      let (r, p) := s.compile j time
      let s := ((s.updSsw fun x => { x with hostJob := none }).setFld F.SSW_COL_STATE_HOST_JOB 0).setFld
        F.SSW_COL_TIME_TIME time
      let s := ((s.collide collided).showResult r).icEdge 37
      if r.code ≠ 0 then .next ((s.startResync 5).failJob j.handle r)
      else
        let s := ((s.setStandby p).setSby 3).writeImage
        let s := (s.ssw.retires.filter fun x => !x.written).foldl (fun s x => s.writeBinding x.facet) s
        let s := s.updSsw fun x => { x with repairWaiting := false }
        .next (s.compiled j p)

/-- Firmware arms the splice of a finished repair pass at the earliest reel (R166, R178). -/
def State.armRepair (s : State) : State :=
  if s.sby = 3 ∧ s.standby.repair ∧ s.fwRuns then s.armAt (((s.reg R.SSW_REEL_NOW).toNat + 64) % 2 ^ 32) else s

/-- REPAIR_PASS_DONE (R166): the new bindings stand in the standby, which is COMPILED, and the splice is scheduled. -/
def execRepairPassDone (time : Nat) (s : State) : Host.Outcome State Fault Refusal :=
  if !s.ssw.repairRunning ∨ s.sby ≠ 2 ∨ !s.fwRuns then .next s
  else
    let s := (s.updSsw fun x => { x with repairRunning := false }).setFlag F.SSW_COL_STATE_REPAIR false
    let s := ((s.setStandby { s.active with repair := true, compileTime := time }).setSby 3).writeImage
    let s := (s.ssw.retires.filter fun x => !x.written).foldl (fun s x => s.writeBinding x.facet) s
    let s := (s.showResult { code := 0 }).setFld F.SSW_COL_TIME_TIME time
    .next (s.icEdge 37).armRepair

/-- A management reset stops a running compile (R143): the standby is INVALID and the job starts again from its first
record when firmware returns. -/
def State.stopCompile (s : State) : State :=
  if s.jobRunning then (s.startResync 5).setFld F.SSW_COL_STATE_HOST_JOB 3
  else if s.ssw.repairRunning then
    ((s.startResync 5).setFlag F.SSW_COL_STATE_REPAIR false).updSsw fun x => { x with
      repairRunning := false, repairWaiting := true }
  else s

/-- RESYNC_DONE (R154): every differing word has been rewritten from the active set. `uncorrectable` are the words found
uncorrectable, beside those whose image was lost; those counted in the seam reel are not counted again. -/
def State.resyncDone (s : State) (uncorrectable : List (MemKind × Nat)) : State :=
  if !s.flag F.SSW_COL_STATE_RESYNC ∨ (s.sby ≠ 0 ∧ s.sby ≠ 5) then s
  else
    let s := ((uncorrectable ++ s.standby.lost).eraseDups.filter fun i => !s.ssw.seamCounted.contains i).foldl
      (fun s i => s.connRefresh (s.setOf true) i.2 2) s
    let s := (s.setStandby { s.active with lost := [] }).writeImage
    (((s.setSby 1).endResync).setDirty []).icEdge 37

end Sys2Proof.Machine
end

