-- ==== Sys2Proof/Machine/Circuits.lean ====
section
/-!
DEFINITION. Circuit changes, re-anchor commands and dailies (spec 07 R195 to R197, R202, R212 to R216; 12 R361, R362, R369).
-/
namespace Sys2Proof.Machine
open Sys2Proof

-- Circuits ------------------------------------------------------------------------------------------------------

/-- Mark the circuits of the active take as present in the running interval (R214). -/
def State.notePresent (s : State) : State :=
  let now := s.active.circs.map (·.1)
  s.updCirc fun c => { c with live := { c.live with present := c.live.present ++ now.filter fun x => !c.live.present.contains x } }

/-- Whether a circuit is deleting (R196): the spliceable standby lacks it while the active take holds it, until the end of
the seam reel. -/
def State.deleting (s : State) (c : Nat) : Bool :=
  let inA := (s.active.circAt c).isSome
  let inS := (s.standby.circAt c).isSome
  ((s.sby == 3 || s.sby == 4) && inA && !inS) || (s.sby == 7 && inS && !inA)

/-- Write one circuit entry (R195). -/
def PageSet.setCirc (p : PageSet) (c : Nat) (e : CircEntry) : PageSet :=
  { p with circuits := Tbl.insert p.circuits c (some e) }

/-- Write a circuit entry into both sets, or into the active set alone where the circuit is deleting (R195, R196). A joining unit writes both:
its standby is the lead's active take (R245). A number added again in the
interval is REUSED (R197). -/
def State.writeCircuit (s : State) (x : CircChange) : State :=
  let e : CircEntry := { flags := x.flags, label := x.label }
  let isNew := (s.active.circAt x.circuit).isNone
  let both := !s.deleting x.circuit || s.role == 1
  let s := s.setActive (s.active.setCirc x.circuit e)
  let s := if both then s.setStandby (s.standby.setCirc x.circuit e) else s
  s.updCirc fun c => { c with
    live := { c.live with
      present := if c.live.present.contains x.circuit then c.live.present else c.live.present ++ [x.circuit]
      reused := if isNew ∧ c.left.contains x.circuit ∧ !c.live.reused.contains x.circuit then c.live.reused ++ [x.circuit]
        else c.live.reused } }

/-- A circuit change takes effect (R195, R234): the entry is written and its command completes. A change of a circuit that a splice has
deleted meanwhile changes nothing and ends as for an absent circuit (R361). -/
def State.applyChange (s : State) (x : CircChange) : State :=
  let gone := !x.add && (s.active.circAt x.circuit).isNone && !(s.role == 1 && (s.standby.circAt x.circuit).isSome)
  let s := if gone then s else s.writeCircuit x
  match s.handle? x.handle with
  | some h =>
    let c : Completion := { handle := x.handle, status := if gone then St.NO_SUCH_CIRCUIT else 0
                            outcome := if gone then Out.FAILED else Out.OK, first := false, final := true, result := if gone then 0 else x.reel }
    if s.role = 3 ∧ 2 ≤ s.session ∧ s.pair.acked ≤ h.ack then s.updHandle x.handle fun e => { e with held := some c }
    else s.complete c
  | none => s

/-- Whether circuit changes of this unit take effect without the mate (R195): in role SOLO, or while the mate is fenced. -/
def State.circLocal (s : State) : Bool := s.role == 4 || s.flag F.PAIR_STATE_MATE_FENCED

/-- Whether the session is one into which changes are journalled: the lead's, from the snapshot of a join on (R234, R245). -/
def State.journals (s : State) : Bool :=
  s.role == 3 && !s.flag F.PAIR_STATE_MATE_FENCED || s.pair.joinLead && decide (3 ≤ s.pair.joinStep)

/-- The JOURNAL record of a circuit change (R195, R234). -/
def State.sendChange (s : State) (handle reel : Nat) (params : List Byte) : State :=
  if s.journals then
    (s.updHandle handle fun x => { x with ack := s.pair.txNext }).sendRecord 0x30 reel
      (beBytes 2 Op.CIRC_SET ++ [0, 0] ++ bytesAt params 0 40)
  else s

/-- Effect reel of a change from the reel in progress (R195). -/
def State.effectReel (s : State) : Nat :=
  let q := (s.reg R.SSW_REEL_NOW).toNat
  if s.circLocal || s.role != 3 then seqNext q else (q + 64) % 2 ^ 32

/-- The end of a wait (R195): the effect reels of the changes that waited are counted afresh, and sent. -/
def State.restartChanges (s : State) : State :=
  let r := s.effectReel
  let waiting := s.circ.changes.filter (·.waits)
  let s := s.updCirc fun c => { c with changes := c.changes.map fun x => if x.waits then { x with waits := false, reel := r } else x }
  waiting.foldl (fun s x => match s.handle? x.handle with | some e => s.sendChange x.handle r e.params | none => s) s

/-- EFFECT_REEL (R195): at the start of a core reel, the changes whose reel it is, or that come late, are written. While the standby is
COMPILING or RECEIVING they wait, and their effect reel is counted from the end of the wait. -/
def execEffectReel (s : State) : Host.Outcome State Fault Refusal :=
  let q := seqNext (s.reg R.SSW_REEL_NOW).toNat
  let due := fun (x : CircChange) => x.reel == q || seqLater q x.reel
  if s.sby = 2 ∨ s.sby = 6 then
    .next (s.updCirc fun c => { c with changes := c.changes.map fun x => if due x then { x with waits := true } else x })
  else
    let s := s.restartChanges
    let now := s.circ.changes.filter due
    let s := s.updCirc fun c => { c with changes := c.changes.filter fun x => !due x }
    .next (now.foldl State.applyChange s)

/-- CIRC_SET (R195, R196, R361). While the standby is COMPILING or RECEIVING the command waits. -/
def execCircSet (h : Word) (s : State) : Host.Outcome State Fault Refusal :=
  .next (if s.sby = 2 ∨ s.sby = 6 then s else s.run Op.CIRC_SET h.toNat fun e s =>
    let c := e.param 0 2
    let add := e.param 8 1 == 0
    let present := (s.active.circAt c).isSome
    if add ∧ s.deleting c then s.fail e.handle St.ID_BUSY 0
    else if add ∧ present then s.fail e.handle St.ID_PRESENT 0
    else if !add ∧ !present then s.fail e.handle St.NO_SUCH_CIRCUIT 0
    else
      let reel := s.effectReel
      let s := s.sendChange e.handle reel e.params
      let s := if s.journals then s.sendHandle e 5 0 reel else s
      s.updCirc fun x => { x with changes := x.changes ++
        [{ reel := reel, circuit := c, flags := e.param 2 2, label := e.param 4 4, add := add, handle := e.handle }] })

/-- MERGE_REANCHOR (R202, R362). -/
def execMergeReanchor (h : Word) (s : State) : Host.Outcome State Fault Refusal :=
  .next (s.run Op.MERGE_REANCHOR h.toNat fun e s =>
    match s.pairOf (e.param 0 1) with
    | none => s.fail e.handle St.NO_MERGE_PAIR 0
    | some p =>
      let (s, p') := s.reanchor p
      let old := p.anchor.getD 0
      let new := p'.anchor.getD 0
      let j := if p.anchor.isSome then (new + 2 ^ 32 - old) % 2 ^ 32 else 0
      (s.setPair p').finish e.handle Out.OK 0 (new + 2 ^ 32 * j))

-- Dailies -------------------------------------------------------------------------------------------------------

/-- Capture state: 0 IDLE, 1 CAPTURING, 2 READY. -/
def State.dailies (s : State) : Nat := s.fld F.CIRC_DAILIES_STAT_STATE

/-- A capture falls due (R213): it waits for its boundary, or is deferred while the shadow holds an unreleased record or a
capture runs, in the order in which they fall due. Periodic captures due during a deferral are merged into one. -/
def State.requestCapture (s : State) (flags h : Nat) : State :=
  if s.dailies = 0 ∧ s.circ.wanted.isNone ∧ s.circ.deferred.isEmpty then
    s.updCirc fun c => { c with wanted := some flags, wantedHandle := h }
  else if h = 0 ∧ s.circ.deferred.any (fun x => x.2 == 0) then s
  else
    ((s.updCirc fun c => { c with deferred := c.deferred ++ [(flags ||| 2, h)] }).setFlag F.CIRC_DAILIES_STAT_DEFERRED true).logEvent
      Ev.DAILIES_DEFERRED noSource []

/-- TAI at the core reel boundary that comes next: 80 ns before the next local reel boundary (R13). -/
def State.coreTai (s : State) : Nat := s.tai + 2480

/-- The banks swap at a core reel boundary (R212, R214). A splice at the same boundary belongs to the next interval, and with it the circuits
that it adds and deletes (R197, R209). -/
def State.swapBanks (s : State) (flags h : Nat) : State :=
  let q := seqNext (s.reg R.SSW_REEL_NOW).toNat
  let seam := s.sby == 7 && (s.reg R.SSW_LAST_SPLICE).toNat == q
  let first := if (s.reg R.CIRC_DAILIES_SEQ).toNat = 0 then 4 else 0
  let head : DailiesHead :=
    { seq := 0, flags := flags ||| first, endReel := q, endTai := s.coreTai
      take := if seam then s.standby.take else s.active.take
      claim := s.claim, epoch := s.fld F.TIME_STATE_STEP_EPOCH }
  let was := if seam then s.circ.before else none
  let ended := match was with
    | some b => { s.circ.live with splices := s.circ.live.splices - 1, present := b.present, reused := b.reused }
    | none => s.circ.live
  let gone := match was with
    | some _ => (s.standby.circs.map (·.1)).filter fun c => (s.active.circAt c).isNone
    | none => []
  let s := s.updCirc fun c => { c with
    frozen := ended
    live := { startReel := q, startTai := s.coreTai, splices := was.isSome.toNat }
    head := head, copying := true, copyHandle := h, left := gone, wanted := none, wantedHandle := 0
    intervalNow := clampNat 1 3600 (s.fld F.CIRC_DAILIES_CTL_INTERVAL) }
  (s.setFld F.CIRC_DAILIES_STAT_STATE 1).notePresent

/-- DAILIES_BOUNDARY (R212): the capture that waits takes effect. -/
def execDailiesBoundary (s : State) : Host.Outcome State Fault Refusal :=
  .next (match s.circ.wanted with | some f => s.swapBanks f s.circ.wantedHandle | none => s)

/-- Whether the core reel boundary now due is the one nearest a whole multiple of the interval (R213). -/
def State.periodDue (s : State) : Bool :=
  let p := s.circ.intervalNow * 1000000000
  let r := s.coreTai % p
  decide (r ≤ 1280 ∨ p - r < 1280)

/-- PERIODIC_CAPTURE (R213). -/
def execPeriodicCapture (s : State) : Host.Outcome State Fault Refusal :=
  .next (if s.flag F.CIRC_DAILIES_CTL_PERIODIC ∧ s.periodDue then s.requestCapture 1 0 else s)

/-- DEFERRED_CAPTURE (R213): the first core reel boundary after the release or finish. -/
def execDeferredCapture (s : State) : Host.Outcome State Fault Refusal :=
  .next (match s.circ.deferred with
    | (f, h) :: rest =>
      if s.dailies ≠ 0 ∨ s.circ.wanted.isSome then s
      else
        let s := (s.updCirc fun c => { c with deferred := rest }).setFlag F.CIRC_DAILIES_STAT_DEFERRED !rest.isEmpty
        s.swapBanks f h
    | [] => s)

/-- The record in the shadow is released (R213). -/
def State.releaseRecord (s : State) : State := s.setFld F.CIRC_DAILIES_STAT_STATE 0

/-- The dailies record in the shadow as bytes (R214). -/
def State.recordBytes (s : State) : List Byte :=
  (List.range (recordSize / 4)).flatMap fun i => leBytes 4 (recordWord s.circ.head s.circ.shadow (4 * i)).toNat

/-- Deliver the record of the shadow to a command, and release it once it has been delivered whole (R213, R369). -/
def State.deliverRecord (s : State) (h : Nat) : State :=
  match s.handle? h with
  | some e => s.deliver e e.sg s.recordBytes fun s =>
      s.releaseRecord.finish h Out.OK 0 (s.circ.head.seq + 2 ^ 32 * s.circ.head.endReel)
  | none => s

/-- The command that asked for the record in the shadow has it, once firmware runs (R213). -/
def State.deliverCapture (s : State) : State :=
  let h := s.circ.copyHandle
  if h = 0 ∨ s.dailies ≠ 2 ∨ !s.fwRuns then s else (s.updCirc fun c => { c with copyHandle := 0 }).deliverRecord h

/-- CAPTURE_COPY_DONE (R212): the frozen bank stands in the shadow and is cleared; a command that asked for it has it. -/
def execCaptureCopyDone (s : State) : Host.Outcome State Fault Refusal :=
  if !s.circ.copying then .next s
  else
    let seq := ((s.reg R.CIRC_DAILIES_SEQ).toNat + 1) % 2 ^ 32
    let s := s.updCirc fun c => { c with
      shadow := c.frozen, frozen := {}, copying := false, head := { c.head with seq := seq } }
    let s := (s.setFld F.CIRC_DAILIES_SEQ_SEQ seq).setFld F.CIRC_DAILIES_STAT_STATE 2
    .next (s.icRaise 38).deliverCapture

/-- RELEASE (R213, R216): the write of RELEASE = 1, without effect unless the state is READY. -/
def State.writeRelease (s : State) : State := if s.dailies = 2 then s.releaseRecord else s

def execRelease (s : State) : Host.Outcome State Fault Refusal := .next s.writeRelease

/-- DAILIES (R213, R369): MODE 0 requests a capture, MODE 1 delivers the unreleased record. -/
def execDailies (h : Word) (sg : List (Nat × Nat)) (s : State) : Host.Outcome State Fault Refusal :=
  .next (s.run Op.DAILIES h.toNat fun e s =>
    let s := s.updHandle e.handle fun x => { x with sg := sg }
    if e.ready then s.deliverRecord e.handle
    else if e.param 0 1 = 0 then s.requestCapture 0 e.handle
    else if s.dailies = 2 then s.deliverRecord e.handle
    else s.fail e.handle St.NO_RECORD 0)

end Sys2Proof.Machine
end

