-- ==== Sys2Proof/Machine/Ref.lean ====
section
/-!
DEFINITION. Reference candidates, selection, dissolve and holdover (spec 10 R284 to R311; 12 R370, R371).
-/
namespace Sys2Proof.Machine
open Sys2Proof

-- Candidates ----------------------------------------------------------------------------------------------------

/-- Change the DPLL state. -/
def State.updRef (s : State) (f : Ref → Ref) : State := { s with ref := f s.ref }

/-- A candidate beyond its registers. -/
def State.cand (s : State) (n : Nat) : Cand := Tbl.get (fun _ => {}) s.ref.cands n

/-- Change a candidate. -/
def State.updCand (s : State) (n : Nat) (f : Cand → Cand) : State :=
  s.updRef fun r => { r with cands := Tbl.put (fun _ => {}) r.cands n (f (Tbl.get (fun _ => {}) r.cands n)) }

/-- State of a candidate (R290): 0 DISABLED, 1 LOST, 2 QUALIFYING, 3 QUALIFIED, 4 DISQUALIFIED, 5 WTR. -/
def State.candState (s : State) (n : Nat) : Nat := s.fld (F.REF_CANDn_STAT_STATE n)

/-- Put a candidate into a state; a change is an edge of its interrupt source (R411). -/
def State.setCandState (s : State) (n v : Nat) : State :=
  let old := s.candState n
  let s := s.setFld (F.REF_CANDn_STAT_STATE n) v
  if old = v then s else s.icEdge (256 + n)

/-- Whether a candidate carries time (R284). -/
def isTimeCand (n : Nat) : Bool := decide (2 ≤ n)

/-- Clear the window of a candidate (R290, R291). -/
def State.clearWindow (s : State) (n : Nat) : State :=
  let s := s.updCand n fun c => { c with
    samples := [], line := none, odd := [], start := none, devs := [], qualRun := 0, goodRun := 0 }
  ((s.setFlag (F.REF_CANDn_STAT_WINDOW_FULL n) false).setFld (F.REF_CANDn_FOFS_FOFS n) 0x80000000).setFlag
    (F.REF_CANDn_STAT_SOFT n) false

/-- Seconds left of a qualification that starts from zero (R290): values of QUAL_S below 10 act as 10. -/
def State.qualS (s : State) : Nat := max 10 (s.fld F.REF_QUAL_CTL_QUAL_S)

/-- Enter QUALIFYING from zero. -/
def State.startQualifying (s : State) (n : Nat) : State :=
  let s := ((s.clearWindow n).setCandState n 2).updCand n fun c => { c with since := s.time.clock }
  (s.setFld (F.REF_CANDn_STAT_CAUSE n) 0).setFld (F.REF_CANDn_STAT_LEFT n) s.qualS

/-- A candidate becomes disqualified with a cause (R292, R296). -/
def State.disqualify (s : State) (n cause : Nat) : State :=
  let s := s.updCand n fun c => { c with qualRun := 0, goodRun := 0, todRun := 0 }
  ((s.setCandState n 4).setFld (F.REF_CANDn_STAT_CAUSE n) cause).setFld (F.REF_CANDn_STAT_LEFT n) 0

/-- Offset of a candidate, its time minus the timebase in 1/256 ns, while measured. -/
def State.candOffset (s : State) (n : Nat) : Option Int := if isTimeCand n then (s.cand n).ofs else none

/-- Take an offset, shown saturating (R314). -/
def State.showOffset (s : State) (n : Nat) (o : Int) : State :=
  (s.setFldI (F.REF_CANDn_POFS_POFS n) (clampInt (-(2 ^ 31 - 1)) (2 ^ 31 - 1) o)).updCand n fun c => { c with ofs := some o }

/-- The offset of a candidate is not measured. -/
def State.noOffset (s : State) (n : Nat) : State :=
  (s.setFld (F.REF_CANDn_POFS_POFS n) 0x80000000).updCand n fun c => { c with ofs := none }

-- Status of the timebase ----------------------------------------------------------------------------------------

/-- DPLL mode: 0 FREE_RUN, 1 LOCKED, 2 DISSOLVING, 3 HOLDOVER. -/
def State.mode (s : State) : Nat := s.fld F.REF_STATE_MODE

/-- Selected candidate, 15 for none. -/
def State.selected (s : State) : Nat := s.fld F.REF_STATE_SELECTED

/-- TRACEABLE, HOLDOVER and FREE_RUN by the DPLL state (R307). On CAND7 they are as the lead's last TIME_FLAGS. -/
def State.timeBits (s : State) : Bool × Bool × Bool :=
  let m := s.mode
  if m = 0 then (false, false, true)
  else if m = 3 then (false, true, false)
  else if s.selected = 7 then
    let f := s.time.leadFlags
    (f.testBit 7, f.testBit 6, f.testBit 5)
  else (isTimeCand s.selected, false, false)

/-- Bring TIME_STATE up to date with the DPLL. -/
def State.refreshTime (s : State) : State :=
  let (t, h, f) := s.timeBits
  let s := ((s.setFlag F.TIME_STATE_TRACEABLE t).setFlag F.TIME_STATE_HOLDOVER h).setFlag F.TIME_STATE_FREE_RUN f
  if t then { s with time := { s.time with everTraceable := true } } else s

-- Holdover model ------------------------------------------------------------------------------------------------

/-- Holdover temperature (R309) in 1/16 °C. -/
def State.hoTemp (s : State) : Int :=
  let t := s.fld F.REF_HO_CTL_TSENSE
  if t = 31 then s.fldI F.REF_HO_TEMP_TEMP else s.fldI (F.MSS_TEMP_TEMP (if t ≤ 23 then t else 0))

/-- Device load class (R311). -/
def State.deviceLoad (s : State) : Nat :=
  let n := ((List.range 130).filter fun l =>
    s.fld (F.LANE_STATE_RX_STATE l) ≤ 1 || s.fld (F.LANE_STATE_TX_STATE l) == 0).length
  if n ≤ 43 then 0 else if n ≤ 87 then 1 else 2

/-- Slope of `y` against `x` as numerator and denominator by least squares. -/
def lsSlope (l : List (Int × Int)) : Int × Int :=
  let n : Int := l.length
  let sx := l.foldl (fun a p => a + p.1) 0
  let sy := l.foldl (fun a p => a + p.2) 0
  let sxy := l.foldl (fun a p => a + p.1 * p.2) 0
  let sxx := l.foldl (fun a p => a + p.1 * p.1) 0
  (n * sxy - sx * sy, n * sxx - sx * sx)

/-- Mean of a list, to the nearest integer. -/
def meanOf (l : List Int) : Int := roundDiv (l.foldl (· + ·) 0) l.length

/-- Samples of the last 24 h. -/
def State.dayHistory (s : State) : List HistSample := s.ref.hist.filter fun x => decide (s.ref.secs < x.sec + 86400)

/-- Temperature range learned (R309): samples of the last 24 h and the seed record's range. -/
def State.tempRange (s : State) : Option (Int × Int) :=
  let ts := (s.dayHistory.map (·.temp)) ++ (match s.ref.seed with | some x => [x.tMin, x.tMax] | none => [])
  match ts with
  | [] => none
  | t :: rest => some (rest.foldl min t, rest.foldl max t)

/-- K_T (R309) in 0.001 ppb/°C. -/
def State.kT (s : State) : Int :=
  let ts := s.dayHistory.map (·.temp)
  let span : Int := match ts with | [] => 0 | t :: rest => rest.foldl max t - rest.foldl min t
  if 32 ≤ span then
    let (a, b) := lsSlope (s.dayHistory.map fun x => (x.temp, x.freq))
    roundDiv (16 * a) b
  else match s.ref.seed with | some x => x.kT | none => 0

/-- The second as of which samples count: entry to holdover, or now. -/
def State.asOf (s : State) : Nat := if s.mode = 3 then s.ref.hoSec else s.ref.secs

/-- H(T) (R308, R309), which is E (R291). Without history it is the seed's frequency where its load class is the present one,
otherwise 0; while XO_IN is absent it is the word last held. -/
def State.holdFreq (s : State) : Int :=
  if s.flag F.TIME_STATE_XO_SYNTH then s.fldI F.REF_FREQ_FREQ
  else if s.ref.histN < 30 then
    match s.ref.seed with | some x => if x.loadClass = s.deviceLoad then x.h else 0 | none => 0
  else
    let used := (s.ref.hist.filter fun x => decide (x.sec + 2 ≤ s.asOf)).take 300
    let f := meanOf (used.map (·.freq))
    let t := meanOf (used.map (·.temp))
    let tc := match s.tempRange with | some (lo, hi) => clampInt (lo - 160) (hi + 160) s.hoTemp | none => s.hoTemp
    f + roundDiv (s.kT * (tc - t)) 16

/-- Show the model and its range, and log each entry into extrapolation (R309). -/
def State.refreshHold (s : State) : State :=
  let s := (s.setFldI F.REF_HO_FREQ_H s.holdFreq).setFldI F.REF_HO_MODEL_K_T s.kT
  let s := s.setFlag F.REF_HO_STAT_HISTORY (decide (30 ≤ s.ref.histN))
  match s.tempRange with
  | none => s
  | some (lo, hi) =>
    let s := (s.setFldI F.REF_HO_RANGE_T_MIN lo).setFldI F.REF_HO_RANGE_T_MAX hi
    let out := decide (s.hoTemp < lo - 160 ∨ hi + 160 < s.hoTemp)
    let was := s.flag F.REF_HO_STAT_EXTRAPOLATED
    let s := s.setFlag F.REF_HO_STAT_EXTRAPOLATED out
    if out && !was then s.logEvent Ev.HOLDOVER_MODEL_EXTRAPOLATED noSource [] else s

-- Selection -----------------------------------------------------------------------------------------------------

/-- Show the build-out (R304). -/
def State.showBuild (s : State) : State := s.setFldI F.REF_BUILDOUT_B (roundDiv s.ref.build 10000)

/-- Set the build-out to an offset in 1/256 ns, of which `res` is the residual of a step. -/
def State.setBuild (s : State) (b res : Int) : State :=
  (s.updRef fun r => { r with build := 10000 * b, residual := 10000 * res }).showBuild

/-- Show which candidate is selected. -/
def State.showSelected (s : State) (n : Nat) : State :=
  let s := (List.range 8).foldl (fun s i => s.setFlag (F.REF_CANDn_STAT_SELECTED i) (i == n)) s
  s.setFld F.REF_STATE_SELECTED n

/-- Whether a force is in effect (R300): not in roles JOINING and FOLLOWER. -/
def State.forced (s : State) : Bool :=
  s.role != 1 && s.role != 2 && (s.flag F.REF_CTL_FORCE_HO ||
    (s.flag F.REF_CTL_FORCE_EN && (s.candState (s.fld F.REF_CTL_FORCE_CAND) == 3 ||
      s.candState (s.fld F.REF_CTL_FORCE_CAND) == 5)))

/-- Enter holdover (R301, R307, R308), or free run where no history exists. -/
def State.enterHoldover (s : State) : State :=
  let s := (s.showSelected 15).setBuild 0 0
  let s := s.updRef fun r => { r with hoSec := r.secs }
  let s := (s.setFld F.REF_HO_STAT_ELAPSED 0).setFlag F.REF_STATE_FORCED s.forced
  let ho := !(s.ref.histN < 30 && !s.flag F.TIME_STATE_XO_SYNTH)
  let s := s.setFld F.REF_STATE_MODE (if ho then 3 else 0)
  let s := s.when ho fun s => s.alert F.GCTL_ALERT_STAT_HOLDOVER
  s.refreshHold.refreshTime

/-- Select a candidate with a build-out (R304). -/
def State.selectWith (s : State) (n : Nat) (b : Int) : State :=
  let s := (s.showSelected n).setBuild b 0
  let s := s.setFld F.REF_STATE_MODE (if b = 0 then 1 else 2)
  let s := ((s.setFld F.REF_HO_STAT_ELAPSED 0).setFlag F.REF_HO_STAT_EXPIRED false).setFlag F.REF_STATE_FORCED s.forced
  s.refreshTime

/-- Select a candidate by dissolve: a time candidate's present offset is its build-out (R304). -/
def State.selectCand (s : State) (n : Nat) : State := s.selectWith n ((s.candOffset n).getD 0)

/-- Whether a candidate may be selected by its own state (R298): QUALIFIED with PRIO 1 to 15, and not CAND7. -/
def State.eligible (s : State) (n : Nat) : Bool :=
  n != 7 && s.candState n == 3 && s.fld (F.REF_CANDn_CTL_PRIO n) != 0

/-- The best of the candidates that satisfy a test: lowest PRIO, then lowest number. -/
def State.bestOf (s : State) (p : Nat → Bool) : Option Nat :=
  ((List.range 7).filter p).foldl (fun a n => match a with
    | none => some n
    | some m => if s.fld (F.REF_CANDn_CTL_PRIO n) < s.fld (F.REF_CANDn_CTL_PRIO m) then some n else some m) none

/-- Whether the selection is CAND7 alone (R302): a follower, and a joining unit from step 4. -/
def State.confined (s : State) : Bool := s.role == 2 || (s.role == 1 && decide (4 ≤ s.pair.joinStep))

/-- The candidate that the rules ask for (R298, R300, R302). Forcing is ignored while JOINING. -/
def State.wanted (s : State) : Option Nat :=
  if s.confined then (if s.candState 7 = 3 then some 7 else none)
  else if s.flag F.REF_CTL_FORCE_HO && s.role != 1 then none
  else
    let f := s.fld F.REF_CTL_FORCE_CAND
    if s.role ≠ 1 ∧ s.flag F.REF_CTL_FORCE_EN ∧ (s.candState f = 3 ∨ s.candState f = 5) then some f
    else match s.bestOf s.eligible with
      | some n => some n
      | none => s.bestOf fun n => s.candState n == 5 && s.fld (F.REF_CANDn_CTL_PRIO n) != 0

/-- Whether the selected candidate is no longer eligible (R298): lost, disabled, disqualified or qualifying afresh. CAND7 is followed while it
qualifies (R302). -/
def State.selectedGone (s : State) : Bool :=
  s.selected == 15 || s.candState s.selected == 0 || s.candState s.selected == 1 || s.candState s.selected == 4
    || (s.selected != 7 && s.candState s.selected == 2)
    || (s.selected != 7 && s.fld (F.REF_CANDn_CTL_PRIO s.selected) == 0 && !s.forced)

/-- Change the selection where the rules call for it (R298 to R302, R305). -/
def State.changeSelection (s : State) : State :=
  match s.wanted with
  | none =>
    if s.selected = 15 ∨ s.confined ∧ s.selected = 7 ∧ !s.selectedGone then s
    else if s.selectedGone || s.forced || s.confined then s.enterHoldover else s
  | some n =>
    if n = s.selected then s.setFlag F.REF_STATE_FORCED s.forced
    else if s.selectedGone || s.forced || s.confined then s.selectCand n
    else if s.mode ≠ 2 ∧ s.candState s.selected = 5 then s.selectCand n
    else if s.mode ≠ 2 ∧ s.flag F.REF_CTL_REVERTIVE
        ∧ s.fld (F.REF_CANDn_CTL_PRIO n) < s.fld (F.REF_CANDn_CTL_PRIO s.selected) then s.selectCand n
    else s

/-- SELECTION_CHANGE (R301): firmware selects the next eligible candidate by dissolve. Held under the flywheel. -/
def execSelectionChange (s : State) : Host.Outcome State Fault Refusal :=
  .next (if s.fwRuns then s.changeSelection else s)

/-- CAND7 begins or ends with the unit's role (R289, R302). -/
def State.cand7On (s : State) : State :=
  if s.candState 7 = 0 ∧ s.flag (F.REF_CANDn_CTL_EN 7) then
    (s.startQualifying 7).updCand 7 fun c => { c with first := true } else s

/-- On a yield or at step 4 of a join the DPLL takes CAND7 (R302); a yield takes no build-out. -/
def State.takeCand7 (s : State) (buildOut : Bool) : State :=
  let s := s.cand7On
  if buildOut then s.selectCand 7 else s.selectWith 7 0

/-- CAND7 ends: takeover, handover, and the end of a join or a fence (R289, R302). The unit selects under R298 by dissolve
from the phase it holds. -/
def State.leaveCand7 (s : State) : State :=
  let s := ((s.clearWindow 7).setCandState 7 0).noOffset 7
  if s.selected ≠ 7 then s
  else if s.fwRuns then (match s.wanted with | some n => s.selectCand n | none => s.enterHoldover)
  else s.enterHoldover

-- Samples -------------------------------------------------------------------------------------------------------

/-- Phase the timebase has gained on XO_IN, in 1/256 ns. -/
def State.tbPhase (s : State) : Int := roundDiv s.ref.phase 1000000

/-- Value at a time of the line fitted to a window. -/
def lineAt (l : Int × Int × Int) (t : Int) : Int := l.2.1 + roundDiv (l.2.2 * (t - l.1) * 256) 1000000000000

/-- Phase-jump limit in 1/256 ns (R295). -/
def State.jumpLimit (s : State) : Int := 2560 * max 1 (s.fld F.REF_QUAL_CTL_JUMP)

/-- Samples of the last 10 s. -/
def recent (now : Int) (l : List (Int × Int)) : List (Int × Int) := l.filter fun x => decide (now - x.1 < 10000000000)

/-- A phase sample of a candidate against XO_IN enters its window (R291). Of a time candidate, three in a row farther than
JUMP from the line restart the window as a phase jump (R295); one or two of them are discarded. -/
def State.phaseSample (s : State) (n : Nat) (p : Int) : State :=
  let t : Int := s.time.clock
  let c := s.cand n
  let off := match c.line with | some l => p - lineAt l t | none => 0
  if isTimeCand n ∧ s.jumpLimit < off.natAbs then
    if c.odd.length < 2 then s.updCand n fun c => { c with odd := c.odd ++ [(t, p)] }
    else
      let first := c.odd.headD (t, p)
      let size := match c.line with | some l => first.2 - lineAt l first.1 | none => 0
      let s := s.clearWindow n
      let s := s.updCand n fun x => { x with
        samples := (t, p) :: c.odd.reverse, start := some first.1, qualRun := c.qualRun, goodRun := c.goodRun }
      let s := s.logEvent Ev.REF_PHASE_JUMP n (leBytes 4 (ofSigned 32 size))
      if s.selected = n then
        (s.updRef fun r => { r with build := r.build + 10000 * size }).showBuild.setFld F.REF_STATE_MODE 2
      else s
  else s.updCand n fun c => { c with
    samples := (t, p) :: recent t c.samples, odd := [], start := match c.start with | some x => some x | none => some t }

/-- A new offset of a time candidate: its time minus the timebase in 1/256 ns. -/
def State.offsetSample (s : State) (n : Nat) (o : Int) : State :=
  let s := s.updCand n fun c => { c with lastSample := s.time.clock }
  if s.candState n = 0 ∨ s.candState n = 1 then s
  else (s.showOffset n o).phaseSample n (o + s.tbPhase)

/-- REF_PTP_SAMPLE (R288): firmware's servo writes a sample of CAND6. -/
def State.writePtpSample (s : State) (v : Word) : State := s.offsetSample 6 v.toInt

def execRefPtpSample (v : Word) (s : State) : Host.Outcome State Fault Refusal := .next (s.writePtpSample v)

/-- A second in 1/256 ns. -/
def secondUnits : Int := 256000000000

/-- The offset nearest `near` that a pulse at `stamp` allows: the pulse marks a whole second. -/
def pulseOffset (near stamp : Int) : Int := secondUnits * roundDiv (near + stamp) secondUnits - stamp

/-- A qualified pulse of CAND2 or CAND3 gives a phase sample (R284). Its offset keeps the second that a time event message has given. -/
def State.pulseSample (s : State) (n : Nat) (stamp : Int) : State :=
  if s.candState n = 0 ∨ s.candState n = 1 then s
  else
    let last := match (s.cand n).samples.head? with | some x => x.2 - s.tbPhase | none => 0
    let s := match (s.cand n).ofs with | some o => s.showOffset n (pulseOffset o stamp) | none => s
    s.phaseSample n (pulseOffset last stamp + s.tbPhase)

/-- PPS_IN (R284 to R286): a pulse high for at least 300 ns is qualified, and gives a phase sample. A pulse that found no valid message before
the next counts towards NO_TOD. -/
def execPpsIn (b : Bool) (captured : BitVec 72) (highNs : Nat) (s : State) : Host.Outcome State Fault Refusal :=
  let n := if b then 3 else 2
  if highNs < 300 then .next s
  else
    let miss := if (s.cand n).pulse.isSome then (s.cand n).todMiss + 1 else 0
    let stamp : Int := (captured.toNat : Int) - s.fldI (F.REF_CANDn_DLY_DLY n)
    let s := s.updCand n fun c => { c with
      pulse := some stamp, pulseAt := s.time.clock, todMiss := miss, todRun := if c.pulse.isSome then 0 else c.todRun
      lastSample := s.time.clock }
    let s := s.icEdge (272 + b.toNat)
    let s := s.pulseSample n stamp
    let st := s.candState n
    .next (if 3 ≤ miss ∧ (st = 2 ∨ st = 3 ∨ st = 5) then s.disqualify n 8 else s)

/-- TOD_MESSAGE (R286): the message arrives `delayUs` after the last qualified pulse and carries the TAI second of that pulse,
or fails its checksum. It gives the pulse its time, and with it the candidate its offset. -/
def execTodMessage (b : Bool) (delayUs : Nat) (second : Option Nat) (s : State) : Host.Outcome State Fault Refusal :=
  let n := if b then 3 else 2
  let s := s.icEdge (274 + b.toNat)
  match second, (s.cand n).pulse with
  | none, _ => .next (s.updCand n fun c => { c with todBad := c.todBad + 1 })
  | some _, none => .next s
  | some sec, some stamp =>
    if delayUs < 1000 ∨ 500000 < delayUs then .next s
    else
      let s := s.updCand n fun c => { c with pulse := none, todMiss := 0, todRun := c.todRun + 1 }
      .next (if s.candState n = 0 ∨ s.candState n = 1 then s else s.showOffset n ((sec : Int) * secondUnits - stamp))

-- Loss and return -----------------------------------------------------------------------------------------------

/-- Whether no exchange has been made on a lane for 256 reels. -/
def State.noExchange (s : State) (l : Nat) : Bool :=
  match (s.lane l).tt.lastReel with
  | none => true
  | some r => decide (256 ≤ seqDiff s.reelSeq r)

/-- The loss condition of R284 as far as the block holds it. The edges of CAND0 and CAND1 are the command's own observation. -/
def State.lossHolds (s : State) (n : Nat) : Bool :=
  if n = 4 ∨ n = 5 then
    let l := s.fld (F.REF_CANDn_CTL_LANE n)
    s.fld (F.LANE_SYNC_STATE_STATE l) != 2 || s.noExchange l
  else if n = 6 then
    !s.flag (F.REF_CANDn_CTL_FW_VALID 6) || decide ((s.cand 6).lastSample + 1000000000 ≤ s.time.clock)
  else if n = 7 then s.noExchange 128 && s.noExchange 129
  else if n ≤ 1 then true
  else decide ((s.cand n).lastSample + 1000100000 ≤ s.time.clock) || s.flag (F.IC_SRC_STORM (272 + (n - 2)))

/-- Whether the loss condition of R284 has ended. The edges of CAND0 and CAND1 are the command's own observation. -/
def State.lossEnded (s : State) (n : Nat) : Bool := decide (n ≤ 1) || !s.lossHolds n

/-- CANDIDATE_LOST (R284, R290). A selected candidate leaves its phase for R303; holdover follows at the next update. -/
def execCandidateLost (n : Fin 8) (s : State) : Host.Outcome State Fault Refusal :=
  let n := n.val
  if s.candState n = 0 ∨ s.candState n = 1 ∨ !s.lossHolds n then .next s
  else
    let s := if s.selected = n then
        let l : LostRef := { cand := n, clock := s.time.clock, phase := s.tbPhase, ofs := (s.candOffset n).getD 0 }
        s.updRef fun r => { r with lost := some l }
      else s
    let s := s.clearWindow n
    let s := ((s.setCandState n 1).setFld (F.REF_CANDn_STAT_CAUSE n) 1).setFld (F.REF_CANDn_STAT_LEFT n) 0
    .next (s.noOffset n)

/-- Whether a candidate returns in time and in phase to reverse the dissolve away from it (R303). -/
def State.reverses (s : State) (n : Nat) (offset : Int) : Bool :=
  match s.ref.lost with
  | some l =>
    l.cand == n && isTimeCand n && s.mode == 2 && s.selected != n && s.fwRuns
      && decide (s.time.clock ≤ l.clock + 1000000 * s.fld F.REF_CTL_GLITCH_MS)
      && decide (((offset + (s.tbPhase - l.phase) - l.ofs).natAbs : Int) ≤ s.jumpLimit)
  | none => false

/-- CANDIDATE_RETURN (R290, R302, R303): the input is back, with the offset given. -/
def execCandidateReturn (n : Fin 8) (offset : Int) (s : State) : Host.Outcome State Fault Refusal :=
  let n := n.val
  if s.candState n ≠ 1 ∨ !s.lossEnded n then .next s
  else if s.reverses n offset then
    let s := ((s.startQualifying n).setCandState n 3).setFld (F.REF_CANDn_STAT_LEFT n) 0
    let s := (s.showOffset n offset).selectWith n offset
    let s := s.updRef fun r => { r with lost := none }
    .next ((s.incFld F.REF_STATE_REVERSALS).logEvent Ev.DISSOLVE_REVERSED n [])
  else
    let s := s.startQualifying n
    .next (if isTimeCand n then s.showOffset n offset else s)

/-- WTR_EXPIRY (R290). -/
def execWtrExpiry (n : Fin 8) (s : State) : Host.Outcome State Fault Refusal :=
  let n := n.val
  .next (if s.candState n = 5 ∧ s.fld (F.REF_CANDn_STAT_LEFT n) = 0 then s.setCandState n 3 else s)

-- Evaluation ----------------------------------------------------------------------------------------------------

/-- Fit the window of a candidate (R291): FOFS in 0.001 ppb, shown once the window is full. -/
def State.fitWindow (s : State) (n : Nat) : State :=
  let c := s.cand n
  if s.candState n = 0 ∨ s.candState n = 1 then s
  else
    let w := recent s.time.clock c.samples
    let start := if w.isEmpty then none else c.start
    let (a, b) := lsSlope w
    let f := roundDiv (a * 1000000000000) (256 * b)
    let line := if w.length < 2 then none else some (meanOf (w.map (·.1)), meanOf (w.map (·.2)), f)
    let full := decide (2 ≤ w.length) && (match start with | some t => decide (t + 10000000000 ≤ s.time.clock) | none => false)
    let s := s.updCand n fun c => { c with samples := w, start := start, line := line }
    let s := s.setFlag (F.REF_CANDn_STAT_WINDOW_FULL n) full
    if full then s.setFldI (F.REF_CANDn_FOFS_FOFS n) f else s.setFld (F.REF_CANDn_FOFS_FOFS n) 0x80000000

/-- Frequency offset of a full window. -/
def State.fofs (s : State) (n : Nat) : Option Int :=
  if s.flag (F.REF_CANDn_STAT_WINDOW_FULL n) then some (s.fldI (F.REF_CANDn_FOFS_FOFS n)) else none

/-- Bands of a candidate in 0.001 ppb: HARD up to 25,000 ppb, SOFT up to HARD. -/
def State.hardBand (s : State) (n : Nat) : Int := 1000 * min 25000 (s.fld (F.REF_CANDn_BANDS_HARD n))
def State.softBand (s : State) (n : Nat) : Int := min (1000 * s.fld (F.REF_CANDn_BANDS_SOFT n)) (s.hardBand n)

/-- The candidates that vote (R293) with their offsets. -/
def State.voters (s : State) : List (Nat × Int) :=
  (List.range 7).filterMap fun n => if s.candState n = 3 then (s.fofs n).map fun f => (n, f) else none

/-- Insert into a sorted list. -/
def insertSorted (x : Int) : List Int → List Int
  | [] => [x]
  | y :: ys => if x ≤ y then x :: y :: ys else y :: insertSorted x ys

/-- Median of R293. -/
def median (l : List Int) : Int :=
  let v := l.foldr insertSorted []
  let k := v.length
  if k % 2 = 1 then v.getD (k / 2) 0 else roundDiv (v.getD (k / 2 - 1) 0 + v.getD (k / 2) 0) 2

/-- Result of the vote: median and majority, where one exists. -/
def State.majority (s : State) : Option (Int × List Nat) :=
  let v := s.voters
  let m := median (v.map (·.2))
  let th : Int := 1000 * max 1 (s.fld F.REF_QUAL_CTL_VOTE)
  let near := v.filter fun x => decide (((x.2 - m).natAbs : Int) ≤ th)
  if 3 ≤ v.length ∧ v.length / 2 + 1 ≤ near.length then some (m, near.map (·.1)) else none

/-- Whether the counted candidates split without a majority (R293). -/
def State.voteSplit (s : State) : Bool :=
  let v := s.voters
  let th : Int := 1000 * max 1 (s.fld F.REF_QUAL_CTL_VOTE)
  if 3 ≤ v.length then s.majority.isNone
  else if v.length = 2 then decide (th < (((v.getD 0 (0, 0)).2 - (v.getD 1 (0, 0)).2).natAbs : Int)) else false

/-- XO_DRIFT (R294): set while every candidate of the majority lies beyond its SOFT of E on the median's side; cleared after 10
s within the smallest SOFT. -/
def State.judgeDrift (s : State) : State :=
  match s.majority with
  | none => s
  | some (m, who) =>
    let d : Int := (m - s.fldI F.REF_HO_FREQ_H).natAbs
    if !s.flag F.REF_STATE_XO_DRIFT then
      if who.all (fun n => decide (s.softBand n < d)) then
        ((s.setFlag F.REF_STATE_XO_DRIFT true).updRef fun r => { r with driftRun := 0 }).logEvent Ev.XO_DRIFT noSource []
      else s
    else
      let run := if who.all (fun n => decide (d ≤ s.softBand n)) then s.ref.driftRun + 1 else 0
      let s := s.updRef fun r => { r with driftRun := run }
      if 10 ≤ run then s.setFlag F.REF_STATE_XO_DRIFT false else s

/-- The trend test (R292): the line through the deviations of up to 60 evaluations, at least 10 of them, crosses ±HARD within
30 s moving outward. The newest deviation stands at time 0. -/
def trendFails (hard : Int) (devs : List (Option Int)) : Bool :=
  let pts : List (Int × Int) := (devs.zipIdx.filterMap fun (d, i) => d.map fun d => (-(i : Int), d))
  let (a, b) := lsSlope pts
  let sx := pts.foldl (fun a p => a + p.1) 0
  let sy := pts.foldl (fun a p => a + p.2) 0
  let n : Int := pts.length
  -- value at +30 s, times n · b
  let v := sy * b + a * (30 * n - sx)
  decide (10 ≤ pts.length) && decide (0 < b) && decide (hard * n * b < v.natAbs) && decide (0 < a * v)

/-- Whether a candidate fails the vote (R293): a majority exists and it lies farther than VOTE from the median. CAND7 takes no part. -/
def State.failsVote (s : State) (n : Nat) (maj : Option (Int × List Nat)) : Bool :=
  match maj, s.fofs n with
  | some (m, _), some f => n != 7 && decide (1000 * (max 1 (s.fld F.REF_QUAL_CTL_VOTE) : Int) < ((f - m).natAbs : Int))
  | _, _ => false

/-- First test of R292 that a full window fails, as its cause; 0 for none. -/
def State.testWindow (s : State) (n : Nat) (d : Int) (maj : Option (Int × List Nat)) : Nat :=
  let suspended := s.flag F.TIME_STATE_XO_SYNTH
  if !suspended ∧ s.hardBand n < d.natAbs then 2
  else if s.failsVote n maj then 3
  else if !suspended ∧ trendFails (s.hardBand n) (s.cand n).devs then 4
  else 0

/-- Whether the cause of a disqualification has cleared (R296). `t` is the first test of R292 failed. -/
def State.causeCleared (s : State) (n t : Nat) : Bool :=
  match s.fld (F.REF_CANDn_STAT_CAUSE n) with
  | 5 => decide (s.qualS ≤ (s.cand n).goodRun)
  | 6 => !(s.lane (s.fld (F.REF_CANDn_CTL_LANE n))).tt.suspect
  | 7 => decide (0 < (s.cand n).traced) && decide ((s.cand n).untraced = 0)
  | 8 => decide (3 ≤ (s.cand n).todRun)
  | _ => (s.fofs n).isSome && t == 0

/-- The further reason for which CAND4 or CAND5 is disqualified (R287), 0 for none. -/
def State.laneCause (s : State) (n : Nat) : Nat :=
  if n ≠ 4 ∧ n ≠ 5 then 0
  else if (s.lane (s.fld (F.REF_CANDn_CTL_LANE n))).tt.suspect then 6
  else if (s.cand n).traced = 0 then 7 else 0

/-- Qualification goes on for a second (R289, R290): CAND7 is qualified 1 s after its exchanges began, any other candidate QUAL_S after it began to
qualify, with a full window. -/
def State.qualify (s : State) (n : Nat) : State :=
  let c := s.cand n
  if n = 7 then
    if (match c.start with | some t => decide (t + 1000000000 ≤ s.time.clock) | none => false) then
      (s.setCandState 7 3).setFld (F.REF_CANDn_STAT_LEFT 7) 0
    else s
  else
    let run := (s.time.clock - c.since) / 1000000000
    let s := (s.updCand n fun c => { c with qualRun := run }).setFld (F.REF_CANDn_STAT_LEFT n) (s.qualS - run)
    if run < s.qualS ∨ (s.fofs n).isNone then s
    else if c.first then (s.updCand n fun c => { c with first := false }).setCandState n 3
    else (s.setCandState n 5).setFld (F.REF_CANDn_STAT_LEFT n) (max 1 (s.fld F.REF_CTL_WTR))

/-- Judge one candidate at the 1 s evaluation (R287, R289, R290, R292, R296). While XO_IN is absent it keeps its state but for the vote and the
reasons of its lane, and the second does not count (R297). -/
def State.judge (s : State) (maj : Option (Int × List Nat)) (n : Nat) : State :=
  let st := s.candState n
  if st = 0 ∨ st = 1 then s
  else
    let e := match maj with
      | some (m, _) => if s.flag F.REF_STATE_XO_DRIFT then m else s.fldI F.REF_HO_FREQ_H
      | none => s.fldI F.REF_HO_FREQ_H
    let d := (s.fofs n).map fun f => f - e
    let step := clampNat 100 1000000 (s.fld F.TIME_STEP_CTL_THRESH)
    let s := s.updCand n fun c => { c with
      devs := (d :: c.devs).take 60
      goodRun := match s.candOffset n with
        | some o => if o.natAbs < 256 * step then c.goodRun + 1 else 0
        | none => 0 }
    let w := match d with | some d => s.testWindow n d maj | none => 0
    let soft := match d with
      | some d => decide (s.softBand n < d.natAbs) && !s.flag F.TIME_STATE_XO_SYNTH
      | none => false
    let rose := soft && !s.flag (F.REF_CANDn_STAT_SOFT n)
    let s := s.setFlag (F.REF_CANDn_STAT_SOFT n) soft
    let s := s.when rose fun s => s.logEvent Ev.REF_SOFT_ALARM n []
    let t := if w ≠ 0 then w else s.laneCause n
    let held := s.flag F.TIME_STATE_XO_SYNTH
    if st = 4 then if !held && s.causeCleared n w then s.startQualifying n else s
    else if t ≠ 0 then s.disqualify n t
    else if held then s.updCand n fun c => { c with since := c.since + 1000000000 }
    else if st = 5 then s.setFld (F.REF_CANDn_STAT_LEFT n) (s.fld (F.REF_CANDn_STAT_LEFT n) - 1)
    else if st = 2 then s.qualify n
    else s

/-- Firmware keeps a holdover record in flash while history exists (R311): here every 3,600 evaluations (log entry 104). -/
def State.keepHoldover (s : State) : State :=
  if !s.fwRuns ∨ s.ref.histN < 30 ∨ s.ref.secs % 3600 ≠ 0 then s
  else
    let r : Seed :=
      { loadClass := s.deviceLoad, tMin := s.fldI F.REF_HO_RANGE_T_MIN, tMax := s.fldI F.REF_HO_RANGE_T_MAX
        h := s.fldI F.REF_HO_FREQ_H, kT := s.fldI F.REF_HO_MODEL_K_T }
    { s with mss := { s.mss with hoRecord := some r } }

/-- CANDIDATE_EVALUATION (R291 to R294, R301): once a second every window is fitted; firmware, while it runs, judges the
candidates in order and changes the selection where the selected one was disqualified. -/
def execCandidateEvaluation (s : State) : Host.Outcome State Fault Refusal :=
  let s := s.updRef fun r => { r with secs := r.secs + 1 }
  let s := (List.range 8).foldl State.fitWindow s
  let s := s.refreshHold
  let s := if s.mode = 3 then s.incFld F.REF_HO_STAT_ELAPSED else s
  let s := s.keepHoldover
  if !s.fwRuns then .next s
  else
    let maj := s.majority
    let voting := s.voters.map (·.1)
    let split := s.voteSplit
    let s := (List.range 8).foldl (fun s n => s.setFlag (F.REF_CANDn_STAT_VOTE_SPLIT n) (split && voting.contains n)) s
    let s := s.judgeDrift
    let s := (List.range 8).foldl (fun s n => s.judge maj n) s
    let s := (List.range 8).foldl (fun s n => s.updCand n fun c => { c with traced := 0, untraced := 0 }) s
    .next (if s.selected ≠ 15 ∧ s.candState s.selected = 4 then s.changeSelection else s)

/-- HISTORY_SAMPLE (R308): while LOCKED with B = 0, the mean word of the second is recorded with the temperature. -/
def execHistorySample (s : State) : Host.Outcome State Fault Refusal :=
  let r := s.ref
  let s1 := s.updRef fun r => { r with freqSum := 0, freqN := 0 }
  if s.mode ≠ 1 ∨ r.build ≠ 0 then .next s1
  else
    let f := if r.freqN = 0 then s.fldI F.REF_FREQ_FREQ else roundDiv r.freqSum r.freqN
    let x : HistSample := { sec := r.secs, freq := f, temp := s.hoTemp }
    .next (s1.updRef fun r => { r with hist := (x :: r.hist).take 86400, histN := r.histN + 1 }).refreshHold

/-- HOLDOVER_EXPIRED (R310): BUDGET seconds have passed; 0 gives no limit. -/
def execHoldoverExpired (s : State) : Host.Outcome State Fault Refusal :=
  let b := s.fld F.REF_HO_CTL_BUDGET
  .next (if s.mode = 3 ∧ b ≠ 0 ∧ min b (2 ^ 20 - 1) ≤ s.fld F.REF_HO_STAT_ELAPSED then
      ((((s.setFld F.REF_STATE_MODE 0).setFlag F.REF_HO_STAT_EXPIRED true).setFld F.REF_HO_STAT_ELAPSED 0).refreshTime
        ).logEvent Ev.HOLDOVER_EXPIRED noSource []
    else s)

-- The loop ------------------------------------------------------------------------------------------------------

/-- TIME_INCR for a frequency word in 0.001 ppb (R255), to the nearest fraction bit. -/
def incrOf (f : Int) : Nat := (roundDiv (5 * 2 ^ 31 * (1000000000000 + f)) 1000000000000).toNat

/-- Show a frequency word. -/
def State.setFreq (s : State) (f : Int) : State :=
  let s := s.setFldI F.REF_FREQ_FREQ f
  (s.setFld F.TIME_INCR_LO_FRAC (incrOf f % 2 ^ 32)).setFld F.TIME_INCR_HI_INT (incrOf f / 2 ^ 32)

/-- The word that the loop would take (R304 to R308, R310): the filter of a followed candidate is not given, so its word is a
free value, for a frequency candidate between the word held and the candidate's frequency. Under the flywheel on CAND6 and
in holdover without XO_IN the word is held. -/
def State.loopTarget (s : State) : Int × State :=
  let f := s.fldI F.REF_FREQ_FREQ
  if s.mode = 0 then (0, s)
  else if s.mode = 3 then (if s.flag F.TIME_STATE_XO_SYNTH then f else s.fldI F.REF_HO_FREQ_H, s)
  else if s.selected = 6 ∧ s.flywheel then (f, s)
  else
    let (x, s) := s.fresh 32
    match isTimeCand s.selected, s.fofs s.selected with
    | false, some g => (clampInt (min f g) (max f g) x.toInt, s)
    | false, none => (f, s)
    | true, _ => (x.toInt, s)

/-- Reduce a build-out towards 0 by one update's share of the slope (R304). -/
def towardZero (x k : Int) : Int := if 0 ≤ x then max 0 (x - k) else min 0 (x + k)

/-- DPLL_UPDATE (R28, R300, R301, R304, R306): every 1 ms. CAND6 under the flywheel is a short holdover: its word is held though no sample comes. `freqA` and `freqB` are the phase samples of FREQIN_A and FREQIN_B
against XO_IN in 1/256 ns. -/
def execDpllUpdate (freqA freqB : Option Int) (s : State) : Host.Outcome State Fault Refusal :=
  let sample := fun (s : State) (n : Nat) (p : Option Int) => match p with
    | some p => if s.candState n = 0 ∨ s.candState n = 1 then s else s.phaseSample n p
    | none => s
  let s := sample (sample s 0 freqA) 1 freqB
  let short := s.selected = 6 ∧ s.flywheel
  let s := if s.selected ≠ 15 ∧ !short ∧ (s.candState s.selected = 1 ∨ s.candState s.selected = 0) then s.enterHoldover else s
  let s := if s.flag F.REF_CTL_FORCE_HO && s.forced && s.selected != 15 then s.enterHoldover else s
  let k : Int := 256 * clampNat 10 10000 (s.fld F.REF_SLOPE_SLOPE)
  let s := (s.updRef fun r => { r with
    build := towardZero r.build k, residual := towardZero r.residual k }).showBuild
  let f := s.fldI F.REF_FREQ_FREQ
  let (t, s) := s.loopTarget
  let g := clampInt (-25000000) 25000000 (f + clampInt (-10000) 10000 (t - f))
  let s := s.setFreq g
  .next (s.updRef fun r => { r with phase := r.phase + 256 * g, freqSum := r.freqSum + g, freqN := r.freqN + 1 })

/-- DISSOLVE_END (R304): the build-out has reached 0. -/
def execDissolveEnd (s : State) : Host.Outcome State Fault Refusal :=
  .next (if s.mode = 2 ∧ s.ref.build = 0 then (s.setFld F.REF_STATE_MODE 1).refreshTime else s)

-- Registers and commands ----------------------------------------------------------------------------------------

/-- Whether a lane may be named by CAND4 or CAND5 (R287). -/
def State.laneRefused (s : State) (n lane : Nat) : Bool :=
  (s.lane lane).chassis || lane == s.fld (F.REF_CANDn_CTL_LANE (9 - n))

/-- A write of REF_CANDn_CTL (R287, R290). Fields reserved on the candidate are ignored (R8). -/
def State.writeCandCtl (s : State) (n : Nat) (v : Word) : State :=
  let b := v.toNat
  let s := s.setFld (F.REF_CANDn_CTL_PRIO n) (bitsOf b 26 4)
  let s := if n ≤ 1 then s.setFld (F.REF_CANDn_CTL_FREQ n) (bitsOf b 18 2) else s
  let s := if n = 2 ∨ n = 3 then s.setFld (F.REF_CANDn_CTL_BAUD n) (bitsOf b 14 3) else s
  let s := if n = 6 then s.setFld (F.REF_CANDn_CTL_FW_VALID n) (bitsOf b 24 1) else s
  let s := if n = 4 ∨ n = 5 then
      if s.laneRefused n (bitsOf b 7 7) then s.logEvent Ev.REF_LANE_REFUSED n []
      else s.setFld (F.REF_CANDn_CTL_LANE n) (bitsOf b 7 7)
    else s
  let s := s.setFld (F.REF_CANDn_CTL_EN n) (bitsOf b 31 1)
  if bitsOf b 31 1 = 0 then
    ((((s.clearWindow n).setCandState n 0).setFld (F.REF_CANDn_STAT_CAUSE n) 0).setFld
      (F.REF_CANDn_STAT_LEFT n) 0).noOffset n
  else if n = 7 ∧ s.role ≠ 1 ∧ s.role ≠ 2 then s
  else (s.startQualifying n).updCand n fun c => { c with first := true, lastSample := s.time.clock }

def execRefCandnCtlWrite (n : Fin 8) (v : Word) (s : State) : Host.Outcome State Fault Refusal :=
  .next (s.writeCandCtl n.val v)

/-- REF_FORCE (R300, R370). -/
def execRefForce (h : Word) (s : State) : Host.Outcome State Fault Refusal :=
  .next (s.run Op.REF_FORCE h.toNat fun e s =>
    let m := e.param 0 1
    let s := s.setFlag F.REF_CTL_FORCE_HO (m == 2)
    let s := if m = 2 then s else s.setFlag F.REF_CTL_FORCE_EN (m == 1)
    let s := if m = 1 then s.setFld F.REF_CTL_FORCE_CAND (e.param 1 1) else s
    s.finish e.handle Out.OK (if s.role = 1 ∨ s.role = 2 then St.FORCE_IGNORED else 0) 0)

/-- A holdover record (R311) read from its 40 bytes. -/
def parseSeed (b : List Byte) : Option Seed :=
  if leAt b 0 2 ≠ 1 ∨ leAt b 36 4 ≠ crc32 (bytesAt b 0 36) then none
  else some
    { loadClass := leAt b 2 1, tMin := toSigned 16 (leAt b 6 2), tMax := toSigned 16 (leAt b 8 2)
      h := toSigned 32 (leAt b 12 4), kT := toSigned 32 (leAt b 16 4) }

/-- REF_SEED (R311, R371). -/
def execRefSeed (h : Word) (sg : List (Nat × Nat)) (obj : List Byte) (s : State) : Host.Outcome State Fault Refusal :=
  .next (s.run Op.REF_SEED h.toNat fun e s =>
    s.receive e 40 sg obj fun rec s =>
      match parseSeed rec with
      | none => s.fail e.handle St.RECORD_INVALID 0
      | some x => (s.updRef fun r => { r with seed := some x }).refreshHold.finish e.handle Out.OK 0 0)

end Sys2Proof.Machine
end

