-- ==== Sys2Proof/Machine/PairSession.lean ====
section
/-!
DEFINITION. Sessions of the continuity stream (spec 08 R229 to R233): accepting records, acknowledging, closing, and the
failure of a join (R246).
-/
namespace Sys2Proof.Machine
open Sys2Proof

/-- Records are accepted only while neither MGMT_IN_RESET nor FLYWHEEL is 1 (R233). -/
def State.takesRecords (s : State) : Bool := !s.flag F.GCTL_STATE_MGMT_IN_RESET && !s.flywheel

/-- Bit 63 of the mate's counters (R229): its UNIT. -/
def State.mateBit (s : State) : Nat := (1 - s.unit) * 2 ^ 63

/-- Send ACK with the next expected counter (R231). Nothing is sent before the session key is derived. -/
def State.sendAck (s : State) (nack : Bool) : State :=
  if s.pair.key.isEmpty then s
  else
    (s.sendRecord 0x03 0 (beBytes 8 (s.pair.rxNext + s.mateBit) ++ [if nack then 0x80 else 0])).updPair fun p =>
      { p with sinceAck := 0 }

/-- Discard a record: counted, and answered with NACK (R231). -/
def State.discard (s : State) : State := (s.incFld F.PAIR_CONT_ERR_DISCARDED).sendAck true

/-- Header fields of a record (R229). -/
def wireKind (w : Wire) : Nat := beAt w.header 0 1
def wireLength (w : Wire) : Nat := beAt w.header 4 4
def wireSession (w : Wire) : Nat := beAt w.header 8 4
def wireCounter (w : Wire) : Nat := beAt w.header 12 8
def wireApply (w : Wire) : Nat := beAt w.header 20 4

/-- A header that passes HCRC with a length it may have, and a body of as many grains. -/
def wireHeaderOk (w : Wire) : Bool :=
  w.header.length == 32 && beAt w.header 28 4 == crc32 (w.header.take 28) && decide (wireLength w ≤ 131072)
    && beAt w.header 2 2 == (wireLength w + 31) / 32 && w.body.length == 32 * ((wireLength w + 31) / 32)

/-- Nonce and body of a record (R230). -/
def wireNonce (w : Wire) : List Byte := bytesAt w.header 8 12
def wireCipher (w : Wire) : List Byte := w.body.take (wireLength w)

/-- Whether the tag verifies under a session key. -/
def wireTagOk (w : Wire) (key : List Byte) : Bool := gcmTag key (wireNonce w) w.header (wireCipher w) == w.tag.take 16

/-- The conditions of R231 for accepting a record. -/
def State.acceptable (s : State) (w : Wire) : Bool :=
  (wireHeaderOk w) && !s.pair.key.isEmpty && wireSession w == s.pair.session && wireCounter w == s.pair.rxNext + s.mateBit
    && wireTagOk w s.pair.key

/-- The body of an accepted record in clear. -/
def State.plain (s : State) (w : Wire) : List Byte := gcmCrypt s.pair.key (wireNonce w) (wireCipher w)

/-- An accepted record is counted, and every eighth is acknowledged at once (R231). -/
def State.counted (s : State) (act : State → State) : State :=
  let s := act (s.updPair fun p => { p with rxNext := p.rxNext + 1, sinceAck := p.sinceAck + 1 })
  if 8 ≤ s.pair.sinceAck then s.sendAck false else s

/-- A record with APPLY_REEL not 0 waits for its core reel boundary; one whose boundary has passed takes the next, and
JOURNAL_LATE is logged (R233). -/
def State.holdRecord (s : State) (reel kind : Nat) (body : List Byte) : State :=
  let now := (s.reg R.SSW_REEL_NOW).toNat
  let late := reel = now || seqLater now reel
  let s := s.updPair fun p => { p with
    journal := p.journal ++ [{ reel := if late then seqNext now else reel, kind := kind, body := body }] }
  let s := s.icRaise 40
  s.when late fun s => s.logEvent Ev.JOURNAL_LATE noSource (leBytes 4 reel)

/-- The record kinds of R232; all others are reserved. -/
def recordKinds : List Nat :=
  [0x01, 0x02, 0x03, 0x10, 0x11, 0x12, 0x20, 0x21, 0x22, 0x23, 0x24, 0x25, 0x30, 0x40, 0x50, 0x51, 0x52, 0x60, 0x70, 0x71, 0x72,
   0x73, 0x74]

/-- Receive a record of one kind (R231, R233): accepted records take effect on receipt or wait for their reel, others are
discarded, and so is one of a reserved kind (R232). A record of another kind of the table is none of this command's. -/
def State.accept (s : State) (kind : Nat) (w : Wire) (act : List Byte → State → State) : State :=
  if !s.takesRecords then s
  else if wireKind w ≠ kind then (if recordKinds.contains (wireKind w) then s else s.discard)
  else if !s.acceptable w then s.discard
  else
    let body := s.plain w
    s.counted fun s => if wireApply w = 0 then act body s else s.holdRecord (wireApply w) kind body

-- Closing -------------------------------------------------------------------------------------------------------

/-- A record not yet acknowledged is withdrawn: its counter goes out as an ACK record (DESIGN CHOICE, assumption 96). -/
def Pair.withdraw (p : Pair) (kind : Nat) (ack : List Byte) : Pair :=
  let f := fun (r : Record) => if r.kind = kind then { r with kind := 0x03, body := ack } else r
  { p with unacked := p.unacked.map f, txQueue := p.txQueue.map fun o => { o with record := f o.record } }

/-- A handover placed on the lead that has had no answer fails when the session leaves UP, and its request is discarded (R247). -/
def State.handoverLost (s : State) : State :=
  if s.role = 3 ∧ s.flag F.PAIR_STATE_HANDOVER ∧ !s.pair.handoverAhead ∧ s.pair.change.isNone then
    let h := s.pair.handoverHandle
    ((s.setFlag F.PAIR_STATE_HANDOVER false).updPair fun p =>
      ({ p with handoverHandle := 0 }).withdraw 0x70 (beBytes 8 (p.rxNext + s.mateBit) ++ [0])).fail h St.ISOLATED 0
  else s

/-- A fence ends a handover under way at either unit: a command placed here fails (DESIGN CHOICE, assumption 97). -/
def State.dropHandover (s : State) : State :=
  if !s.flag F.PAIR_STATE_HANDOVER then s
  else
    let h := s.pair.handoverHandle
    ((s.setFlag F.PAIR_STATE_HANDOVER false).updPair fun p => { p with
      handoverHandle := 0, handoverAhead := false, yielded := false }).fail h St.ISOLATED 0

/-- Commands that are only held for the mate's ACK complete when the lead turns out isolated (R234). -/
def State.settle (s : State) : State :=
  let was := s.flag F.PAIR_STATE_ISOLATED
  let s := s.refreshIsolated
  if s.flag F.PAIR_STATE_ISOLATED && !was && s.role == 3 then s.releaseHeld none else s

/-- Close this side of the session (R246, R251). -/
def State.closeSession (s : State) : State :=
  let s := (s.setFld F.PAIR_CONT_STAT_STATE 0).updPair fun p => { p with
    session := 0, key := [], nonceOwn := [], nonceMate := [], txNext := 1, rxNext := 1, acked := 1, unacked := []
    sinceAck := 0, txQueue := [], txPos := 0 }
  (s.showOutstanding.releaseHeld none).handoverLost.settle

/-- Line transmitters that a join stopped start again (R31); one that is still stopping starts once it has stopped. -/
def State.restartTx (s : State) : State :=
  (List.range 128).foldl (fun s n =>
    if !s.txWanted n then s
    else if s.txState n = 2 then (s.txRequest n 0).refreshLaneState n
    else if s.txState n = 5 then s.updLane n fun l => { l with txTarget := 0 }
    else s) s

/-- Drop the image in progress. -/
def State.dropImage (s : State) : State :=
  s.updPair fun p => { p with image := [], imageTake := 0, imagePurpose := 0, imageBytes := 0, imageDone := false
                              imageWaiting := false }

/-- A standby in RECEIVING is given up and resynced from the active set (R224, R248). -/
def State.dropReceiving (s : State) : State :=
  if s.sby = 6 then s.dropImage.startResync 5 else s.dropImage

/-- A join fails (R246): at the lead orders are released and JOIN_FAILED is logged; at the joining unit the role is NONE
again and the command completes with the step that failed. -/
def State.joinFail (s : State) (status : Nat) : State :=
  let step := s.pair.joinStep
  if step = 0 then s
  else if s.pair.joinLead then
    let s := (s.updPair fun p => { p with joinStep := 0, joinLead := false, snapWaiting := false }).closeSession
    s.logEvent Ev.JOIN_FAILED noSource (leBytes 1 step ++ leBytes 2 status)
  else
    let h := s.pair.joinHandle
    let s := if step = 5 ∧ s.armed then s.cancelSplice else s
    let s := s.dropReceiving.updPair fun p => { p with joinStep := 0, joinHandle := 0, change := none, journal := [] }
    let s := ((s.closeSession.setRole 0).leaveCand7.restartTx).setFlag F.SSW_SBY_PORT_CONTINUITY_EN false
    s.fail h status step

/-- The firmware of this unit fences it with cause COMMAND (R235, R248, R250). -/
def State.fenceSelf (s : State) : State := s.detect .command

-- Acknowledgements ------------------------------------------------------------------------------------------------

/-- EJECT (R232, R248). -/
def State.sendEject (s : State) (reason : Nat) : State := s.sendRecord 0x73 0 (beBytes 1 reason)

/-- A STALLED session is UP again (R231). A unit in SOLO ejects a mate that is not joining (R248). -/
def State.sessionBack (s : State) : State :=
  let s := (s.setFld F.PAIR_CONT_STAT_STATE 2).settle
  if s.role = 4 ∧ !s.pair.joinLead then s.sendEject 0 else s

/-- An ACK record (R231, R234): NEXT covers every earlier record; NACK asks for those from NEXT on again. -/
def State.onAck (s : State) (body : List Byte) : State :=
  let next := beAt body 0 8 % 2 ^ 63
  let s := if s.pair.acked < next ∧ next ≤ s.pair.txNext then
      let s := (s.updPair fun p => { p with
        acked := next, unacked := p.unacked.filter (fun r => next ≤ r.counter), txQueue := p.pruned next }).showOutstanding
      let s := if s.session = 3 then s.sessionBack else s
      s.releaseHeld (some (next - 1))
    else s
  if beAt body 8 1 < 128 then s
  else (s.updPair Pair.resend).incFld F.PAIR_CONT_ERR_RETRANSMITS s.pair.unacked.length

/-- RETRANSMIT (R231): 100 µs without progress; everything unacknowledged is sent again. -/
def execRetransmit (s : State) : Host.Outcome State Fault Refusal :=
  .next (if s.pair.key.isEmpty ∨ s.pair.unacked = [] then s
    else (s.updPair Pair.resend).incFld F.PAIR_CONT_ERR_RETRANSMITS s.pair.unacked.length)

/-- ACK_INTERVAL (R231): 10 µs since the last ACK. A unit that accepts no records sends none (R233). -/
def execAckInterval (s : State) : Host.Outcome State Fault Refusal :=
  .next (if s.takesRecords then s.sendAck false else s)

/-- CONT_STALLED (R231): 20 ms without progress while records are outstanding. -/
def execContStalled (s : State) : Host.Outcome State Fault Refusal :=
  .next (if s.session = 2 ∧ s.pair.unacked ≠ [] then
      ((s.setFld F.PAIR_CONT_STAT_STATE 3).logEvent Ev.CONT_STALLED noSource []).handoverLost.settle
    else s)

end Sys2Proof.Machine
end

