-- ==== Sys2Proof/Machine/PairEvidence.lean ====
section
/-!
DEFINITION. What a unit knows of its mate (spec 08 R217 to R227, R242, R251, R252; 03 R95): mate lanes, heartbeat, witness.
-/
namespace Sys2Proof.Machine
open Sys2Proof

-- The witness ---------------------------------------------------------------------------------------------------

/-- Whether a line lane is set in PAIR_WIT_MASK. -/
def State.isWitness (s : State) (n : Nat) : Bool := (s.reg (R.PAIR_WIT_MASK (n / 32))).toNat.testBit (n % 32)

/-- The witness lanes. -/
def State.witnessLanes (s : State) : List Nat := (List.range 128).filter s.isWitness

/-- What a witness lane last said. -/
def State.wit (s : State) (n : Nat) : Witness := Tbl.get (fun _ => {}) s.pair.witness n

/-- The witness lanes that count (R223): in REEL_SYNC with DUAL = 1. -/
def State.counting (s : State) : List Nat := s.witnessLanes.filter fun n => s.sync n == 2 && (s.wit n).dual

/-- QUORUM (R223). -/
def State.quorum (s : State) : Nat :=
  if s.fld F.PAIR_WIT_CTL_QUORUM = 0 then s.witnessLanes.length / 2 + 1 else s.fld F.PAIR_WIT_CTL_QUORUM

/-- Bring PAIR_WIT_STAT and the witness evidence up to date (R222, R223, R253). A lane out of REEL_SYNC starts its run
again. -/
def State.refreshWitness (s : State) : State :=
  let s := s.updPair fun p => { p with witness := p.witness.filter fun x => s.sync x.1 == 2 }
  let c := s.counting
  let absent := (c.filter fun n => (s.wit n).absent).length
  let s := (s.setFld F.PAIR_WIT_STAT_COUNTING c.length).setFld F.PAIR_WIT_STAT_PRESENT
    (c.filter fun n => (s.wit n).present).length
  let s := (s.setFld F.PAIR_WIT_STAT_ABSENT absent).setFld F.PAIR_WIT_STAT_HIGHER
    (c.filter fun n => s.claim < (s.wit n).other).length
  s.setFlag F.PAIR_STATE_EV_WITNESS (decide (absent < s.quorum))

-- Mate lanes ----------------------------------------------------------------------------------------------------

/-- Claims of the mate lanes that are in REEL_SYNC (R222). -/
def State.laneClaims (s : State) : List Nat :=
  [128, 129].filterMap fun n => if s.sync n = 2 then Tbl.find? s.pair.mateClaims n else none

/-- An order ends without a splice: the command completes with the reason, and the cancels that waited for it succeed (R239, R240,
R367). -/
def State.endOrder (s : State) (o : Order) (status : Nat) : State :=
  o.cancels.foldl (fun s c => s.finish c Out.OK 0 0) ((s.updPair fun p => { p with order := none }).fail o.handle status 0)

/-- Orders that wait for an acknowledgement are armed at once where none is needed any more: in role SOLO or while the mate
is fenced (R239, R251). -/
def State.armUnacked (s : State) : State :=
  match s.pair.order with
  | some o =>
    if o.acked then s
    else
      let s := s.armAt o.reel
      if s.armed then
        let s := (s.updSsw fun x => { x with spliceHandle := o.handle }).updPair fun p => { p with order := some { o with acked := true, cancels := [] } }
        o.cancels.foldl (fun s c => s.fail c St.TOO_LATE 0) s
      else
        let r := s.fld F.SSW_SPLICE_STATE_RESULT
        s.endOrder o (0x0200 + r)
  | none => s

/-- The sign of a fenced mate in the heartbeat (R251): the last valid frame said FENCED, and frames still come. -/
def State.hbSign (s : State) : Bool := s.pair.hbFencedSign && decide (s.time.clock ≤ s.pair.hbAt + 256000)

/-- MATE_FENCED (R251): cleared while a path shows the mate present; set, closing this side of the session, when a sign of a
fenced mate appears while none does. -/
def State.refreshFenced (s : State) : State :=
  let cs := s.laneClaims
  let present := cs.any (· != 0) || (s.flag F.PAIR_STATE_EV_HEARTBEAT && !s.hbSign)
  let sign := cs.any (· == 0) || s.hbSign
  if present then s.setFlag F.PAIR_STATE_MATE_FENCED false
  else if sign && !s.flag F.PAIR_STATE_MATE_FENCED then
    let s := s.setFlag F.PAIR_STATE_MATE_FENCED true
    let s := if s.session = 0 then s
      else if s.pair.joinStep ≠ 0 then s.joinFail St.JOIN_ABORTED else s.closeSession
    if s.role = 3 then s.armUnacked else s
  else s

/-- Bring every sign of the mate up to date (R222, R225, R251). Evidence on any path ends the count of R224. -/
def State.refreshEvidence (s : State) : State :=
  let s := s.updPair fun p => { p with mateClaims := p.mateClaims.filter fun x => s.sync x.1 == 2 }
  let cs := s.laneClaims
  let s := s.setFlag F.PAIR_STATE_EV_MATE_LANES (cs.any (· != 0))
  let s := if [128, 129].all fun n => s.sync n != 2 then s.setFld F.PAIR_MATE_CLAIM_CLAIM 0 else s
  let s := s.refreshWitness.refreshFenced.settle
  if s.allAbsent then s else (s.updPair fun p => { p with absentNs := 0 }).setFld F.PAIR_ABSENT_MS_MS 0

/-- The follower compares TAKE_ID of a mate lane with its active take (R242): runs of differences by lane. -/
def State.noteTakeId (s : State) (n take : Nat) : State :=
  if s.role ≠ 2 then s
  else if take = s.activeTake then
    (s.updPair fun p => { p with splitRun := [] }).setFlag F.PAIR_STATE_TAKE_SPLIT false
  else s.updPair fun p => { p with
    splitRun := Tbl.put (fun _ => 0) p.splitRun n (min 16 (Tbl.get (fun _ => 0) p.splitRun n + 1)) }

/-- Words of block 2 on a mate lane (R95, R219, R222). -/
def State.mateWords (s : State) (n : Nat) (oh : List Byte) : State :=
  let c := beAt oh 0 4
  let s := (s.seeClaim c).updPair fun p => { p with mateClaims := Tbl.insert p.mateClaims n c }
  let s := s.setFld F.PAIR_MATE_CLAIM_CLAIM c
  if c = 0 then s else s.noteTakeId n (beAt oh 14 4)

/-- Words of block 2 on a witness lane (R95, R223). -/
def State.witnessWords (s : State) (n : Nat) (oh : List Byte) : State :=
  let flags := beAt oh 12 1
  let other := if flags.testBit 6 then beAt oh 8 4 else 0
  let w := s.wit n
  let run := if other = 0 then min 8 (w.absentRun + 1) else 0
  let w : Witness :=
    { absentRun := run, absent := if other = 0 then w.absent || run == 8 else false
      present := if other = 0 then w.present && run != 8 else true, dual := flags.testBit 4, other := other }
  (s.seeClaim other).updPair fun p => { p with witness := Tbl.put (fun _ => {}) p.witness n w }

/-- CLAIM_AND_WITNESS_WORDS (R95, R222, R223): the block last decoded is block 2 of a lane in REEL_SYNC. An uncorrectable
one breaks the run of a witness; a looped signal is not used (R481). -/
def execClaimAndWitnessWords (n : LaneNo) (s : State) : Host.Outcome State Fault Refusal :=
  let n := n.val
  match (s.lane n).blk with
  | none => .next s
  | some b =>
    if b.no ≠ 2 ∨ b.used ∨ s.sync n ≠ 2 ∨ s.looped n then .next s
    else
      let s := s.updLane n fun l => { l with blk := some { b with used := true } }
      let s :=
        if b.cls = .uncorrectable then
          if n < 128 ∧ s.isWitness n then s.updPair fun p => { p with
              witness := Tbl.put (fun _ => {}) p.witness n { s.wit n with absentRun := 0 } }
          else s
        else if 128 ≤ n then s.mateWords n (dataOverhead b.data)
        else if s.isWitness n then s.witnessWords n (dataOverhead b.data)
        else s
      .next s.refreshEvidence

/-- PAIR_PROVE (R252): at the end of a whole TAI second, the witness lanes whose far-end counts rose in it. -/
def execPairProve (s : State) : Host.Outcome State Fault Refusal :=
  let w := s.witnessLanes
  let s := (s.setFld F.PAIR_PROVE_LANES_UCB (w.filter fun n => (s.lane n).ucbRose).length).setFld
    F.PAIR_PROVE_LANES_RESCUED (w.filter fun n => (s.lane n).rescuedRose).length
  .next ((List.range 128).foldl (fun s n => s.updLane n fun l => { l with ucbRose := false, rescuedRose := false }) s)

-- The heartbeat -------------------------------------------------------------------------------------------------

/-- The frame this unit sends (R226), 64 bits, most significant first. -/
def State.heartbeatFrame (s : State) : List Byte :=
  let flags := 128 * s.fld F.GCTL_STATE_FENCED + 64 * (decide (s.role = 1)).toNat + 32 * s.fld F.PAIR_STATE_ISOLATED
    + 16 * (decide (0 < s.pair.ackNs)).toNat
  let f := [0xA5, BitVec.ofNat 8 flags] ++ beBytes 4 s.claim ++ [BitVec.ofNat 8 (if 0 < s.pair.ackNs then s.pair.ackTag else 0)]
  f ++ [BitVec.ofNat 8 (crc8 f)]

/-- What HB_OUT carries (R226, R254): frames while TX_EN is 1, otherwise it is held low. -/
def State.heartbeat (s : State) : List Byte := if s.flag F.MATE_HB_CTL_TX_EN then s.heartbeatFrame else []

/-- The level of HB_OUT `t` ns into the period of a bit (R226): 250 ns high for 0, 750 ns for 1. -/
def hbLevel (bit : Bool) (t : Nat) : Bool := decide (t < if bit then 750 else 250)

/-- The lead's order is acknowledged (R239, R240): it arms its own splice, and a cancel that waited is too late. -/
def State.orderAcked (s : State) : State :=
  match s.pair.order with
  | none => s
  | some o =>
    if o.acked then s
    else
      let s := ((s.setFld F.PAIR_ORDER_STAT_TAG o.tag).setFld F.PAIR_ORDER_STAT_RESULT 1).setFld F.PAIR_ORDER_REEL_REEL o.reel
      let s := s.armUnacked
      match s.handle? o.handle with
      | some e => if s.armed then s.sendHandle e 3 0 o.reel else s
      | none => s

/-- HEARTBEAT_FRAME (R222, R226, R227, R239): a frame is received on HB_IN while RX_EN is 1. -/
def execHeartbeatFrame (f : BitVec 64) (s : State) : Host.Outcome State Fault Refusal :=
  if !s.flag F.MATE_HB_CTL_RX_EN then .next s
  else
    let b := beBytes 8 f.toNat
    let sync := beAt b 0 1 == 0xA5
    let crc := crc8 (b.take 7) == beAt b 7 1
    if sync && crc then
      let good := s.pair.hbGoodRun + 1
      let flags := beAt b 1 1
      let claim := beAt b 2 4
      let fenced := flags.testBit 7
      let s := s.updPair fun p => { p with hbGoodRun := min 2 good, hbBadRun := 0, hbFencedSign := fenced, hbAt := s.time.clock }
      let s := if 2 ≤ good then s.setFlag F.MATE_HB_STAT_LOCKED true else s
      let s := (s.setFld F.MATE_HB_STAT_FLAGS flags).setFld F.MATE_HB_STAT_ACK_TAG (beAt b 6 1)
      let s := (s.setFld F.MATE_HB_CLAIM_CLAIM claim).seeClaim claim
      let s := if fenced then s else s.setFlag F.PAIR_STATE_EV_HEARTBEAT true
      let s := match s.pair.order with
        | some o => if s.role = 3 ∧ flags.testBit 4 ∧ beAt b 6 1 = o.tag then s.orderAcked else s
        | none => s
      .next s.refreshEvidence
    else
      let s := s.when (sync && !crc) fun s => s.incFld F.MATE_HB_ERR_CRC_ERR
      let bad := s.pair.hbBadRun + 1
      let s := s.updPair fun p => { p with hbGoodRun := 0, hbBadRun := min 4 bad }
      if 4 ≤ bad ∧ s.flag F.MATE_HB_STAT_LOCKED then
        
        .next (((s.updPair fun p => { p with hbFencedSign := false }).setFlag F.MATE_HB_STAT_LOCKED false).incFld F.MATE_HB_ERR_LOCK_LOSS)
      else .next s

/-- HEARTBEAT_ABSENT (R222): 256 µs without a valid frame that is not FENCED, or RX_EN written 0 (R254), which also ends the sign of
a fenced mate. -/
def State.heartbeatAbsent (s : State) : State :=
  let s := if s.flag F.MATE_HB_CTL_RX_EN then s else s.updPair fun p => { p with hbFencedSign := false }
  (s.setFlag F.PAIR_STATE_EV_HEARTBEAT false).refreshEvidence

def execHeartbeatAbsent (s : State) : Host.Outcome State Fault Refusal := .next s.heartbeatAbsent

/-- The highest mate claim that R220 heeds: mate lanes, heartbeat, and the WIT_OTHER that a quorum reaches. -/
def State.mateClaim (s : State) : Nat :=
  let lanes := s.laneClaims.foldl max 0
  let hb := if s.flag F.PAIR_STATE_EV_HEARTBEAT then (s.reg R.MATE_HB_CLAIM).toNat else 0
  let others := s.counting.map fun n => (s.wit n).other
  let wit := (others.filter fun c => decide (s.quorum ≤ (others.filter fun d => decide (c ≤ d)).length)).foldl max 0
  max lanes (max hb wit)

end Sys2Proof.Machine
end

