-- ==== Sys2Proof/Machine/Time.lean ====
section
/-!
DEFINITION. The timebase, steps, two-way exchanges, the asymmetry watch and the timing port (spec 09; 08 R235, R236).
-/
namespace Sys2Proof.Machine
open Sys2Proof

/-- Change the timebase state. -/
def State.updTime (s : State) (f : Time → Time) : State := { s with time := f s.time }

/-- Step epoch (R257). -/
def State.epoch (s : State) : Nat := s.fld F.TIME_STATE_STEP_EPOCH

-- Path delays ---------------------------------------------------------------------------------------------------

/-- A path delay by the model of R260 and R261, rounded to 1/256 ns: base, coefficient in 2^-16 ns per °C and temperature in 1/64 °C. -/
def pathDelay (base : Nat) (k temp : Int) : Nat := ((base : Int) + roundDiv (k * (temp - 1600)) 16384).toNat

/-- The serialiser phase of a lane follows its transmit delay by one step of 1/256 ns (R261). It stands at the delay first formed. -/
def stepTrim (first : Bool) (trim tx : Int) : Int :=
  if first then tx else if trim < tx then trim + 1 else if tx < trim then trim - 1 else trim

/-- The delays of one lane are formed anew, and `snr` is the ratio its receiver measures, 0 while it has no lock (R74, R260, R261). -/
def State.lanePathDelay (s : State) (snr : List (BitVec 10)) (n : Nat) : State :=
  let g := laneDie n
  let rx := pathDelay (s.fld (F.LANE_TT_DBASE_RX_BASE n)) (s.fldI (F.TIME_TSK_K_RX g)) (s.dieTempSum g)
  let tx := pathDelay (s.fld (F.LANE_TT_DBASE_TX_BASE n)) (s.fldI (F.TIME_TSK_K_TX g)) (s.dieTempSum g)
  let first := !(s.lane n).tt.trimmed
  let s := (s.setFld (F.LANE_TT_PATHDLY_RXDLY n) rx).setFld (F.LANE_TT_PATHDLY_TXDLY n) tx
  let s := s.setFld (F.LANE_SNR_SNR n) (if s.raw n .lol ∨ s.rxDown n then 0 else (snr.getD n 0).toNat)
  s.updLane n fun l => { l with tt := { l.tt with trim := stepTrim first l.tt.trim tx, trimmed := true } }

/-- PATH_DELAY_UPDATE (R260, R261): every 1 ms the delays are formed anew from the die temperatures, and each serialiser phase
moves by at most one step of 1/256 ns towards its transmit delay. -/
def execPathDelayUpdate (snr : List (BitVec 10)) (s : State) : Host.Outcome State Fault Refusal :=
  .next ((List.range 130).foldl (fun s n => s.lanePathDelay snr n) s)

-- Exchanges -----------------------------------------------------------------------------------------------------

/-- Difference of two 40-bit stamps (R264). -/
def diff40 (a b : Nat) : Int := toSigned 40 (a + 2 ^ 40 - b % 2 ^ 40)

/-- A 40-bit value nearest a reference in 1/256 ns, widened (R264). -/
def widen (ref v : Nat) : Int := (ref : Int) + diff40 v ref

/-- Division by 2 that rounds towards zero (R264). -/
def half0 (x : Int) : Int := if 0 ≤ x then x / 2 else -((-x) / 2)

/-- Mean path delay and offset of an exchange in 1/256 ns (R264). `t1` and `t4` are the far end's 40-bit stamps and `hi` its
TAI_NS_HI; `t2` and `t3` are own stamps. Where the offset could exceed 2^31 ns the far stamps are widened with `hi`. -/
def exchange (t1 t2 t3 t4 hi : Nat) (asym : Int) : Int × Int :=
  let t1w : Nat := hi * 2 ^ 40 + t1
  let wide := decide (2 ^ 39 ≤ ((t1w : Int) - t2).natAbs)
  let fwd := if wide then (t2 : Int) - t1w else diff40 t2 t1
  let back := if wide then widen t1w t4 - t3 else diff40 t4 t3
  (half0 (fwd + back), half0 (back - fwd + asym))

/-- The mean offset of a lane, while it has one. -/
def State.meanOfs (s : State) (n : Nat) : Option Int :=
  if s.fld (F.LANE_TT_OFS_OFS n) = 0x80000000 then none else some (s.fldI (F.LANE_TT_OFS_OFS n))

/-- Path pairs of a lane within the unit (R279). -/
def State.pathPartners (s : State) (n : Nat) : List Nat :=
  if n = 128 then [129] else if n = 129 then [128]
  else
    let own := if s.flag (F.LANE_TT_CTL_PAIR_WATCH n) then [s.fld (F.LANE_TT_CTL_PARTNER n)] else []
    let others := (List.range 128).filter fun m =>
      m != n && s.flag (F.LANE_TT_CTL_PAIR_WATCH m) && s.fld (F.LANE_TT_CTL_PARTNER m) == n
    (own ++ others).eraseDups.filter fun m => m != n

/-- The lead's offset for the mate comparison, with the follower's CAND7 offset added (R279). -/
def State.leadPath (s : State) (n : Nat) : Option Int :=
  if s.role ≠ 2 ∨ 128 ≤ n ∨ !s.flag (F.LANE_TT_CTL_MATE_WATCH n) then none
  else
    let v := Tbl.get (fun _ => 0x80000000) s.time.leadOfs (s.fld (F.LANE_TT_CTL_MATE_LANE n))
    match s.candOffset 7 with
    | some c => if v = 0x80000000 then none else some (toSigned 32 v + c)
    | none => none

/-- Divergence threshold in 1/256 ns (R280). -/
def State.asymThresh (s : State) : Int := 256 * max 1 (s.fld F.TIME_ASYM_CTL_THRESH)

/-- Take present offsets of two paths as last good while they agree; a suspect lane keeps its own (R280). -/
def State.noteGood (s : State) (n : Nat) : State :=
  match s.meanOfs n with
  | none => s
  | some a =>
    let keep := fun (s : State) (m : Nat) (v : Int) =>
      s.updLane m fun l => { l with tt := { l.tt with good := if l.tt.suspect then l.tt.good else some v } }
    let s := (s.pathPartners n).foldl (fun s m => match s.meanOfs m with
      | some b => if ((a - b).natAbs : Int) ≤ s.asymThresh then keep (keep s n a) m b else s
      | none => s) s
    match s.leadPath n with
    | some b =>
      if ((a - b).natAbs : Int) ≤ s.asymThresh then
        (keep s n a).updLane n fun l => { l with tt := { l.tt with mateGood := some b } }
      else s
    | none => s

/-- Show LANE_TT_ASYM_EST (R280). -/
def State.showAsymEst (s : State) (n : Nat) : State :=
  let t := (s.lane n).tt
  match t.suspect, s.meanOfs n, t.good with
  | true, some o, some g => s.setFldI (F.LANE_TT_ASYM_EST_EST n) (2 * (o - g))
  | _, _, _ => s.setFld (F.LANE_TT_ASYM_EST_EST n) 0x80000000

/-- Means over the last 4,096 exchanges, in 1/256 ns (R265). -/
def State.showMeans (s : State) (n : Nat) : State :=
  let t := (s.lane n).tt
  let s := if t.ofs.length < 4096 then s.setFld (F.LANE_TT_OFS_OFS n) 0x80000000
    else s.setFldI (F.LANE_TT_OFS_OFS n) (clampInt (-(2 ^ 31 - 1)) (2 ^ 31 - 1) (meanOf t.ofs))
  let s := if t.delay.length < 4096 then s.setFld (F.LANE_TT_DELAY_DELAY n) 0xFFFFFFFF
    else s.setFldI (F.LANE_TT_DELAY_DELAY n) (clampInt 0 (2 ^ 32 - 2) (meanOf t.delay))
  let s := if 128 ≤ n then s.refreshMateDelay else s
  (s.noteGood n).showAsymEst n

/-- An exchange feeds the candidates that use the lane (R284, R287, R289). -/
def State.feedCands (s : State) (n : Nat) (ofs : Int) (traceable : Bool) : State :=
  let suspect := (s.lane n).tt.suspect
  let s := [4, 5].foldl (fun s c =>
    if s.fld (F.REF_CANDn_CTL_LANE c) = n ∧ n < 128 then
      let s := s.updCand c fun x => if traceable then { x with traced := x.traced + 1 } else { x with untraced := x.untraced + 1 }
      if suspect then s else s.offsetSample c ofs
    else s) s
  if n < 128 then s
  else
    let use := [128, 129].filterMap fun m =>
      if (s.lane m).tt.suspect ∨ s.noExchange m then none else (s.lane m).tt.latest
    if use.isEmpty then s else s.offsetSample 7 (meanOf use)

/-- An exchange that meets R263 (R264, R265). -/
def State.takeExchange (s : State) (n : Nat) (delay ofs : Int) (traceable : Bool) : State :=
  let t := (s.lane n).tt
  let mean : Option Int := if t.delay.length < 4096 then none else some (s.fld (F.LANE_TT_DELAY_DELAY n))
  let far := match mean with | some m => decide (2560 < (delay - m).natAbs) | none => false
  if far then
    let s := s.incFld (F.LANE_TT_DISC_DELAY n)
    if t.badRun + 1 < 4096 then s.updLane n fun l => { l with tt := { l.tt with badRun := t.badRun + 1 } }
    else
      (s.restartMeans n).logEvent Ev.TT_DELAY_CHANGE n
        (leBytes 4 (mean.getD 0).toNat ++ leBytes 4 (ofSigned 32 delay))
  else
    let s := s.updLane n fun l => { l with tt := { l.tt with
      ofs := ofs :: l.tt.ofs.take 4095, delay := delay :: l.tt.delay.take 4095, badRun := 0
      latest := some ofs, lastReel := some s.reelSeq } }
    (s.showMeans n).feedCands n ofs traceable

/-- TIMING_WORDS (R263): the block last decoded is block 1 of a reel whose reel control is known. A reel in REEL_SYNC without an
exchange is counted; a looped signal is not used (R481). -/
def execTimingWords (n : LaneNo) (s : State) : Host.Outcome State Fault Refusal :=
  let n := n.val
  match (s.lane n).blk with
  | none => .next s
  | some b =>
    if b.no ≠ 1 ∨ b.used ∨ s.sync n ≠ 2 ∨ s.looped n then .next s
    else
      let s := s.updLane n fun l => { l with blk := some { b with used := true } }
      let oh := dataOverhead b.data
      let l := s.lane n
      let flags := beAt oh 19 1
      let ok := !l.chassis && s.flag (F.LANE_TT_CTL_EN n) && decide (l.reelsSince = 0) && b.cls != .uncorrectable
        && l.ttCap && flags.testBit 7 && flags.testBit 6
      let t2 := l.arrivals.find? fun a => a.seq == beAt oh 0 4
      let t3 := s.time.departures.find? fun a => a.seq == beAt oh 9 4
      match ok, t2, t3 with
      | true, some a, some d =>
        if a.epoch ≠ d.epoch then .next (s.incFld (F.LANE_TT_DISC_OTHER n))
        else
          let ep := beAt oh 18 1
          let s := if l.tt.epoch.isSome ∧ l.tt.epoch ≠ some ep then s.restartMeans n else s
          let s := s.updLane n fun l => { l with tt := { l.tt with epoch := some ep } }
          let (delay, ofs) := exchange (beAt oh 4 5) a.time (256 * d.time) (beAt oh 13 5) (beAt oh 20 4)
            (s.fldI (F.LANE_TT_ASYM_ASYM n))
          let s := ((s.setFlag (F.LANE_TT_STAT_FAR_TRACEABLE n) (flags.testBit 5)).setFlag
            (F.LANE_TT_STAT_FAR_HOLDOVER n) (flags.testBit 4)).setFlag (F.LANE_TT_STAT_FAR_FREE_RUN n) (flags.testBit 3)
          let s := s.setFld (F.LANE_TT_STAT_FAR_EPOCH n) ep
          .next (s.takeExchange n delay ofs (flags.testBit 5))
      | _, _, _ => .next (s.incFld (F.LANE_TT_DISC_OTHER n))

/-- STATE of LANE_TT_STAT (R283): 0 OFF, 1 NO_WORDS, 2 RUNNING, 3 ASYM_SUSPECT. A view, computed at each read. -/
def State.ttState (s : State) (n : Nat) : Nat :=
  if !s.flag (F.LANE_TT_CTL_EN n) ∨ s.sync n ≠ 2 then 0
  else if (s.lane n).chassis ∨ !(s.lane n).ttCap then 1
  else if (s.lane n).tt.suspect then 3 else 2

-- Asymmetry watch -----------------------------------------------------------------------------------------------

/-- A lane becomes suspect (R280). -/
def State.makeSuspect (s : State) (n : Nat) : State :=
  let s := (s.updLane n fun l => { l with tt := { l.tt with suspect := true } }).showAsymEst n
  [4, 5].foldl (fun s c =>
    let st := s.candState c
    if s.fld (F.REF_CANDn_CTL_LANE c) = n ∧ (st = 2 ∨ st = 3 ∨ st = 5) then s.disqualify c 6 else s) s

/-- ASYM_SUSPECT (R280): a divergence has stayed beyond THRESH for HOLD_MS; `mate` names the mate comparison of the lane, else its
path pair within the unit. The path that has moved further is suspect, both where they have moved equally; the lead's path
is only named. DATA holds the other lane, D and a flag 1 for MATE_PATH. -/
def execAsymSuspect (n : LaneNo) (mate : Bool) (s : State) : Host.Outcome State Fault Refusal :=
  let n := n.val
  let far := fun (d : Int) => decide (s.asymThresh < d.natAbs)
  let moved := fun (o : Int) (g : Option Int) => (o - g.getD o).natAbs
  let data := fun (m : Nat) (d : Int) (f : Nat) => leBytes 1 m ++ leBytes 4 (ofSigned 32 d) ++ leBytes 1 f
  let t := (s.lane n).tt
  if mate then
    match s.meanOfs n, s.leadPath n with
    | some a, some b =>
      if !far (a - b) ∨ t.suspect then .next s
      else
        let own := moved a t.good
        let lead := moved b t.mateGood
        let m := s.fld (F.LANE_TT_CTL_MATE_LANE n)
        let s := if lead ≤ own then s.makeSuspect n else s
        let s := if own ≤ lead then s.setFlag (F.LANE_TT_STAT_MATE_PATH_SUSPECT n) true else s
        .next (s.logEvent Ev.ASYM_SUSPECT n (data m (a - b) (if own ≤ lead then 1 else 0)))
    | _, _ => .next s
  else
    let m := if n = 128 then 129 else if n = 129 then 128 else s.fld (F.LANE_TT_CTL_PARTNER n)
    if n < 128 ∧ (!s.flag (F.LANE_TT_CTL_PAIR_WATCH n) ∨ m = n) then .next s
    else
      match s.meanOfs n, s.meanOfs m with
      | some a, some b =>
        if !far (a - b) ∨ t.suspect ∨ (s.lane m).tt.suspect then .next s
        else
          let own := moved a t.good
          let other := moved b (s.lane m).tt.good
          let s := if other ≤ own then s.makeSuspect n else s
          let s := if own ≤ other then s.makeSuspect m else s
          .next (s.logEvent Ev.ASYM_SUSPECT n (data m (a - b) 0))
      | _, _ => .next s

/-- A lane leaves ASYM_SUSPECT (R281): its last good offset is taken afresh. -/
def State.clearSuspect (s : State) (n : Nat) : State :=
  let s := (s.setFlag (F.LANE_TT_STAT_MATE_PATH_SUSPECT n) false).updLane n fun l => { l with
    tt := { l.tt with suspect := false, good := s.meanOfs n, mateGood := s.leadPath n } }
  (s.showAsymEst n).logEvent Ev.ASYM_CLEAR n []

/-- The divergences of a lane from the paths it is compared with, where both have means (R279). -/
def State.divergences (s : State) (n : Nat) : List Int :=
  match s.meanOfs n with
  | none => []
  | some a => ((s.pathPartners n).filterMap s.meanOfs ++ (s.leadPath n).toList).map fun b => a - b

/-- ASYM_CLEAR (R281): |D| has stayed within THRESH for 10 s. -/
def execAsymClear (n : LaneNo) (s : State) : Host.Outcome State Fault Refusal :=
  let n := n.val
  let ds := s.divergences n
  let ok := !ds.isEmpty && ds.all fun d => decide ((d.natAbs : Int) ≤ s.asymThresh)
  let marked := (s.lane n).tt.suspect || s.flag (F.LANE_TT_STAT_MATE_PATH_SUSPECT n)
  .next (if ok && marked then s.clearSuspect n else s)

/-- SUSPECT_CLR (R281): the host writes 1. -/
def State.writeSuspectClr (s : State) (n : Nat) : State :=
  if (s.lane n).tt.suspect || s.flag (F.LANE_TT_STAT_MATE_PATH_SUSPECT n) then s.clearSuspect n else s

def execSuspectClr (n : LaneNo) (s : State) : Host.Outcome State Fault Refusal := .next (s.writeSuspectClr n.val)

/-- A write of LANE_TT_ASYM (R281): in force from the next exchange, and the offset mean restarts. -/
def State.writeTtAsym (s : State) (n : Nat) (v : Word) : State :=
  let s := (s.setReg (R.LANE_TT_ASYM n) v).updLane n fun l => { l with tt := { l.tt with ofs := [] } }
  (s.setFld (F.LANE_TT_OFS_OFS n) 0x80000000).showAsymEst n

def execLaneTtAsymWrite (n : LaneNo) (v : Word) (s : State) : Host.Outcome State Fault Refusal :=
  .next (s.writeTtAsym n.val v)

-- Steps ---------------------------------------------------------------------------------------------------------

/-- TIME_FLAGS of TIME_ALIGN (R267). -/
def State.timeFlags (s : State) : Nat :=
  128 * (s.fld F.TIME_STATE_TRACEABLE) + 64 * (s.fld F.TIME_STATE_HOLDOVER) + 32 * (s.fld F.TIME_STATE_FREE_RUN)
    + 16 * (s.fld F.TIME_STATE_STEP_PENDING)

/-- LEAP of the timing words (R93). -/
def State.leapByte (s : State) : Nat :=
  128 * s.fld F.TIME_UTC_LEAP61 + 64 * s.fld F.TIME_UTC_LEAP59 + 32 * s.fld F.TIME_UTC_VALID

/-- The pending or last step amount in ns. -/
def State.stepNs (s : State) : Int :=
  toSigned 64 (s.fld F.TIME_STEP_NS_LO_NS_LO + 2 ^ 32 * s.fld F.TIME_STEP_NS_HI_NS_HI)

/-- Body of a TIME_ALIGN record for a reel and the count at its boundary (R267). -/
def State.alignBody (s : State) (seq tai : Nat) : List Byte :=
  let pending := s.flag F.TIME_STATE_STEP_PENDING
  beBytes 4 seq ++ beBytes 8 tai ++ beBytes 1 s.epoch ++ beBytes 1 s.timeFlags ++ beBytes 2 (s.fld F.TIME_UTC_UTC_OFFSET)
    ++ beBytes 1 s.leapByte ++ [0, 0, 0]
    ++ beBytes 4 (if pending then (s.reg R.TIME_STEP_REEL).toNat else 0)
    ++ beBytes 8 (if pending then ofSigned 64 s.stepNs else 0)
    ++ (List.range 128).flatMap fun n =>
      beBytes 4 (if (s.lane n).tt.suspect then 0x80000000 else s.fld (F.LANE_TT_OFS_OFS n))

/-- The lead sends TIME_ALIGN (R267). -/
def State.sendAlign (s : State) (seq tai : Nat) : State :=
  if s.role = 3 then s.sendRecord 0x40 0 (s.alignBody seq tai) else s

/-- Schedule a step of `ns` at the local reel boundary of `reel` (R269, R267). -/
def State.scheduleStep (s : State) (ns : Int) (reel : Nat) : State :=
  let v := ofSigned 64 ns
  let s := (s.setFld F.TIME_STEP_NS_LO_NS_LO (v % 2 ^ 32)).setFld F.TIME_STEP_NS_HI_NS_HI (v / 2 ^ 32)
  (s.setReg R.TIME_STEP_REEL (BitVec.ofNat 32 reel)).setFlag F.TIME_STATE_STEP_PENDING true

/-- Reference offset of R268 in 1/256 ns: the selected candidate's offset less the residual of a step still being dissolved. -/
def State.refOffset (s : State) : Option Int :=
  if s.selected = 15 then none else (s.candOffset s.selected).map fun o => o - roundDiv s.ref.residual 10000

/-- Number of reels nearest an offset in 1/256 ns, halves towards zero (R269). -/
def stepReels (o : Int) : Int :=
  let k : Int := (2 * (o.natAbs : Int) + 655359) / 1310720
  if 0 ≤ o then k else -k

/-- STEP_CONFIRM (R268, R269, R271): the offset has stayed at or beyond THRESH for CONFIRM ms. -/
def execStepConfirm (s : State) : Host.Outcome State Fault Refusal :=
  let th : Int := 256 * clampNat 100 1000000 (s.fld F.TIME_STEP_CTL_THRESH)
  match s.refOffset with
  | none => .next s
  | some o =>
    if (o.natAbs : Int) < th ∨ (s.role ≠ 0 ∧ s.role ≠ 3 ∧ s.role ≠ 4) then .next s
    else
      let p := s.fld F.TIME_STEP_CTL_PERMIT
      if p = 1 ∨ (p = 2 ∧ !s.time.everTraceable) then
        let k := stepReels o
        if k = 0 ∨ s.fld F.TIME_DISC_LEFT_REELS ≠ 0 ∨ s.flag F.TIME_STATE_STEP_PENDING then .next s
        else
          let reel := ((s.reg R.SSW_REEL_NOW).toNat + 64) % 2 ^ 32
          let s := (s.scheduleStep (2560 * k) reel).updTime fun t => { t with residual := some (o - 655360 * k) }
          .next (s.sendAlign s.reelSeq s.tai)
      else
        let n := s.selected
        let s := (s.disqualify n 5).logEvent Ev.TIME_INCONSISTENT n []
        .next (if s.fwRuns then s.changeSelection else s.enterHoldover)

/-- TIME_STEP (R256, R270): at the local reel boundary that comes next the scheduled step is applied; one whose reel has passed
is applied now (R233). -/
def execTimeStep (s : State) : Host.Outcome State Fault Refusal :=
  let q := seqNext s.reelSeq
  let r := (s.reg R.TIME_STEP_REEL).toNat
  if !s.flag F.TIME_STATE_STEP_PENDING ∨ (r ≠ q ∧ !seqLater q r) then .next s
  else
    let s := { s with tai := (((s.tai : Int) + s.stepNs) % 2 ^ 64).toNat }
    let s := s.updRef fun x => { x with phase := x.phase + 256000000 * s.stepNs }
    let s := (s.setFld F.TIME_STATE_STEP_EPOCH ((s.epoch + 1) % 256)).setFld F.TIME_DISC_LEFT_REELS 390625
    let s := (s.setFlag F.TIME_STATE_TIME_DISC true).setFlag F.TIME_STATE_STEP_PENDING false
    let s := s.setReg R.TIME_STEP_REEL (BitVec.ofNat 32 q)
    let s := match s.time.residual with
      | some b =>
        let s := (s.updTime fun t => { t with residual := none }).setBuild b b
        if b ≠ 0 ∧ s.mode = 1 then (s.setFld F.REF_STATE_MODE 2).refreshTime else s
      | none => s
    .next (s.logEvent Ev.TIME_STEP noSource (leBytes 8 (ofSigned 64 s.stepNs) ++ leBytes 4 q))

/-- TIME_DISC_END (R270): all 390,625 reels have been sent. -/
def execTimeDiscEnd (s : State) : Host.Outcome State Fault Refusal :=
  .next (if s.fld F.TIME_DISC_LEFT_REELS = 0 then s.setFlag F.TIME_STATE_TIME_DISC false else s)

-- Anchors -------------------------------------------------------------------------------------------------------

/-- The timebase `ticks` of the 400 MHz clock after the last local reel boundary, where its fraction is 0 (R255, R256, R261): nanoseconds with a 32-bit
fraction, each tick adding TIME_INCR. -/
def State.countAt (s : State) (ticks : Nat) : Nat :=
  (s.tai * 2 ^ 32 + ticks * (s.fld F.TIME_INCR_HI_INT * 2 ^ 32 + s.fld F.TIME_INCR_LO_FRAC)) % 2 ^ 96

/-- The five words of an anchor `elapsed` 1/256 ns after the last local reel boundary (R273, R282). -/
def State.anchorWords (s : State) (elapsed : Nat) : List Word :=
  let t := s.tai + elapsed / 256
  let sec := t / 1000000000
  [BitVec.ofNat 32 t, BitVec.ofNat 32 (s.epoch * 2 ^ 24 + elapsed % 256), BitVec.ofNat 32 sec
    , BitVec.ofNat 32 (sec / 2 ^ 32 % 65536), BitVec.ofNat 32 (t % 1000000000)]

/-- A read of TIME_ANCHOR_0 latches the other four words for the reading master (R273, R500). -/
def State.readAnchor (s : State) (m : Master) (elapsed : Nat) : State :=
  let w := s.anchorWords elapsed
  (s.latch m [(R.TIME_ANCHOR_1, w.getD 1 0), (R.TIME_ANCHOR_2, w.getD 2 0), (R.TIME_ANCHOR_3, w.getD 3 0)
    , (R.TIME_ANCHOR_4, w.getD 4 0)]).setRdata m (w.getD 0 0)

def execTimeAnchorRead (m : Master) (elapsed : Fin 655360) (s : State) : Host.Outcome State Fault Refusal :=
  .next (s.readAnchor m elapsed.val)

-- Timing outputs -------------------------------------------------------------------------------------------------

/-- Whether SQUELCH holds an output low (R312): 0 never, 1 in FREE_RUN, 2 and 3 unless TRACEABLE. -/
def State.squelched (s : State) (v : Nat) : Bool :=
  match v with
  | 0 => false
  | 1 => s.flag F.TIME_STATE_FREE_RUN
  | _ => !s.flag F.TIME_STATE_TRACEABLE

/-- Delay of PPS_OUT_k in 1/256 ns, within ±1 ms (R312, R314). -/
def State.ppsDelay (s : State) (k : Nat) : Int := clampInt (-256000000) 256000000 (s.fldI (F.REF_PPSO_DLY_DLY k))

/-- The place in the reel now in progress, in 1/256 ns from its local reel boundary, at which a whole second of the timebase plus the delay of
PPS_OUT_k falls, if one does (R312). -/
def State.ppsEdge (s : State) (k : Nat) : Option Int :=
  let e := (s.ppsDelay k - 256 * (s.tai : Int)) % secondUnits
  if e < 655360 then some e else none

/-- PPS_OUT_k in a reel that begins (R312): an edge that falls in it is made while the output is enabled and not squelched, unless the last one was
less than 200 ms ago. Its width is the one then set. -/
def State.stepPps (s : State) (k : Nat) : State :=
  match s.ppsEdge k with
  | none => s
  | some e =>
    let at_ : Int := 256 * (s.time.clock : Int) + e
    let near := match Tbl.get (fun _ => none) s.time.pps k with | some (t, _) => decide (at_ < t + 51200000000) | none => false
    if !s.flag (F.REF_PPSO_EN k) || s.squelched (s.fld (F.REF_PPSO_SQUELCH k)) || near then s
    else s.updTime fun t => { t with
      pps := Tbl.put (fun _ => none) t.pps k (some (at_, clampNat 1 500000 (s.fld (F.REF_PPSO_WIDTH k)))) }

/-- Level of PPS_OUT_k `e` 1/256 ns after the last local reel boundary (R312): high for WIDTH µs from an edge, and low while not enabled. -/
def State.ppsLevel (s : State) (k : Nat) (e : Int) : Bool :=
  s.flag (F.REF_PPSO_EN k) && (match Tbl.get (fun _ => none) s.time.pps k with
    | some (t, w) =>
      let now : Int := 256 * (s.time.clock : Int) + e
      decide (t ≤ now ∧ now < t + 256000 * (w : Int))
    | none => false)

/-- Period of FREQ_OUT_k in 1/256 ns (R313): 10 MHz, 25 MHz or 100 MHz. -/
def State.foutPeriod (s : State) (k : Nat) : Nat :=
  match s.fld (F.REF_FOUT_FREQ k) with | 1 => 10240 | 2 => 2560 | _ => 25600

/-- Whether FREQ_OUT_k runs: enabled and not squelched. -/
def State.foutOn (s : State) (k : Nat) : Bool := s.flag (F.REF_FOUT_EN k) && !s.squelched (s.fld (F.REF_FOUT_SQUELCH k))

/-- Level of FREQ_OUT_k `e` 1/256 ns after the last local reel boundary (R313): high in the first half of each period of the timebase count. A cycle
that began before the boundary completes. -/
def State.foutLevel (s : State) (k : Nat) (e : Nat) : Bool :=
  let p := s.foutPeriod k
  let t := 256 * s.tai + e
  let on := if t - t % p < 256 * s.tai then Tbl.get (fun _ => false) s.time.fout k else s.foutOn k
  s.flag (F.REF_FOUT_EN k) && on && decide (2 * (t % p) < p)

/-- The timing outputs at a local reel boundary (R312, R313). -/
def State.stepOutputs (s : State) : State :=
  let s := (List.range 2).foldl State.stepPps s
  s.updTime fun t => { t with fout := (List.range 2).foldl (fun a k => Tbl.put (fun _ => false) a k (s.foutOn k)) t.fout }

-- The timing port -----------------------------------------------------------------------------------------------

/-- The port's own address (R282). -/
def State.ptpMac (s : State) : List Byte :=
  beBytes 2 (s.fld F.TIME_PTP_MAC_HI_MAC_HI) ++ beBytes 4 (s.fld F.TIME_PTP_MAC_LO_MAC_LO)

/-- PTP multicast addresses of IEEE 1588-2019 annexes C, D and E. PRESUMED: the manual names the annexes only. -/
def ptpMulticast : List (List Byte) :=
  [[0x01, 0x1B, 0x19, 0, 0, 0], [0x01, 0x80, 0xC2, 0, 0, 0x0E], [0x01, 0, 0x5E, 0, 0x01, 0x81], [0x01, 0, 0x5E, 0, 0, 0x6B]
    , [0x33, 0x33, 0, 0, 0x01, 0x81], [0x33, 0x33, 0, 0, 0, 0x6B]]

/-- VLAN tags a frame begins with. -/
def vlanTags : Nat → List Byte → Nat
  | 0, _ => 0
  | k + 1, b => if beAt b 12 2 = 0x8100 ∨ beAt b 12 2 = 0x88A8 then 1 + vlanTags k (b.take 12 ++ b.drop 16) else 0

/-- Whether a received frame is accepted (R275). -/
def State.acceptsFrame (s : State) (b : List Byte) : Bool :=
  let dest := bytesAt b 0 6
  decide (64 ≤ b.length ∧ b.length ≤ 1522) && decide (vlanTags 2 b ≤ 1)
    && (dest == s.ptpMac || dest == List.replicate 6 0xFF || ptpMulticast.contains dest)

/-- TIMING_PORT_FRAME (R259, R275): an accepted frame goes to firmware with its stamp moved to the reference plane. -/
def execTimingPortFrame (frame : List Byte) (captured : BitVec 72) (s : State) : Host.Outcome State Fault Refusal :=
  if !s.flag F.TIME_PTP_CTL_EN ∨ !s.flag F.TIME_PTP_STAT_BLOCK_LOCK then .next s
  else if !s.acceptsFrame frame then .next (s.incFld F.TIME_PTP_STAT_RX_DISCARDED)
  else
    let stamp := (captured.toNat + 2 ^ 72 - s.fld F.TIME_PTP_RXDLY_DELAY) % 2 ^ 40
    .next ((s.updTime fun t => { t with ptpRx := t.ptpRx ++ [{ bytes := frame, stamp := stamp, epoch := s.epoch }] }).icRaise 42)

/-- Offset of the PTP header in a frame, and whether it is carried over UDP on IPv4 and where that UDP header lies. PRESUMED:
the encapsulations of IEEE 1588-2019 annexes C, D and E. -/
def ptpHeader (b : List Byte) : Nat × Option Nat :=
  let v := 4 * vlanTags 1 b
  let ty := beAt b (12 + v) 2
  if ty = 0x0800 then
    let udp := 14 + v + 4 * (beAt b (14 + v) 1 % 16)
    (udp + 8, some udp)
  else if ty = 0x86DD then (14 + v + 48, none)
  else (14 + v, none)

/-- Replace bytes of a frame from an offset. -/
def patch (b : List Byte) (off : Nat) (x : List Byte) : List Byte := b.take off ++ x ++ b.drop (off + x.length)

/-- One's complement sum of 16-bit words. -/
def onesSum (l : List Nat) : Nat := l.foldl (fun a x => let t := a + x; if 65535 < t then t - 65535 else t) 0

/-- The 16-bit words of bytes. -/
def words16 (b : List Byte) : List Nat := (List.range (b.length / 2)).map fun i => beAt b (2 * i) 2

/-- A frame with the departure time written at TS_OFFSET (R277): on IPv4 the UDP checksum becomes 0; on IPv6 the field at
CKSUM_OFFSET takes up the difference so that the checksum stays valid. -/
def oneStep (r : TransmitRequest) (time : Nat) : List Byte :=
  let ts := beBytes 6 (time / 256 / 1000000000) ++ beBytes 4 (time / 256 % 1000000000)
  let b := patch r.frame r.tsOffset ts
  match ptpHeader r.frame with
  | (_, some udp) => patch b (udp + 6) [0, 0]
  | (_, none) =>
    if beAt r.frame (12 + 4 * vlanTags 1 r.frame) 2 = 0x86DD then
      let old := words16 (bytesAt r.frame r.tsOffset 10)
      let f := onesSum (old ++ [beAt r.frame r.cksumOffset 2] ++ (words16 ts).map fun x => 65535 - x)
      patch b r.cksumOffset (beBytes 2 f)
    else b

/-- Show the fill of the transmit timestamp queue. -/
def State.showTsq (s : State) : State := s.setFld F.TIME_TSQ_STAT_FILL s.time.tsq.length

/-- A departure stamp enters the queue, or is dropped while it is full (R278). -/
def State.pushTsq (s : State) (e : TsqEntry) : State :=
  if s.time.tsq.length < 64 then (s.updTime fun t => { t with tsq := t.tsq ++ [e] }).showTsq.icRaise 41
  else
    let s1 := (s.incFld F.TIME_TSQ_OVERFLOW_COUNT).updTime fun t => { t with tsqDropped := true }
    if s.time.tsqDropped then s1 else s1.logEvent Ev.TSQ_OVERFLOW noSource []

/-- TRANSMIT_REQUEST (R259, R277, R278). -/
def execTransmitRequest (r : TransmitRequest) (s : State) : Host.Outcome State Fault Refusal :=
  if !s.flag F.TIME_PTP_CTL_EN then .next s
  else
    let time := r.captured.toNat + s.fld F.TIME_PTP_TXDLY_DELAY
    let sent := if r.stamp = 2 then oneStep r time else r.frame
    let s := s.updTime fun t => { t with ptpTx := sent }
    let p := (ptpHeader r.frame).1
    .next (if r.stamp = 1 then
        s.pushTsq
          { tag := r.tag.toNat, msgType := beAt r.frame p 1 % 16, seqId := beAt r.frame (p + 30) 2
            ns := time / 256 % 2 ^ 32, frac := time % 256, epoch := s.epoch }
      else s)

/-- A read of TIME_TSQ_POP_0 (R278): the oldest entry is removed, its first word returned and its others latched. -/
def State.popTsq (s : State) (m : Master) : State :=
  match s.time.tsq with
  | [] => s.setRdata m 0
  | e :: rest =>
    let s := (s.updTime fun t => { t with tsq := rest, tsqDropped := false }).showTsq
    (s.latch m [(R.TIME_TSQ_POP_1, BitVec.ofNat 32 (e.seqId * 65536 + e.frac)), (R.TIME_TSQ_POP_2, BitVec.ofNat 32 e.ns)]
      ).setRdata m (BitVec.ofNat 32 (2 ^ 31 + e.msgType * 2 ^ 24 + e.epoch * 65536 + e.tag))

def execTimeTsqPop (m : Master) (s : State) : Host.Outcome State Fault Refusal := .next (s.popTsq m)

/-- TIMING_PORT_BLOCK_LOCK (R282). -/
def execTimingPortBlockLock (lock fault : Bool) (s : State) : Host.Outcome State Fault Refusal :=
  .next ((s.setFlag F.TIME_PTP_STAT_BLOCK_LOCK lock).setFlag F.TIME_PTP_STAT_LINK_FAULT fault)

end Sys2Proof.Machine
end

