-- ==== Sys2Proof/Machine/PairTake.lean ====
section
/-!
DEFINITION. Takes, journal, digest and handles in a pair (spec 08 R232 to R243, R249, R250): what each record of the
continuity stream does once it is accepted.
-/
namespace Sys2Proof.Machine
open Sys2Proof

-- Images at the follower ----------------------------------------------------------------------------------------

/-- Whether the standby must first end a splice or a repair before an image may be written (R155, R250). -/
def State.imageBusy (s : State) : Bool :=
  s.repairTake || s.ssw.repairRunning || s.sby == 2 || s.sby == 4 || s.sby == 7

/-- PREPARED (R232, R237). -/
def State.sendPrepared (s : State) (take result : Nat) (digest : List Byte) : State :=
  s.sendRecord 0x22 0 (beBytes 4 take ++ beBytes 1 result ++ [0, 0, 0] ++ bytesAt digest 0 48)

/-- The page set an increment makes of the active set (R232, R237). None where its circuit section breaks a rule. -/
def State.deltaSet (s : State) (body : List Byte) : Option PageSet :=
  let n := beAt body 8 4
  let a := s.active
  match checkSection (some a) (body.drop (12 + 10 * n)) with
  | .error _ => none
  | .ok (cs, ms) =>
    let conn := (List.range n).foldl (fun (t : Tbl (Option Conn)) i =>
      let k := beAt body (12 + 10 * i) 4
      Tbl.put (fun _ => none) t k (ofImageWord (leAt body (16 + 10 * i) 6))) a.conn
    some { a with take := beAt body 0 4, parent := beAt body 4 4, increment := true, repair := false, conn := conn
                  circuits := cs, merges := mergeTable ms, lost := [] }

/-- The standby goes to RECEIVING for the image in progress (R152, R171). -/
def State.openImage (s : State) : State :=
  let s := s.updPair fun p => { p with imageWaiting := false, matchedTake := none }
  ((s.setSby 6).endResync).setFld F.SSW_STANDBY_TAKE_TAKE s.pair.imageTake

/-- An image begins: it is written in RECEIVING at once, or waits for MIRROR and for its port (R155). A compiled take gives way to a
catch-up image (R250). -/
def State.beginImage (s : State) (take purpose : Nat) : State :=
  let gone := s.sby == 3 && !s.standby.repair && purpose == 1
  let busy := s.imageBusy || gone || !s.flag F.SSW_SBY_PORT_CONTINUITY_EN
  let s := if gone then (s.startResync 0).updPair fun p => { p with matchedTake := none } else s
  let s := s.dropImage.updPair fun p => { p with imageTake := take, imagePurpose := purpose, imageWaiting := busy }
  if busy then s else s.openImage

/-- An image that waits is admitted once the standby is MIRROR and the continuity port is enabled (R155). -/
def State.admitWaiting (s : State) : State :=
  if s.pair.imageWaiting ∧ s.sby = 1 ∧ s.flag F.SSW_SBY_PORT_CONTINUITY_EN then s.openImage else s

/-- The next piece of an image. -/
def State.addPiece (s : State) (piece : List Byte) : State :=
  s.updPair fun p => { p with image := p.image ++ [piece], imageBytes := p.imageBytes + piece.length }

/-- Line transmitters go to IDLE_TX at step 4 of a join, after their stop notice (R31, R245). -/
def State.stopTx (s : State) : State :=
  (List.range 128).foldl (fun s n => if s.txState n = 0 then (s.txRequest n 2).refreshLaneState n else s) s

/-- Length of a take image, once its header is there (R146). -/
def imageLength (pieces : List (List Byte)) : Nat := 1572992 + leAt (pieces.headD []) 16 4

/-- Write a complete image into the standby, which is then COMPILED (R152, R237) with no word left dirty (R156), and do what its purpose
asks: PREPARED, a catch-up splice 64 reels ahead, or step 4 of a join. A snapshot holds its configuration state behind the image. -/
def State.placeImage (s : State) : State :=
  let s := s.admitWaiting
  let p := s.pair
  if !p.imageDone ∨ p.imageWaiting then s
  else
    let bytes := p.image.flatten.take (if p.imagePurpose = 3 then p.imageBytes else imageLength p.image)
    let set? := if p.imagePurpose = 3 then s.deltaSet bytes else some (ofImage bytes s.active.facetMap)
    match set? with
    | none => (s.dropReceiving).sendPrepared p.imageTake 0x06 []
    | some q =>
      let s := (((s.setStandby q).setSby 3).writeImage.setFld F.SSW_STANDBY_TAKE_TAKE q.take).setDirty []
      let s := (s.ssw.retires.filter fun x => !x.written).foldl (fun s x => s.writeBinding x.facet) s
      let s := s.dropImage
      if p.imagePurpose = 1 then
        (s.armAt (((s.reg R.SSW_REEL_NOW).toNat + 64) % 2 ^ 32)).updPair fun p => { p with catchUp := true }
      else if p.imagePurpose = 2 then
        (s.updPair fun p => { p with joinStep := 4 }).stopTx.takeCand7 true
      else
        (s.updPair fun p => { p with matchedTake := some q.take }).sendPrepared q.take 0 q.takeDigest

/-- The image is complete. -/
def State.endImage (s : State) : State := (s.updPair fun p => { p with imageDone := true }).placeImage

/-- TAKE_IMAGE (R237, R250): pieces in order of OFFSET; the first begins the image. -/
def State.onTakeImage (s : State) (body : List Byte) : State :=
  let s := if beAt body 8 4 = 0 then s.beginImage (beAt body 0 4) (beAt body 4 1) else s
  if s.pair.imageTake ≠ beAt body 0 4 ∨ s.pair.imageBytes ≠ beAt body 8 4 ∨ s.pair.imageDone then s
  else
    let s := s.addPiece (body.drop 12)
    if imageLength s.pair.image ≤ s.pair.imageBytes then s.endImage else s

/-- TAKE_DELTA (R237): an increment whose BASE is not the active take is answered with BASE_MISMATCH and not written. -/
def State.onTakeDelta (s : State) (body : List Byte) : State :=
  let take := beAt body 0 4
  if beAt body 4 4 ≠ s.activeTake then s.sendPrepared take 0x05 []
  else ((s.beginImage take 3).addPiece body).endImage

/-- PREPARED at the lead (R237, R364): the compile completes. -/
def State.onPrepared (s : State) (body : List Byte) : State :=
  let take := beAt body 0 4
  if s.pair.prepareTake = 0 ∨ take ≠ s.pair.prepareTake then s
  else
    match s.hif.handles.find? fun e => Op.isCompile e.opcode && e.state == .running && e.ctx == 1 with
    | none => s
    | some e =>
      let s := (s.updPair fun p => { p with prepareTake := 0 }).updHandle e.handle fun x => { x with ctx := 0 }
      let r := beAt body 4 1
      if r ≠ 0 then s.fail e.handle (0x0100 + r) 0
      else if bytesAt body 8 48 ≠ s.standby.takeDigest then s.fail e.handle St.PREPARE_FAILED 0
      else
        let s := (s.updPair fun p => { p with matchedTake := some take }).sendHandle e 4 0 0
        s.finish e.handle Out.OK 0 s.standby.okResult

/-- PREPARE_TIMEOUT (R237): 1 s without PREPARED. -/
def execPrepareTimeout (s : State) : Host.Outcome State Fault Refusal :=
  .next (if s.pair.prepareTake = 0 then s
    else
      let s := s.updPair fun p => { p with prepareTake := 0 }
      match s.hif.handles.find? fun e => Op.isCompile e.opcode && e.state == .running && e.ctx == 1 with
      | some e => s.fail e.handle St.NO_ACK 0
      | none => s)

-- Orders --------------------------------------------------------------------------------------------------------

/-- The follower's reason to refuse an order, in the order of R238; 0 for none. -/
def State.orderRefusal (s : State) (take reel : Nat) : Nat :=
  let lead := seqDiff reel (s.reg R.SSW_REEL_NOW).toNat
  if s.sby ≠ 3 ∨ s.standby.take ≠ take ∨ s.standby.repair ∨ s.pair.matchedTake ≠ some take then 0x28
  else if s.fenced then 0x27
  else if lead < 128 ∨ 2 ^ 31 ≤ lead then 0x21
  else 0

/-- ORDER_ACK (R232). -/
def State.sendOrderAck (s : State) (take reel tag result : Nat) : State :=
  s.sendRecord 0x24 0 (beBytes 4 take ++ beBytes 4 reel ++ beBytes 1 tag ++ beBytes 1 result ++ [0, 0])

/-- ORDER at the follower (R238, R240, R241): it arms first and then acknowledges, on the stream and in its heartbeat. -/
def State.onOrder (s : State) (body : List Byte) : State :=
  let take := beAt body 0 4
  let reel := beAt body 4 4
  let tag := beAt body 8 1
  if s.role ≠ 2 then s
  else
    let why := s.orderRefusal take reel
    let s := if why = 0 then s.armAt reel else s
    let why := if why ≠ 0 then why else s.fld F.SSW_SPLICE_STATE_RESULT
    let s := (s.setFld F.PAIR_ORDER_STAT_TAG tag).setFld F.PAIR_ORDER_STAT_RESULT (if why = 0 then 1 else 2)
    if why ≠ 0 then s.sendOrderAck take reel tag why
    else
      let s := (s.setFld F.PAIR_ORDER_REEL_REEL reel).updPair fun p => { p with
        ackTag := tag, ackNs := 512000, ackOrder := some (take, reel) }
      s.sendOrderAck take reel tag 0

/-- ORDER_ACK at the lead (R239, R240): an acknowledgement arms; a refusal completes the splice with its reason and lets a
waiting cancel succeed. -/
def State.onOrderAck (s : State) (body : List Byte) : State :=
  match s.pair.order with
  | none => s
  | some o =>
    let r := beAt body 9 1
    if beAt body 8 1 ≠ o.tag ∨ o.acked then s
    else if r = 0 then s.orderAcked
    else
      ((s.setFld F.PAIR_ORDER_STAT_TAG o.tag).setFld F.PAIR_ORDER_STAT_RESULT 2).endOrder o (0x0200 + r)

/-- TAKE_DISCARD (R232). -/
def State.sendDiscard (s : State) (take : Nat) : State := s.sendRecord 0x25 0 (beBytes 4 take)

/-- ORDER_TIMEOUT (R239): no acknowledgement with R − Q at 64. -/
def execOrderTimeout (s : State) : Host.Outcome State Fault Refusal :=
  match s.pair.order with
  | none => .next s
  | some o =>
    let left := seqDiff o.reel (s.reg R.SSW_REEL_NOW).toNat
    if o.acked ∨ (64 < left ∧ left < 2 ^ 31) then .next s
    else
      let s := (s.setFld F.PAIR_ORDER_STAT_TAG o.tag).setFld F.PAIR_ORDER_STAT_RESULT 3
      .next ((s.sendDiscard o.take).endOrder o St.NO_ACK)

/-- TAKE_DISCARD at the follower (R239, R365): a compiled take of that number becomes STALE; an image of it is dropped. -/
def State.onDiscard (s : State) (body : List Byte) : State :=
  let take := beAt body 0 4
  let s := if s.pair.matchedTake = some take then s.updPair fun p => { p with matchedTake := none } else s
  if s.sby = 3 ∧ s.standby.take = take ∧ !s.standby.repair then s.startResync 0
  else if s.pair.imageTake = take ∧ s.pair.imagePurpose ≠ 2 then s.dropReceiving
  else s

-- Journal, time and handles -------------------------------------------------------------------------------------

/-- JOURNAL (R234, R195, R196): a circuit change written into both sets, or into the active set alone where the circuit is
deleting. While an image is on its way into the standby, the change is written again behind it. -/
def State.onJournal (s : State) (body : List Byte) : State :=
  if beAt body 0 2 ≠ Op.CIRC_SET then s
  else
    let q := body.drop 4
    let x : CircChange := { reel := 0, circuit := leAt q 0 2, flags := leAt q 2 2, label := leAt q 4 4, add := leAt q 8 1 == 0, handle := 0 }
    let s := s.applyChange x
    if s.sby = 6 ∨ s.pair.imageWaiting then s.updCirc fun c => { c with changes := c.changes ++ [{ x with waits := true }] } else s

/-- TIME_ALIGN (R235, R267): the pairing is kept; the lead's flags, means and a step of the own epoch are taken over; a reel
counter that disagrees by a reel or more fences a follower. -/
def State.onTimeAlign (s : State) (body : List Byte) : State :=
  let seq := beAt body 0 4
  let tai := beAt body 4 8
  let ep := beAt body 12 1
  let s := (s.updPair fun p => { p with align := some (seq, tai, ep) }).updTime fun t => { t with
    leadFlags := beAt body 13 1
    leadOfs := (List.range 128).foldl (fun (a : Tbl Nat) n => Tbl.put (fun _ => 0x80000000) a n (beAt body (32 + 4 * n) 4)) t.leadOfs }
  let s := s.refreshTime
  if s.role ≠ 2 then s
  else
    let s := if (beAt body 13 1).testBit 4 ∧ ep = s.epoch ∧ !s.flag F.TIME_STATE_STEP_PENDING then
        s.scheduleStep (toSigned 64 (beAt body 24 8)) (beAt body 20 4) else s
    let own : Int := (s.tai : Int) + 2560 * toSigned 32 (seqDiff seq s.reelSeq)
    if ep = s.epoch ∧ 2560 ≤ ((tai : Int) - own).natAbs then
      (s.logEvent Ev.REEL_SEQ_SPLIT noSource []).fenceSelf
    else s

/-- HANDLE (R243): the follower's table of the lead's open handles, up to 1,024. -/
def State.onHandle (s : State) (body : List Byte) : State :=
  let m : MateHandle :=
    { handle := beAt body 0 4, opcode := beAt body 4 2, state := beAt body 6 1, status := beAt body 7 1
      take := beAt body 8 4, reel := beAt body 12 4 }
  s.updPair fun p =>
    let rest := p.mateHandles.filter fun x => x.handle != m.handle
    { p with mateHandles := if m.state = 6 then rest else if rest.length < 1024 then rest ++ [m] else rest }

-- Digest --------------------------------------------------------------------------------------------------------

/-- Show a comparison (R249): LAST, REEL, MISMATCHES, DIGEST_BAD and the event. -/
def State.showDigest (s : State) (ok : Bool) (take reel : Nat) : State :=
  let s := (s.setFld F.PAIR_DIGEST_STAT_LAST (if ok then 1 else 2)).setFld F.PAIR_DIGEST_REEL_REEL reel
  let s := s.setFlag F.PAIR_STATE_DIGEST_BAD (!ok)
  if ok then s
  else (s.incFld F.PAIR_DIGEST_STAT_MISMATCHES).logEvent Ev.DIGEST_MISMATCH noSource (leBytes 4 take ++ leBytes 4 reel)

/-- RESYNC_REQ (R232, R250). -/
def State.sendResyncReq (s : State) (reason : Nat) : State := s.sendRecord 0x52 0 (beBytes 1 reason)

/-- The digest of the own active set at a reel: the one kept for it, or of the set as it is. -/
def State.ownDigest (s : State) (reel : Nat) : List Byte :=
  match s.pair.digestOwn with
  | some (r, d) => if r = reel then d else s.active.pairDigest
  | none => s.active.pairDigest

/-- DIGEST at the follower or the joining unit (R245, R249, R250). -/
def State.onDigest (s : State) (body : List Byte) : State :=
  let take := beAt body 0 4
  let reel := beAt body 4 4
  let ok := bytesAt body 8 48 == s.ownDigest reel
  let joining := s.role == 1
  if s.role ≠ 2 ∧ !(joining && s.pair.joinStep == 7 && s.pair.change.isNone) then s
  else
    let s := s.showDigest ok take reel
    let s := s.sendRecord 0x51 0 (beBytes 4 take ++ beBytes 4 reel ++ beBytes 1 (if ok then 1 else 2))
    if joining then
      if !ok then s.joinFail St.DIGEST_MISMATCH
      else
        let e := match s.laneClaims with | [] => s.pair.eSeen | cs => cs.foldl max 0 / 2
        s.updPair fun p => { p with
          change := some { role := 2, claim := 2 * (e - 1) + s.unit, clears := true, handle := p.joinHandle } }
    else
      let after := s.pair.caughtUp
      let s := s.updPair fun p => { p with caughtUp := false }
      if ok then s else if after then s.fenceSelf else s.sendResyncReq 1

/-- The lead leads a joined follower (R245 step 7): role LEAD, held orders released. -/
def State.joinDone (s : State) : State :=
  (s.updPair fun p => { p with joinStep := 0, joinLead := false }).setRole 3

/-- DIGEST_RESULT at the lead (R245, R249). -/
def State.onDigestResult (s : State) (body : List Byte) : State :=
  let ok := beAt body 8 1 == 1
  let s := s.showDigest ok (beAt body 0 4) (beAt body 4 4)
  if s.pair.joinLead && s.pair.joinStep == 7 then (if ok then s.joinDone else s.joinFail St.DIGEST_MISMATCH) else s

/-- The pair digest of the active set in a DIGEST record (R249). -/
def State.sendDigest (s : State) : State :=
  let q := (s.reg R.SSW_REEL_NOW).toNat
  let d := s.active.pairDigest
  let s := s.updPair fun p => { p with digestOwn := some (q, d) }
  if s.role = 3 ∨ s.role = 4 then s.sendRecord 0x50 0 (beBytes 4 s.activeTake ++ beBytes 4 q ++ d) else s

/-- PAIR_DIGEST (R249): at the core reel boundary nearest a whole TAI second. A unit whose cores are held builds no record
(R25). -/
def execPairDigest (s : State) : Host.Outcome State Fault Refusal :=
  .next (if s.fwRuns ∧ (s.role = 2 ∨ s.role = 3) then s.sendDigest else s)

/-- RESYNC_REQ at the lead (R250): the active take goes out with PURPOSE 1. -/
def State.onResyncReq (s : State) : State :=
  if s.role = 3 then s.sendImage s.activeTake 1 s.active.image else s

/-- TAKE_SPLIT (R242): 16 consecutive reels of a mate lane with another TAKE_ID. -/
def execTakeSplit (n : LaneNo) (s : State) : Host.Outcome State Fault Refusal :=
  .next (if s.role = 2 ∧ 16 ≤ Tbl.get (fun _ => 0) s.pair.splitRun n.val ∧ !s.flag F.PAIR_STATE_TAKE_SPLIT then
      ((s.setFlag F.PAIR_STATE_TAKE_SPLIT true).logEvent Ev.TAKE_SPLIT noSource []).sendResyncReq 2
    else s)

end Sys2Proof.Machine
end

