-- ==== Sys2Proof/Machine/PairJoin.lean ====
section
/-!
DEFINITION. Joining, handover, solo mode, yield and takeover (spec 08 R219, R220, R224, R243 to R248; 12 R372 to R374), and
the rows of the continuity records.
-/
namespace Sys2Proof.Machine
open Sys2Proof

-- Sessions ------------------------------------------------------------------------------------------------------

/-- The ASCII bytes of the key derivation (R230). -/
def sessionInfo : List Byte := "IZ7128 continuity".toList.map fun c => BitVec.ofNat 8 c.toNat

/-- Derive key and SESSION from the pair key and both nonces, unit A's first (R230). -/
def State.deriveSession (s : State) : State :=
  let p := s.pair
  let salt := if s.unit = 0 then p.nonceOwn ++ p.nonceMate else p.nonceMate ++ p.nonceOwn
  let okm := hkdf384 (s.mss.pairKey.getD []) salt (sessionInfo ++ beBytes 4 (s.reg R.PAIR_ID).toNat) 36
  s.updPair fun p => { p with key := okm.take 32, session := beNat (okm.drop 32), txNext := 1, rxNext := 1, acked := 1
                              unacked := [], sinceAck := 0, txQueue := [], txPos := 0 }

/-- Draw this unit's nonce (R232), 32 free bytes. -/
def State.drawNonce (s : State) : State :=
  let (x, s) := s.fresh 256
  s.updPair fun p => { p with nonceOwn := beBytes 32 x.toNat }

/-- AUTH_PROOF (R232): both nonces, unit A's first. -/
def State.sendProof (s : State) : State :=
  let p := s.pair
  s.sendRecord 0x02 0 (if s.unit = 0 then p.nonceOwn ++ p.nonceMate else p.nonceMate ++ p.nonceOwn)

/-- PAIR_JOIN (R244, R372). Joining is a role transition: the continuity port is enabled (R155, log entry 98), and CAND7 runs (R289). -/
def execPairJoin (h : Word) (s : State) : Host.Outcome State Fault Refusal :=
  .next (s.run Op.PAIR_JOIN h.toNat fun e s =>
    if !s.fenced ∨ s.role ≠ 0 then s.fail e.handle St.BAD_ROLE 0
    else if s.fenceLive ≠ 0 then s.fail e.handle St.FENCE_CAUSE 0
    else if s.mss.pairKey.isNone then s.fail e.handle St.NO_PAIR_KEY 0
    else if s.reg R.PAIR_ID = 0 then s.fail e.handle St.PAIR_ID_ZERO 0
    else if s.sync 128 ≠ 2 ∧ s.sync 129 ≠ 2 then s.fail e.handle St.MATE_NOT_SYNCED 0
    else
      let s := ((s.closeSession.setRole 1).setFld F.PAIR_CONT_STAT_STATE 1).setFlag F.SSW_SBY_PORT_CONTINUITY_EN true
      let s := s.cand7On
      (s.updPair fun p => { p with joinStep := 1, joinLead := false, joinHandle := e.handle, align := none }).drawNonce)

/-- The lead's refusal of a join (R236, R244, R246): status, 0 for none. -/
def State.joinRefusal (s : State) (idBad clash : Bool) : Nat :=
  let d := s.fld F.PAIR_MATE_DELAY_DELAY
  if !s.flag F.PAIR_CFG_ACCEPT_JOIN || s.pair.lockout then St.JOIN_REFUSED
  else if idBad then St.PAIR_ID_MISMATCH
  else if clash then St.UNIT_CLASH
  else if d ≠ 0xFFFFFFFF ∧ 2560000 < d then St.MATE_DELAY_LIMIT
  else 0

/-- The lead refuses a join in step 1 (R246): its hello and EJECT go out, and the session is closed behind them. -/
def State.refuseJoin (s : State) (status : Nat) : State :=
  let hello : Outgoing := { record := { kind := 0x01, counter := 0, body := s.helloBody }, key := [], session := 0 }
  let s := (s.updPair fun p => { p with txQueue := p.txQueue ++ [hello] }).sendEject (status - 0x200)
  let q := s.pair.txQueue
  let s := s.closeSession.updPair fun p => { p with txQueue := q }
  s.logEvent Ev.JOIN_FAILED noSource (leBytes 1 1 ++ leBytes 2 status)

/-- The lead answers a joining unit's AUTH_HELLO (R244, R245): its own hello, its proof or its refusal. -/
def State.answerHello (s : State) (idBad clash : Bool) : State :=
  let s := (s.setFld F.PAIR_CONT_STAT_STATE 1).drawNonce.deriveSession
  let r := s.joinRefusal idBad clash
  let s := s.when (r == St.MATE_DELAY_LIMIT) fun s => s.logEvent Ev.MATE_DELAY_LIMIT noSource []
  if r ≠ 0 then s.refuseJoin r
  else (s.updPair fun p => { p with joinStep := 2, joinLead := true }).sendProof

/-- AUTH_HELLO (R230, R244, R245): in clear, SESSION and COUNTER 0, no tag. -/
def execAuthHello (w : Wire) (s : State) : Host.Outcome State Fault Refusal :=
  if wireKind w ≠ 0x01 ∨ !s.takesRecords then .next s
  else if !wireHeaderOk w ∨ wireSession w ≠ 0 ∨ wireCounter w ≠ 0 ∨ wireLength w ≠ 52 then .next s.discard
  else
    let b := w.body
    let nonce := bytesAt b 16 32
    let idBad := beAt b 4 4 != (s.reg R.PAIR_ID).toNat
    let clash := beAt b 0 1 == s.unit
    if s.role = 1 ∧ s.pair.joinStep = 1 then
      if idBad then .next (s.joinFail St.PAIR_ID_MISMATCH)
      else if clash then .next (s.joinFail St.UNIT_CLASH)
      else .next ((s.updPair fun p => { p with nonceMate := nonce, joinStep := 2 }).deriveSession.sendProof)
    else if (s.role = 3 ∨ s.role = 4) ∧ s.session ≤ 1 ∧ s.pair.joinStep = 0 ∧ s.mss.pairKey.isSome then
      .next ((s.updPair fun p => { p with nonceMate := nonce }).answerHello idBad clash)
    else .next s

/-- The lead sends the snapshot (R245 step 3): its active take image and configuration state, the handle table and TIME_ALIGN. It waits while a
splice is ordered or its seam reel runs. -/
def State.startSnapshot (s : State) : State :=
  if s.sby = 4 ∨ s.sby = 7 then s.updPair fun p => { p with snapWaiting := true }
  else
    let img := s.active.image ++ Config.snapshotConfig s.free
    let s := (s.fresh 1).2.updPair fun p => { p with snapWaiting := false, joinStep := 3 }
    let s := s.sendRecord 0x10 0 (beBytes 4 s.activeTake ++ beBytes 8 img.length)
    let s := (List.range ((img.length + 65535) / 65536)).foldl (fun s i =>
      s.sendRecord 0x11 0 (beBytes 8 (65536 * i) ++ (img.drop (65536 * i)).take 65536)) s
    let s := (s.hif.handles.filter fun e => e.state != .closed).foldl (fun s e =>
      s.sendRecord 0x60 0 (beBytes 4 e.handle ++ beBytes 2 e.opcode ++ beBytes 1 (if e.state = .running then 2 else 1)
        ++ [0] ++ beBytes 4 (if Op.namesTake e.opcode || Op.isCompile e.opcode then leAt e.params 0 4 else 0) ++ beBytes 4 0)) s
    let s := s.sendRecord 0x40 0 (s.alignBody s.reelSeq s.tai)
    s.sendRecord 0x12 0 (sha384 img)

/-- A failed authentication (R246): three within 10 s lock joins out for 60 s. -/
def State.authFailed (s : State) : State :=
  let s := s.incFld F.PAIR_CONT_ERR_AUTH_FAIL
  if !s.pair.joinLead then s.joinFail St.AUTH_FAILED
  else
    let recent := (s.pair.authFails.filter fun t => decide (s.time.clock < t + 10000000000)) ++ [s.time.clock]
    let s := (s.updPair fun p => { p with authFails := recent }).joinFail St.AUTH_FAILED
    if recent.length < 3 then s
    else (s.updPair fun p => { p with authFails := [], lockout := true }).logEvent Ev.MATE_AUTH_FAIL noSource []

/-- AUTH_PROOF (R244, R245): with both nonces under a tag that verifies the session is UP. A lead whose mate is not joining
ejects it (R248). -/
def execAuthProof (w : Wire) (s : State) : Host.Outcome State Fault Refusal :=
  if wireKind w ≠ 0x02 ∨ !s.takesRecords then .next s
  else if s.session ≠ 1 ∨ s.pair.joinStep ≠ 2 ∨ !wireHeaderOk w ∨ wireCounter w ≠ s.pair.rxNext + s.mateBit then .next s.discard
  else
    let p := s.pair
    let nonces := if s.unit = 0 then p.nonceOwn ++ p.nonceMate else p.nonceMate ++ p.nonceOwn
    if !s.acceptable w ∨ s.plain w ≠ nonces then .next s.authFailed
    else .next (s.counted fun s =>
      let s := (s.setFld F.PAIR_CONT_STAT_STATE 2).settle
      if !s.pair.joinLead then s.updPair fun p => { p with joinStep := 3 }
      else if s.laneClaims.any (· != 0) then
        (s.updPair fun p => { p with joinStep := 0, joinLead := false }).sendEject 0
      else (s.updPair fun p => { p with joinStep := 3 }).startSnapshot)

/-- SNAP_BEGIN at the joining unit (R245). What it knew of the mate's handles is of an earlier session. -/
def State.onSnapBegin (s : State) (body : List Byte) : State :=
  if s.role = 1 ∧ s.pair.joinStep = 3 then (s.updPair fun p => { p with mateHandles := [] }).beginImage (beAt body 0 4) 2 else s

/-- SNAP_DATA: pieces in order of OFFSET. -/
def State.onSnapData (s : State) (body : List Byte) : State :=
  if s.role = 1 ∧ s.pair.imagePurpose = 2 ∧ s.pair.imageBytes = beAt body 0 8 then s.addPiece (body.drop 8) else s

/-- SNAP_END: the snapshot is taken where its digest is right; otherwise the step fails. -/
def State.onSnapEnd (s : State) (body : List Byte) : State :=
  if s.role ≠ 1 ∨ s.pair.imagePurpose ≠ 2 then s
  else if sha384 s.pair.image.flatten = bytesAt body 0 48 then s.endImage
  else s.joinFail St.DIGEST_MISMATCH

/-- JOIN_READY at the lead (R245 step 6): it sends DIGEST at once. -/
def State.onJoinReady (s : State) : State :=
  if s.pair.joinLead ∧ s.pair.joinStep = 3 then (s.updPair fun p => { p with joinStep := 7 }).sendDigest else s

/-- EJECT (R248, R372): a joining unit's join is refused; any other unit's firmware fences it. -/
def State.onEject (s : State) (body : List Byte) : State :=
  let r := beAt body 0 1
  if s.role = 1 then s.joinFail (if r = 0 then St.JOIN_REFUSED else 0x0200 + r) else s.fenceSelf

/-- JOIN_TIMEOUT (R246): 2 s without completing. -/
def execJoinTimeout (s : State) : Host.Outcome State Fault Refusal := .next (s.joinFail St.JOIN_TIMEOUT)

/-- JOIN_LOCKOUT_END (R246). -/
def execJoinLockoutEnd (s : State) : Host.Outcome State Fault Refusal :=
  .next (s.updPair fun p => { p with lockout := false })

/-- The lead's time at this unit's local reel boundary, a whole number of reels (R235, R245 step 4): the mate lanes' offset
widened by the last TIME_ALIGN. -/
def State.leadTime (s : State) : Option (Nat × Nat × Nat) :=
  let ofs := [128, 129].filterMap fun m => (s.lane m).tt.latest
  match s.pair.align, ofs with
  | some (r, t, ep), o :: _ =>
    let now : Int := (t : Int) + toSigned 32 (ofSigned 32 ((s.tai : Int) + roundDiv o 256 - t))
    let tai := 2560 * roundDiv now 2560
    some (tai.toNat, ((((r : Int) + (tai - t) / 2560) % 2 ^ 32).toNat), ep)
  | _, _ => none

/-- Steps 4 to 6 of a join at a local reel boundary (R31, R245): once every line transmitter has stopped and the lead's time
is known, REEL_SEQ, count and step epoch are loaded and the snapshot take is spliced 64 reels ahead; once the transmitters
have started again, JOIN_READY is sent. At the lead a snapshot that waited starts once no splice is ordered. All of it is firmware's (R25). -/
def State.joinBoundary (s : State) : State :=
  if !s.fwRuns then s
  else if s.role ≠ 1 then (if s.pair.joinLead ∧ s.pair.snapWaiting then s.startSnapshot else s)
  else if s.pair.joinStep = 4 then
    let s := s.stopTx
    let moving := (List.range 128).any fun n => s.txState n == 0 || s.txState n == 5 || s.txState n == 6
    match moving, s.leadTime with
    | false, some (tai, seq, ep) =>
      let s := { s with tai := tai, reelSeq := seq, time := { s.time with departures := [] } }
      let s := ((s.setFld F.TIME_STATE_STEP_EPOCH ep).setFld F.SSW_REEL_NOW_REEL seq)
      (s.updPair fun p => { p with joinStep := 5 }).armAt ((seq + 64) % 2 ^ 32)
    | _, _ => s
  else if s.pair.joinStep = 6 then
    let waiting := (List.range 128).any fun n =>
      s.flag (F.LANE_CTL_EN n) && s.fld (F.LANE_CTL_TX_PSTATE n) == 0 && s.txState n != 0
    if waiting then s else (s.updPair fun p => { p with joinStep := 7 }).sendRecord 0x72 0 []
  else s

-- Handover --------------------------------------------------------------------------------------------------------

/-- The follower's check of a handover (R247): status, 0 where it accepts. -/
def State.handoverRefusal (s : State) : Nat :=
  let off := s.candOffset 7
  let busy := s.pair.mateHandles.any (fun m => Op.isCompile m.opcode || m.opcode == Op.TAKE_SPLICE)
    || s.pair.joinStep != 0 || s.sby == 4 || s.sby == 6 || s.pair.change.isSome
  if s.session ≠ 2 ∨ s.flag F.PAIR_STATE_ISOLATED then St.ISOLATED
  else if s.fld F.PAIR_DIGEST_STAT_LAST ≠ 1 then St.DIGEST_MISMATCH
  else if (match off with | some o => decide (256 < o.natAbs) | none => true) then St.NOT_ALIGNED
  else if busy then St.BUSY
  else if 0x7FFFFFFF < s.epochOf + 2 then St.EPOCH_EXHAUSTED
  else 0

/-- The follower raises its claim at the next local reel boundary (R217, R247). Its own epoch is one below the lead's (R218), whose epoch + 1
it takes (R219). -/
def State.acceptHandover (s : State) (h : Nat) : State :=
  (s.setFlag F.PAIR_STATE_HANDOVER true).updPair fun p => { p with
    handoverHandle := h, handoverAhead := true, change := some { role := 3, claim := 2 * (s.epochOf + 2) + s.unit } }

/-- A refusal for want of an epoch is logged (R219). -/
def State.noteExhausted (s : State) (status : Nat) : State :=
  s.when (status == St.EPOCH_EXHAUSTED) fun s => s.logEvent Ev.EPOCH_EXHAUSTED noSource []

/-- PAIR_HANDOVER (R247, R373): forwarded by the lead, checked by the follower. -/
def execPairHandover (h : Word) (s : State) : Host.Outcome State Fault Refusal :=
  .next (s.run Op.PAIR_HANDOVER h.toNat fun e s =>
    if s.role = 3 then
      if s.session ≠ 2 then s.fail e.handle St.ISOLATED 0
      else
        let s := (s.setFlag F.PAIR_STATE_HANDOVER true).updPair fun p => { p with handoverHandle := e.handle, handoverAhead := false }
        s.sendRecord 0x70 0 (beBytes 4 e.handle)
    else if s.role = 2 then
      let r := s.handoverRefusal
      if r ≠ 0 then (s.noteExhausted r).fail e.handle r 0 else s.acceptHandover e.handle
    else s.fail e.handle St.BAD_ROLE 0)

/-- HANDOVER_REQ at the follower (R247). -/
def State.onHandoverReq (s : State) (body : List Byte) : State :=
  if s.role ≠ 2 then s
  else
    let r := s.handoverRefusal
    if r ≠ 0 then (s.noteExhausted r).sendRecord 0x74 0 (bytesAt body 0 4 ++ beBytes 2 r) else s.acceptHandover 0

/-- HANDOVER_REFUSE at the lead (R247). -/
def State.onHandoverRefuse (s : State) (body : List Byte) : State :=
  if s.role = 3 ∧ s.flag F.PAIR_STATE_HANDOVER ∧ s.pair.handoverHandle = beAt body 0 4 then
    ((s.setFlag F.PAIR_STATE_HANDOVER false).updPair fun p => { p with handoverHandle := 0 }).fail (beAt body 0 4) (beAt body 4 2) 0
  else s

/-- The new lead ends the handover (R247): CONTINUITY_EN clears and a command placed here completes. -/
def State.endHandover (s : State) (status : Nat) : State :=
  let h := s.pair.handoverHandle
  let s := (s.setFlag F.SSW_SBY_PORT_CONTINUITY_EN false).setFlag F.PAIR_STATE_HANDOVER false
  (s.updPair fun p => { p with handoverHandle := 0, handoverAhead := false }).finish h Out.OK status s.claim

/-- HANDOVER_ACK at the new lead. -/
def State.onHandoverAck (s : State) : State :=
  if s.role = 3 ∧ s.pair.handoverAhead then s.endHandover 0 else s

/-- ACK_LATE (R247): 100 ms after reel H without HANDOVER_ACK. -/
def execAckLate (s : State) : Host.Outcome State Fault Refusal :=
  .next (if s.role = 3 ∧ s.pair.handoverAhead then s.endHandover St.ACK_LATE else s)

-- Solo ----------------------------------------------------------------------------------------------------------

/-- PAIR_SOLO (R248, R374): refusals in order; the role becomes SOLO at the next local reel boundary. -/
def execPairSolo (h : Word) (s : State) : Host.Outcome State Fault Refusal :=
  .next (s.run Op.PAIR_SOLO h.toNat fun e s =>
    if s.role ≠ 0 ∧ s.role ≠ 3 then s.fail e.handle St.BAD_ROLE 0
    else if s.role = 0 ∧ s.fenceLive ≠ 0 then s.fail e.handle St.FENCE_CAUSE 0
    else if s.session = 2 ∨ s.flag F.PAIR_STATE_EV_MATE_LANES ∨ s.flag F.PAIR_STATE_EV_HEARTBEAT then
      s.fail e.handle St.MATE_PRESENT 0
    else if s.role = 3 then
      s.updPair fun p => { p with change := some { role := 4, claim := s.claim, handle := e.handle } }
    else match s.nextEpoch with
      | none => (s.noteExhausted St.EPOCH_EXHAUSTED).fail e.handle St.EPOCH_EXHAUSTED 0
      | some ep => s.updPair fun p => { p with
          change := some { role := 4, claim := 2 * ep + s.unit, clears := true, handle := e.handle } })

-- Changes at the boundary -----------------------------------------------------------------------------------------

/-- The fence ends (R34, R38): all recorded causes clear, FAULT_N is released and FENCE_LEFT is logged. -/
def State.leaveFence (s : State) : State :=
  let s := s.updSsw fun x => { x with stuck := [] }
  let s := (s.setReg R.GCTL_FENCE_CAUSE 0).setFlag F.GCTL_STATE_FENCED false
  (s.updGctl fun g => { g with faultN := false, causeNew := false }).logEvent Ev.FENCE_LEFT noSource []

/-- Both ports of the standby (R155). -/
def State.setPorts (s : State) (colourist continuity : Bool) : State :=
  (s.setFlag F.SSW_SBY_PORT_COLOURIST_EN colourist).setFlag F.SSW_SBY_PORT_CONTINUITY_EN continuity

/-- A change that would end the fence meets a recorded cause that persists (R34): the solo start or the join fails. -/
def State.dropChange (s : State) (c : PairChange) : State :=
  let s := s.updPair fun p => { p with change := none }
  if s.pair.joinStep ≠ 0 then s.joinFail St.FENCE_CAUSE else s.fail c.handle St.FENCE_CAUSE 0

/-- The change of role and claim that waits takes effect at a local reel boundary (R217, R245 to R248). -/
def State.applyPairChange (s : State) : State :=
  match s.pair.change with
  | none => s
  | some c =>
    if c.clears && s.fenceLive != 0 then s.dropChange c else
    let from_ := s.role
    let s := (s.updPair fun p => { p with change := none }).setFld F.PAIR_CLAIM_CLAIM c.claim
    let s := if c.clears then s.leaveFence else s
    let s := s.setRole c.role
    if c.role = 4 then
      let s := (if from_ = 0 then (s.setPorts true false).dropReceiving else s).armUnacked.releaseHeld none
      s.finish c.handle Out.OK 0 c.claim
    else if c.role = 3 then ((s.setPorts true true).updPair fun p => { p with mateHandles := [] }).leaveCand7
    else
      let s := (s.setPorts false true).updPair fun p => { p with joinStep := 0, joinHandle := 0 }
      s.finish c.handle Out.OK 0 c.claim

/-- What firmware does after a yield (R247): HANDOVER_ACK, COLOURIST_EN cleared, and a command placed here completes. -/
def State.finishYield (s : State) : State :=
  if !s.pair.yielded then s
  else
    let h := s.pair.handoverHandle
    let c := s.mateClaim
    let s := if 2 ≤ s.session then s.sendRecord 0x71 0 (beBytes 4 c) else s
    let s := (s.setFlag F.SSW_SBY_PORT_COLOURIST_EN false).setFlag F.PAIR_STATE_HANDOVER false
    (s.updPair fun p => { p with yielded := false, handoverHandle := 0 }).finish h Out.OK 0 c

/-- YIELD (R220, R302): at a local reel boundary a lead that sees a higher claim becomes follower. -/
def execYield (s : State) : Host.Outcome State Fault Refusal :=
  let c := s.mateClaim
  if (s.role ≠ 3 ∧ s.role ≠ 4) ∨ c ≤ s.claim then .next s
  else
    let s := (s.setFld F.PAIR_CLAIM_CLAIM (2 * (c / 2 - 1) + s.unit)).setRole 2
    let s := (s.setFlag F.SSW_SBY_PORT_CONTINUITY_EN true).takeCand7 false
    let s := (s.logEvent Ev.PAIR_ROLE noSource []).updPair fun p => { p with yielded := true, change := none }
    .next (if s.fwRuns then s.finishYield else s)

-- Takeover --------------------------------------------------------------------------------------------------------

/-- Post the completion of a handle of the old lead (R243, R477): to the ring this unit's HIF_CR_CTL_n.CQ names, to the
mailbox, or as HANDLE_INHERITED. -/
def State.postInherited (s : State) (c : Completion) : State :=
  let c := { c with inherited := true, first := false, final := true }
  let n := ringOf c.handle
  if s.isMailbox n then s.mbxSend c
  else
    let k := s.fld (F.HIF_CR_CTL_CQ n)
    if s.flag (F.HIF_CQ_CTL_EN k) then s.putCompletion k c
    else s.logEvent Ev.HANDLE_INHERITED n (orphanData c)

/-- Outcome, status and RESULT of an inherited handle (R243); none for a splice armed here that has not happened yet. -/
def State.inheritOutcome (s : State) (m : MateHandle) : Option (Nat × Nat × Nat) :=
  if Op.isCompile m.opcode then
    if m.state = 4 ∧ s.sby = 3 ∧ s.standby.take = m.take ∧ s.pair.matchedTake = some m.take then
      some (Out.OK, 0, s.standby.okResult)
    else some (Out.ABANDONED, St.LEAD_LOST, 0)
  else if Op.isSplice m.opcode then
    match s.pair.ackOrder with
    | some (t, r) =>
      if t ≠ m.take then some (Out.NOT_SPLICED, St.LEAD_LOST, 0)
      else if s.armed ∧ !s.standby.repair ∨ s.sby = 7 ∧ s.pair.splicedOrder = some (t, r) then none
      else if s.pair.splicedOrder = some (t, r) then some (Out.SPLICED, 0, r)
      else some (Out.NOT_SPLICED, St.LEAD_LOST, 0)
    | none => some (Out.NOT_SPLICED, St.LEAD_LOST, 0)
  else if Op.isPair m.opcode ∧ m.state = 5 then some (Out.OK, 0, m.reel)
  else some (Out.ABANDONED, St.LEAD_LOST, 0)

/-- Insert by handle number. -/
def insertHandle (m : MateHandle) : List MateHandle → List MateHandle
  | [] => [m]
  | x :: xs => if m.handle ≤ x.handle then m :: x :: xs else x :: insertHandle m xs

/-- Firmware completes the old lead's handles in handle order (R243). -/
def State.inherit (s : State) : State :=
  let l := s.pair.mateHandles.foldr insertHandle []
  let s := s.updPair fun p => { p with mateHandles := [], inheritDue := false }
  l.foldl (fun s m =>
    match s.inheritOutcome m with
    | some (o, st, r) => s.postInherited { handle := m.handle, status := st, outcome := o, first := false, final := true, result := r }
    | none => s.updPair fun p => { p with inheritSplice := m.handle }) s

/-- TAKEOVER (R224, R219, R243): at the local reel boundary after 20 ms without evidence on any path. -/
def execTakeover (s : State) : Host.Outcome State Fault Refusal :=
  if s.role ≠ 2 ∨ !s.allAbsent ∨ s.pair.absentNs < 20000000 ∨ !s.flag F.PAIR_CFG_AUTO_TAKEOVER ∨ s.witnessLanes = [] then
    .next s
  else match s.nextEpoch with
    | none => .next (s.logEvent Ev.EPOCH_EXHAUSTED noSource [])
    | some e =>
      let s := (s.setFld F.PAIR_CLAIM_CLAIM (2 * e + s.unit)).setRole 3
      let s := (s.setPorts true false).dropReceiving.leaveCand7
      let s := (s.logEvent Ev.TAKEOVER noSource []).updPair fun p => { p with change := none, inheritDue := true }
      .next (if s.fwRuns then s.inherit else s)

-- Records -------------------------------------------------------------------------------------------------------

/-- What an accepted record does, by its kind (R232). -/
def State.actRecord (s : State) (kind : Nat) (body : List Byte) : State :=
  match kind with
  | 0x03 => s.onAck body
  | 0x10 => s.onSnapBegin body
  | 0x11 => s.onSnapData body
  | 0x12 => s.onSnapEnd body
  | 0x20 => s.onTakeImage body
  | 0x21 => s.onTakeDelta body
  | 0x22 => s.onPrepared body
  | 0x23 => s.onOrder body
  | 0x24 => s.onOrderAck body
  | 0x25 => s.onDiscard body
  | 0x30 => s.onJournal body
  | 0x40 => s.onTimeAlign body
  | 0x50 => s.onDigest body
  | 0x51 => s.onDigestResult body
  | 0x52 => s.onResyncReq
  | 0x60 => s.onHandle body
  | 0x70 => s.onHandoverReq body
  | 0x71 => s.onHandoverAck
  | 0x72 => s.onJoinReady
  | 0x73 => s.onEject body
  | 0x74 => s.onHandoverRefuse body
  | _ => s

/-- Receive a record of a kind (R231, R233). -/
def State.receiveRecord (s : State) (kind : Nat) (w : Wire) : State :=
  s.accept kind w fun body s => s.actRecord kind body

def execAck (w : Wire) (s : State) : Host.Outcome State Fault Refusal := .next (s.receiveRecord 0x03 w)
def execSnapBegin (w : Wire) (s : State) : Host.Outcome State Fault Refusal := .next (s.receiveRecord 0x10 w)
def execSnapData (w : Wire) (s : State) : Host.Outcome State Fault Refusal := .next (s.receiveRecord 0x11 w)
def execSnapEnd (w : Wire) (s : State) : Host.Outcome State Fault Refusal := .next (s.receiveRecord 0x12 w)
def execTakeImage (w : Wire) (s : State) : Host.Outcome State Fault Refusal := .next (s.receiveRecord 0x20 w)
def execTakeDelta (w : Wire) (s : State) : Host.Outcome State Fault Refusal := .next (s.receiveRecord 0x21 w)
def execPrepared (w : Wire) (s : State) : Host.Outcome State Fault Refusal := .next (s.receiveRecord 0x22 w)
def execOrder (w : Wire) (s : State) : Host.Outcome State Fault Refusal := .next (s.receiveRecord 0x23 w)
def execOrderAck (w : Wire) (s : State) : Host.Outcome State Fault Refusal := .next (s.receiveRecord 0x24 w)
def execTakeDiscardRecord (w : Wire) (s : State) : Host.Outcome State Fault Refusal := .next (s.receiveRecord 0x25 w)
def execJournal (w : Wire) (s : State) : Host.Outcome State Fault Refusal := .next (s.receiveRecord 0x30 w)
def execTimeAlign (w : Wire) (s : State) : Host.Outcome State Fault Refusal := .next (s.receiveRecord 0x40 w)
def execDigest (w : Wire) (s : State) : Host.Outcome State Fault Refusal := .next (s.receiveRecord 0x50 w)
def execDigestResult (w : Wire) (s : State) : Host.Outcome State Fault Refusal := .next (s.receiveRecord 0x51 w)
def execResyncReq (w : Wire) (s : State) : Host.Outcome State Fault Refusal := .next (s.receiveRecord 0x52 w)
def execHandle (w : Wire) (s : State) : Host.Outcome State Fault Refusal := .next (s.receiveRecord 0x60 w)
def execHandoverReq (w : Wire) (s : State) : Host.Outcome State Fault Refusal := .next (s.receiveRecord 0x70 w)
def execHandoverAck (w : Wire) (s : State) : Host.Outcome State Fault Refusal := .next (s.receiveRecord 0x71 w)
def execJoinReady (w : Wire) (s : State) : Host.Outcome State Fault Refusal := .next (s.receiveRecord 0x72 w)
def execEject (w : Wire) (s : State) : Host.Outcome State Fault Refusal := .next (s.receiveRecord 0x73 w)
def execHandoverRefuse (w : Wire) (s : State) : Host.Outcome State Fault Refusal := .next (s.receiveRecord 0x74 w)

/-- JOURNAL_APPLY (R233, R27, R245): at the core reel boundary that comes next, accepted records whose reel it is take effect
in their order. A joining unit applies them from the snapshot on, once it holds it. -/
def execJournalApply (s : State) : Host.Outcome State Fault Refusal :=
  if s.role = 1 ∧ s.pair.joinStep ≤ 3 then .next s
  else
    let q := seqNext (s.reg R.SSW_REEL_NOW).toNat
    let due := fun (x : JournalEntry) => x.reel == q || seqLater q x.reel
    let now := s.pair.journal.filter due
    let s := s.updPair fun p => { p with journal := p.journal.filter fun x => !due x }
    .next (now.foldl (fun s x => s.actRecord x.kind x.body) s)

end Sys2Proof.Machine
end

