-- ==== Sys2Proof/Machine/SpliceReel.lean ====
section
/-!
DEFINITION. The splice reel (spec 06 R172, R180, R181; 05 R154, R169; 07 R197, R201, R203; 04 R129), the end of the seam reel and
the end of a resync.
-/
namespace Sys2Proof.Machine
open Sys2Proof

/-- A circuit that the splice deletes leaves FDI (R129). -/
def State.circuitLeaves (s : State) (c : Nat) (e : CircEntry) (q : Nat) : State :=
  let was := (s.fdiOf c).inFdi
  let s := s.updCirc fun x => { x with
    fdi := Tbl.erase x.fdi c, left := if x.left.contains c then x.left else x.left ++ [c] }
  if was then s.fdiEvent c e false q else s

/-- A lane that is no longer one of a pair shows no merge state (R206, R216) and no skew (R200). -/
def State.unpairLane (s : State) (n : Nat) : State :=
  let s := (s.setFld (F.CIRC_MERGE_STATE n) 0).setFlag (F.CIRC_MERGE_IN_STEP n) false
  let s := (s.setFlag (F.CIRC_MERGE_FILLING n) false).setFld (F.CIRC_MERGE_DELAY n) 0
  (s.setFld (F.CIRC_MERGE_PARTNER n) 0).forgetSkew n

/-- Insert a lane pair by its lower lane. -/
def insertPair (p : LanePair) : List LanePair → List LanePair
  | [] => [p]
  | x :: xs => if p.lo ≤ x.lo then p :: x :: xs else x :: insertPair p xs

/-- Lane pairs from the splice reel on (R201, R203): those of both takes keep anchor and buffers, new ones take what was armed
with the anchor of the offsets now measured, and those removed hold their buffers until the end of the seam reel. -/
def State.splicePairs (s : State) (incoming : PageSet) : State :=
  let want := lanePairsOf incoming
  let same := fun (a b : LanePair) => a.lo == b.lo && a.hi == b.hi
  let old := s.circ.pairs
  let next := want.map fun p =>
    match old.find? (same p) with
    | some x => { x with pri := p.pri }
    | none => match s.circ.newPairs.find? (same p) with
      | some x => { x with pri := p.pri, anchor := s.firstAnchor p }
      | none => { p with anchor := s.firstAnchor p }
  let gone := old.filter fun x => !want.any (same x)
  let fresh := want.filter fun x => !old.any (same x)
  let s := s.updCirc fun c => { c with
    pairs := next.foldr insertPair [], newPairs := [], leaving := gone.foldl (fun a x => a + x.bufs) 0 }
  let s := fresh.foldl (fun s p => [p.lo, p.hi].foldl (fun s n =>
    s.forgetSkew n) s) s
  let s := gone.foldl (fun s p =>
    let s := (s.unpairLane p.lo).unpairLane p.hi
    s.logEvent Ev.MERGE_STATE p.lo (leBytes 1 p.lo ++ leBytes 1 p.hi ++ [0])) s
  s.showPool

/-- The splice takes effect at the start of core reel `q` (R172). Circuits that it adds again are REUSED (R197). Where the interval of the
dailies begins at this boundary, the circuits of the outgoing take are not of it (R209). -/
def State.doSplice (s : State) (q : Nat) : State :=
  let out := s.active
  let inc := s.standby
  let b := s.circ.live
  let was : SpliceBefore :=
    { last := (s.reg R.SSW_LAST_SPLICE).toNat, pairs := s.circ.pairs, fdi := s.circ.fdi, left := s.circ.left, present := b.present
      reused := b.reused }
  let s := s.updCirc fun c => { c with before := some was }
  let s := s.updCirc fun c => if b.startReel = q then { c with left := [], live := { c.live with present := [], reused := [] } } else c
  let s := s.splicePairs inc
  let again := inc.circs.filter fun x => (out.circAt x.1).isNone && s.circ.left.contains x.1
  let s := s.updCirc fun c => { c with live := { c.live with reused := c.live.reused ++ again.map (·.1) } }
  let s := (out.circs.filter fun x => (inc.circAt x.1).isNone).foldl (fun s x => s.circuitLeaves x.1 x.2 q) s
  let s := s.setFlag F.SSW_PAGE_STATE_ACTIVE_SET (!s.activeIsB)
  let s := ((s.setSby 7).endResync).setFld F.SSW_SPLICE_STATE_STATE 2
  let s := (s.setFld F.SSW_ACTIVE_TAKE_TAKE inc.take).setFld F.SSW_STANDBY_TAKE_TAKE out.take
  let s := s.setFld F.SSW_LAST_SPLICE_REEL q
  let s := if inc.repair then s else s.updPair fun p => { p with splicedOrder := some (inc.take, q) }
  (s.updCirc fun c => { c with live := { c.live with splices := c.live.splices + 1 } }).notePresent

/-- A splice is not applied because a fence takes effect at its boundary (R35, R180); an inherited one ends NOT_SPLICED too (R243). -/
def State.skipSplice (s : State) (q : Nat) : State :=
  let h := s.ssw.spliceHandle
  let s := (s.setSby 3).setFld F.SSW_SPLICE_STATE_STATE 0
  let s := (s.incFld F.SSW_SPLICE_SKIP_COUNT).dropPairs
  let s := s.logEvent Ev.SPLICE_SKIPPED noSource (leBytes 4 s.standby.take ++ leBytes 4 q)
  let s := (s.updSsw fun x => { x with spliceHandle := 0 }).updPair fun p => { p with order := none, catchUp := false }
  let s := s.fail h St.FENCED_AT_SPLICE 0
  let s := if s.pair.inheritSplice = 0 then s
    else (s.updPair fun p => { p with inheritSplice := 0 }).postInherited
      { handle := s.pair.inheritSplice, status := St.FENCED_AT_SPLICE, outcome := Out.NOT_SPLICED, first := false, final := true }
  s.armRepair

/-- A fence that takes effect at the boundary of the splice reel finds the splice made 80 ns before, at the start of the core reel: it is
taken back (R35, R180). -/
def State.undoSplice (s : State) (q : Nat) : State :=
  match s.circ.before with
  | none => s
  | some b =>
    let s := s.setFlag F.SSW_PAGE_STATE_ACTIVE_SET (!s.activeIsB)
    let s := (s.setFld F.SSW_ACTIVE_TAKE_TAKE s.active.take).setFld F.SSW_STANDBY_TAKE_TAKE s.standby.take
    let s := s.setFld F.SSW_LAST_SPLICE_REEL b.last
    let s := s.updCirc fun c => { c with
      before := none, pairs := b.pairs, fdi := b.fdi, left := b.left, leaving := 0
      live := { c.live with
        splices := c.live.splices - 1, reused := b.reused
        present := if c.live.startReel = q then s.active.circs.map (·.1) else b.present } }
    (s.updPair fun p => { p with splicedOrder := none }).skipSplice q

/-- A fence that takes effect at the local boundary of reel `q` while the seam reel of a splice at `q` is in progress. -/
def State.fenceAtSplice (s : State) (q : Nat) : State :=
  if s.sby = 7 ∧ (s.reg R.SSW_LAST_SPLICE).toNat = q then s.undoSplice q else s

/-- SPLICE (R172, R180): an armed splice whose reel is the core reel that comes next. A fence that takes effect at that
boundary stops it; a unit already fenced applies it. -/
def execSplice (s : State) : Host.Outcome State Fault Refusal :=
  let q := seqNext s.reelSeq
  .next (if !s.armed ∨ (s.reg R.SSW_SPLICE_AT).toNat ≠ q then s
    else if s.fencePending then s.skipSplice q
    else s.doSplice q)

/-- SEAM_REEL_END (R154, R169, R181, R203, R245, R250): the outgoing set becomes STALE and its resync begins; retirements,
splice command, join step and catch-up that waited for the seam reel go on. -/
def execSeamReelEnd (s : State) : Host.Outcome State Fault Refusal :=
  if s.sby ≠ 7 then .next s
  else
    let r := (s.reg R.SSW_LAST_SPLICE).toNat
    let h := s.ssw.spliceHandle
    let s := ((s.updCirc fun c => { c with leaving := 0, before := none }).showPool).endRetires
    let s := ((s.startResync 0).setFld F.SSW_SPLICE_STATE_STATE 0).icEdge 36
    let s := (s.updSsw fun x => { x with spliceHandle := 0 }).updPair fun p => { p with order := none }
    let s := s.finish h Out.SPLICED 0 r
    let s := if s.pair.inheritSplice = 0 then s
      else (s.updPair fun p => { p with inheritSplice := 0 }).postInherited
        { handle := s.pair.inheritSplice, status := 0, outcome := Out.SPLICED, first := false, final := true, result := r }
    let s := if s.pair.catchUp then s.updPair fun p => { p with catchUp := false, caughtUp := true } else s
    let s := if s.role = 1 ∧ s.pair.joinStep = 5 then (s.updPair fun p => { p with joinStep := 6 }).restartTx else s
    .next (if s.pair.snapWaiting ∧ s.fwRuns then s.startSnapshot else s)

/-- RESYNC_DONE (R154, R155): the standby is MIRROR, and an image that waits for it is written. -/
def execResyncDone (uncorrectable : List (MemKind × Nat)) (s : State) : Host.Outcome State Fault Refusal :=
  .next (s.resyncDone uncorrectable).placeImage

end Sys2Proof.Machine
end

