-- ==== Sys2Proof/Machine/Commands.lean ====
section
/-!
DEFINITION. Host commands for lanes, takes, reports, fence, CMC, log, facets and test (spec 12 R356 to R368, R375 to R377, R380 to
R382; 06 R188; 17 R488).
-/
namespace Sys2Proof.Machine
open Sys2Proof

/-- Change the context of a running command. -/
def State.setCtx (s : State) (h ctx : Nat) : State := s.updHandle h fun x => { x with ctx := ctx }

/-- NOP (R356). -/
def execNop (h : Word) (s : State) : Host.Outcome State Fault Refusal :=
  .next (s.run Op.NOP h.toNat fun e s => s.finish e.handle Out.OK 0 0)

-- Lanes ---------------------------------------------------------------------------------------------------------

/-- Part of a LANE_TRACE has come into effect at reel `q` (R359): with the later part the command completes. Context bits: 1
SEND, 2 EXPECT. -/
def State.tracePart (s : State) (h part q : Nat) : State :=
  match s.handle? h with
  | none => s
  | some e =>
    if e.ctx / part % 2 = 0 then s
    else
      let s := s.setCtx h (e.ctx - part)
      if e.ctx = part then s.finish h Out.OK 0 q else s

/-- LANE_TRACE (R359): the sent trace waits for a reel with REEL_SEQ mod 8 = 0, the expected one for an assembly boundary, or
comes into effect at once where the lane is not in REEL_SYNC. -/
def execLaneTrace (h : Word) (sg : List (Nat × Nat)) (obj : List Byte) (s : State) : Host.Outcome State Fault Refusal :=
  .next (s.run Op.LANE_TRACE h.toNat fun e s =>
    s.receive e 128 sg obj fun b s =>
      let n := e.param 0 1
      let which := e.param 1 1
      let s := s.setCtx e.handle (which % 4)
      let s := if which.testBit 0 then s.updLane n fun l => { l with traceTxNext := some (b.take 64) } else s
      if which.testBit 1 then
        let s := (List.range 16).foldl (fun s k =>
          s.setReg (R.LANE_TRACE_EXP n k) (BitVec.ofNat 32 (leAt b (64 + 4 * k) 4))) s
        if s.sync n = 2 then s.updLane n fun l => { l with traceExpTouched := true }
        else (s.updLane n fun l => { l with traceExp := s.traceRegs n, traceExpTouched := false }).tracePart e.handle 2 s.reelSeq
      else s)

/-- The CMC mode a lane will have after the next boundary. -/
def State.cmcNext (s : State) (n : Nat) : CmcMode :=
  let c := (s.lane n).cmc
  match c.next with | some m => m | none => c.mode

/-- A lane leaves its courier pair; the partner takes mode none (R360). -/
def State.dissolveCourier (s : State) (n : Nat) : State :=
  match s.cmcNext n with
  | .courier p => s.updCmc p fun c => { c with next := some .none }
  | _ => s

/-- LANE_CMC (R360): the change takes effect at the next local reel boundary, where the command completes. -/
def execLaneCmc (h : Word) (s : State) : Host.Outcome State Fault Refusal :=
  .next (s.run Op.LANE_CMC h.toNat fun e s =>
    let a := e.param 0 1
    let b := e.param 2 1
    let s := s.dissolveCourier a
    match e.param 1 1 with
    | 0 => s.updCmc a fun c => { c with next := some .none }
    | 1 => s.updCmc a fun c => { c with next := some .terminated }
    | _ =>
      let s := s.dissolveCourier b
      (s.updCmc b fun c => { c with next := some (.courier a) }).updCmc a fun c => { c with next := some (.courier b) })

-- Takes ---------------------------------------------------------------------------------------------------------

/-- TAKE_COMPILE (R363). -/
def execTakeCompile (h : Word) (sg : List (Nat × Nat)) (obj : List Byte) (s : State) : Host.Outcome State Fault Refusal :=
  .next (s.run Op.TAKE_COMPILE h.toNat fun e s =>
    let n := e.param 4 4
    let c := e.param 8 4
    s.receive e (8 * n + c) sg obj fun b s =>
      s.requestJob e.handle false (e.param 0 4) 0 (b.take (8 * n)) (bytesAt b (8 * n) c))

/-- TAKE_INCREMENT (R363). -/
def execTakeIncrement (h : Word) (sg : List (Nat × Nat)) (obj : List Byte) (s : State) : Host.Outcome State Fault Refusal :=
  .next (s.run Op.TAKE_INCREMENT h.toNat fun e s =>
    let n := e.param 8 4
    let c := e.param 12 4
    s.receive e (8 * n + c) sg obj fun b s =>
      s.requestJob e.handle true (e.param 0 4) (e.param 4 4) (b.take (8 * n)) (bytesAt b (8 * n) c))

/-- Whether the standby holds a take of the host's in COMPILED. -/
def State.holdsTake (s : State) (take : Nat) : Bool := s.sby == 3 && s.standby.take == take && !s.standby.repair

/-- TAKE_DISCARD (R365). -/
def execTakeDiscard (h : Word) (s : State) : Host.Outcome State Fault Refusal :=
  .next (s.run Op.TAKE_DISCARD h.toNat fun e s =>
    let t := e.param 0 4
    if !s.holdsTake t then s.fail e.handle St.TAKE_STATE 0
    else
      let s := (s.startResync 0).updPair fun p => { p with matchedTake := none }
      let s := if s.role = 3 then (s.sendDiscard t).sendHandle e 5 0 0 else s
      s.finishAcked e.handle Out.OK 0 0)

/-- Firmware arms a command's splice at once (R366): in role SOLO, or while the mate is fenced. -/
def State.armHost (s : State) (h reel : Nat) : State :=
  let s := s.armAt reel
  if s.armed then s.updSsw fun x => { x with spliceHandle := h }
  else s.fail h (0x0200 + s.fld F.SSW_SPLICE_STATE_RESULT) 0

/-- The lead orders the splice (R238). -/
def State.sendOrder (s : State) (h take reel : Nat) : State :=
  let tag := s.pair.tagNext
  let s := s.updPair fun p => { p with
    order := some { handle := h, take := take, reel := reel, tag := tag }, tagNext := if tag = 255 then 1 else tag + 1 }
  let s := ((s.setFld F.PAIR_ORDER_STAT_TAG tag).setFld F.PAIR_ORDER_STAT_RESULT 0).setFld F.PAIR_ORDER_REEL_REEL reel
  s.sendRecord 0x23 0 (beBytes 4 take ++ beBytes 4 reel ++ beBytes 1 tag ++ [0, 0, 0])

/-- TAKE_SPLICE (R238, R366). A lead with an unfenced mate orders only a take whose digest has matched (R237). -/
def execTakeSplice (h : Word) (s : State) : Host.Outcome State Fault Refusal :=
  .next (s.run Op.TAKE_SPLICE h.toNat fun e s =>
    let t := e.param 0 4
    let want := e.param 4 4
    let q := (s.reg R.SSW_REEL_NOW).toNat
    let lead := clampNat 144 390625 (s.fld F.PAIR_ORDER_CTL_LEAD)
    if s.role = 3 ∧ want ≠ 0 then s.fail e.handle St.BAD_PARAMS 4
    else if !s.holdsTake t then s.fail e.handle St.NOT_COMPILED 0
    else if s.role = 4 then s.armHost e.handle (if want = 0 then (q + 64) % 2 ^ 32 else want)
    else if s.flag F.PAIR_STATE_MATE_FENCED then s.armHost e.handle ((q + lead) % 2 ^ 32)
    else if s.pair.matchedTake ≠ some t then s.fail e.handle 0x0228 0
    else s.sendOrder e.handle t ((q + lead) % 2 ^ 32))

/-- The open TAKE_SPLICE of a take. -/
def State.openSplice (s : State) (take : Nat) : Option Handle :=
  s.hif.handles.find? fun e => e.opcode == Op.TAKE_SPLICE && e.state != .closed && e.param 0 4 == take

/-- SPLICE_CANCEL (R179, R240, R367). -/
def execSpliceCancel (h : Word) (s : State) : Host.Outcome State Fault Refusal :=
  .next (s.run Op.SPLICE_CANCEL h.toNat fun e s =>
    match s.openSplice (e.param 0 4) with
    | none => s.fail e.handle St.NOT_ARMED 0
    | some x =>
      if x.state = .waiting then
        (s.finish x.handle Out.NOT_SPLICED St.CANCELLED 0).finish e.handle Out.OK 0 0
      else
        let ordered := match s.pair.order with | some o => s.role == 3 && o.handle == x.handle | none => false
        match ordered, s.pair.order with
        | true, some o =>
          if o.acked then s.fail e.handle St.TOO_LATE 0
          else s.updPair fun p => { p with order := some { o with cancels := o.cancels ++ [e.handle] } }
        | _, _ =>
          if s.cancellable ∧ s.ssw.spliceHandle = x.handle then
            (s.cancelSplice.updPair fun p => { p with order := none }).finish e.handle Out.OK 0 0
          else s.fail e.handle St.TOO_LATE 0)

-- Reports -------------------------------------------------------------------------------------------------------

/-- The distance d of R17 between source and output slot: the difference modulo 2,048, raised by 2,048 below 8. -/
def slotDistance (t : Nat) (c : Conn) : Nat :=
  let d := (t + 2048 - c.beat) % 2048
  if d < 8 then d + 2048 else d

/-- The take report of a set (R188) at a core reel, with the waits as they stood at its start. -/
def State.takeReport (s : State) (p : PageSet) (flags seq : Nat) : List Byte :=
  let lanes := (List.range 128).flatMap fun n =>
    let l := s.lane n
    leBytes 4 l.waitAt ++ leBytes 2 l.guardAt ++ leBytes 1 l.steerAt ++ [0]
  let conns := p.conns.flatMap fun (i, c) =>
    let t := i % 2048
    let d := slotDistance t c
    let merged := (p.mergeAt (2048 * c.lane + c.beat)).isSome
    leBytes 2 t ++ leBytes 1 (i / 2048) ++ leBytes 1 c.lane ++ leBytes 2 c.beat ++ leBytes 2 c.circuit
      ++ leBytes 4 (280000 + 1250 * d) ++ leBytes 2 d ++ leBytes 1 ((connLag t c).toNat + 2 * merged.toNat) ++ [0]
  leBytes 4 p.take ++ leBytes 2 1 ++ leBytes 2 flags ++ leBytes 4 p.conns.length ++ leBytes 4 seq ++ lanes ++ conns

/-- REPORT_TAKE (R188, R368). -/
def execReportTake (h : Word) (sg : List (Nat × Nat)) (s : State) : Host.Outcome State Fault Refusal :=
  .next (s.run Op.REPORT_TAKE h.toNat fun e s =>
    let t := e.param 0 4
    let standby := e.param 4 1 == 1
    let ok := if standby then (s.sby == 3 || s.sby == 4) && s.standby.take == t else s.activeTake == t
    if !ok then s.fail e.handle St.TAKE_STATE 0
    else
      let seq := (s.reg R.SSW_REEL_NOW).toNat
      let obj := s.takeReport (if standby then s.standby else s.active) (if standby then 2 else 1) seq
      s.deliver e sg obj fun s => s.finish e.handle Out.OK 0 (obj.length + 2 ^ 32 * seq))

/-- FENCE (R375): cause COMMAND; it completes at the boundary at which the fence takes effect, or at once where the unit is
already fenced. -/
def execFence (h : Word) (s : State) : Host.Outcome State Fault Refusal :=
  .next (s.run Op.FENCE h.toNat fun e s =>
    let was := s.fenced
    let s := s.detect .command
    if was then s.finish e.handle Out.OK 0 s.reelSeq else s)

-- CMC -----------------------------------------------------------------------------------------------------------

/-- The records of a CMC_SEND object as (offset, lane, record) (R350, R376). -/
def cmcRecords : Nat → Nat → List Byte → List (Nat × Nat × CmcRecord)
  | 0, _, _ => []
  | k + 1, off, b =>
    let len := leAt b 4 2
    let size := 16 + (len + 7) / 8 * 8
    (off, leAt b 0 1, { type := leAt b 1 1, flags := leAt b 2 1, body := bytesAt b 16 len }) ::
      cmcRecords k (off + size) (b.drop size)

/-- Size of the object of `k` records. -/
def cmcObjectSize : Nat → List Byte → Nat
  | 0, _ => 0
  | k + 1, b => let size := 16 + (leAt b 4 2 + 7) / 8 * 8; size + cmcObjectSize k (b.drop size)

/-- Room left in the 16 KiB send queue of a lane (R376). -/
def State.cmcRoom (s : State) (n : Nat) : Nat :=
  let c := (s.lane n).cmc
  16384 - (c.txQueue.foldl (fun a r => a + r.size) c.txPart.length)

/-- What is wrong with a record of a CMC_SEND, 0 for nothing (R376). -/
def State.cmcFault (s : State) (all : List (Nat × Nat × CmcRecord)) (x : Nat × Nat × CmcRecord) : Nat :=
  let (_, lane, r) := x
  let want := (all.filter fun y => y.2.1 == lane).foldl (fun a y => a + y.2.2.size) 0
  if r.type < 1 ∨ 0xEF < r.type ∨ 2048 < r.body.length then St.BAD_PARAMS
  else if 127 < lane then St.BAD_LANE
  else if (s.lane lane).cmc.mode ≠ .terminated then St.CMC_NOT_TERMINATED
  else if s.cmcRoom lane < want then St.CMC_QUEUE_FULL
  else 0

/-- CMC_SEND (R376): all records are queued, or none where one offends. -/
def execCmcSend (h : Word) (sg : List (Nat × Nat)) (obj : List Byte) (s : State) : Host.Outcome State Fault Refusal :=
  let obj := s.hostObject h.toNat obj
  let whole := match s.handle? h.toNat with
    | some e => (match s.stagedFor e with | some p => p.data | none => []) ++ obj
    | none => obj
  let count := match s.handle? h.toNat with | some e => e.param 0 4 | none => 0
  .next (s.run Op.CMC_SEND h.toNat (cmcLanes := (cmcRecords count 0 whole).map fun x => x.2.1) fun e s =>
    s.receive e (cmcObjectSize count whole) sg obj fun b s =>
      let rs := cmcRecords count 0 b
      match rs.find? fun x => s.cmcFault rs x != 0 with
      | some x => s.fail e.handle (s.cmcFault rs x) x.1
      | none =>
        (rs.foldl (fun s x => s.updCmc x.2.1 fun c => { c with txQueue := c.txQueue ++ [x.2.2] }) s).finish e.handle Out.OK 0 0)

-- Log -----------------------------------------------------------------------------------------------------------

/-- LOG_READ (R377). -/
def execLogRead (h : Word) (sg : List (Nat × Nat)) (s : State) : Host.Outcome State Fault Refusal :=
  .next (s.run Op.LOG_READ h.toNat fun e s =>
    let first := e.param 0 4
    let oldest := match s.log.head? with | some x => x.num | none => s.logNext
    let newest := (s.logNext + 2 ^ 32 - 1) % 2 ^ 32
    if seqLater oldest first then s.fail e.handle St.LOG_RANGE oldest
    else
      let l := s.log.filter fun x => decide (seqDiff x.num first < e.param 4 4)
      s.deliver e sg (l.flatMap logBytes) fun s => s.finish e.handle Out.OK 0 (l.length + 2 ^ 32 * newest))

-- Facets and test -----------------------------------------------------------------------------------------------

/-- FACET_RETIRE (R165, R380, R503). -/
def execFacetRetire (h : Word) (s : State) : Host.Outcome State Fault Refusal :=
  .next (s.run Op.FACET_RETIRE h.toNat fun e s =>
    let f := e.param 0 2
    if s.facetState f ≠ 1 then s.fail e.handle St.FACET_STATE 0
    else if s.lowestSpare.isNone then s.fail e.handle St.NO_SPARE 0
    else match s.reservedFor f with
      | some r =>
        if s.armed && r.written && !s.cancellable then (s.setCtx e.handle (f + 1)).retire f false
        else (s.leaveReservation r f false).finish e.handle Out.OK 0 0x1FF
      | none => (s.setCtx e.handle (f + 1)).retire f false)

/-- FACET_REINSTATE (R169, R381). -/
def execFacetReinstate (h : Word) (s : State) : Host.Outcome State Fault Refusal :=
  .next (s.run Op.FACET_REINSTATE h.toNat fun e s =>
    let f := e.param 0 2
    if s.facetState f ≠ 5 then s.fail e.handle St.FACET_STATE 0
    else (s.setFacet f 2 0).finish e.handle Out.OK 0 0)

/-- EYE_HISTOGRAM (R382, R488): `obj` is the 128 × 128 counts the monitor sampler took. -/
def execEyeHistogram (h : Word) (sg : List (Nat × Nat)) (obj : List Byte) (s : State) : Host.Outcome State Fault Refusal :=
  .next (s.run Op.EYE_HISTOGRAM h.toNat fun e s =>
    if s.rxState (e.param 0 1) ≠ 0 then s.fail e.handle St.LANE_NOT_ACTIVE 0
    else s.deliver e sg (bytesAt obj 0 65536) fun s => s.finish e.handle Out.OK 0 (2 ^ (e.param 2 1) % 2 ^ 32))

end Sys2Proof.Machine
end

