-- ==== Sys2Proof/Machine/Bus.lean ====
section
/-!
DEFINITION. The bus matrix of the management subsystem: masters, the address map, denied accesses, orphaned bursts and memory
errors (spec 13 R387 to R402).
-/
namespace Sys2Proof.Machine
open Sys2Proof

/-- Number of a register master in the matrix (R396): load/store ports 4 to 7, PCIe inbound 9, I3C bridge 10. -/
def matrixNo : Master → Nat
  | .core c _ => 4 + c.val
  | .pcie => 9
  | .i3c => 10

/-- Core 0 in machine mode, the only writer of what R386, R388 and R436 protect. -/
def isCore0Machine : Master → Bool
  | .core c m => c == 0 && m
  | _ => false

/-- Targets of the matrix, with the offset in SRAM or scratchpad. -/
inductive Target where
  | rom
  | sram (off : Nat)
  | scratch (off : Nat)
  | regs
  | window
  | flash
  deriving DecidableEq, Repr

/-- The address map of R387; none is a decode error. -/
def busTarget (remap : Bool) (a : Nat) : Option Target :=
  let low := a < 0x400000
  let high := 0x10000000 ≤ a ∧ a < 0x10400000
  let lowOff := a
  let highOff := a - 0x10000000
  if low then
    if remap then some (.sram lowOff) else if lowOff < 0x20000 then some .rom else none
  else if high then
    if !remap then some (.sram highOff) else if highOff < 0x20000 then some .rom else none
  else if 0x18000000 ≤ a ∧ a < 0x18040000 then some (.scratch (a - 0x18000000))
  else if 0x40000000 ≤ a ∧ a < 0x41000000 then some .regs
  else if 0x41000000 ≤ a ∧ a < 0x42000000 then some .window
  else if 0x42000000 ≤ a ∧ a < 0x44000000 then some .regs
  else if 0x80000000 ≤ a ∧ a < 0x90000000 ∧ a - 0x80000000 < Config.flashSize then some .flash
  else none

/-- The target of an access by a core (R387). -/
def State.coreTarget (s : State) (a : Nat) : Option Target := busTarget (s.flag F.MSS_BOOT_REMAP) a

/-- A denied access (R389): counted with its cause and master, and logged. Causes: 1 DECODE, 2 SCRATCH_PRIV, 3 READ_ONLY,
4 EXCLUSIVE. -/
def State.denied (s : State) (port addr cause : Nat) : State :=
  let s := ((s.incFld F.MSS_BM_DENIED_COUNT).setFld F.MSS_BM_DENIED_CAUSE cause).setFld F.MSS_BM_DENIED_MASTER port
  ((s.setReg R.MSS_BM_DENIED_ADDR (BitVec.ofNat 32 addr)).logEvent Ev.BUS_DENIED port (leBytes 4 addr ++ leBytes 1 cause)).icEdge 46

/-- A write discarded because its master or mode may not make it (R386, R388, R436). -/
def State.writeRefused (s : State) (m : Master) (off : Nat) : State :=
  s.logEvent Ev.MSS_WRITE_REFUSED (matrixNo m) (leBytes 4 off)

/-- The bursts in progress of masters that are reset (R401): each is completed on its master's behalf, counted and logged. -/
def State.orphans (s : State) (masters : List Nat) (l : List Burst) : State :=
  (l.filter fun b => masters.contains b.master.val).foldl (fun s b =>
    let s := ((s.incFld F.MSS_BM_ORPHAN_COUNT).setFld F.MSS_BM_ORPHAN_MASTER b.master.val).setReg R.MSS_BM_ORPHAN_ADDR b.addr
    (s.logEvent Ev.BURST_ORPHAN b.master.val (leBytes 4 b.addr.toNat ++ leBytes 1 b.beats.val)).icEdge 46) s

/-- What the check bits of a word read show (R394): counted, and an uncorrectable SRAM word is logged with its address. -/
def State.memErr (s : State) (t : Target) (port : Nat) (e : Ecc) : State :=
  match t, e with
  | .sram _, .corrected => s.incFld F.MSS_SRAM_ERR_CE
  | .sram off, .uncorrectable =>
    let a := 0x10000000 + off / 8 * 8
    (((s.incFld F.MSS_SRAM_ERR_UE).setReg R.MSS_SRAM_UE_ADDR (BitVec.ofNat 32 a)).logEvent Ev.SRAM_UE port (leBytes 4 a)).icEdge 45
  | .scratch _, .corrected => s.incFld F.MSS_MEM_ERR_SCRATCH_CE
  | .scratch _, .uncorrectable => s.incFld F.MSS_MEM_ERR_SCRATCH_UE
  | .rom, .corrected => s.incFld F.MSS_MEM_ERR_ROM_CE
  | .rom, .uncorrectable => s.incFld F.MSS_MEM_ERR_ROM_UE
  | _, _ => s

/-- An exception that the command of a core raises; TRAP_ENTRY takes it. -/
def State.raiseExc (s : State) (c cause tval : Nat) : State := s.updCore c fun x => { x with exc := some (cause, tval) }

/-- Whether the scratchpad serves a core (R395, R437, R438): core 0 in machine mode, unless the port is denied. -/
def State.scratchOpen (s : State) (c : Nat) (machine : Bool) : Bool := c == 0 && machine && !s.mss.scratchDenied

/-- Whether a fetch of a core is denied, and why (R395, R396). -/
def State.fetchDenied (s : State) (c : Nat) (machine : Bool) (a : Nat) : Option Nat :=
  match s.coreTarget a with
  | some .rom | some (.sram _) | some .flash => none
  | some (.scratch _) => if s.scratchOpen c machine then none else some 2
  | _ => some 1

end Sys2Proof.Machine
end

