-- ==== Sys2Proof/Machine/Ic.lean ====
section
/-!
DEFINITION. Interrupt sources, delivery to cores, traps, performance counters and tagging (spec 14). What a core's own
registers hold comes with the command, since the instructions between two commands are not the model's.
-/
namespace Sys2Proof.Machine
open Sys2Proof

-- Sources -----------------------------------------------------------------------------------------------------

/-- Whether a counter of core c has its overflow flag and OVF_IE set (R411). -/
def State.perfRaw (s : State) (c : Nat) : Bool :=
  (List.range 8).any fun k =>
    (s.reg (R.MSS_PERF_OVF c)).toNat.testBit k && (Tbl.get (fun _ => 0) (s.core c).events (k + 1)).testBit 31

/-- Fill level of core c (R433). -/
def State.tagFill (s : State) (c : Nat) : Nat := clampNat 1 32 (s.fld (F.MSS_TAG_CTL_FILL c))

/-- Raw state of a level source (R411, R412). -/
def State.icRaw (s : State) (n : Nat) : Bool :=
  if 16 ≤ n ∧ n ≤ 19 then s.perfRaw (n - 16)
  else if 20 ≤ n ∧ n ≤ 23 then decide (s.tagFill (n - 20) ≤ (s.core (n - 20)).tags.length)
  else if n = 32 then !s.evq.isEmpty
  else if n = 34 then s.fenced
  else if n = 35 then s.flag F.GCTL_STATE_THERMAL_WARN
  else if n = 38 then s.fld F.CIRC_DAILIES_STAT_STATE == 2
  else if n = 40 then !s.pair.journal.isEmpty
  else if n = 41 then !s.time.tsq.isEmpty
  else if n = 42 then !s.time.ptpRx.isEmpty
  else if n = 47 then s.fld F.I3CT_MBX_STAT_STATE != 0
  else if 64 ≤ n ∧ n ≤ 193 then s.reg (R.LANE_DEFECT_FLAGS (n - 64)) != 0
  else false

/-- Re-arm a level source (R412): it is pending again at once while its raw state is 1. -/
def State.armSource (s : State) (n : Nat) : State :=
  if !icIsLevel n then s
  else
    let s := s.setFlag (F.IC_SRC_HELD n) false
    if s.icRaw n then s.icPend n else s

/-- ARM (R412): a write of ARM = 1. It has no effect on an edge source (R413). -/
def execArm (n : Fin 1280) (s : State) : Host.Outcome State Fault Refusal := .next (s.armSource n.val)

/-- A write to IC_SRC_n (R416 to R418, R424). -/
def State.writeIcSrc (s : State) (n : Nat) (v : Word) : State :=
  let v := v.toNat
  let s := (s.setFld (F.IC_SRC_MASK n) (bitsOf v 16 1)).setFld (F.IC_SRC_PRIO n) (bitsOf v 12 4)
  let s := (s.setFld (F.IC_SRC_KIND n) (bitsOf v 8 1)).setFld (F.IC_SRC_TARGET n) v
  let s := s.when (v.testBit 27) fun s => s.setFlag (F.IC_SRC_REDIR n) false
  (s.when (v.testBit 25) fun s => s.armSource n).icSettle n

/-- IC_SRC_n as it reads: RAW shown for level sources. -/
def State.icSrcWord (s : State) (n : Nat) : Word :=
  BitVec.ofNat 32 (putBits (s.reg (R.IC_SRC n)).toNat 30 1 (icIsLevel n && s.icRaw n).toNat)

/-- IC_PEND_k: the PENDING bits of 32 sources (R424). -/
def State.icPendWord (s : State) (k : Nat) : Word :=
  BitVec.ofNat 32 ((List.range 32).foldl (fun a j => if s.icPending (32 * k + j) then a + 2 ^ j else a) 0)

/-- IC_SWI_SET (R411): bit k written 1 is an edge of SWI_k. -/
def State.writeSwi (s : State) (v : Word) : State :=
  ((List.range 16).filter v.toNat.testBit).foldl (fun s k => s.icEdge k) s

def execIcSwiSet (v : Word) (s : State) : Host.Outcome State Fault Refusal := .next (s.writeSwi v)

/-- IC_HOST_SET (R411): any write is an edge of HOST_NUM. -/
def State.writeHostSet (s : State) (v : Word) : State := s.icEdge (1024 + v.toNat % 256)

def execIcHostSet (v : Word) (s : State) : Host.Outcome State Fault Refusal := .next (s.writeHostSet v)

/-- STORM_END (R422): 100 ms without an edge; the held PENDING is delivered once. -/
def execStormEnd (n : Fin 1280) (s : State) : Host.Outcome State Fault Refusal :=
  let n := n.val
  .next (if s.flag (F.IC_SRC_STORM n) then (s.setFlag (F.IC_SRC_STORM n) false).icSettle n else s)

-- Delivery to a core ------------------------------------------------------------------------------------------

/-- Sources whose register differs from its reset value: only these can be unmasked. -/
def State.touchedSources (s : State) : List Nat :=
  s.regs.filterMap fun x => if R.IC_SRC 0 ≤ x.1 ∧ x.1 ≤ R.IC_SRC 1279 then some ((x.1 - R.IC_SRC 0) / 4) else none

/-- The presentable source of a core with the highest PRIO, the lowest number first, with whether it is redirected (R414,
R420). -/
def State.bestSource (s : State) (c : Nat) : Option (Nat × Bool) :=
  (s.touchedSources.filterMap fun n =>
    if s.presentable n then
      match s.icCore n with | some (k, rd) => if k = c then some (n, rd) else none | none => none
    else none).foldl (fun a x =>
      match a with
      | none => some x
      | some y => if s.fld (F.IC_SRC_PRIO y.1) < s.fld (F.IC_SRC_PRIO x.1) then some x else a) none

/-- Whether a priority is above the running priority of a core; a core with nothing in service takes any (R414). -/
def State.abovePrio (s : State) (c p : Nat) : Bool :=
  match (s.core c).service with | [] => true | (_, q) :: _ => decide (q < p)

/-- Show the in-service stack of a core in IC_CORE_c (R414, R415). -/
def State.showService (s : State) (c : Nat) : State :=
  let l := (s.core c).service
  let s := s.setFld (F.IC_CORE_DEPTH c) l.length
  match l with
  | [] => (s.setFld (F.IC_CORE_CUR_SRC c) 0x7FF).setFld (F.IC_CORE_RUN_PRIO c) 31
  | (n, p) :: _ => (s.setFld (F.IC_CORE_CUR_SRC c) n).setFld (F.IC_CORE_RUN_PRIO c) p

/-- Push an entry on a trap-origin stack of 32 (R415); what lies deeper is lost. -/
def pushTrap (b : Bool) (l : List Bool) : List Bool := (b :: l).take 32

/-- The trap state of a core on entry (RISC-V privileged architecture, R414): mepc, mcause, mtval, MPIE, MPP and machine mode. -/
def trapRegs (r : CoreRegs) (cause tval pc : Word) : CoreRegs :=
  { r with pc := pc, mepc := r.pc, mcause := cause, mtval := tval, mpie := r.mie, mie := false, mppUser := r.user, user := false }

/-- A line of the instruction cache is filled (R384): 256 sets of two lines of 32 bytes. -/
def fillLine (l : List Nat) (a : Nat) : List Nat :=
  let line := a / 32
  let rest := l.filter (· ≠ line)
  let mates := (rest.filter fun x => x % 256 == line % 256).take 1
  line :: rest.filter fun x => x % 256 != line % 256 || mates.contains x

/-- VECTOR_FETCH (R414, R415, R420): the core takes the source presented to it at its next instruction boundary. It has
mstatus.MIE and mie.MEIE set, is not offline, and the source's PRIO is above its running priority. A vector fetch that the
matrix denies raises an instruction access fault (R389). -/
def execVectorFetch (c : Fin 4) (r : CoreRegs) (s : State) : Host.Outcome State Fault Refusal :=
  let c := c.val
  let s := s.updCore c fun x => { x with r := r }
  match s.bestSource c with
  | none => .next s
  | some (n, redir) =>
    let p := s.fld (F.IC_SRC_PRIO n)
    if !r.mie || !r.meie || s.coreOffline c || !s.abovePrio c p then .next s
    else
      let pc := BitVec.ofNat 32 ((s.reg (R.IC_VTBASE c)).toNat + 8 * n)
      let s := s.icDelivered n
      let s := { s with mss := { s.mss with lastTo := Tbl.put (fun _ => none) s.mss.lastTo n (some c) } }
      let s := s.when redir fun s => (s.setFlag (F.IC_SRC_REDIR n) true).incFld F.IC_STAT_REDIRECTS
      let s := s.updCore c fun x => { x with
        r := trapRegs r 0x8000000B#32 0 pc, traps := pushTrap true x.traps, service := (n, p) :: x.service, wfi := false
        icache := fillLine x.icache pc.toNat }
      let s := s.showService c
      .next (match s.fetchDenied c true pc.toNat with
        | some cause => (s.denied c pc.toNat cause).raiseExc c 1 pc.toNat
        | none => s)

/-- Where a trap goes (RISC-V privileged architecture): mtvec BASE, plus 4 × cause for an interrupt in vectored mode. -/
def trapTarget (mtvec cause : Word) : Word :=
  let base := mtvec.toNat / 4 * 4
  BitVec.ofNat 32 (if mtvec.toNat % 4 = 1 ∧ cause.toNat ≥ 2 ^ 31 then base + 4 * (cause.toNat % 2 ^ 31) else base)

/-- TRAP_ENTRY (R415): an exception, one that a command has raised before any other, or an interrupt outside the interrupt
controller; it goes to mtvec and pushes 0. -/
def execTrapEntry (c : Fin 4) (r : CoreRegs) (cause tval : Word) (s : State) : Host.Outcome State Fault Refusal :=
  let c := c.val
  let (cause, tval) := match (s.core c).exc with
    | some (a, b) => (BitVec.ofNat 32 a, BitVec.ofNat 32 b)
    | none => (cause, tval)
  .next (s.updCore c fun x => { x with
    r := trapRegs r cause tval (trapTarget r.mtvec cause), exc := none, traps := pushTrap false x.traps, wfi := false })

/-- MRET (R415): pops the trap-origin stack; a popped 1 ends the top in-service entry. An empty stack, after more than 32
nested traps, pops a value that the spec leaves open. In user mode MRET is an illegal instruction. -/
def execMret (c : Fin 4) (r : CoreRegs) (s : State) : Host.Outcome State Fault Refusal :=
  let c := c.val
  let s := s.updCore c fun x => { x with r := r }
  if r.user then .next (s.raiseExc c 2 0)
  else
    let (popped, s) := match (s.core c).traps with
      | b :: _ => (b, s)
      | [] => let (f, s) := s.fresh 1; (f == 1#1, s)
    let s := s.updCore c fun x => { x with
      traps := x.traps.drop 1, service := if popped then x.service.drop 1 else x.service
      r := { r with pc := r.mepc, user := r.mppUser, mie := r.mpie, mpie := true, mppUser := true } }
    .next (s.showService c)

/-- WFI (R419): the core sleeps unless a source targeted at it is presentable already. -/
def execWfi (c : Fin 4) (r : CoreRegs) (s : State) : Host.Outcome State Fault Refusal :=
  let c := c.val
  let s := s.updCore c fun x => { x with r := r }
  .next (s.updCore c fun x => { x with wfi := (s.bestSource c).isNone })

/-- MSS_CORE_STAT as it reads (R410, R419, R420): 0 RESET, 1 RUN, 2 WAIT, 3 OFFLINE. -/
def State.coreStatWord (s : State) : Word :=
  BitVec.ofNat 32 ((List.range 4).foldl (fun a c =>
    let st := if s.fld ⟨R.MSS_CORE_STAT, 2 * c, 2⟩ = 0 then 0
      else if s.flag (F.IC_CORE_OFFLINE c) then 3 else if (s.core c).wfi then 2 else 1
    a + st * 4 ^ c) 0)

/-- A core is reset (R386, R401, R407, R421): its registers, stacks, reservation and cache are lost, and every level source
last delivered to it is re-armed. Its sample buffer belongs to the MSS registers and stays. -/
def State.resetCore (s : State) (c : Nat) : State :=
  let mine := s.mss.lastTo.filterMap fun (n, k) => if k = some c then some n else none
  let s := s.updCore c fun x => { tags := x.tags, tagNext := x.tagNext }
  let s := { s with mss := { s.mss with lastTo := s.mss.lastTo.filter fun x => x.2 != some c } }
  mine.foldl State.armSource (s.showService c)

-- Performance counters ----------------------------------------------------------------------------------------

/-- Width of a counter: 64 bits for mcycle (index 0), 48 for mhpmcounter(k + 2) (R425). -/
def counterWidth (k : Nat) : Nat := if k = 0 then 64 else 48

/-- Whether a user-mode access to a counter of core c is permitted (R427). -/
def State.userRd (s : State) (c : Nat) : Bool := (s.fld F.MSS_PERF_CTL_USER_RD).testBit c

/-- mcounteren of a core as it reads (R427): USER_RD_c in bits 0 and 3 to 10. -/
def State.mcounteren (s : State) (c : Nat) : Word := if s.userRd c then 0x7F9 else 0

/-- Event selection of a programmable counter (R425). -/
def State.eventSel (s : State) (c k : Nat) : Nat := Tbl.get (fun _ => 0) (s.core c).events k

/-- Whether a counter counts at all (R425): mcycle always, a programmable one with an event code of R426 and a mode to count in. -/
def State.counts (s : State) (c k : Nat) : Bool :=
  let e := s.eventSel c k
  k == 0 || (decide (1 ≤ e % 256 ∧ e % 256 ≤ 0x28) && (e.testBit 9 || e.testBit 10))

/-- Whether tagging counts the instructions of a mode (R431): the U and M fields of the counters with event 0x28. -/
def State.tagMode (s : State) (c : Nat) (user : Bool) : Bool :=
  (List.range 8).any fun k =>
    let e := s.eventSel c (k + 1)
    e % 256 == 0x28 && e.testBit (if user then 9 else 10)

/-- The count of a counter. -/
def State.counter (s : State) (c k : Nat) : Nat := Tbl.get (fun _ => 0) (s.core c).counters k

/-- Set a counter. -/
def State.setCounter (s : State) (c k v : Nat) : State :=
  s.updCore c fun x => { x with counters := Tbl.put (fun _ => 0) x.counters k (v % 2 ^ counterWidth k) }

/-- The overflow flag of a programmable counter is set; with OVF_IE it raises PERF_OVF_c (R429). -/
def State.overflow (s : State) (c k : Nat) : State :=
  let s := s.setFlag ⟨R.MSS_PERF_OVF c, k - 1, 1⟩ true
  if (Tbl.get (fun _ => 0) (s.core c).events k).testBit 31 then s.icRaise (16 + c) else s

/-- Counts made since the last command about this counter (R425, R429): a programmable counter wraps with its flag, and one that counts
nothing stands. -/
def State.advance (s : State) (c k adv : Nat) : State :=
  let v := s.counter c k + (if s.counts c k then adv else 0)
  let s := s.setCounter c k v
  if 0 < k ∧ 2 ^ 48 ≤ v then s.overflow c k else s

/-- The shadow of a counter's high half (R428). -/
def State.setShadow (s : State) (c k : Nat) (v : Option Nat) : State :=
  s.updCore c fun x => { x with shadow := Tbl.put (fun _ => none) x.shadow k v }

/-- COUNTER_READ (R427, R428, R430): a read of the low half latches the high half; a read of the high half returns a valid
shadow once, or the live high half. `adv` counts were made since the last command about this counter. -/
def execCounterRead (c : Fin 4) (user : Bool) (k : Fin 9) (high : Bool) (adv : Nat) (s : State) : Host.Outcome State Fault Refusal :=
  let c' := c.val; let k := k.val
  let s := s.advance c' k adv
  if user && !s.userRd c' then .next (s.raiseExc c' 2 0)
  else
    let v := s.counter c' k
    let m := Master.core c (!user)
    if !high then .next ((s.setShadow c' k (some (v / 2 ^ 32))).setRdata m (BitVec.ofNat 32 v))
    else
      let h := (Tbl.get (fun _ => none) (s.core c').shadow k).getD (v / 2 ^ 32)
      .next ((s.setShadow c' k none).setRdata m (BitVec.ofNat 32 h))

/-- COUNTER_WRITE (R425, R427 to R429): one half is written and the shadow is invalid; an overflow of the same cycle keeps the
written value and sets the flag. The event selection of a programmable counter is written in the same way. -/
def execCounterWrite (c : Fin 4) (user : Bool) (k : Fin 9) (part : CounterPart) (v : Word) (adv : Nat) (s : State) :
    Host.Outcome State Fault Refusal :=
  let c := c.val; let k := k.val
  let s := s.advance c k adv
  if user then .next (s.raiseExc c 2 0)
  else
    match part with
    | .low => .next ((s.setCounter c k (putBits (s.counter c k) 0 32 v.toNat)).setShadow c k none)
    | .high => .next ((s.setCounter c k (putBits (s.counter c k) 32 32 v.toNat)).setShadow c k none)
    | .event =>
      if k = 0 then .next s
      else
        let s := s.updCore c fun x => { x with events := Tbl.put (fun _ => 0) x.events k (v &&& 0x800007FF#32).toNat }
        .next (if s.perfRaw c then s.icRaise (16 + c) else s)

/-- COUNTER_OVERFLOW (R429): a programmable counter that counts an event passes from 2^48 − 1 to 0. -/
def execCounterOverflow (c : Fin 4) (k : Fin 9) (s : State) : Host.Outcome State Fault Refusal :=
  let c := c.val; let k := k.val
  .next (if k = 0 ∨ !s.counts c k then s else (s.setCounter c k 0).overflow c k)

-- Tagging -----------------------------------------------------------------------------------------------------

/-- Show the number of samples held (R432). -/
def State.showTags (s : State) (c : Nat) : State := s.setFld (F.MSS_TAG_STAT_COUNT c) (s.core c).tags.length

/-- Instructions to the next tag (R431): a value that the spec leaves open, in [⌊0.75 M⌋, ⌈1.25 M⌉]. -/
def State.drawTag (s : State) (c : Nat) : State :=
  let m := max 64 (s.fld (F.MSS_TAG_PERIOD_M c))
  let lo := 3 * m / 4
  let hi := (5 * m + 3) / 4
  let (f, s) := s.fresh 32
  s.updCore c fun x => { x with tagNext := lo + f.toNat % (hi - lo + 1) }

/-- TAG_SAMPLE (R431, R432): a tagged instruction retires or traps, in a mode that tagging counts. -/
def execTagSample (c : Fin 4) (pc : Word) (latency : Nat) (stall : Fin 8) (miss : BitVec 4) (user trapped : Bool) (s : State) :
    Host.Outcome State Fault Refusal :=
  let c := c.val
  if !s.flag (F.MSS_TAG_CTL_EN c) || !s.tagMode c user then .next s
  else
    let w := 2 ^ 31 + user.toNat * 2 ^ 30 + trapped.toNat * 2 ^ 29 + miss.toNat * 2 ^ 25 + stall.val * 2 ^ 20 + min 65535 latency
    let s := s.drawTag c
    if (s.core c).tags.length < 32 then
      let s := (s.updCore c fun x => { x with tags := x.tags ++ [{ pc := pc, word := BitVec.ofNat 32 w }] }).showTags c
      .next (if s.icRaw (20 + c) then s.icRaise (20 + c) else s)
    else .next (s.incFld (F.MSS_TAG_STAT_DROPPED c))

/-- A read of MSS_TAG_SAMPLE_c (R432, R500): the oldest sample is removed and its PC latched for the reader; an empty
buffer gives VALID = 0. -/
def State.popTag (s : State) (m : Master) (c : Nat) : Word × State :=
  match (s.core c).tags with
  | [] => (0, s)
  | t :: rest => (t.word, ((s.updCore c fun x => { x with tags := rest }).showTags c).latch m [(R.MSS_TAG_PC c, t.pc)])

/-- MSS_TAG_SAMPLE_READ (R432). -/
def execMssTagSampleRead (m : Master) (c : Fin 4) (s : State) : Host.Outcome State Fault Refusal :=
  let r := s.popTag m c.val
  .next (r.2.setRdata m r.1)

end Sys2Proof.Machine
end

