-- ==== Sys2Proof/Machine/Mss.lean ====
section
/-!
DEFINITION. Management restart, holds, remap, the in-service memory test, atomic operations and fences (spec 13).
-/
namespace Sys2Proof.Machine
open Sys2Proof

/-- Change the management state. -/
def State.updMss (s : State) (f : Mss → Mss) : State := { s with mss := f s.mss }

/-- Field of MSS_CORE_STAT of a core: 0 RESET, 1 RUN as stored. -/
def coreStat (c : Nat) : Fld := ⟨R.MSS_CORE_STAT, 2 * c, 2⟩

/-- Whether a core is out of reset. -/
def State.coreOn (s : State) (c : Nat) : Bool := s.fld (coreStat c) != 0

-- Restart -------------------------------------------------------------------------------------------------------

/-- A management restart (R407): causes 1 REQ, 2 FW_ACTIVATE, 3 AUTO_AGE, 4 I3C reset action. A request while core 0 is in
reset already is merged (R406). -/
def State.mgmtRestart (s : State) (cause : Nat) (bursts : List Burst) : State :=
  if s.flag F.GCTL_STATE_MGMT_IN_RESET then s
  else
    let s := s.orphans [0, 1, 2, 3, 4, 5, 6, 7] bursts
    let s := ((s.setFlag F.GCTL_STATE_MGMT_IN_RESET true).incFld F.MSS_RESTART_COUNT).setFld F.MSS_RESTART_LAST_CAUSE cause
    let s := s.alert F.GCTL_ALERT_STAT_MGMT_RESTART
    let s := (List.range 4).foldl (fun s c =>
      (((s.resetCore c).setFld (coreStat c) 0).setReg (R.IC_VTBASE c) 0).setFlag (F.IC_CORE_OFFLINE c) false) s
    let s := (s.setFlag F.MSS_BOOT_REMAP false).setFlag F.MSS_BOOT_REMAP_PENDING false
    let s := (s.setReg R.MSS_CORE_CTL 0xE#32).setFlag F.HIF_STATE_FW_READY false
    (s.updMss fun x => { x with remapNext := false, fwUp := false, booted := false }).stopCompile

/-- Write of MSS_RESTART (R406): REQ under the MSS key. -/
def State.writeRestart (s : State) (v : Word) (bursts : List Burst) : State :=
  s.wkWrite .mss (v.toNat.testBit 31) fun s => if v.toNat.testBit 31 then s.mgmtRestart 1 bursts else s

/-- MSS_RESTART (R406). -/
def execMssRestart (_m : Master) (v : Word) (bursts : List Burst) (s : State) : Host.Outcome State Fault Refusal :=
  .next (s.writeRestart v bursts)

/-- CORE_0_LEAVES_RESET (R406, R407): the restart in progress ends. -/
def execCore0LeavesReset (s : State) : Host.Outcome State Fault Refusal :=
  .next (if s.flag F.GCTL_STATE_MGMT_IN_RESET && s.mss.started then
    (s.setFlag F.GCTL_STATE_MGMT_IN_RESET false).setFld (coreStat 0) 1
  else s)

/-- AUTO_AGE (R409): at most once between two writes of GCTL_ALIVE, and never before the first. -/
def execAutoAge (bursts : List Burst) (s : State) : Host.Outcome State Fault Refusal :=
  let a := s.fld F.MSS_RESTART_CTL_AUTO_AGE
  .next (if a ≠ 0 ∧ s.gctl.everAlive ∧ min 7500 a ≤ s.fld F.GCTL_ALIVE_AGE_AGE_MS ∧ !s.mss.autoDone then
    (s.updMss fun x => { x with autoDone := true }).mgmtRestart 3 bursts
  else s)

-- Holds and remap -----------------------------------------------------------------------------------------------

/-- Write of MSS_CORE_CTL (R386): 1 resets a running core and its ports, 0 lets a held core run. -/
def State.writeHold (s : State) (m : Master) (v : Word) (bursts : List Burst) : State :=
  if !isCore0Machine m then s.writeRefused m R.MSS_CORE_CTL
  else
    [1, 2, 3].foldl (fun s c =>
      let f : Fld := ⟨R.MSS_CORE_CTL, c, 1⟩
      let now := v.toNat.testBit c
      if now = s.flag f then s
      else if now then (((s.orphans [c, 4 + c] bursts).setFlag f true).resetCore c).setFld (coreStat c) 0
      else (s.setFlag f false).setFld (coreStat c) 1) s

/-- HOLD_WRITE (R386). -/
def execHoldWrite (m : Master) (v : Word) (bursts : List Burst) (s : State) : Host.Outcome State Fault Refusal :=
  .next (s.writeHold m v bursts)

/-- Write of MSS_BOOT (R388): REMAP waits for the read-back. -/
def State.writeRemap (s : State) (m : Master) (v : Word) : State :=
  if !isCore0Machine m then s.writeRefused m R.MSS_BOOT
  else (s.setFlag F.MSS_BOOT_REMAP_PENDING true).updMss fun x => { x with remapNext := v.toNat.testBit 0 }

/-- REMAP_WRITE (R388). -/
def execRemapWrite (m : Master) (v : Word) (s : State) : Host.Outcome State Fault Refusal := .next (s.writeRemap m v)

/-- A read of MSS_BOOT by core 0 performs a pending swap and invalidates every instruction cache (R388). -/
def State.readBoot (s : State) : State :=
  if !s.flag F.MSS_BOOT_REMAP_PENDING then s
  else
    let s := (s.setFlag F.MSS_BOOT_REMAP_PENDING false).setFlag F.MSS_BOOT_REMAP s.mss.remapNext
    (List.range 4).foldl (fun s c => s.updCore c fun x => { x with icache := [] }) s

/-- REMAP_READBACK (R388): core 0 reads MSS_BOOT. -/
def execRemapReadback (machine : Bool) (s : State) : Host.Outcome State Fault Refusal :=
  let s := s.readBoot
  .next (s.setRdata (.core 0 machine) (s.reg R.MSS_BOOT))

-- Memory test ---------------------------------------------------------------------------------------------------

/-- A window fails its test (R405). -/
def State.badWindow (s : State) (w : Nat) : State :=
  if s.fld F.MSS_MTEST_REPAIR_SPARES_USED < 4 then
    let s := (s.incFld F.MSS_MTEST_REPAIR_SPARES_USED).updMss fun x => { x with repaired := w :: x.repaired }
    (s.logEvent Ev.SRAM_WINDOW_REPAIRED noSource (leBytes 2 w)).icEdge 44
  else ((s.incFld F.MSS_MTEST_REPAIR_FAILED).logEvent Ev.SRAM_WINDOW_FAILED noSource (leBytes 2 w)).icEdge 44

/-- WINDOW_BORROW (R403, R405): the next window is parked, tested and returned. -/
def execWindowBorrow (fault : Bool) (s : State) : Host.Outcome State Fault Refusal :=
  let w := s.mss.window
  .next (if !s.flag F.MSS_MTEST_CTL_EN then s
  else
    let s := (s.setFld F.MSS_MTEST_STAT_WINDOW w).updMss fun x => { x with window := (w + 1) % 4096 }
    let s := s.when fault fun s => s.badWindow w
    s.when (w == 4095) fun s => s.incFld F.MSS_MTEST_STAT_PASSES)

/-- Write of MSS_MTEST_CTL (R403, R405): EN = 0 resets the memory-test engine's port. -/
def State.writeMtest (s : State) (v : Word) (bursts : List Burst) : State :=
  let s := (s.setFld F.MSS_MTEST_CTL_INTERVAL_US v.toNat).when (!v.toNat.testBit 31) fun s => s.orphans [12] bursts
  s.setFlag F.MSS_MTEST_CTL_EN (v.toNat.testBit 31)

/-- MTEST_EN_WRITE (R405). -/
def execMtestEnWrite (v : Word) (bursts : List Burst) (s : State) : Host.Outcome State Fault Refusal := .next (s.writeMtest v bursts)

/-- SRAM_STARTUP_TEST (R390): every window is tested, every word cleared, and core 0 leaves reset. `bad` are the windows that
fail. -/
def execSramStartupTest (bad : List (Fin 4096)) (s : State) : Host.Outcome State Fault Refusal :=
  .next (if s.mss.started then s
  else
    let s := bad.foldl (fun s w => s.badWindow w.val) s
    let s := s.updMss fun x => { x with started := true, sram := [], imageBytes := [] }
    (s.setFlag F.GCTL_STATE_MGMT_IN_RESET false).setFld (coreStat 0) 1)

-- Atomic operations ---------------------------------------------------------------------------------------------

/-- Block of 64 bytes of a target that can be reserved, numbered apart for SRAM and scratchpad (R400). -/
def blockOf : Target → Option Nat
  | .sram off => some (off / 64)
  | .scratch off => some (0x100000 + off / 64)
  | _ => none

/-- A byte of the log in the retained region (R391, R448): entry n is at index n mod 16,384; where no entry is, zero. -/
def State.logByte (s : State) (off : Nat) : Byte :=
  match s.log.find? fun e => e.num % 16384 == off / 32 with
  | some e => (logBytes e).getD (off % 32) 0
  | none => 0

/-- A byte of working SRAM (R390, R391): memory in the working region, in the retained region the tables, the log and the take images that
the hardware and firmware keep there, with what commands have stored over them. -/
def State.sramByte (s : State) (off : Nat) : Byte :=
  if off < 0x60000 then Memory.read s.mss.sram off
  else match Tbl.get (fun _ => none) s.mss.imageBytes off with
    | some b => b
    | none =>
      if off < 0x7E000 then Config.retainedByte s.free off
      else if off < 0xFE000 then s.logByte (off - 0x7E000)
      else if off < 0x27F000 then s.ssw.setA.imageByte (off - 0xFE000)
      else s.ssw.setB.imageByte (off - 0x27F000)

/-- Store bytes in working SRAM. -/
def Mss.storeSram (x : Mss) (off : Nat) (bs : List Byte) : Mss :=
  if off < 0x60000 then { x with sram := Memory.writeBytes x.sram off bs }
  else { x with imageBytes := bs.zipIdx.foldl (fun t (b, k) => Tbl.put (fun _ => none) t (off + k) (some b)) x.imageBytes }

/-- Word at a target. -/
def State.loadWord (s : State) : Target → Nat
  | .sram off => leNat ((List.range 4).map fun i => s.sramByte (off + i))
  | .scratch off => leNat (Memory.readBytes s.mss.scratch off 4)
  | _ => 0

/-- Store a word at a target, clearing the reservations that other cores hold on its block (R400). -/
def State.storeWord (s : State) (c : Nat) (t : Target) (v : Nat) : State :=
  let s := s.updMss fun x => match t with
    | .sram off => x.storeSram off (leBytes 4 v)
    | .scratch off => { x with scratch := Memory.writeBytes x.scratch off (leBytes 4 v) }
    | _ => x
  (List.range 4).foldl (fun s k =>
    if k ≠ c ∧ (s.core k).resv.isSome ∧ (s.core k).resv = blockOf t then s.updCore k fun x => { x with resv := none } else s) s

/-- An atomic access of a core (R389, R395, R400): a misaligned address and a denied access raise their exceptions, `load`
choosing between the load and the store or AMO codes; otherwise `act` runs on the target. -/
def State.atomic (s : State) (c : Nat) (machine load : Bool) (a : Nat) (act : Target → State → State) : State :=
  if !s.coreOn c then s
  else if a % 4 ≠ 0 then s.raiseExc c (if load then 4 else 6) a
  else
    let deny (cause : Nat) := (s.denied (4 + c) a cause).raiseExc c (if load then 5 else 7) a
    match s.coreTarget a with
    | none => deny 1
    | some (.sram off) => act (.sram off) s
    | some (.scratch off) => if s.scratchOpen c machine then act (.scratch off) s else deny 2
    | some _ => deny 4

/-- An uncorrectable word ends the access with an error response (R394), otherwise `act` runs. -/
def State.checked (s : State) (c a : Nat) (load : Bool) (t : Target) (ecc : Ecc) (act : State → State) : State :=
  let s := s.memErr t (4 + c) ecc
  if ecc = .uncorrectable then s.raiseExc c (if load then 5 else 7) a else act s

/-- LR_W (R400): reads the word and reserves its 64-byte block. -/
def execLrW (c : Fin 4) (machine : Bool) (addr : Word) (ecc : Ecc) (s : State) : Host.Outcome State Fault Refusal :=
  .next (s.atomic c.val machine true addr.toNat fun t s =>
    s.checked c.val addr.toNat true t ecc fun s =>
      (s.updCore c.val fun x => { x with resv := blockOf t }).setRdata (.core c machine) (BitVec.ofNat 32 (s.loadWord t)))

/-- SC_W (R400): stores and returns 0 if the reservation holds, returns 1 otherwise; it always clears the reservation. -/
def execScW (c : Fin 4) (machine : Bool) (addr v : Word) (s : State) : Host.Outcome State Fault Refusal :=
  let held := (s.core c.val).resv
  let s := s.when (s.coreOn c.val) fun s => s.updCore c.val fun x => { x with resv := none }
  .next (s.atomic c.val machine false addr.toNat fun t s =>
    if held.isSome ∧ held = blockOf t then (s.storeWord c.val t v.toNat).setRdata (.core c machine) 0
    else s.setRdata (.core c machine) 1)

/-- Result of an atomic operation (RV32A). -/
def amoResult (op : AmoOp) (a b : Word) : Word :=
  match op with
  | .swap => b | .add => a + b | .xor => a ^^^ b | .and => a &&& b | .or => a ||| b
  | .min => if a.toInt ≤ b.toInt then a else b
  | .max => if a.toInt ≤ b.toInt then b else a
  | .minu => if a.toNat ≤ b.toNat then a else b
  | .maxu => if a.toNat ≤ b.toNat then b else a

/-- AMO (R400): one indivisible read and write, answering the word read. -/
def execAmo (c : Fin 4) (machine : Bool) (op : AmoOp) (addr v : Word) (ecc : Ecc) (s : State) : Host.Outcome State Fault Refusal :=
  .next (s.atomic c.val machine false addr.toNat fun t s =>
    s.checked c.val addr.toNat false t ecc fun s =>
      let old := BitVec.ofNat 32 (s.loadWord t)
      (s.storeWord c.val t (amoResult op old v).toNat).setRdata (.core c machine) old)

-- Fences --------------------------------------------------------------------------------------------------------

/-- FENCE (R385): every command is accepted before the next begins, so no earlier write of the port is outstanding. -/
def execFenceInstruction (_c : Fin 4) (s : State) : Host.Outcome State Fault Refusal := .next s

/-- FENCE.I (R384): the core's instruction cache is invalidated. -/
def execFenceI (c : Fin 4) (s : State) : Host.Outcome State Fault Refusal :=
  .next (s.updCore c.val fun x => { x with icache := [] })

end Sys2Proof.Machine
end

