-- ==== Sys2Proof/Machine/Sec.lean ====
section
/-!
DEFINITION. Life cycle, zeroisation, keys, firmware images and sensors (spec 15 R434 to R452, 12 R378 and R379, 16 R478).
-/
namespace Sys2Proof.Machine
open Sys2Proof

/-- A write of a WK field of the security registers (R436, R453): only core 0 in machine mode may make it, under the MSS key. -/
def State.secWrite (s : State) (m : Master) (off : Nat) (matters : Bool) (act : State → State) : State :=
  if !isCore0Machine m then s.writeRefused m off else s.wkWrite .mss matters act

-- Zeroisation ---------------------------------------------------------------------------------------------------

/-- The words MSS_KEYLOAD_k other than the first `keep` are cleared; those kept read as results (R440). -/
def State.clearKeyload (s : State) (keep : Nat) : State :=
  ((List.range 12).foldl (fun s k => if k < keep then s else s.setReg (R.MSS_KEYLOAD k) 0) s).updMss fun x =>
    { x with resultWords := 2 ^ keep - 1 }

/-- Zeroisation starts (R437): the port is denied, every key is gone and the session closes. A request during a zeroisation is
merged into it (R438). -/
def State.zeroise (s : State) : State :=
  if s.flag F.MSS_ZEROISE_BUSY then s
  else
    let s := (s.setFlag F.MSS_ZEROISE_BUSY true).updMss fun x => { x with scratchDenied := true, pairKey := none, scratch := [] }
    let s := (s.setFlag F.MSS_LC_STATE_PAIR_KEY false).clearKeyload 0
    if s.pair.joinStep ≠ 0 then s.joinFail St.JOIN_ABORTED else s.closeSession

/-- Write of MSS_ZEROISE: REQ under R436, and the two W1C flags. -/
def State.writeZeroise (s : State) (m : Master) (v : Word) : State :=
  let v := v.toNat
  let s := s.when (v.testBit 2) fun s => s.setFlag F.MSS_ZEROISE_ZEROISED false
  let s := s.when (v.testBit 1) fun s => s.setFlag F.MSS_ZEROISE_TAMPER_SEEN false
  if v.testBit 31 then s.secWrite m R.MSS_ZEROISE true State.zeroise else s.wkWrite .mss false fun s => s

/-- ZEROISE_REQ (R437). -/
def execZeroiseReq (m : Master) (v : Word) (s : State) : Host.Outcome State Fault Refusal := .next (s.writeZeroise m v)

/-- ZEROISATION_END (R438): `ok` says that every word read back as zero. After a failure the port stays denied. -/
def execZeroisationEnd (ok : Bool) (s : State) : Host.Outcome State Fault Refusal :=
  .next (if !s.flag F.MSS_ZEROISE_BUSY then s
  else
    let s := s.setFlag F.MSS_ZEROISE_BUSY false
    let s := if ok then (s.setFlag F.MSS_ZEROISE_ZEROISED true).logEvent Ev.ZEROISED noSource []
      else (s.setFlag F.MSS_ZEROISE_ZEROISE_FAIL true).logEvent Ev.ZEROISE_FAILED noSource []
    s.updMss fun x => { x with scratchDenied := s.flag F.MSS_ZEROISE_ZEROISE_FAIL })

/-- First qualified assertion of TAMPER_N since PORST_N (R423, R439). -/
def State.tamper (s : State) : State :=
  if s.mss.tamperDone then s
  else
    let s := (s.updMss fun x => { x with tamperDone := true }).setFlag F.MSS_ZEROISE_TAMPER_SEEN true
    ((s.zeroise.logEvent Ev.TAMPER noSource []).detect .tamper).icPend 276

/-- TAMPER (R439). -/
def execTamper (s : State) : Host.Outcome State Fault Refusal := .next s.tamper

/-- VDD_IO_REMOVED (R438): the always-on flags are lost and a denial after a failed zeroisation ends. -/
def execVddIoRemoved (s : State) : Host.Outcome State Fault Refusal :=
  let s := ((s.setFlag F.MSS_ZEROISE_ZEROISED false).setFlag F.MSS_ZEROISE_ZEROISE_FAIL false).setFlag F.MSS_ZEROISE_TAMPER_SEEN false
  let s := ((s.setFlag F.MSS_FW_TRIAL_ARMED false).setFlag F.MSS_FW_TRIAL_TRIED false).setFld F.MSS_FW_TRIAL_TRY_SLOT 0
  .next (s.updMss fun x => { x with scratchDenied := s.flag F.MSS_ZEROISE_BUSY })

-- Life cycle ----------------------------------------------------------------------------------------------------

/-- Life-cycle state (R434): 0 BLANK, 1 PROVISIONED, 2 DEPLOYED, 3 RETURNED. -/
def State.lifeCycle (s : State) : Nat := s.fld F.MSS_LC_STATE_STATE

/-- What a requested transition answers (R435): 0 where it is accepted. -/
def State.lcResult (s : State) (target : Nat) : Nat :=
  if !s.fenced ∨ s.role ≠ 0 then 1
  else if target ≤ s.lifeCycle then 2
  else if target ≠ 3 ∧ s.mss.ownerHash = [] then 3
  else if s.mss.lcTarget.isSome ∨ s.flag F.MSS_ZEROISE_BUSY then 5
  else 0

/-- Write of MSS_LC_CTL (R435). -/
def State.writeLcCtl (s : State) (m : Master) (v : Word) : State :=
  s.secWrite m R.MSS_LC_CTL (v.toNat.testBit 31 || v.toNat % 4 != s.fld F.MSS_LC_CTL_TARGET) fun s =>
    let t := v.toNat % 4
    let s := s.setFld F.MSS_LC_CTL_TARGET t
    if !v.toNat.testBit 31 then s
    else
      let r := s.lcResult t
      let s := s.setFld F.MSS_LC_CTL_RESULT r
      if r = 0 then s.updMss fun x => { x with lcTarget := some t } else s

/-- LC_TRANSITION (R435). -/
def execLcTransition (m : Master) (v : Word) (s : State) : Host.Outcome State Fault Refusal := .next (s.writeLcCtl m v)

/-- FUSE_WRITE_END (R435, R437): the state changes, or RESULT is FUSE_ERROR; zeroisation follows. -/
def execFuseWriteEnd (ok : Bool) (s : State) : Host.Outcome State Fault Refusal :=
  .next (match s.mss.lcTarget with
  | none => s
  | some t =>
    let s := s.updMss fun x => { x with lcTarget := none }
    if ok then
      let s := (s.setFld F.MSS_LC_STATE_STATE t).setFlag F.MSS_LC_STATE_DEBUG_OPEN (t != 2)
      ((s.when (t == 3) fun s => s.setFlag F.MSS_LC_STATE_DEVICE_SECRET false).zeroise).logEvent Ev.LIFE_CYCLE noSource []
    else (s.setFld F.MSS_LC_CTL_RESULT 4).zeroise)

-- Keys ----------------------------------------------------------------------------------------------------------

/-- The words MSS_KEYLOAD_0 on, as bytes (R440). -/
def State.keyloadBytes (s : State) (words : Nat) : List Byte :=
  (List.range words).flatMap fun k => leBytes 4 (s.reg (R.MSS_KEYLOAD k)).toNat

/-- Put result bytes into the words. -/
def State.setKeyload (s : State) (bs : List Byte) : State :=
  (List.range (bs.length / 4)).foldl (fun s k => s.setReg (R.MSS_KEYLOAD k) (BitVec.ofNat 32 (leAt bs (4 * k) 4))) s

/-- A key operation is refused (R440): RESULT, and the words are cleared. -/
def State.keyRefused (s : State) (r : Nat) : State :=
  ((s.setFld F.MSS_KEYLOAD_CTL_RESULT r).clearKeyload 0).logEvent Ev.KEYLOAD_REFUSED noSource []

/-- A key operation succeeds with some result bytes. -/
def State.keyDone (s : State) (result : List Byte) : State :=
  (((s.setFld F.MSS_KEYLOAD_CTL_RESULT 0).setKeyload result).clearKeyload (result.length / 4)).logEvent Ev.KEY_LOADED noSource []

/-- Load the pair key. -/
def State.setPairKey (s : State) (k : Option (List Byte)) : State :=
  (s.updMss fun x => { x with pairKey := k }).setFlag F.MSS_LC_STATE_PAIR_KEY k.isSome

/-- The key-encryption key as bytes. -/
def kekBytes : List Byte := beBytes 32 Config.keyEncryptionKey.toNat

/-- A key operation runs in the states `states` only, and not during a zeroisation (R440). -/
def State.keyOp (s : State) (m : Master) (op : Nat) (states : List Nat) (act : State → State) : State :=
  s.secWrite m R.MSS_KEYLOAD_CTL true fun s =>
    let s := s.setFld F.MSS_KEYLOAD_CTL_OP op
    if s.flag F.MSS_ZEROISE_BUSY then s.keyRefused 4
    else if !states.contains s.lifeCycle then s.keyRefused 1
    else act s

/-- Owner: fuses the owner key hash, once. -/
def State.opOwner (s : State) (m : Master) : State :=
  s.keyOp m 1 [0] fun s =>
    if s.mss.ownerHash ≠ [] then s.keyRefused 5
    else
      let h := s.keyloadBytes 12
      ((s.updMss fun x => { x with ownerHash := h }).setFlag F.MSS_LC_STATE_OWNER_KEY true).keyDone []

/-- OWNER (R440). -/
def execOwner (m : Master) (s : State) : Host.Outcome State Fault Refusal := .next (s.opOwner m)

/-- Install: loads the pair key given in clear and returns its wrap. -/
def State.opInstall (s : State) (m : Master) : State :=
  s.keyOp m 2 [1] fun s =>
    let k := s.keyloadBytes 8
    (s.setPairKey (some k)).keyDone (keyWrap kekBytes k)

/-- INSTALL (R440). -/
def execInstall (m : Master) (s : State) : Host.Outcome State Fault Refusal := .next (s.opInstall m)

/-- Load: unwraps and loads the pair key. -/
def State.opLoad (s : State) (m : Master) : State :=
  s.keyOp m 3 [1, 2] fun s =>
    match keyUnwrap kekBytes (s.keyloadBytes 10) with
    | none => s.keyRefused 2
    | some k => (s.setPairKey (some k)).keyDone []

/-- LOAD (R440). -/
def execLoad (m : Master) (s : State) : Host.Outcome State Fault Refusal := .next (s.opLoad m)

/-- Rotate: replaces the pair key by one wrapped under it, and returns the new key's wrap. -/
def State.opRotate (s : State) (m : Master) : State :=
  s.keyOp m 4 [1, 2] fun s =>
    match s.mss.pairKey with
    | none => s.keyRefused 3
    | some old =>
      match keyUnwrap old (s.keyloadBytes 10) with
      | none => s.keyRefused 2
      | some k => (s.setPairKey (some k)).keyDone (keyWrap kekBytes k)

/-- ROTATE (R440). -/
def execRotate (m : Master) (s : State) : Host.Outcome State Fault Refusal := .next (s.opRotate m)

/-- Clear: zeroes the pair key. -/
def State.opClear (s : State) (m : Master) : State :=
  s.keyOp m 5 [0, 1, 2, 3] fun s => (s.setPairKey none).keyDone []

/-- CLEAR (R440). -/
def execClear (m : Master) (s : State) : Host.Outcome State Fault Refusal := .next (s.opClear m)

/-- Write of MSS_KEYLOAD_CTL (R440): with GO the operation OP runs; 0, 6 and 7 do nothing. -/
def State.writeKeyloadCtl (s : State) (m : Master) (v : Word) : State :=
  let op := v.toNat % 8
  let go := v.toNat.testBit 31
  if go ∧ op = 1 then s.opOwner m
  else if go ∧ op = 2 then s.opInstall m
  else if go ∧ op = 3 then s.opLoad m
  else if go ∧ op = 4 then s.opRotate m
  else if go ∧ op = 5 then s.opClear m
  else s.secWrite m R.MSS_KEYLOAD_CTL (go || op != s.fld F.MSS_KEYLOAD_CTL_OP) fun s => s.setFld F.MSS_KEYLOAD_CTL_OP op

/-- MSS_KEYLOAD_k as it reads: 0 outside the result words (R440, R453). -/
def State.keyloadWord (s : State) (k : Nat) : Word := if s.mss.resultWords.testBit k then s.reg (R.MSS_KEYLOAD k) else 0

/-- Write of an operand word (R436, R440). -/
def State.writeKeyload (s : State) (m : Master) (k : Nat) (v : Word) : State :=
  s.secWrite m (R.MSS_KEYLOAD k) (v != s.keyloadWord k) fun s =>
    (s.setReg (R.MSS_KEYLOAD k) v).updMss fun x => { x with
      resultWords := if x.resultWords.testBit k then x.resultWords - 2 ^ k else x.resultWords }

-- Images --------------------------------------------------------------------------------------------------------

/-- Hash of the key that signs images in the present state (R434). -/
def State.imageKeyHash (s : State) : List Byte :=
  if s.lifeCycle = 0 ∨ s.lifeCycle = 3 then beBytes 48 Config.vendorKeyHash.toNat else s.mss.ownerHash

/-- Sizes of an image header (R443). -/
def imageSizeOk (img : List Byte) : Bool :=
  let n := leAt img 16 4
  decide (352 ≤ n ∧ n ≤ 16777216 ∧ n = img.length ∧ leAt img 28 4 ≤ 393216)

/-- The signature of an image verifies with its PUBKEY (R443). -/
def imageSigned (img : List Byte) : Bool :=
  let body := img.take (img.length - 96)
  let sig := img.drop (img.length - 96)
  let key := bytesAt img 64 97
  key.head? == some 4#8 && ecdsaVerify (beAt key 1 48) (beAt key 49 48) (beAt sig 0 48) (beAt sig 48 48) body

/-- What keeps an image from being acceptable (R444): 1 its size, 2 anything else, 0 nothing. -/
def State.imageFault (s : State) (img : List Byte) : Nat :=
  if !imageSizeOk img then 1
  else if img.take 4 ≠ [0x49#8, 0x5A#8, 0x46#8, 0x57#8] ∨ leAt img 4 2 ≠ 1 ∨ sha384 (bytesAt img 64 97) ≠ s.imageKeyHash
      ∨ leAt img 12 2 < s.fld F.MSS_FW_ROLLBACK_COUNT ∨ 63 < leAt img 12 2 ∨ !imageSigned img then 2
  else 0

/-- Image slot 1 (A) or 2 (B) of the flash. -/
def State.slotImage (s : State) (k : Nat) : List Byte := if k = 1 then s.mss.slotA else s.mss.slotB

/-- Write a slot. -/
def State.setSlot (s : State) (k : Nat) (img : List Byte) : State :=
  s.updMss fun x => if k = 1 then { x with slotA := img } else { x with slotB := img }

/-- A change of I3CT_RCV_STAT.STATE, with its in-band interrupt (R472). -/
def State.setRcv (s : State) (st : Nat) : State :=
  if s.fld F.I3CT_RCV_STAT_STATE = st then s else (s.setFld F.I3CT_RCV_STAT_STATE st).raiseIbi 0x04

/-- Entry to recovery (R478). -/
def State.enterRecovery (s : State) : State :=
  let s := (s.setFld F.I3CT_RCV_STAT_CAUSE 0).setFld F.I3CT_RCV_STAT_UNIT 0
  ((s.setRcv 1).alert F.GCTL_ALERT_STAT_BOOT).updMss fun x => { x with booted := true }

/-- Boot an image (R445): resident code, version, IMAGE, and core 0 at ENTRY. The firmware of a slot other than the one tried
knows that the trial has failed (R446). -/
def State.bootSlot (s : State) (k : Nat) : State :=
  let img := s.slotImage k
  let code := bytesAt img (leAt img 24 4) (leAt img 28 4)
  let at_ := leAt img 32 4
  let s := (s.setFld F.MSS_BOOT_IMAGE k).setReg R.MSS_FW_VERSION (BitVec.ofNat 32 (leAt img 8 4))
  let s := s.updMss fun x => { x with
    booted := true
    runSec := leAt img 12 2
    activateFailed := x.activateHandle != 0 && s.fld F.MSS_FW_TRIAL_TRY_SLOT != k
    sram := if 0x10000000 ≤ at_ ∧ at_ + code.length ≤ 0x10060000 then Memory.writeBytes x.sram (at_ - 0x10000000) code else x.sram }
  s.updCore 0 fun c => { c with r := { c.r with pc := BitVec.ofNat 32 (leAt img 20 4) } }

/-- The boot ROM's choice (R445): the trial slot, the slot after a failed trial, or the preferred one. -/
def State.chosenSlot (s : State) : State × Nat :=
  let try_ := s.fld F.MSS_FW_TRIAL_TRY_SLOT
  if !s.flag F.MSS_FW_TRIAL_ARMED then (s, s.mss.preferred)
  else if !s.flag F.MSS_FW_TRIAL_TRIED then (s.setFlag F.MSS_FW_TRIAL_TRIED true, try_)
  else ((s.setFlag F.MSS_FW_TRIAL_ARMED false).logEvent Ev.FW_FALLBACK noSource [], 3 - try_)

/-- Choose, verify and boot an image, or enter recovery (R445, R465). -/
def State.boot (s : State) : State :=
  let s := ((s.setFld F.MSS_BOOT_IMAGE 0).setReg R.MSS_FW_VERSION 0).setRcv 0
  let src := s.fld F.MSS_BOOT_BOOT_SRC
  if src = 1 then s.enterRecovery
  else
    let (s, k) := s.chosenSlot
    if s.imageFault (s.slotImage k) = 0 then s.bootSlot k
    else
      let s := s.logEvent Ev.BOOT_IMAGE_BAD noSource []
      if s.imageFault (s.slotImage (3 - k)) = 0 then s.bootSlot (3 - k)
      else if src = 0 then s.enterRecovery
      else s.updMss fun x => { x with booted := true }

/-- BOOT_IMAGE_CHOICE (R445): once at every start of core 0. -/
def execBootImageChoice (s : State) : Host.Outcome State Fault Refusal :=
  .next (if s.coreOn 0 && !s.mss.booted then s.boot else s)

/-- FW_STAGE (R378, R444): the image is received, verified and written to the slot that is not running; with no image running,
to the one that is not preferred. `flashOk` says that the write and its read-back succeed. -/
def execFwStage (h : Word) (sg : List (Nat × Nat)) (obj : List Byte) (flashOk : Bool) (s : State) : Host.Outcome State Fault Refusal :=
  .next (s.run Op.FW_STAGE h.toNat fun e s =>
    s.receive e (e.param 0 4) sg obj fun img s =>
      let f := s.imageFault img
      if f = 1 then s.fail e.handle St.IMAGE_SIZE 0
      else if f = 2 then s.fail e.handle St.SIGNATURE_BAD 0
      else
        let run := s.fld F.MSS_BOOT_IMAGE
        let k := 3 - (if run = 0 then s.mss.preferred else run)
        let version := leAt img 8 4
        if flashOk then
          ((s.setSlot k img).updMss fun x => { x with staged := some (k, version) }).finish e.handle Out.OK 0 version
        else ((s.setSlot k []).updMss fun x => { x with staged := none }).fail e.handle St.FLASH_ERROR 0)

/-- FW_ACTIVATE (R379, R446): the trial is armed and a management restart starts; the command goes on with the next firmware. -/
def execFwActivate (h : Word) (bursts : List Burst) (s : State) : Host.Outcome State Fault Refusal :=
  .next (s.run Op.FW_ACTIVATE h.toNat fun e s =>
    match s.mss.staged with
    | none => s.fail e.handle St.NO_STAGED_IMAGE 0
    | some (k, _) =>
      let s := ((s.setFld F.MSS_FW_TRIAL_TRY_SLOT k).setFlag F.MSS_FW_TRIAL_ARMED true).setFlag F.MSS_FW_TRIAL_TRIED false
      (s.updMss fun x => { x with activateHandle := e.handle, activateFailed := false }).mgmtRestart 2 bursts)

/-- Write of MSS_FW_TRIAL (R10, R446): it acts on all its fields. CONFIRM clears ARMED and TRIED; ARMED with slot A or B arms a new trial. With both,
the running image is confirmed and nothing is armed (log entry 53). -/
def State.writeTrial (s : State) (m : Master) (v : Word) : State :=
  s.secWrite m R.MSS_FW_TRIAL
      (v.toNat.testBit 31 || v.toNat % 4 != s.fld F.MSS_FW_TRIAL_TRY_SLOT || v.toNat.testBit 3 != s.flag F.MSS_FW_TRIAL_ARMED) fun s =>
    let v := v.toNat
    let slot := v % 4
    let s := s.setFld F.MSS_FW_TRIAL_TRY_SLOT slot
    if v.testBit 31 then
      let s := (s.setFlag F.MSS_FW_TRIAL_ARMED false).setFlag F.MSS_FW_TRIAL_TRIED false
      let k := s.fld F.MSS_BOOT_IMAGE
      let h := s.mss.activateHandle
      let s := s.updMss fun x => { x with
        preferred := if k = 0 then x.preferred else k, activateHandle := 0, staged := if h = 0 then x.staged else none }
      s.finish h Out.OK 0 (s.reg R.MSS_FW_VERSION).toNat
    else
      let arm := v.testBit 3 && (slot == 1 || slot == 2)
      let s := s.setFlag F.MSS_FW_TRIAL_ARMED arm
      s.when arm fun s => s.setFlag F.MSS_FW_TRIAL_TRIED false

/-- CONFIRM (R446): the running firmware confirms itself, writes the boot record and completes FW_ACTIVATE. The write leaves TRY_SLOT as it is. -/
def execConfirm (m : Master) (s : State) : Host.Outcome State Fault Refusal :=
  .next (s.writeTrial m (BitVec.ofNat 32 (2 ^ 31 + s.fld F.MSS_FW_TRIAL_TRY_SLOT)))

/-- What firmware does at its first keep-alive after a failed trial (R446). -/
def State.finishActivate (s : State) : State :=
  let h := s.mss.activateHandle
  if h = 0 ∨ !s.mss.activateFailed then s
  else
    let s := s.updMss fun x => { x with activateHandle := 0, activateFailed := false }
    (s.finish h Out.FAILED St.MGMT_RESTART 0).logEvent Ev.FW_ACTIVATED noSource (leBytes 2 St.MGMT_RESTART)

/-- Write of MSS_FW_ROLLBACK (R447). -/
def State.writeRollback (s : State) (m : Master) (v : Word) : State :=
  s.secWrite m R.MSS_FW_ROLLBACK (v.toNat.testBit 31 || bitsOf v.toNat 8 6 != s.fld F.MSS_FW_ROLLBACK_TO) fun s =>
    let want := bitsOf v.toNat 8 6
    if !v.toNat.testBit 31 then s.setFld F.MSS_FW_ROLLBACK_TO want
    else if s.fld F.MSS_FW_ROLLBACK_COUNT < want ∧ want ≤ s.mss.runSec ∧ !s.flag F.MSS_FW_TRIAL_ARMED then
      (s.setFld F.MSS_FW_ROLLBACK_TO want).setFld F.MSS_FW_ROLLBACK_COUNT want
    else s

/-- RAISE (R447). -/
def execRaise (m : Master) (v : Word) (s : State) : Host.Outcome State Fault Refusal := .next (s.writeRollback m v)

-- Sensors -------------------------------------------------------------------------------------------------------

/-- Nominal value of the rail of a voltage monitor in mV (R451, R452, R455, R458). -/
def State.nominalMv (s : State) (n : Nat) : Nat :=
  if n < 2 then clampNat 700 800 (s.fld F.GCTL_AVS_SET_MV)
  else [800, 800, 800, 800, 800, 1200, 1200, 800, 1800, 1800].getD (n - 2) 800

/-- Whether a monitor reads more than 4 % from nominal (R452). -/
def State.voltBad (s : State) (n : Nat) : Bool :=
  let d := (s.fld (F.MSS_VOLT_MV n) : Int) - s.nominalMv n
  decide ((s.nominalMv n : Int) < 25 * d ∨ (s.nominalMv n : Int) < -(25 * d))

/-- Show whether any monitor is in alarm. -/
def State.showVolt (s : State) : State := s.setFlag F.MSS_SENSE_STAT_VOLT_ALARM (!s.mss.voltAlarms.isEmpty)

/-- SENSOR_SAMPLE (R451, R452): temperatures in 1/16 °C, voltages in mV, currents in 0.1 A. -/
def execSensorSample (temps : List Int) (volts currs : List Nat) (s : State) : Host.Outcome State Fault Refusal :=
  let s := (List.range 24).foldl (fun s i => s.setFldI (F.MSS_TEMP_TEMP i) (temps.getD i (s.fldI (F.MSS_TEMP_TEMP i)))) s
  let s := (List.range 12).foldl (fun s i => s.setFld (F.MSS_VOLT_MV i) (volts.getD i (s.fld (F.MSS_VOLT_MV i)))) s
  let s := (List.range 4).foldl (fun s i => s.setFld (F.MSS_CURR_DA i) (currs.getD i (s.fld (F.MSS_CURR_DA i)))) s
  let t (i : Nat) := s.fldI (F.MSS_TEMP_TEMP i)
  let hot := (List.range 24).foldl (fun k i => if t k < t i then i else k) 0
  let crit := (List.range 24).filter fun i => decide (1840 ≤ t i)
  let twice := crit.any s.mss.hotLast.contains
  let warm := decide (1680 ≤ t hot)
  let s := (s.setFld F.MSS_SENSE_STAT_HOT_SENSOR hot).setFldI F.MSS_SENSE_STAT_HOT_TEMP (t hot)
  let s := s.updMss fun x => { x with hotLast := crit }
  let s := if warm ∧ !s.flag F.GCTL_STATE_THERMAL_WARN then
      let s := (s.setFlag F.GCTL_STATE_THERMAL_WARN true).setFlag F.MSS_SENSE_STAT_WARN true
      ((s.alert F.GCTL_ALERT_STAT_THERMAL).logEvent Ev.THERMAL_WARN noSource []).icRaise 35
    else s
  let s := s.when twice fun s => s.setFlag F.MSS_SENSE_STAT_CRIT true
  let s := if twice ∧ !s.recorded .thermal then (s.detect .thermal).logEvent Ev.THERMAL_CRITICAL noSource [] else s
  let new := (List.range 12).filter fun i => s.voltBad i && !s.mss.voltAlarms.contains i
  .next ((new.foldl (fun s i =>
    ((s.updMss fun x => { x with voltAlarms := x.voltAlarms ++ [i] }).alert F.GCTL_ALERT_STAT_VOLTAGE).logEvent
      Ev.VOLTAGE_ALARM noSource []) s).showVolt)

/-- THERMAL_WARN_CLEAR (R452): every sensor has read below 100 °C for 1 s. -/
def execThermalWarnClear (s : State) : Host.Outcome State Fault Refusal :=
  let cool := (List.range 24).all fun i => decide (s.fldI (F.MSS_TEMP_TEMP i) < 1600)
  .next (if cool && s.flag F.GCTL_STATE_THERMAL_WARN then
    ((s.setFlag F.GCTL_STATE_THERMAL_WARN false).setFlag F.MSS_SENSE_STAT_WARN false).logEvent Ev.THERMAL_WARN noSource []
  else s)

/-- VOLTAGE_ALARM_CLEAR (R452): a monitor has been within 4 % for 1 s. -/
def execVoltageAlarmClear (n : Fin 12) (s : State) : Host.Outcome State Fault Refusal :=
  .next (if s.mss.voltAlarms.contains n.val && !s.voltBad n.val then
    ((s.updMss fun x => { x with voltAlarms := x.voltAlarms.filter (· ≠ n.val) }).logEvent Ev.VOLTAGE_ALARM noSource []).showVolt
  else s)

end Sys2Proof.Machine
end

