-- ==== Sys2Proof/Machine/Test.lean ====
section
/-!
DEFINITION. Loops, PRBS patterns and boundary scan (spec 17 R481 to R496). The loop or generator of a lane changes at a local
reel boundary; what a checker compares between two commands is reported by the command that needs its counts.
-/
namespace Sys2Proof.Machine
open Sys2Proof

/-- Change the test state of a lane. -/
def State.updTest (s : State) (n : Nat) (f : TestLane → TestLane) : State :=
  { s with test := Tbl.put (fun _ => {}) s.test n (f (s.testLane n)) }

-- Lanes in use ------------------------------------------------------------------------------------------------

/-- Whether a page set uses a lane: as output or source lane of a valid connection, or for a copy of a merge pair (R482). -/
def PageSet.usesLane (p : PageSet) (n : Nat) : Bool :=
  p.conns.any (fun (i, c) => i / 2048 == n || c.lane == n)
    || p.mergeList.any (fun (i, e) => i / 2048 == n || e.partner == n)

/-- Whether a lane is in use (R482). -/
def State.laneInUse (s : State) (n : Nat) : Bool :=
  if 128 ≤ n then !s.fenced
  else
    s.active.usesLane n
      || ((s.sby == 3 || s.sby == 4) && s.standby.usesLane n)
      || (s.reg (R.PAIR_WIT_MASK (n / 32))).toNat.testBit (n % 32)
      || [4, 5].any fun k => s.flag (F.REF_CANDn_CTL_EN k) && s.fld (F.REF_CANDn_CTL_LANE k) == n

-- Requests ----------------------------------------------------------------------------------------------------

/-- Whether the registers ask the transmitter to leave reels. -/
def State.wantsOffReels (s : State) (n : Nat) : Bool :=
  s.flag (F.TEST_PRBS_GEN_EN n) || s.fld (F.TEST_LOOP_MODE n) == 3

/-- After an accepted request: eight reels of stop notice come before the transmitter leaves reels (R485); a request that
asks for nothing shows NONE once nothing is in force. -/
def State.testRequest (s : State) (n : Nat) : State :=
  let t := s.testLane n
  let want := s.wantsOffReels n && !s.offReels n
  let s := s.updTest n fun t => { t with
    notice := if want then some (t.notice.getD 8) else none
    wasInUse := s.laneInUse n
    wasTx := s.txState n == 0
    wasRx := s.rxState n == 0 }
  if s.fld (F.TEST_LOOP_MODE n) = 0 ∧ !s.flag (F.TEST_PRBS_GEN_EN n) ∧ t.active = 0 ∧ !s.flag (F.TEST_PRBS_GEN_SENDING n) then
    s.setFld (F.TEST_LOOP_STATUS n) 0
  else s

/-- A write to TEST_LOOP_n (R481, R482). A mode other than 0 on a lane in use of an unfenced unit is discarded. -/
def State.writeTestLoop (s : State) (n : Nat) (v : Word) : State :=
  let mode := v.toNat % 4
  if mode ≠ 0 ∧ s.laneInUse n ∧ !s.fenced then s.setFld (F.TEST_LOOP_STATUS n) 2
  else (s.setFld (F.TEST_LOOP_MODE n) mode).testRequest n

/-- TEST_LOOP_WRITE (R481, R482). -/
def execTestLoopWrite (n : LaneNo) (v : Word) (s : State) : Host.Outcome State Fault Refusal := .next (s.writeTestLoop n v)

/-- A write to TEST_PRBS_GEN_n (R482, R485). Setting EN on a lane in use of an unfenced unit is discarded. A generator that
starts takes a register that the spec leaves open, but not all zeros, from which no sequence would follow. -/
def State.writePrbsGen (s : State) (n : Nat) (v : Word) : State :=
  let v := v.toNat
  let en := v.testBit 31
  if en && s.laneInUse n && !s.fenced then s.setFld (F.TEST_LOOP_STATUS n) 2
  else
    let start := en && !s.flag (F.TEST_PRBS_GEN_EN n)
    let s := (s.setFlag (F.TEST_PRBS_GEN_EN n) en).setFld (F.TEST_PRBS_GEN_PATTERN n) v
    let (r, s) := if start then s.fresh 31 else (0, s)
    let s := s.when start fun s => s.updTest n fun t => { t with genStart := if r.toNat % 2 ^ 13 = 0 then 1 else r.toNat, genBits := 0 }
    let s := s.when (v.testBit 30) fun s => s.updTest n fun t => { t with inject := true }
    s.testRequest n

/-- PRBS_GEN_EN (R485). -/
def execPrbsGenEn (n : LaneNo) (v : Word) (s : State) : Host.Outcome State Fault Refusal := .next (s.writePrbsGen n v)

/-- INJECT (R485): a write that keeps the other fields and inverts the next bit generated, once. -/
def execInject (n : LaneNo) (s : State) : Host.Outcome State Fault Refusal :=
  .next (s.updTest n fun t => { t with inject := true })

-- The pattern -------------------------------------------------------------------------------------------------

/-- The next bit of a sequence whose register holds the last bits generated, the newest in bit 0 (R484): PRBS31 by
x^31 + x^28 + 1 and PRBS13 by x^13 + x^12 + x^2 + x + 1, powers as delays (assumption 34). -/
def prbsNext (pattern r : Nat) : Bool :=
  if pattern = 1 then (r.testBit 12 != r.testBit 11) != (r.testBit 1 != r.testBit 0) else r.testBit 30 != r.testBit 27

/-- The register after one bit. -/
def prbsStep (pattern r : Nat) : Nat := (2 * r + (prbsNext pattern r).toNat) % 2 ^ (if pattern = 1 then 13 else 31)

/-- The first `k` bits of a sequence, oldest first. -/
def prbsBits (pattern : Nat) : Nat → Nat → List Bool
  | _, 0 => []
  | r, k + 1 => prbsNext pattern r :: prbsBits pattern (prbsStep pattern r) k

/-- Bits of one reel period (R76): 32 blocks of 17,920 bits. -/
def reelBits : Nat := 32 * 17920

/-- The bits that the generator of lane `n` sends in the reel period in progress, in place of the reel and before the precoder (R484, R485): the
sequence goes on from one period to the next, and the first bit is inverted where INJECT asked for it. -/
def State.patternReel (s : State) (n : Nat) : List Bool :=
  let t := s.testLane n
  if s.flag (F.TEST_PRBS_GEN_SENDING n) then
    match (prbsBits (s.fld (F.TEST_PRBS_GEN_PATTERN n)) t.genStart (t.genBits + reelBits)).drop t.genBits with
    | b :: l => (b != t.flip) :: l
    | [] => []
  else []

-- The boundary ------------------------------------------------------------------------------------------------

/-- What a local reel boundary does to loops and generators (R481, R485): near-end loops are set up or removed; a
transmitter leaves reels after its notice and returns to them once nothing asks otherwise; the generator runs on. MODE 2
makes LOS and LOL read 0. A checker whose receiver has left ACTIVE starts again at step 1 (R486). -/
def State.testBoundary (s : State) (n : Nat) : State :=
  let t := s.testLane n
  let mode := s.fld (F.TEST_LOOP_MODE n)
  let gen := s.flag (F.TEST_PRBS_GEN_EN n)
  let leave := s.wantsOffReels n && (s.offReels n || t.notice == some 0)
  let active := if mode = 3 then (if leave then 3 else 0) else mode
  let sending := gen && leave && mode != 3
  let s := s.updTest n fun t => { t with
    active := active
    notice := if leave then none else t.notice.map (· - 1)
    wasInUse := t.wasInUse && s.laneInUse n
    wasTx := t.wasTx || s.txState n == 0
    wasRx := t.wasRx || s.rxState n == 0
    genBits := if sending && s.flag (F.TEST_PRBS_GEN_SENDING n) then t.genBits + reelBits else t.genBits
    flip := sending && t.inject
    inject := t.inject && !sending }
  let changed := decide (active ≠ t.active) || sending != s.flag (F.TEST_PRBS_GEN_SENDING n)
  let s := (s.setFlag (F.TEST_PRBS_GEN_SENDING n) sending).when (s.rxState n != 0) fun s => s.setFlag (F.TEST_PRBS_CHK_LOCKED n) false
  let s := s.when changed fun s => s.setFld (F.TEST_LOOP_STATUS n) (if active ≠ 0 || sending then 1 else 0)
  s.when (active == 2 && t.active != 2) fun s =>
    ((s.setFlag (F.LANE_STATUS_LOS n) false).setFlag (F.LANE_STATUS_LOL n) false).setRaws n [(.los, false), (.lol, false)]

/-- Whether the reel that starts carries the stop notice for a pattern or far-end loop (R485). -/
def State.testStop (s : State) (n : Nat) : Bool := (s.testLane n).notice.isSome && !s.offReels n

/-- Whether a condition of R483 ends what is in force on a lane: it has come into use, a take that uses it is ORDERED on an unfenced unit, a
direction has left ACTIVE, or, on M0 and M1, a join has started. -/
def State.loopEnds (s : State) (n : Nat) : Bool :=
  let t := s.testLane n
  (s.laneInUse n && !t.wasInUse) || (s.sby == 4 && !s.fenced && s.standby.usesLane n)
    || (t.wasTx && s.txState n != 0) || (t.wasRx && s.rxState n != 0)
    || (decide (128 ≤ n) && s.role == 1)

/-- LOOP_END (R481, R483): a loop, accepted or in force, or an enabled generator ends at a local reel boundary where a condition of R483
holds; a far-end loop ends too when its FIFO overruns. -/
def execLoopEnd (n : LaneNo) (overrun : Bool) (s : State) : Host.Outcome State Fault Refusal :=
  let n := n.val
  let t := s.testLane n
  let any := t.active != 0 || s.fld (F.TEST_LOOP_MODE n) != 0 || s.flag (F.TEST_PRBS_GEN_EN n)
  if any && (s.loopEnds n || (overrun && t.active == 3)) then
    let s := (s.setFld (F.TEST_LOOP_MODE n) 0).setFlag (F.TEST_PRBS_GEN_EN n) false
    let s := (s.setFlag (F.TEST_PRBS_GEN_SENDING n) false).setFld (F.TEST_LOOP_STATUS n) 3
    .next (s.updTest n fun t => { t with active := 0, notice := none, inject := false, flip := false })
  else .next s

-- The checker -------------------------------------------------------------------------------------------------

/-- A write to TEST_PRBS_CHK_n (R486): the checker restarts at step 1 when it is enabled, and is unlocked when it is not;
CLEAR zeroes both counts and keeps the lock. -/
def State.writePrbsChk (s : State) (n : Nat) (v : Word) : State :=
  let v := v.toNat
  let en := v.testBit 31
  let keep := en && s.flag (F.TEST_PRBS_CHK_EN n)
  let s := (s.setFlag (F.TEST_PRBS_CHK_EN n) en).setFld (F.TEST_PRBS_CHK_PRECODE n) (bitsOf v 28 2)
  let s := s.setFld (F.TEST_PRBS_CHK_PATTERN n) v
  let s := if keep then s else s.setFlag (F.TEST_PRBS_CHK_LOCKED n) false
  let s := s.when (v.testBit 26) fun s => s.setFlag (F.TEST_PRBS_CHK_LOCK_LOST n) false
  s.when (v.testBit 30) fun s => s.updTest n fun t => { t with chkBits := 0, chkErrs := 0 }

/-- PRBS_CHK_EN (R486). -/
def execPrbsChkEn (n : LaneNo) (v : Word) (s : State) : Host.Outcome State Fault Refusal := .next (s.writePrbsChk n v)

/-- CHECKER_CLEAR (R486). -/
def execCheckerClear (n : LaneNo) (s : State) : Host.Outcome State Fault Refusal :=
  .next (s.updTest n fun t => { t with chkBits := 0, chkErrs := 0 })

/-- CHECKER_LOCKED (R486): 4,096 consecutive bits have matched on an enabled checker of an ACTIVE receiver. -/
def execCheckerLocked (n : LaneNo) (s : State) : Host.Outcome State Fault Refusal :=
  let n := n.val
  .next (if s.flag (F.TEST_PRBS_CHK_EN n) && s.rxState n == 0 then s.setFlag (F.TEST_PRBS_CHK_LOCKED n) true else s)

/-- A locked checker has compared more bits: both counts advance and saturate at 48 bits (R486). -/
def State.prbsCount (s : State) (n bits errs : Nat) : State :=
  if s.flag (F.TEST_PRBS_CHK_LOCKED n) && s.rxState n == 0 then
    s.updTest n fun t => { t with chkBits := satAdd 48 t.chkBits bits, chkErrs := satAdd 48 t.chkErrs errs }
  else s

/-- LOCK_LOST (R486): more than 16,384 bits of a window of 65,536 were in error. The counts take what was compared since the
last report and then hold. -/
def execLockLost (n : LaneNo) (bits errs windowErrs : Nat) (s : State) : Host.Outcome State Fault Refusal :=
  let n := n.val
  if 16384 < windowErrs ∧ s.flag (F.TEST_PRBS_CHK_LOCKED n) ∧ s.rxState n = 0 then
    .next (((s.prbsCount n bits errs).setFlag (F.TEST_PRBS_CHK_LOCKED n) false).setFlag (F.TEST_PRBS_CHK_LOCK_LOST n) true)
  else .next s

/-- A read of TEST_PRBS_BITS_LO (R487): its word, with the other three latched for the reading master (R500). -/
def State.readPrbs (s : State) (m : Master) (n : Nat) : Word × State :=
  let t := s.testLane n
  (BitVec.ofNat 32 t.chkBits,
   s.latch m [(R.TEST_PRBS_BITS_HI n, BitVec.ofNat 32 (t.chkBits / 2 ^ 32)), (R.TEST_PRBS_ERR_LO n, BitVec.ofNat 32 t.chkErrs),
     (R.TEST_PRBS_ERR_HI n, BitVec.ofNat 32 (t.chkErrs / 2 ^ 32))])

/-- PRBS_COUNT_READ (R487): `bits` and `errs` are what the checker has compared and found in error since the last report. -/
def execPrbsCountRead (m : Master) (n : LaneNo) (bits errs : Nat) (s : State) : Host.Outcome State Fault Refusal :=
  let r := (s.prbsCount n bits errs).readPrbs m n
  .next (r.2.setRdata m r.1)

-- Boundary scan -----------------------------------------------------------------------------------------------

/-- What the balls carry (R493): their functional drivers, the boundary register, or nothing. -/
inductive Balls where
  | functional
  | boundary (cells : List Bool)
  | released
  deriving DecidableEq, Repr

/-- Instructions that drive pins (R492). -/
def drivesPins (ir : Nat) : Bool := decide (4 ≤ ir) && decide (ir ≤ 8)

/-- The balls under the current instruction (R492, R493). -/
def State.balls (s : State) : Balls :=
  if s.gctl.porstLow && drivesPins s.jtag.ir then (if s.jtag.ir = 8 then .released else .boundary s.jtag.preload) else .functional

/-- The IDCODE word (R492). -/
def State.idcode (s : State) : Nat :=
  s.fld F.GCTL_ID_STEPPING % 16 * 2 ^ 28 + 0x7128 * 2 ^ 12 + Config.jedecIdentity.toNat * 2 + 1

/-- Make an instruction current, with the data register it captures. -/
def State.tapInstr (s : State) (ir dr : Nat) : State := { s with jtag := { s.jtag with ir := ir, dr := dr } }

/-- Make an instruction of the boundary register current: the pins are sampled (R492, R493). -/
def State.tapSample (s : State) (ir : Nat) (pins : List Bool) : State :=
  { s with jtag := { s.jtag with ir := ir, sample := pins, dr := 0 } }

/-- The TAP enters Test-Logic-Reset (R491 to R493): IDCODE is loaded and the balls return to their functional drivers. -/
def State.tapReset (s : State) : State := s.tapInstr 0x01 s.idcode

/-- IDCODE (R492). -/
def execIdcode (s : State) : Host.Outcome State Fault Refusal := .next (s.tapInstr 0x01 s.idcode)
/-- SAMPLE (R492). -/
def execSample (pins : List Bool) (s : State) : Host.Outcome State Fault Refusal := .next (s.tapSample 0x02 pins)
/-- PRELOAD (R492): the boundary register takes the cells shifted in. -/
def execPreload (cells : List Bool) (s : State) : Host.Outcome State Fault Refusal :=
  .next { s with jtag := { s.jtag with ir := 0x03, preload := cells, dr := 0 } }
/-- EXTEST (R493): drives pins while PORST_N is low, and acts as SAMPLE while it is high. -/
def execExtest (pins : List Bool) (s : State) : Host.Outcome State Fault Refusal := .next (s.tapSample 0x04 pins)
/-- EXTEST_PULSE (R493, R494). -/
def execExtestPulse (pins : List Bool) (s : State) : Host.Outcome State Fault Refusal := .next (s.tapSample 0x05 pins)
/-- EXTEST_TRAIN (R493, R494). -/
def execExtestTrain (pins : List Bool) (s : State) : Host.Outcome State Fault Refusal := .next (s.tapSample 0x06 pins)
/-- CLAMP (R492, R493): bypass selected while it drives pins; SAMPLE otherwise. -/
def execClamp (pins : List Bool) (s : State) : Host.Outcome State Fault Refusal :=
  .next (if s.gctl.porstLow then s.tapInstr 0x07 0 else s.tapSample 0x07 pins)
/-- HIGHZ (R492, R493): all outputs released, bypass selected; SAMPLE while PORST_N is high. -/
def execHighz (pins : List Bool) (s : State) : Host.Outcome State Fault Refusal :=
  .next (if s.gctl.porstLow then s.tapInstr 0x08 0 else s.tapSample 0x08 pins)
/-- ECIDCODE (R492): the device number. -/
def execEcidcode (s : State) : Host.Outcome State Fault Refusal := .next (s.tapInstr 0x09 Config.deviceNumber.toNat)
/-- BYPASS (R492). -/
def execBypass (s : State) : Host.Outcome State Fault Refusal := .next (s.tapInstr 0xFF 0)

/-- PRODUCTION_TEST_OPCODE (R492, R495): opcodes 0x80 to 0xFE become current only in BLANK and RETURNED; every other case, and
an opcode below 0x80 given here, acts as BYPASS. The arrays and fuses they test are outside what the spec describes. -/
def execProductionTestOpcode (op : BitVec 8) (s : State) : Host.Outcome State Fault Refusal :=
  let lc := s.fld F.MSS_LC_STATE_STATE
  .next (if 0x80 ≤ op.toNat ∧ op.toNat ≤ 0xFE ∧ (lc = 0 ∨ lc = 3) then s.tapInstr op.toNat 0 else s.tapInstr 0xFF 0)

/-- TEST_LOGIC_RESET (R491). -/
def execTestLogicReset (s : State) : Host.Outcome State Fault Refusal := .next s.tapReset

end Sys2Proof.Machine
end

