-- ==== Sys2Proof/Machine/Gctl.lean ====
section
/-!
DEFINITION. Keep-alive, flywheel, clock inputs, power-on reset and the fence (spec 01 R20, R21, R26 to R40, 16 R466).
-/
namespace Sys2Proof.Machine
open Sys2Proof

-- Keep-alive ----------------------------------------------------------------------------------------------------

/-- At its first start after PORST_N firmware restores the newest mirrored entries, marked RESTORED, and goes on numbering
after them (R450). -/
def State.restoreLog (s : State) : State :=
  match s.mirror.getLast? with
  | none => s
  | some e => { s with log := s.mirror.map fun x => { x with restored := true }, logNext := (e.num + 1) % 2 ^ 32, mirror := [] }

/-- Whether the recovery update holds the unit without firmware (R478). -/
def State.inRecovery (s : State) : Bool :=
  let r := s.fld F.I3CT_RCV_STAT_STATE
  r == 1 || r == 2 || r == 3 || r == 5

/-- Whether a take image in SRAM fails its CONN_DIGEST (R393). An image over which nothing was stored passes. -/
def State.imageFails (s : State) (set : Nat) : Bool :=
  let b := imageBase set
  let region := fun (from_ n : Nat) => (List.range n).map fun k => s.sramByte (b + from_ + k)
  (s.mss.imageBytes.any fun x => decide (b ≤ x.1 ∧ x.1 < b + 1572992)) && sha384 (region 128 1572864) != region 32 48

/-- Rebuild a take image that fails its digest from the connection memory of its set (R393). -/
def State.rebuildImage (s : State) (set : Nat) : State :=
  if !s.imageFails set then s
  else
    let b := imageBase set
    (s.updMss fun x => { x with imageBytes := x.imageBytes.filter fun y => y.1 < b || b + 1572992 ≤ y.1 }).logEvent
      Ev.TAKE_IMAGE_REBUILT noSource []

/-- After a management restart firmware checks the images of the sets that are active, COMPILED or ORDERED (R393). -/
def State.checkImages (s : State) : State :=
  let s := s.rebuildImage s.activeIsB.toNat
  if s.sby = 3 ∨ s.sby = 4 then s.rebuildImage (!s.activeIsB).toNat else s

/-- At its start firmware bars again the facets that the flash records as FAILED (R163) and loads PAIR_EPOCH_FLOOR from the epoch recorded
there, or with 1 (R219); the newest holdover record seeds the model (R311). -/
def State.loadRecords (s : State) : State :=
  let s := s.mss.badFacets.foldl (fun s f => (s.setFld F.SSW_FACET_BAR_FACET f).barFacet f) s
  let s := if s.mss.hoRecord.isSome then (s.updRef fun r => { r with seed := s.mss.hoRecord }).refreshHold else s
  s.setFld F.PAIR_EPOCH_FLOOR_FLOOR (s.mss.epochRecord.getD 1)

/-- What firmware keeps in flash (R163, R219): FAILED facets, and the epoch of the claim. -/
def State.saveRecords (s : State) : State :=
  let bad := (List.range 272).filter fun f => s.facetState f == 6
  s.updMss fun x => { x with
    badFacets := (x.badFacets ++ bad).eraseDups, epochRecord := if s.claim = 0 then x.epochRecord else some s.epochOf }

/-- What firmware takes up again once it runs (R25, R27, R143, R165, R166, R213, R243, R247, R446). -/
def State.firmwareResumes (s : State) : State :=
  let s := (s.drainQueue.finishActivate).startJobs.armRepair
  let s := s.retireDue.deliverCapture.saveRecords
  let s := if s.pair.inheritDue then s.inherit else s
  s.finishYield

/-- The keep-alive age has reached its limit (R29, R40): the cause is detected, once. -/
def State.judgeAge (s : State) : State :=
  if s.causeHolds .flywheelTimeout && !s.recorded .flywheelTimeout then s.detect .flywheelTimeout else s

/-- A write to GCTL_ALIVE (R26, R29, R40): the age is 0 again, but a write in the cycle in which it reaches the limit does not
prevent the fence. While core 0 is out of reset and not in recovery, firmware runs
from here on. -/
def State.keepAlive (s : State) : State :=
  let s := s.judgeAge
  let first := !s.gctl.everAlive
  let s := (s.setFld F.GCTL_ALIVE_AGE_AGE_MS 0).updGctl fun g => { g with everAlive := true, ageNs := 0 }
  let s := s.updMss fun x => { x with autoDone := false }
  let up := !s.flag F.GCTL_STATE_MGMT_IN_RESET && !s.inRecovery
  let starts := !s.mss.fwUp
  let s := if up && starts then (s.setFlag F.HIF_STATE_FW_READY true).updMss fun x => { x with fwUp := true } else s
  let s := s.when (up && first) State.restoreLog
  let s := s.when (up && starts && first) State.loadRecords
  let s := s.when (up && starts && !first) State.checkImages
  let s := s.setFlag F.GCTL_STATE_FLYWHEEL s.flywheel
  if s.fwRuns then s.firmwareResumes else s

/-- GCTL_ALIVE (R26): the value written does not matter. -/
def execGctlAlive (_v : Word) (s : State) : Host.Outcome State Fault Refusal := .next s.keepAlive

/-- FLYWHEEL (R26, R40): GCTL_STATE.FLYWHEEL follows the age and MGMT_IN_RESET. -/
def execFlywheel (s : State) : Host.Outcome State Fault Refusal := .next (s.setFlag F.GCTL_STATE_FLYWHEEL s.flywheel)

/-- FLYWHEEL_TIMEOUT (R29, R40). -/
def execFlywheelTimeout (s : State) : Host.Outcome State Fault Refusal :=
  .next s.judgeAge

/-- Write of GCTL_FENCE_CTL (R10, R37): FENCE_REQ under the GCTL key; it reads 1 while COMMAND is recorded. -/
def State.writeFenceCtl (s : State) (v : Word) : State :=
  s.wkWrite .gctl (v.toNat.testBit 0 != s.recorded .command) fun s => if v.toNat.testBit 0 then s.detect .command else s

/-- FENCE_REQ (R37). -/
def execFenceReq (v : Word) (s : State) : Host.Outcome State Fault Refusal := .next (s.writeFenceCtl v)

/-- INTERNAL_LINK (R33, R39). -/
def execInternalLink (s : State) : Host.Outcome State Fault Refusal :=
  .next ((s.updGctl fun g => { g with linkErrNs := 1000000000 }).detect .internalLink)

-- Clock inputs --------------------------------------------------------------------------------------------------

/-- REFCLK_FAIL (R20): `inputB` names the input that fails. -/
def execRefclkFail (inputB : Bool) (s : State) : Host.Outcome State Fault Refusal :=
  let good := if inputB then s.gctl.refB else s.gctl.refA
  .next (if !good then s
  else
    let s := s.updGctl fun g => if inputB then { g with refB := false } else { g with refA := false }
    if !s.gctl.refA && !s.gctl.refB then s.detect .refclkLost
    else if s.gctl.refSelB = inputB then
      (s.updGctl fun g => { g with refSelB := !inputB }).logEvent Ev.REFCLK_SWITCH noSource []
    else s)

/-- REFCLK_RETURN (R20): `both` says that the two inputs return within the same 1 µs. -/
def execRefclkReturn (inputB both : Bool) (s : State) : Host.Outcome State Fault Refusal :=
  let lost (b : Bool) := if b then !s.gctl.refB else !s.gctl.refA
  let had := !s.gctl.refA && !s.gctl.refB
  let back := (if both then [false, true] else [inputB]).filter lost
  let s := back.foldl (fun s b =>
    (s.updGctl fun g => if b then { g with refB := true } else { g with refA := true }).logEvent Ev.REFCLK_RETURN noSource
      [if b then 1 else 0]) s
  .next (if had ∧ back ≠ [] then
    (s.updGctl fun g => { g with refSelB := !both && inputB }).logEvent Ev.REFCLK_SWITCH noSource []
  else s)

/-- XO_LOST (R21): its domains run from the core clock and the holdover model is unavailable. -/
def execXoLost (s : State) : Host.Outcome State Fault Refusal :=
  .next (if !s.gctl.xoGood then s
  else
    let s := (s.updGctl fun g => { g with xoGood := false }).setFlag F.TIME_STATE_XO_SYNTH true
    (s.setFlag F.REF_HO_STAT_MODEL_UNAVAILABLE true).logEvent Ev.XO_LOST noSource [])

/-- XO_RETURN (R21): the update of the DPLL at which the domains move back. -/
def execXoReturn (s : State) : Host.Outcome State Fault Refusal :=
  .next (if s.gctl.xoGood then s
  else
    let s := (s.updGctl fun g => { g with xoGood := true }).setFlag F.TIME_STATE_XO_SYNTH false
    ((s.setFlag F.REF_HO_STAT_MODEL_UNAVAILABLE false).refreshHold).logEvent Ev.XO_RETURN noSource [])

-- Identity ------------------------------------------------------------------------------------------------------

/-- A read of GCTL_DEVNUM_LO latches the high word for its reader (R500, R501). -/
def State.readDevnum (s : State) (m : Master) : Word × State :=
  (s.reg R.GCTL_DEVNUM_LO, s.latch m [(R.GCTL_DEVNUM_HI, s.reg R.GCTL_DEVNUM_HI)])

/-- GCTL_DEVNUM_READ (R500). -/
def execGctlDevnumRead (m : Master) (s : State) : Host.Outcome State Fault Refusal :=
  let r := s.readDevnum m
  .next (r.2.setRdata m r.1)

-- Power-on reset ------------------------------------------------------------------------------------------------

/-- Registers that keep some bits over PORST_N: fuses and the always-on domain (R438, R453, R466). -/
def keptFields : List Fld :=
  [⟨R.MSS_LC_STATE, 0, 7⟩, F.MSS_FW_ROLLBACK_COUNT, ⟨R.MSS_ZEROISE, 1, 3⟩, ⟨R.MSS_FW_TRIAL, 0, 4⟩]

/-- The device after PORST_N (R466): everything at reset but fuses, the always-on domain, the flash, the test access port, which works while
PORST_N is low (R491, R493), and what lies outside the device (host memory, the commands that wait). -/
def State.porst (s : State) : State :=
  let r := State.reset
  let r := keptFields.foldl (fun r f => r.setFld f (s.fld f)) r
  let r := { r with free := s.free, pending := s.pending, jtag := s.jtag, mirror := (s.mirror ++ s.log).drop ((s.mirror ++ s.log).length - 16384) }
  let r := r.updHif fun h => { h with hostMem := s.hif.hostMem }
  r.updMss fun x => { x with
    ownerHash := s.mss.ownerHash, slotA := s.mss.slotA, slotB := s.mss.slotB, preferred := s.mss.preferred
    staged := s.mss.staged, calib := s.mss.calib, badFacets := s.mss.badFacets, epochRecord := s.mss.epochRecord
    hoRecord := s.mss.hoRecord
    scratchDenied := s.flag F.MSS_ZEROISE_ZEROISE_FAIL }

/-- Whether FAULT_N is driven low (R31, R464, R466). -/
def State.faultLow (s : State) : Bool := s.gctl.porstLow || s.gctl.faultN

/-- Whether ALERT_N is driven low (R464, R466). -/
def State.alertLow (s : State) : Bool :=
  !s.gctl.porstLow && ((s.reg R.GCTL_ALERT_STAT &&& s.reg R.GCTL_ALERT_MASK) != 0)

/-- PORST_N_ASSERT (R466). -/
def execPorstNAssert (s : State) : Host.Outcome State Fault Refusal :=
  .next (s.porst.updGctl fun g => { g with porstLow := true })

/-- PORST_N_RELEASE (R439, R465, R466, R493): straps are sampled, the unit is fenced with cause START, a TAMPER_N that is low counts as its
first assertion, and a test instruction that drives pins gives way to Test-Logic-Reset. -/
def execPorstNRelease (straps : BitVec 4) (tamperLow : Bool) (s : State) : Host.Outcome State Fault Refusal :=
  .next (if !s.gctl.porstLow then s
  else
    let s := s.porst.when (drivesPins s.jtag.ir) State.tapReset
    let s := (s.setFld F.GCTL_STRAP_STRAP straps.toNat).setFld F.MSS_BOOT_BOOT_SRC (straps.toNat / 4)
    let s := s.setFld F.I3CT_STAT_STATIC_ADDR (0x58 + straps.toNat % 4)
    s.when tamperLow State.tamper)

-- The fence -----------------------------------------------------------------------------------------------------

/-- A splice that the lead has ordered and no acknowledgement covers ends with the fence (R366). -/
def State.dropOrder (s : State) : State :=
  match s.pair.order with
  | some o =>
    if o.acked then s
    else
      s.endOrder o St.LEAD_LOST
  | none => s

/-- The unit enters the fence (R31, R32, R251, R375, R448): claim 0, role NONE, session closed, FENCE_ENTERED logged, and the
FENCE commands that waited complete with the reel about to start. -/
def State.enterFence (s : State) : State :=
  let cause := (s.reg R.GCTL_FENCE_CAUSE).toNat
  let s := ((s.setFlag F.GCTL_STATE_FENCED true).setFld F.PAIR_CLAIM_CLAIM 0).dropOrder
  let s := match s.pair.change with
    | some c => (s.updPair fun p => { p with change := none }).fail c.handle St.FENCE_CAUSE 0
    | none => s
  let s := if s.pair.joinStep ≠ 0 then s.joinFail St.JOIN_ABORTED else s.closeSession
  let s := ((s.dropHandover.setRole 0).leaveCand7).updPair fun p => { p with mateHandles := [] }
  let s := (s.logEvent Ev.FENCE_ENTERED noSource (leBytes 4 cause)).icRaise 34
  (s.hif.handles.filter fun e => e.opcode == Op.FENCE && e.state == .running).foldl
    (fun s e => s.finish e.handle Out.OK 0 (seqNext s.reelSeq)) s

/-- FENCE_TAKES_EFFECT (R32): the boundary that follows the detection of a cause; a splice at that boundary is taken back (R35, R180). On a unit
fenced already a join or a solo start fails (R34, R246). -/
def execFenceTakesEffect (s : State) : Host.Outcome State Fault Refusal :=
  .next (if !s.gctl.causeNew then s
  else
    let s := s.updGctl fun g => { g with
      causeNew := false, thermalLeft := if s.recorded .thermal && !g.lanesDown && g.thermalLeft == 0 then 2 else g.thermalLeft }
    if !s.fenced then (s.fenceAtSplice (seqNext s.reelSeq)).enterFence
    else if s.pair.joinStep ≠ 0 then s.joinFail St.JOIN_ABORTED
    else match s.pair.change with
      | some c => if c.clears then s.dropChange c else s
      | none => s)

end Sys2Proof.Machine
end

