-- ==== Sys2Proof/Machine/Overhead.lean ====
section
/-!
DEFINITION. The overhead each transmitting lane sends in a reel (spec 03 R86 to R105, 04 R130) and the blocks of that reel.
-/
namespace Sys2Proof.Machine
open Sys2Proof

/-- Fill an overhead map with reserved bytes (R87). -/
def pad62 (bs : List Byte) : List Byte := (bs ++ List.replicate 62 0).take 62

/-- LINK_FLAGS.FDI (R92): fenced, or every connected output slot carries the blank grain. -/
def State.sendsFdi (s : State) (n : Nat) : Bool :=
  let mine := (s.active.conns.map (·.1)).filter fun i => i / 2048 == n
  s.fenced || (!mine.isEmpty && mine.all fun i => Tbl.get (fun _ => idleGrain) s.ssw.tx i == blankGrain)

/-- Reel control (R88, R90, R91). -/
def State.overhead0 (s : State) (n : Nat) : List Byte :=
  let l := s.lane n
  let stop := s.txState n == 5 || s.testStop n
  let bdi := s.bdiCause n
  let flags := stop.toNat * 128 + (bdi != 0).toNat * 64 + (s.sendsFdi n).toNat * 32 + (!l.chassis).toNat * 8
  let wait := if n < 128 then s.fld (F.LANE_ARRIVAL_WAIT n) else 0xFFFFFFFF
  let disc := decide (0 < s.fld F.TIME_DISC_LEFT_REELS)
  pad62 (beBytes 4 s.reelSeq ++ beBytes 1 flags ++ beBytes 1 bdi ++ beBytes 1 l.steerId ++ [0]
    ++ beBytes 4 (if l.steerId = 0 then 0 else s.fld (F.LANE_STEER_ADV_ADV n)) ++ beBytes 4 wait ++ beBytes 1 (disc.toNat * 128)
    ++ [1])

/-- Whether an arrival is no earlier than a departure (R94). Stamps on two sides of a timebase step are ordered by their step
epochs. -/
def Stamp.sinceDeparture (a d : Stamp) : Bool :=
  if a.epoch = d.epoch then decide (256 * d.time ≤ a.time) else decide ((a.epoch + 256 - d.epoch % 256) % 256 < 128)

/-- The received reel whose arrival is sent (R94): the latest stamped one whose reel control was not bad, if it arrived no earlier
than the start of transmitted reel N − 3. Fewer than four departures are kept only of a unit that has just started; every arrival
is then later. -/
def State.rxStamped (s : State) (n : Nat) : Option Stamp :=
  let d := s.time.departures
  match ((s.lane n).arrivals.filter (·.good)).getLast? with
  | some a => if (if d.length < 4 then true else match d[d.length - 4]? with | some d => a.sinceDeparture d | none => true)
      then some a else none
  | none => none

/-- Timing words (R93, R94). -/
def State.overhead1 (s : State) (n : Nat) : List Byte :=
  let tx := s.time.departures.find? fun d => d.seq == (s.reelSeq + 2 ^ 32 - 2) % 2 ^ 32
  let rx := s.rxStamped n
  let stamp (t : Nat) := beBytes 5 (t % 2 ^ 40)
  let flags := (tx.isSome && !(s.lane n).chassis).toNat * 128 + rx.isSome.toNat * 64 + (s.flag F.TIME_STATE_TRACEABLE).toNat * 32
    + (s.flag F.TIME_STATE_HOLDOVER).toNat * 16 + (s.flag F.TIME_STATE_FREE_RUN).toNat * 8
  let leap := (s.flag F.TIME_UTC_LEAP61).toNat * 128 + (s.flag F.TIME_UTC_LEAP59).toNat * 64 + (s.flag F.TIME_UTC_VALID).toNat * 32
  pad62 ((match tx with
      | some d => beBytes 4 d.seq ++ stamp (256 * d.time)
      | none => List.replicate 9 0)
    ++ (match rx with
      | some a => beBytes 4 a.seq ++ stamp a.time
      | none => List.replicate 9 0)
    ++ beBytes 1 s.epoch ++ beBytes 1 flags ++ beBytes 4 (match tx with | some d => d.time / 2 ^ 32 | none => 0)
    ++ beBytes 2 (s.fld F.TIME_UTC_UTC_OFFSET) ++ beBytes 1 leap)

/-- Merge, claim and witness words (R95, R96). -/
def State.overhead2 (s : State) (n : Nat) : List Byte :=
  let echo := if 128 ≤ n ∧ s.sync n = 2 then Tbl.find? s.pair.mateClaims n else none
  pad62 (beBytes 4 s.claim ++ beBytes 4 (echo.getD 0) ++ beBytes 4 0 ++ beBytes 1 (echo.isSome.toNat * 128) ++ [0]
    ++ beBytes 4 s.activeTake ++ beBytes 4 (s.reg R.PAIR_ID).toNat)

/-- RPT_DEFECTS (R99, R130): the reported states. -/
def State.rptDefects (s : State) (n : Nat) : Nat :=
  let r := (s.reg (R.LANE_DEFECT_RPT n)).toNat
  let b (d : Defect) := r.testBit d.bit
  (b .los || b .lol).toNat * 128 + (b .loa).toNat * 64 + (b .ucb).toNat * 32 + (b .seq).toNat * 16 + (b .tim).toNat * 8
    + (b .fdiRx).toNat * 4 + (b .deg).toNat * 2

/-- FDI_MAP section k of a lane (R92, R102). -/
def State.fdiMap (s : State) (n k : Nat) : List Byte :=
  if s.fenced then List.replicate 32 0xFF
  else (List.range 32).map fun j => BitVec.ofNat 8 (ofMsbBits ((List.range 8).map fun i =>
    match s.active.connAt (2048 * n + 256 * k + 8 * j + i) with
    | some c => (s.fdiOf c.circuit).inFdi
    | none => false))

/-- Path trace and defect report (R99 to R102). -/
def State.overhead3 (s : State) (n : Nat) : List Byte :=
  let l := s.lane n
  let k := s.reelSeq % 8
  let merging := s.circ.pairs.any fun p => p.lo == n || p.hi == n
  pad62 (bytesAt l.traceTx (8 * k) 8 ++ beBytes 1 k ++ beBytes 1 (l.rptValid.toNat * 128 + merging.toNat * 64)
    ++ beBytes 4 l.rptUcb ++ beBytes 4 l.rptCsym ++ beBytes 4 l.rptRescued ++ beBytes 4 l.rptHdr ++ beBytes 1 (s.rptDefects n)
    ++ [0, 0, 0] ++ s.fdiMap n k)

/-- The 32 overheads of the reel that starts, for a lane that sends reels; its CMC stream advances by 1,708 bytes (R104). -/
def State.formOverhead (s : State) (n : Nat) : State :=
  if s.sendsReels n then
    let (slices, l) := (s.lane n).cmcSlices
    let oh := [s.overhead0 n, s.overhead1 n, s.overhead2 n, s.overhead3 n] ++ slices
    s.setLane n { l with txOverhead := oh }
  else s.updLane n fun l => { l with txOverhead := [] }

/-- The grain of slot x that a lane sends in the present reel: of its connections, or, on M0 and M1, of the continuity stream
that it has in hand (R85, R92, R229). -/
def State.txGrain (s : State) (n x : Nat) : Grain :=
  if 128 ≤ n then BitVec.ofNat 256 (beNat (bytesAt s.stream (32 * x) 32))
  else if s.fenced then blankGrain
  else Tbl.get (fun _ => idleGrain) s.ssw.tx (2048 * n + x)

/-- Raw block b of the reel that a lane is sending (R76 to R83), before precoding. -/
def State.txBlock (s : State) (n b : Nat) : RawBlock :=
  encodeBlock (assembleBlock (blockHeader b s.reelSeq) ((List.range 64).map fun i => s.txGrain n (64 * b + i))
    ((s.lane n).txOverhead.getD b (pad62 [])))

/-- The 286,720 symbol values of the reel that a lane is sending, before precoding (R41, R43). -/
def State.reelSymbols (s : State) (n : Nat) : List Nat := (List.range 32).flatMap fun b => blockPam4 (s.txBlock n b)

/-- The symbols of that reel on the line (R44): the precoder goes on from the symbol sent last. -/
def State.lineSymbols (s : State) (n : Nat) : List Nat :=
  if (s.lane n).txPrecode then precode (s.lane n).txY (s.reelSymbols n) else s.reelSymbols n

/-- The transmit precoder runs on through the reel that starts and is never reset (R44). What a pattern or a loop leaves in it is a
free value (DESIGN CHOICE, assumption 85). -/
def State.runPrecoder (s : State) (n : Nat) : State :=
  if !(s.lane n).txPrecode then s
  else if s.sendsReels n then
    let y := (s.lane n).txYEnd
    s.updLane n fun l => { l with txY := y, txYEnd := precodeEnd y (s.reelSymbols n) }
  else if s.txState n == 0 then
    let (y, s) := s.fresh 2
    s.updLane n fun l => { l with txYEnd := y.toNat }
  else s

end Sys2Proof.Machine
end

