-- ==== Sys2Proof/Machine/Boundary.lean ====
section
/-!
DEFINITION. The local reel boundary (spec 01 R12): counters, what waits for a boundary, and the overhead of the new reel.
-/
namespace Sys2Proof.Machine
open Sys2Proof

/-- Length of a reel in ns (R12). -/
def reelNs : Nat := 2560

/-- The reel count, the timebase and the departure stamp of the new reel (R12, R86, R94, R256). -/
def State.tickReel (s : State) : State :=
  { s with reelSeq := seqNext s.reelSeq, tai := (s.tai + reelNs) % 2 ^ 64 }

/-- The departure stamp of the reel that starts; 16 are kept. -/
def State.stampDeparture (s : State) : State :=
  s.updTime fun t => { t with
    clock := t.clock + reelNs
    departures := (t.departures ++ [({ seq := s.reelSeq, time := s.tai, epoch := s.epoch } : Stamp)]).drop (t.departures.length + 1 - 16) }

/-- GCTL_ALIVE_AGE and the seconds of R39 and R158 advance by one reel. -/
def State.tickGctl (s : State) : State :=
  let ns := s.gctl.ageNs + reelNs
  let s := s.incFld F.GCTL_ALIVE_AGE_AGE_MS (ns / 1000000)
  let s := s.updGctl fun g => { g with
    ageNs := ns % 1000000, memStuckNs := g.memStuckNs - reelNs, linkErrNs := g.linkErrNs - reelNs }
  s.updSsw fun x => { x with refreshed := (x.refreshed.map fun (k, i, t) => (k, i, t - reelNs)).filter fun (_, _, t) => t != 0 }

/-- Whole hours of clean testing of TESTING facets (R169, R490). -/
def State.tickFacets (s : State) : State :=
  let testing := (List.range 272).filter fun f => s.facetState f == 4
  let now := testing.map fun f => (f, Tbl.get (fun _ => 0) s.ssw.cleanNs f + reelNs)
  let s := now.foldl (fun s (f, t) => if 3600000000000 ≤ t then s.setFld (F.SSW_FACET_TEST_HOURS f) (min 24 (s.fld (F.SSW_FACET_TEST_HOURS f) + 1)) else s) s
  s.updSsw fun x => { x with cleanNs := now.foldl (fun a (f, t) => Tbl.put (fun _ => 0) a f (t % 3600000000000)) [] }

/-- Transmitters in STOPPING send their 8 reels of notice and stop at the boundary after them (R67). -/
def State.stepNotice (s : State) (n : Nat) : State :=
  if s.txState n ≠ 5 then s
  else if (s.lane n).noticeLeft = 0 then s.txStopNow n
  else s.updLane n fun l => { l with noticeLeft := l.noticeLeft - 1 }

/-- The lanes power down one reel after a fence with the thermal cause (R31). -/
def State.stepThermal (s : State) : State :=
  if s.gctl.thermalLeft = 0 then s
  else
    let s := s.updGctl fun g => { g with thermalLeft := g.thermalLeft - 1 }
    if s.gctl.thermalLeft ≠ 0 then s
    else
      (List.range 130).foldl (fun s n =>
        let s := (s.setFld (F.LANE_STATE_TX_STATE n) 4).loseToHunt n 0 []
        ((s.rxPowerDown n 4).setFld (F.LANE_STATE_LANE n) 4).updLane n fun l => { l with byEn := false })
        (s.updGctl fun g => { g with lanesDown := true })

/-- CMC modes that waited for the boundary, and the commands that set them (R360). -/
def State.stepCmc (s : State) : State :=
  let s := (List.range 130).foldl State.cmcApplyNext s
  (s.hif.handles.filter fun e => e.opcode == Op.LANE_CMC && e.state == .running).foldl
    (fun s e => s.finish e.handle Out.OK 0 s.reelSeq) s

/-- Sent traces change at a reel with REEL_SEQ mod 8 = 0 (R100), and LANE_TRACE commands see what has come into force (R359). -/
def State.stepTrace (s : State) : State :=
  let due := s.reelSeq % 8 = 0
  (s.hif.handles.filter fun e => e.opcode == Op.LANE_TRACE && e.state == .running).foldl (fun s e =>
      let n := e.param 0 1
      let s := if (s.lane n).traceTxNext.isNone then s.tracePart e.handle 1 s.reelSeq else s
      if (s.lane n).traceExpTouched then s else s.tracePart e.handle 2 s.reelSeq)
    (if due then
      (List.range 130).foldl (fun s n =>
        match (s.lane n).traceTxNext with
        | some t => s.updLane n fun l => { l with traceTx := t, traceTxNext := none }
        | none => s) s
    else s)

/-- A request whose 8 further reels have been sent ends (R185); LANE_STEER_ADV goes on showing it (R190). -/
def State.stepSteer (s : State) (n : Nat) : State :=
  let k := (s.lane n).steerTail
  if k = 0 then s
  else if k = 1 then
    (s.updLane n fun l => { l with steerTail := 0, steerId := 0 }).setFld (F.LANE_STEER_STAT_ID n) 0
  else s.updLane n fun l => { l with steerTail := k - 1 }

/-- The reel that ends has carried 2,048 grains of the continuity stream, where a mate lane sends reels (R228). -/
def State.endStreamReel (s : State) : State :=
  if [128, 129].any s.sendsReels then s.advanceStream else s

/-- Pair state at a boundary: the change that waits, a join, evidence, and the times of R224 and R226; the lead sends
TIME_ALIGN at least every 1 ms (R235). -/
def State.pairBoundary (s : State) : State :=
  let s := (s.applyPairChange.joinBoundary).refreshEvidence
  let s := s.updPair fun p => { p with ackNs := p.ackNs - reelNs, absentNs := if s.allAbsent then p.absentNs + reelNs else p.absentNs }
  let s := s.when s.allAbsent fun s => s.setFld F.PAIR_ABSENT_MS_MS (min 65535 (s.pair.absentNs / 1000000))
  let s := s.when s.fwRuns State.saveRecords
  if s.reelSeq % 256 = 0 then s.sendAlign s.reelSeq s.tai else s

/-- One reel of TIME_DISC has been sent (R270). -/
def State.stepDisc (s : State) : State := s.setFld F.TIME_DISC_LEFT_REELS (s.fld F.TIME_DISC_LEFT_REELS - 1)

/-- LOCAL_REEL_BOUNDARY (R12): what waits for it takes effect, and every lane that sends reels forms its overhead. -/
def execLocalReelBoundary (s : State) : Host.Outcome State Fault Refusal :=
  let s := s.endStreamReel.tickReel.tickGctl.tickFacets
  let s := s.pairBoundary
  let s := s.stampDeparture.stepOutputs
  let s := (List.range 130).foldl State.stepNotice s
  let s := s.stepThermal
  let s := (List.range 130).foldl (fun s n => (s.testBoundary n).ffeNow n) s
  let s := s.stepCmc.stepTrace
  let s := (List.range 130).foldl State.formOverhead s
  let s := (List.range 130).foldl State.runPrecoder s
  let s := (List.range 130).foldl State.stepSteer s
  .next s.stepDisc

end Sys2Proof.Machine
end

