-- ==== Sys2Proof/Machine/Hif.lean ====
section
/-!
DEFINITION. The host interface (spec 11 R319 to R348, 12 R354 to R356): doorbell fetches, descriptors and their validation, rings,
link reset and DMA faults. What the host's memory holds where the device reads it comes with the command.
-/
namespace Sys2Proof.Machine
open Sys2Proof

-- Validation --------------------------------------------------------------------------------------------------

/-- A named PARAMS field: offset, size, and the status its value gives, 0 for a good one. -/
structure ParamField where
  off : Nat
  size : Nat
  check : Nat → Nat

/-- BAD_PARAMS unless a condition holds. -/
def orBadParams (b : Bool) : Nat := if b then 0 else St.BAD_PARAMS

/-- BAD_LANE above the highest lane allowed (R354). -/
def orBadLane (top v : Nat) : Nat := if v ≤ top then 0 else St.BAD_LANE

/-- The PARAMS fields of a command and their ranges (R359 to R382). -/
def paramFields (o : Nat) (params : List Byte) : List ParamField :=
  let any : Nat → Nat := fun _ => 0
  if o = Op.LANE_TRACE then [⟨0, 1, orBadLane 129⟩, ⟨1, 1, fun v => orBadParams (1 ≤ v && v ≤ 3)⟩]
  else if o = Op.LANE_CMC then
    [⟨0, 1, orBadLane 127⟩, ⟨1, 1, fun v => orBadParams (v ≤ 2)⟩,
     ⟨2, 1, fun v => if leAt params 1 1 = 2 then orBadLane 127 v else orBadParams (v == 0)⟩]
  else if o = Op.CIRC_SET then
    [⟨0, 2, any⟩, ⟨2, 2, fun v => orBadParams (v ≤ 1)⟩, ⟨4, 4, any⟩, ⟨8, 1, fun v => orBadParams (v ≤ 1)⟩]
  else if o = Op.MERGE_REANCHOR then [⟨0, 1, orBadLane 127⟩]
  else if o = Op.TAKE_COMPILE then [⟨0, 4, any⟩, ⟨4, 4, fun v => orBadParams (v ≤ 262144)⟩, ⟨8, 4, any⟩]
  else if o = Op.TAKE_INCREMENT then
    [⟨0, 4, any⟩, ⟨4, 4, any⟩, ⟨8, 4, fun v => orBadParams (1 ≤ v && v ≤ 4096)⟩, ⟨12, 4, any⟩]
  else if o = Op.TAKE_DISCARD ∨ o = Op.SPLICE_CANCEL then [⟨0, 4, any⟩]
  else if o = Op.TAKE_SPLICE then [⟨0, 4, any⟩, ⟨4, 4, any⟩]
  else if o = Op.REPORT_TAKE then [⟨0, 4, any⟩, ⟨4, 1, fun v => orBadParams (v ≤ 1)⟩]
  else if o = Op.DAILIES then [⟨0, 1, fun v => orBadParams (v ≤ 1)⟩]
  else if o = Op.REF_FORCE then
    [⟨0, 1, fun v => orBadParams (v ≤ 2)⟩, ⟨1, 1, fun v => orBadParams (if leAt params 0 1 = 1 then v ≤ 7 else v == 0)⟩]
  else if o = Op.CMC_SEND then [⟨0, 4, fun v => orBadParams (1 ≤ v && v ≤ 1024)⟩]
  else if o = Op.LOG_READ then [⟨0, 4, any⟩, ⟨4, 4, fun v => orBadParams (1 ≤ v && v ≤ 16384)⟩]
  else if o = Op.FW_STAGE then [⟨0, 4, fun v => if 1 ≤ v ∧ v ≤ 16777216 then 0 else St.IMAGE_SIZE⟩]
  else if o = Op.FACET_RETIRE ∨ o = Op.FACET_REINSTATE then [⟨0, 2, fun v => orBadParams (v ≤ 271)⟩]
  else if o = Op.EYE_HISTOGRAM then [⟨0, 1, orBadLane 129⟩, ⟨2, 1, fun v => orBadParams (20 ≤ v && v ≤ 34)⟩]
  else []

/-- The first offending PARAMS byte and its status (R354): a named field by its range, any other byte by not being 0. -/
def paramFault (fields : List ParamField) (params : List Byte) : Option (Nat × Nat) :=
  (List.range 40).findSome? fun i =>
    match fields.find? fun f => f.off == i with
    | some f => let st := f.check (leAt params f.off f.size); if st = 0 then none else some (st, i)
    | none =>
      if fields.any fun f => decide (f.off < i ∧ i < f.off + f.size) then none
      else if leAt params i 1 = 0 then none else some (St.BAD_PARAMS, i)

/-- A fetched descriptor as a handle-table entry (R328). -/
def ofDescriptor (h : Nat) (d : List Byte) : Handle :=
  let fl := leAt d 2 2
  { handle := h, opcode := leAt d 0 2, fence := fl.testBit 0, depends := fl.testBit 1, list := fl.testBit 2
    bufAddr := leAt d 8 8, bufLen := leAt d 16 4, bufOffset := leAt d 20 4, params := bytesAt d 24 40 }

/-- Size of an object that a command's PARAMS fix (R348), where it moves to the host. -/
def fixedSize (o : Nat) : Option Nat :=
  if o = Op.DAILIES then some 4259840 else if o = Op.EYE_HISTOGRAM then some 65536 else none

/-- Validation of a descriptor (R333, R334, R348, R354, R355, R474): status and RESULT of the first fault, or none. -/
def descriptorFault (mbx : Bool) (e : Handle) (d : List Byte) : Option (Nat × Nat) :=
  let moves := Op.toDevice e.opcode || Op.toHost e.opcode
  if !Op.all.contains e.opcode then some (St.BAD_OPCODE, 0)
  else if 8 ≤ leAt d 2 2 ∨ leAt d 4 4 ≠ 0 ∨ e.bufAddr % 4 ≠ 0 ∨ (e.list ∧ (e.bufLen = 0 ∨ 4096 < e.bufLen))
      ∨ (mbx ∧ (e.bufAddr ≠ 0 ∨ e.list)) ∨ (!moves ∧ (e.bufLen ≠ 0 ∨ e.bufOffset ≠ 0)) then
    some (St.BAD_DESCRIPTOR, 0)
  else
    match paramFault (paramFields e.opcode e.params) e.params with
    | some x => some x
    | none =>
      match fixedSize e.opcode with
      | some n => if e.bufOffset % 4096 ≠ 0 ∨ n ≤ e.bufOffset then some (St.BAD_OFFSET, 0) else none
      | none => none

-- Fetching ----------------------------------------------------------------------------------------------------

/-- The compile, not yet ended, of the take that a command names; the latest where there are several (R342). -/
def State.openCompile (s : State) (take : Nat) : Nat :=
  (s.hif.handles.foldl (fun a e =>
    if Op.isCompile e.opcode && e.state != .closed && e.param 0 4 == take then e.handle else a) 0)

/-- Take one descriptor as a command of ring `n` (R329, R333, R341, R342): it gets its handle, is validated, and waits. -/
def State.takeDescriptor (s : State) (n : Nat) (d : List Byte) : State :=
  let serial := s.nextSerial n
  let h := 2 ^ 28 * n + serial
  let e := ofDescriptor h d
  let last := Tbl.find? s.hif.crLast n
  let e := { e with
    pred := if e.depends then (match last with | some (l, none) => l | _ => 0) else 0
    after := if Op.namesTake e.opcode then s.openCompile (e.param 0 4) else 0 }
  let failedBefore := e.depends && (match last with | some (_, some ok) => !ok | _ => false)
  let nxt := (serial + 1) % 2 ^ 28
  let s := s.updHif fun x => { x with
    serial := Tbl.put (fun _ => 1) x.serial n (if nxt = 0 then 1 else nxt)
    handles := x.handles ++ [e]
    crLast := Tbl.insert x.crLast n (h, none) }
  match descriptorFault (s.isMailbox n) e d with
  | some (st, r) => s.fail h st r
  | none => if failedBefore then s.fail h St.PREDECESSOR_FAILED 0 else (s.flushRing n).showOpen

/-- Whether fetching is held (R327, R337). -/
def State.fetchBlocked (s : State) (n : Nat) : Bool :=
  decide (1024 ≤ s.openCount) || decide (256 ≤ (s.cqHeldOf (s.fld (F.HIF_CR_CTL_CQ n))).length)

/-- Fetch the descriptors of one ring, from CR_CONS_n on, while fetching is not held. Fuel: the number due. -/
def State.fetchRing : Nat → State → Nat → List (List Byte) → State
  | 0, s, _, _ => s
  | _, s, _, [] => s
  | fuel + 1, s, n, d :: ds =>
    if s.fetchBlocked n then s.updHif fun h => { h with fetchHeld := true }
    else
      let cons := (Tbl.get (fun _ => 0) s.hif.crCons n + 1) % s.crSize n
      State.fetchRing fuel ((s.updHif fun h => { h with crCons := Tbl.put (fun _ => 0) h.crCons n cons }).takeDescriptor n d) n ds

/-- A published index at or above its ring's size puts the ring in ERROR (R321). -/
def State.badIndex (s : State) (n : Nat) : State :=
  ((s.setFld (F.HIF_CR_STAT_STATE n) 3).setFlag F.HIF_ERR_BAD_INDEX true).setFld F.HIF_ERR_RING n

/-- Serve the producer index of one command ring. -/
def State.serveRing (s : State) (f : DoorbellFetch) (n : Nat) : State :=
  if s.fld (F.HIF_CR_STAT_STATE n) ≠ 1 then s
  else
    let prod := leAt f.page (4 * n) 4
    let size := s.crSize n
    if size ≤ prod then s.badIndex n
    else
      let s := s.updHif fun h => { h with crProd := Tbl.put (fun _ => 0) h.crProd n prod }
      let due := (prod + size - Tbl.get (fun _ => 0) s.hif.crCons n) % size
      State.fetchRing due s n (f.desc.getD n [])

/-- Room in the event ring (R321). -/
def State.evRoom (s : State) : Bool := decide ((s.hif.evTail + 1) % s.evSize ≠ s.hif.evHead)

/-- When room returns in the event ring, EVENT_LOST is written first with the number of events not written (R352). -/
def State.reportLost (s : State) : State :=
  let k := s.hif.evMissed
  if 0 < k ∧ s.evRoom ∧ !s.hif.d3hot then
    (s.updHif fun h => { h with evMissed := 0 }).logEvent Ev.EVENT_LOST noSource (leBytes 4 k)
  else s

/-- The indices by which the host says what it has consumed, and the CMC buffers it has posted (R321, R322, R337, R349). A consumer index
at or above its ring's size is not taken; such a producer index puts the CMC receive ring in ERROR, and nothing more is fetched from it. -/
def State.serveHeads (s : State) (f : DoorbellFetch) : State :=
  let s := (List.range 16).foldl (fun s k =>
    let head := leAt f.page (0x40 + 4 * k) 4
    if head < s.cqSize k then
      let s := s.updHif fun h => { h with cqHead := Tbl.put (fun _ => 0) h.cqHead k head }
      let s := s.when (s.flag (F.HIF_CQ_CTL_EN k)) fun s => s.setFld (F.HIF_CQ_STAT_STATE k) (if s.cqRoom k then 1 else 2)
      State.drainHeld (s.cqHeldOf k).length s k
    else s) s
  let ev := leAt f.page 0x80 4
  let s := (if ev < s.evSize then s.updHif fun h => { h with evHead := ev } else s).reportLost
  if !s.flag F.HIF_CMC_CTL_EN ∨ s.hif.cmcError then s
  else
    let prod := leAt f.page 0x84 4
    let size := s.cmcSize
    if size ≤ prod then (s.updHif fun h => { h with cmcError := true }).setFlag F.HIF_ERR_BAD_INDEX true
    else
      let from_ := (s.hif.cmcCons + s.hif.cmcPosted.length) % size
      let due := (prod + size - from_) % size
      let new := ((List.range due).zip f.cmc).map fun (i, b) =>
        ({ entry := (from_ + i) % size, addr := leAt b 0 8, len := leAt b 8 4 } : CmcBuffer)
      s.updHif fun h => { h with cmcPosted := h.cmcPosted ++ new }

/-- A doorbell fetch (R325 to R327, R343): what the host has consumed, then the command rings, urgent ones first, then the
status page. -/
def State.doorbell (s : State) (f : DoorbellFetch) : State :=
  let s := (s.updHif fun h => { h with kickHeld := false, fetchHeld := false }).serveHeads f
  let urgent := (List.range 16).filter fun n => s.flag (F.HIF_CR_CTL_URGENT n)
  let other := (List.range 16).filter fun n => !s.flag (F.HIF_CR_CTL_URGENT n)
  ((urgent ++ other).foldl (fun s n => s.serveRing f n) s).writeStatusPage

/-- HIF_HOST_KICK (R325, R411): a fetch, or a kick remembered while the management cores or the function cannot serve it. -/
def execHifHostKick (f : DoorbellFetch) (s : State) : Host.Outcome State Fault Refusal :=
  let s := s.icEdge 33
  .next (if s.fwRuns && !s.hif.d3hot then s.doorbell f else s.updHif fun h => { h with kickHeld := true })

/-- DOORBELL_POLL (R325): HIF_POLL.US has passed. -/
def execDoorbellPoll (f : DoorbellFetch) (s : State) : Host.Outcome State Fault Refusal :=
  .next (if s.fld F.HIF_POLL_US ≠ 0 ∧ s.fwRuns ∧ !s.hif.d3hot then s.doorbell f else s)

/-- HANDLE_CLOSE_REFETCH (R325, R327): the device fetches on its own where fetching was held at 1,024 open handles and one
has closed, or where a kick waited for firmware. -/
def execHandleCloseRefetch (f : DoorbellFetch) (s : State) : Host.Outcome State Fault Refusal :=
  let due := (s.hif.fetchHeld && decide (s.openCount < 1024)) || s.hif.kickHeld
  .next (if due && s.fwRuns && !s.hif.d3hot then s.doorbell f else s)

/-- HELD_COMPLETION_WRITE (R337). -/
def execHeldCompletionWrite (k : Fin 16) (s : State) : Host.Outcome State Fault Refusal :=
  .next (State.drainHeld (s.cqHeldOf k.val).length s k.val)

/-- COALESCE_TIMEOUT (R338): COAL_US has passed since the first unsignalled entry of a completion ring, or of the event
ring. -/
def execCoalesceTimeout (ring : Option (Fin 16)) (s : State) : Host.Outcome State Fault Refusal :=
  .next (match ring with
    | some k =>
      if Tbl.get (fun _ => 0) s.hif.cqUnsig k.val = 0 then s
      else (s.updHif fun h => { h with cqUnsig := Tbl.put (fun _ => 0) h.cqUnsig k.val 0 }).msix (s.fld (F.HIF_CQ_CTL_VECTOR k.val))
    | none =>
      if s.hif.evUnsig = 0 then s
      else (s.updHif fun h => { h with evUnsig := 0 }).msix (s.fld F.HIF_EV_CTL_VECTOR))

/-- EVENT_LOST (R352). -/
def execEventLost (s : State) : Host.Outcome State Fault Refusal := .next s.reportLost

-- Rings -------------------------------------------------------------------------------------------------------

/-- A refused enable or disable (R344). -/
def State.refuseRing (s : State) (n : Nat) : State := (s.setFlag F.HIF_ERR_RING_REFUSED true).setFld F.HIF_ERR_RING n

/-- A command ring starts with both indices 0 (R344). -/
def State.enableCr (s : State) (n : Nat) : State :=
  let s := (s.setFlag (F.HIF_CR_CTL_EN n) true).setFld (F.HIF_CR_STAT_STATE n) 1
  s.updHif fun h => { h with
    crCons := Tbl.put (fun _ => 0) h.crCons n 0, crProd := Tbl.put (fun _ => 0) h.crProd n 0
    crEnHeld := Tbl.put (fun _ => false) h.crEnHeld n false }

/-- Whether a ring still has commands without their final completion. -/
def State.ringBusy (s : State) (n : Nat) : Bool := s.hif.handles.any fun e => ringOf e.handle == n

/-- A write to HIF_CR_CTL_n (R344, R345). -/
def State.writeCrCtl (s : State) (n : Nat) (v : Word) : State :=
  let v := v.toNat
  let en := v.testBit 31
  let st := s.fld (F.HIF_CR_STAT_STATE n)
  let s := s.setFlag (F.HIF_CR_CTL_URGENT n) (v.testBit 30)
  let s := if st = 0 ∨ st = 3 then (s.setFld (F.HIF_CR_CTL_CQ n) (bitsOf v 24 4)).setFld (F.HIF_CR_CTL_SIZE_LOG2 n) v else s
  if en then
    if st = 0 then
      if s.isMailbox n || !s.flag (F.HIF_CQ_CTL_EN (s.fld (F.HIF_CR_CTL_CQ n))) then s.refuseRing n else s.enableCr n
    else if st = 2 then s.updHif fun h => { h with crEnHeld := Tbl.put (fun _ => false) h.crEnHeld n true }
    else s
  else
    let s := (s.setFlag (F.HIF_CR_CTL_EN n) false).updHif fun h => { h with crEnHeld := Tbl.put (fun _ => false) h.crEnHeld n false }
    if st = 0 then s else s.setFld (F.HIF_CR_STAT_STATE n) (if s.ringBusy n then 2 else 0)

/-- COMMAND_RING_ENABLE (R344): a write with EN = 1. -/
def execCommandRingEnable (n : Fin 16) (v : Word) (s : State) : Host.Outcome State Fault Refusal :=
  .next (s.writeCrCtl n.val (v ||| 0x80000000#32))

/-- COMMAND_RING_DISABLE (R344): a write with EN = 0. -/
def execCommandRingDisable (n : Fin 16) (v : Word) (s : State) : Host.Outcome State Fault Refusal :=
  .next (s.writeCrCtl n.val (v &&& 0x7FFFFFFF#32))

/-- DRAIN_END (R344): the last handle of a draining ring has closed; a held enable takes effect. -/
def execDrainEnd (n : Fin 16) (s : State) : Host.Outcome State Fault Refusal :=
  let n := n.val
  if s.fld (F.HIF_CR_STAT_STATE n) ≠ 2 ∨ s.ringBusy n then .next s
  else
    let held := Tbl.get (fun _ => false) s.hif.crEnHeld n
    let s := s.setFld (F.HIF_CR_STAT_STATE n) 0
    .next (if !held then s
      else if s.isMailbox n || !s.flag (F.HIF_CQ_CTL_EN (s.fld (F.HIF_CR_CTL_CQ n))) then
        (s.updHif fun h => { h with crEnHeld := Tbl.put (fun _ => false) h.crEnHeld n false }).refuseRing n
      else s.enableCr n)

/-- Whether an enabled command ring maps to a completion ring (R344); a draining one still writes to it. -/
def State.cqMapped (s : State) (k : Nat) : Bool :=
  (List.range 16).any fun n => (s.fld (F.HIF_CR_STAT_STATE n) != 0) && s.fld (F.HIF_CR_CTL_CQ n) == k

/-- A write to HIF_CQ_CTL_k (R344): the size stays while the ring is enabled, and a ring in use is not disabled. -/
def State.writeCqCtl (s : State) (k : Nat) (v : Word) : State :=
  let v := v.toNat
  let en := v.testBit 31
  let was := s.flag (F.HIF_CQ_CTL_EN k)
  let s := ((s.setFld (F.HIF_CQ_CTL_VECTOR k) (bitsOf v 24 6)).setFld (F.HIF_CQ_CTL_COAL_N k) (bitsOf v 16 8)).setFld
    (F.HIF_CQ_CTL_COAL_US k) (bitsOf v 6 10)
  let s := if was then s else s.setFld (F.HIF_CQ_CTL_SIZE_LOG2 k) v
  if en && !was then
    let s := ((s.setFlag (F.HIF_CQ_CTL_EN k) true).setFld (F.HIF_CQ_STAT_STATE k) 1).updHif fun h => { h with
      cqTail := Tbl.put (fun _ => 0) h.cqTail k 0, cqHead := Tbl.put (fun _ => 0) h.cqHead k 0
      cqPhase := Tbl.put (fun _ => 1) h.cqPhase k 1, cqUnsig := Tbl.put (fun _ => 0) h.cqUnsig k 0 }
    State.drainHeld (s.cqHeldOf k).length s k
  else if was && !en then
    if s.cqMapped k then s.refuseRing k else (s.setFlag (F.HIF_CQ_CTL_EN k) false).setFld (F.HIF_CQ_STAT_STATE k) 0
  else s

/-- COMPLETION_RING_ENABLE (R344). -/
def execCompletionRingEnable (k : Fin 16) (v : Word) (s : State) : Host.Outcome State Fault Refusal := .next (s.writeCqCtl k.val v)

/-- Place an element in increasing order of handle. -/
def insertByHandle (c : Completion) : List Completion → List Completion
  | [] => [c]
  | d :: ds => if c.handle ≤ d.handle then c :: d :: ds else d :: insertByHandle c ds

/-- The completions kept for the event ring are written once it is enabled, in handle order (R319). -/
def State.writeOrphans (s : State) : State :=
  let l := s.hif.orphans.foldl (fun a c => insertByHandle c a) []
  (l.foldl (fun s c => s.logEvent Ev.HANDLE_ORPHAN_DONE (ringOf c.handle) (orphanData c))
    (s.updHif fun h => { h with orphans := [] })).showOpen

/-- A write to HIF_EV_CTL (R319, R320, R352). -/
def State.writeEvCtl (s : State) (v : Word) : State :=
  let v := v.toNat
  let en := v.testBit 31
  let was := s.flag F.HIF_EV_CTL_EN
  let s := ((s.setFld F.HIF_EV_CTL_VECTOR (bitsOf v 24 6)).setFld F.HIF_EV_CTL_COAL_N (bitsOf v 16 8)).setFld
    F.HIF_EV_CTL_COAL_US (bitsOf v 6 10)
  let s := if was then s else s.setFld F.HIF_EV_CTL_SIZE_LOG2 v
  let s := s.setFlag F.HIF_EV_CTL_EN en
  if en && !was then
    (s.updHif fun h => { h with evTail := 0, evHead := 0, evPhase := 1, evMissed := 0, evUnsig := 0 }).writeOrphans
  else s

/-- EVENT_RING_ENABLE (R319). -/
def execEventRingEnable (v : Word) (s : State) : Host.Outcome State Fault Refusal := .next (s.writeEvCtl v)

/-- A write to HIF_CMC_CTL (R320, R350): a ring that is enabled starts at entry 0 with no buffer posted. -/
def State.writeCmcCtl (s : State) (v : Word) : State :=
  let v := v.toNat
  let en := v.testBit 31
  let was := s.flag F.HIF_CMC_CTL_EN
  let s := (s.setFld F.HIF_CMC_CTL_VECTOR (bitsOf v 24 6)).setFld F.HIF_CMC_CTL_HOLD_US (bitsOf v 6 10)
  let s := if was then s else s.setFld F.HIF_CMC_CTL_SIZE_LOG2 v
  let s := s.setFlag F.HIF_CMC_CTL_EN en
  if en && !was then s.updHif fun h => { h with cmcCons := 0, cmcPosted := [], cmcFill := 0, cmcError := false } else s

/-- Whether any ring is enabled or draining (R353). -/
def State.anyRing (s : State) : Bool :=
  s.flag F.HIF_EV_CTL_EN || s.flag F.HIF_CMC_CTL_EN
    || (List.range 16).any fun n => s.fld (F.HIF_CR_STAT_STATE n) != 0 || s.flag (F.HIF_CQ_CTL_EN n)

-- Link --------------------------------------------------------------------------------------------------------

/-- Every HIF register at its reset value, MAILBOX_15 kept since the I3C target is not touched (R319). -/
def State.resetHifRegs (s : State) : State :=
  let mbx := s.flag F.HIF_STATE_MAILBOX_15
  ({ s with regs := s.regs.filter fun x => !(decide (0x600000 ≤ x.1 ∧ x.1 < 0x610000)) }).setFlag F.HIF_STATE_MAILBOX_15 mbx

/-- Handles whose ACCEPTED is still held in the device, so that the host has not seen it (R337). -/
def Hif.heldFirst (h : Hif) : List Nat :=
  (h.cqHeld.flatMap (·.2)).filterMap fun c => if c.first && !c.final then some c.handle else none

/-- Final completions still held in the device, other than those of descriptors that failed before they started. -/
def Hif.heldFinal (h : Hif) : List Completion :=
  (h.cqHeld.flatMap (·.2)).filter fun c => c.final && !(c.first && c.outcome == Out.FAILED)

/-- A link reset (R319). Commands of the mailbox are not the host interface's and stay. -/
def State.linkReset (s : State) : State :=
  let held := s.hif.heldFirst
  let finals := s.hif.heldFinal
  let mine (e : Handle) := !s.isMailbox (ringOf e.handle)
  let unseen (e : Handle) := mine e && e.state == .waiting && (!e.firstWritten || held.contains e.handle)
  let ends := s.hif.handles.filter fun e => mine e && e.state == .waiting && !unseen e
  let s := s.updHif fun h => { h with
    handles := (h.handles.filter fun e => !unseen e && !(mine e && e.state == .closed)).map fun e =>
      if mine e then { e with orphan := true } else e
    cqTail := [], cqHead := [], cqPhase := [], cqHeld := [], cqUnsig := [], crCons := [], crProd := [], crEnHeld := []
    evTail := 0, evHead := 0, evPhase := 1, evMissed := 0, evUnsig := 0, cmcCons := 0, cmcPosted := [], cmcFill := 0, cmcError := false
    crLast := h.crLast.filter fun x => s.isMailbox x.1, d3hot := false, kickHeld := false, fetchHeld := false }
  let s := s.resetHifRegs
  let s := finals.foldl State.orphanDone s
  let s := ends.foldl (fun s e => s.endOne
    { handle := e.handle, status := St.LINK_RESET, first := false, final := true
      outcome := if Op.isSplice e.opcode then Out.NOT_SPLICED else Out.ABANDONED }) s
  s.showOpen

/-- A release of PERST_N as a source of the interrupt controller (R411): the assertion that went before it, where PERST_N had been high, is
the other change of level (DESIGN CHOICE, assumption 105). -/
def State.perstEdges (s : State) : State :=
  ((s.when s.gctl.perstHigh fun s => s.icEdge 277).icEdge 277).updGctl fun g => { g with perstHigh := true }

/-- LINK_RESET (R319, R411): PERST_N, which is also a source of the interrupt controller, hot reset, link down or FLR. -/
def execLinkReset (perst : Bool) (bursts : List Burst) (s : State) : Host.Outcome State Fault Refusal :=
  .next ((s.orphans [8, 9] bursts).linkReset.when perst State.perstEdges)

/-- LINK_UP (R353, R467): the link has trained to `speed` and `width`; FW_READY returns where firmware runs. -/
def execLinkUp (speed width : Fin 5) (s : State) : Host.Outcome State Fault Refusal :=
  let s := (s.setFld F.HIF_STATE_LINK_SPEED speed.val).setFld F.HIF_STATE_LINK_WIDTH width.val
  .next (s.when s.fwRuns fun s => s.setFlag F.HIF_STATE_FW_READY true)

/-- D3HOT_ENTRY (R319). -/
def execD3hotEntry (s : State) : Host.Outcome State Fault Refusal := .next (s.updHif fun h => { h with d3hot := true })

/-- RETURN_TO_D0 (R319): held completions and the count of lost events are delivered. -/
def execReturnToD0 (s : State) : Host.Outcome State Fault Refusal :=
  let s := s.updHif fun h => { h with d3hot := false }
  .next ((List.range 16).foldl (fun s k => State.drainHeld (s.cqHeldOf k).length s k) s).reportLost

-- DMA faults --------------------------------------------------------------------------------------------------

/-- A DMA fault ends the transfer of a command (R347, R348): `obj` is what had been read or written before it. Whole units
received stay staged. -/
def State.dmaFault (s : State) (h fault : Nat) (obj : List Byte) : State :=
  match s.handle? h with
  | none => s
  | some e =>
    if Op.toDevice e.opcode then
      s.run e.opcode h fun e s =>
        let p := if e.bufOffset = 0 then [] else (match s.stagedFor e with | some p => p.data | none => [])
        let units := (e.bufOffset + obj.length) / 4096 * 4096
        let s := s.updHif fun x => { x with
          staged := { opcode := e.opcode, params := e.params, data := (p ++ obj).take units }
            :: x.staged.filter fun y => !(y.opcode == e.opcode) }
        (s.dmaDone h).faultEnd h fault units
    else if Op.toHost e.opcode then
      s.run e.opcode h fun e s =>
        let list := if e.list then e.sg else [(e.bufAddr, e.bufLen)]
        ((State.scatter s list obj).dmaDone h).faultEnd h fault (e.bufOffset + obj.length)
    else s

/-- Report an error through AER (R318). -/
def State.reportAer (s : State) (e : AerError) : State :=
  if s.hif.aer.contains e then s else s.updHif fun h => { h with aer := h.aer ++ [e] }

/-- The completion timeout in force, in µs (R317, R353). -/
def State.cplTimeoutUs (s : State) : Nat := clampNat 50 50000 (s.fld F.HIF_DMA_CTL_CPL_TO_US)

/-- CPL_TIMEOUT (R317, R318, R347): a read has had no completion for `waited` µs, the timeout or more. It is counted whatever the read was
for; handle 0 names none. -/
def execCplTimeout (h : Word) (waited : Nat) (obj : List Byte) (s : State) : Host.Outcome State Fault Refusal :=
  .next (if waited < s.cplTimeoutUs then s
  else ((s.incFld F.HIF_DMA_FAULTS_CPL_TIMEOUT).reportAer .completionTimeout).dmaFault h.toNat St.CPL_TIMEOUT obj)

/-- DMA_FAULT (R318, R347). -/
def execDmaFault (h : Word) (kind : DmaFault) (obj : List Byte) (s : State) : Host.Outcome State Fault Refusal :=
  .next (match kind with
    | .unsupported => ((s.incFld F.HIF_DMA_FAULTS_UR_CA).reportAer .advisoryNonFatal).dmaFault h.toNat 0x0011 obj
    | .abort => ((s.incFld F.HIF_DMA_FAULTS_UR_CA).reportAer .advisoryNonFatal).dmaFault h.toNat 0x0012 obj
    | .poisoned => ((s.incFld F.HIF_DMA_FAULTS_POISONED).reportAer .poisoned).dmaFault h.toNat 0x0013 obj
    | .source => s.dmaFault h.toNat St.SOURCE_ERROR obj)

/-- STAGED_PREFIX_EXPIRY (R348): 10 s have passed. -/
def execStagedPrefixExpiry (opcode : BitVec 16) (s : State) : Host.Outcome State Fault Refusal :=
  .next (s.updHif fun h => { h with staged := h.staged.filter fun x => !(x.opcode == opcode.toNat) })

end Sys2Proof.Machine
end

