-- ==== Sys2Proof/Machine/Mailbox.lean ====
section
/-!
DEFINITION. The command mailbox and the recovery update of the I3C target (spec 16 R472 to R478).
-/
namespace Sys2Proof.Machine
open Sys2Proof

/-- Change what the I3C target holds beyond its registers. -/
def State.updI3c (s : State) (f : I3c → I3c) : State := { s with i3c := f s.i3c }

/-- A write that R473 refuses. -/
def State.refuseI3c (s : State) : State := s.incFld F.I3CT_ERR_REFUSED

/-- State of the mailbox (R475): 0 IDLE, 1 RUNNING, 2 UNIT_REQ, 3 UNIT_READY. -/
def State.mbx (s : State) : Nat := s.fld F.I3CT_MBX_STAT_STATE

/-- State of the recovery update (R478): 0 OFF, 1 WAITING, 2 RECEIVING, 3 VERIFYING, 4 DONE, 5 FAILED. -/
def State.rcv (s : State) : Nat := s.fld F.I3CT_RCV_STAT_STATE

/-- Enable or disable the mailbox (R345, R473). -/
def State.setMbxEn (s : State) (b : Bool) : State :=
  ((s.setFlag F.I3CT_CTL_MBX_EN b).setFlag F.HIF_STATE_MAILBOX_15 b).updI3c fun x => { x with disableHeld := false }

/-- Write of I3CT_CTL (R473): an enable is refused while command ring 15 is ENABLED or DRAINING, and a disable waits for IDLE. -/
def State.writeI3ctCtl (s : State) (v : Word) : State :=
  let st := s.fld (F.HIF_CR_STAT_STATE 15)
  let s := s.setFlag F.I3CT_CTL_EN (v.toNat.testBit 31)
  if v.toNat.testBit 30 then
    if st = 1 ∨ st = 2 then s.incFld F.I3CT_ERR2_MBX_REFUSED else s.setMbxEn true
  else if s.mbx = 0 then s.setMbxEn false
  else s.updI3c fun x => { x with disableHeld := true }

/-- The words of a block of registers as bytes. -/
def State.regBytes (s : State) (off n : Nat) : List Byte := (List.range n).flatMap fun k => leBytes 4 (s.reg (off + 4 * k)).toNat

/-- GO (R474): the descriptor becomes a command of ring 15, unless the mailbox is not IDLE. -/
def State.mbxGo (s : State) : State :=
  if !s.flag F.I3CT_CTL_MBX_EN then s
  else if s.mbx ≠ 0 then s.incFld F.I3CT_ERR2_MBX_BUSY
  else
    let s := (s.setFld F.I3CT_MBX_STAT_STATE 1).icRaise 47
    s.takeDescriptor 15 (s.regBytes (R.I3CT_MBX_DESC 0) 16)

/-- UNIT_DONE (R475): the unit has been written or read. After the last one the command goes on. -/
def State.mbxUnitDone (s : State) : State :=
  if s.mbx ≠ 2 ∧ s.mbx ≠ 3 then s
  else
    let len := s.fld F.I3CT_MBX_UNIT_LEN
    let unit := (s.regBytes (R.I3CT_BUF 0) 1024).take len
    let s := s.updI3c fun x => { x with mbxPos := x.mbxPos + len, mbxData := if x.mbxOut then x.mbxData else x.mbxData ++ unit }
    if s.i3c.mbxPos < s.i3c.mbxTotal then s.mbxUnit
    else (s.setFld F.I3CT_MBX_STAT_STATE 1).updHandle s.i3c.mbxHandle fun e => { e with ready := true }

/-- Write of I3CT_MBX_CTL (R473 to R475), from the I3C bridge only. -/
def State.writeMbxCtl (s : State) (m : Master) (v : Word) : State :=
  if m ≠ .i3c then s.refuseI3c
  else
    let s := s.setFld F.I3CT_MBX_CTL_UNIT_TO_MS v.toNat
    let s := s.when (v.toNat.testBit 31) State.mbxGo
    s.when (v.toNat.testBit 30) State.mbxUnitDone

/-- A unit that is not completed ends the transfer with CPL_TIMEOUT (R347, R348, R476). Whole units received stay staged. -/
def State.mbxBroken (s : State) : State :=
  if s.mbx ≠ 2 ∧ s.mbx ≠ 3 then s
  else
    let s := s.setFld F.I3CT_MBX_STAT_STATE 1
    let h := s.i3c.mbxHandle
    match s.handle? h with
    | none => s
    | some e =>
      if s.i3c.mbxOut then s.faultEnd h St.CPL_TIMEOUT (e.bufOffset + s.i3c.mbxPos)
      else
        let p := if e.bufOffset = 0 then [] else (match s.stagedFor e with | some p => p.data | none => [])
        let units := (e.bufOffset + s.i3c.mbxPos) / 4096 * 4096
        let st : Staged := { opcode := e.opcode, params := e.params, data := (p ++ s.i3c.mbxData).take units }
        let s := s.updHif fun x => { x with staged := st :: x.staged.filter fun y => !(y.opcode == e.opcode) }
        s.faultEnd h St.CPL_TIMEOUT units

/-- A read of I3CT_MBX_CPL_k (R477, R500): word 0 latches the other three for the reader; the read of word 3 ends the completion,
makes room for the next one, and brings IDLE where it was the mailbox's final completion. -/
def State.readCpl (s : State) (m : Master) (k : Nat) : State :=
  let w (j : Nat) := s.reg (R.I3CT_MBX_CPL j)
  if k = 0 then ((s.latch m ([1, 2, 3].map fun j => (R.I3CT_MBX_CPL j, w j))).setRdata m (w 0))
  else
    let s := s.setRdata m (s.latched m (R.I3CT_MBX_CPL k))
    if k ≠ 3 ∨ !s.i3c.cplUnread then s
    else
      let flags := (w 1).toNat
      let s := s.updI3c fun x => { x with cplUnread := false }
      let s := if flags.testBit 29 && !flags.testBit 28 then
          let s := s.setFld F.I3CT_MBX_STAT_STATE 0
          if s.i3c.disableHeld then s.setMbxEn false else s
        else s
      s.mbxPlace

/-- Whether a master may write I3CT_BUF, I3CT_RCV_CTL and I3CT_RCV_BYTES during recovery (R473). -/
def rcvMaster (m : Master) : Bool := m == .i3c || m == .pcie

/-- Whether the reception in progress belongs to the other master (R478). -/
def State.rcvForeign (s : State) (m : Master) : Bool := s.rcv == 2 && s.i3c.rcvOwner != some m

/-- START (R478): in WAITING or FAILED a reception begins, if the size is one of an image. -/
def State.rcvStart (s : State) (m : Master) : State :=
  if s.rcv ≠ 1 ∧ s.rcv ≠ 5 then s
  else
    let n := (s.reg R.I3CT_RCV_BYTES).toNat
    if n < 352 ∨ 16777216 < n then (s.setFld F.I3CT_RCV_STAT_CAUSE 1).setRcv 5
    else
      let s := (s.setFld F.I3CT_RCV_STAT_CAUSE 0).setFld F.I3CT_RCV_STAT_UNIT 0
      (s.updI3c fun x => { x with rcvOwner := some m, rcvTotal := n, rcvData := [] }).setRcv 2

/-- UNIT_DONE (R478): the next 4,096 bytes of the image, or the remainder; after the last unit the image is verified. -/
def State.rcvUnitDone (s : State) : State :=
  if s.rcv ≠ 2 then s
  else
    let total := s.i3c.rcvTotal
    let len := min 4096 (total - s.i3c.rcvData.length)
    let s := s.updI3c fun x => { x with rcvData := x.rcvData ++ (s.regBytes (R.I3CT_BUF 0) 1024).take len }
    let s := s.setFld F.I3CT_RCV_STAT_UNIT (s.fld F.I3CT_RCV_STAT_UNIT + 1)
    if s.i3c.rcvData.length < total then s else (s.updI3c fun x => { x with rcvOwner := none }).setRcv 3

/-- ABORT (R478): back to WAITING before VERIFYING, or from FAILED. -/
def State.rcvAbort (s : State) : State :=
  if s.rcv ≠ 2 ∧ s.rcv ≠ 5 then s
  else
    let s := (s.setFld F.I3CT_RCV_STAT_CAUSE 0).setFld F.I3CT_RCV_STAT_UNIT 0
    (s.updI3c fun x => { x with rcvOwner := none, rcvData := [] }).setRcv 1

/-- Write of I3CT_RCV_CTL (R473, R478). Of several bits written 1, ABORT goes before UNIT_DONE and that before START. -/
def State.writeRcvCtl (s : State) (m : Master) (v : Word) : State :=
  if s.rcv = 0 then s
  else if !rcvMaster m || s.rcvForeign m then s.refuseI3c
  else if v.toNat.testBit 29 then s.rcvAbort
  else if v.toNat.testBit 30 then s.rcvUnitDone
  else if v.toNat.testBit 31 then s.rcvStart m
  else s

/-- Write of I3CT_RCV_BYTES (R473). A reception in progress keeps the size checked at START. -/
def State.writeRcvBytes (s : State) (m : Master) (v : Word) : State :=
  if s.rcv ≠ 0 ∧ !rcvMaster m then s.refuseI3c else s.setReg R.I3CT_RCV_BYTES v

/-- Write of I3CT_BUF_k (R473, R478). -/
def State.writeI3ctBuf (s : State) (m : Master) (off : Nat) (v : Word) : State :=
  let ok := if s.rcv = 0 then m == .i3c else rcvMaster m && !s.rcvForeign m
  if ok then s.setReg off v else s.refuseI3c

/-- Write of I3CT_MBX_DESC_k (R473). -/
def State.writeMbxDesc (s : State) (m : Master) (off : Nat) (v : Word) : State := if m = .i3c then s.setReg off v else s.refuseI3c

/-- The slot a recovered image goes to (R478): one without an acceptable image, A first, or the one not preferred. -/
def State.rcvSlot (s : State) : Nat :=
  if s.imageFault (s.slotImage 1) ≠ 0 then 1
  else if s.imageFault (s.slotImage 2) ≠ 0 then 2
  else 3 - s.mss.preferred

/-- A recovered image fails (R478): its slot is empty. -/
def State.rcvFail (s : State) (slot cause : Nat) : State := ((s.setSlot slot []).setFld F.I3CT_RCV_STAT_CAUSE cause).setRcv 5

-- Commands ------------------------------------------------------------------------------------------------------

/-- MBX_EN_WRITE (R473). -/
def execMbxEnWrite (_m : Master) (v : Word) (s : State) : Host.Outcome State Fault Refusal := .next (s.writeI3ctCtl v)

/-- MBX_GO (R474): the write of GO = 1 that keeps UNIT_TO_MS. -/
def execMbxGo (m : Master) (s : State) : Host.Outcome State Fault Refusal :=
  .next (s.writeMbxCtl m (0x80000000#32 ||| (s.reg R.I3CT_MBX_CTL &&& 0x3FFFFFFF#32)))

/-- MBX_UNIT_DONE (R475). -/
def execMbxUnitDone (m : Master) (s : State) : Host.Outcome State Fault Refusal :=
  .next (s.writeMbxCtl m (0x40000000#32 ||| (s.reg R.I3CT_MBX_CTL &&& 0x3FFFFFFF#32)))

/-- The unit timeout in force, in ms (R476, R480). -/
def State.unitTimeoutMs (s : State) : Nat := clampNat 10 60000 (s.fld F.I3CT_MBX_CTL_UNIT_TO_MS)

/-- MBX_UNIT_TIMEOUT (R476): a unit has not been completed for `waitedMs` ms, UNIT_TO_MS or more. -/
def execMbxUnitTimeout (waitedMs : Nat) (s : State) : Host.Outcome State Fault Refusal :=
  .next (if waitedMs < s.unitTimeoutMs then s else s.mbxBroken)

/-- MBX_CPL_READ (R477). -/
def execMbxCplRead (m : Master) (k : Fin 4) (s : State) : Host.Outcome State Fault Refusal := .next (s.readCpl m k.val)

/-- RCV_START (R478). -/
def execRcvStart (m : Master) (s : State) : Host.Outcome State Fault Refusal := .next (s.writeRcvCtl m 0x80000000#32)

/-- RCV_UNIT_DONE (R478). -/
def execRcvUnitDone (m : Master) (s : State) : Host.Outcome State Fault Refusal := .next (s.writeRcvCtl m 0x40000000#32)

/-- RCV_ABORT (R478). -/
def execRcvAbort (m : Master) (s : State) : Host.Outcome State Fault Refusal := .next (s.writeRcvCtl m 0x20000000#32)

/-- RCV_VERIFY_DONE (R444, R445, R478): the image has been written to its slot and read back, which `flashOk` says has worked,
and is tested. -/
def execRcvVerifyDone (flashOk : Bool) (s : State) : Host.Outcome State Fault Refusal :=
  .next (if s.rcv ≠ 3 then s
  else
    let img := s.i3c.rcvData
    let slot := s.rcvSlot
    let f := s.imageFault img
    if !flashOk then s.rcvFail slot 3
    else if f ≠ 0 then s.rcvFail slot f
    else (((s.setSlot slot img).updMss fun x => { x with preferred := slot }).setRcv 4).bootSlot slot)

end Sys2Proof.Machine
end

