-- ==== Sys2Proof/Machine/Registers.lean ====
section
/-!
DEFINITION. Writes and reads of the register space by any master (spec 00 R6 to R11, 05 R170, 13 R389 and R396, 18 R497 to
R500). Registers whose write or read does more than their access codes say go to the operation of their own rule.
-/
namespace Sys2Proof.Machine
open Sys2Proof

-- Access size ---------------------------------------------------------------------------------------------------

/-- An access of a wrong width or alignment (R6): discarded, or answered with all ones, and logged. The address in DATA is the
offset in the register space for every master (DESIGN CHOICE, assumption 73). -/
def State.badSize (s : State) (m : Master) (off : Nat) (write : Bool) : State :=
  let s := s.logEvent Ev.REG_ACCESS_SIZE (matrixNo m) (leBytes 4 off)
  if write then s else s.setRdata m 0xFFFFFFFF#32

/-- Whether an access has a width and alignment that the register space takes (R6, R316): the MSI-X table and the PBA take
aligned 64-bit accesses from PCIe too, and a write without byte enables is none (R402). -/
def sizeOk (m : Master) (off bytes : Nat) (write : Bool) : Bool :=
  (bytes == 4 && off % 4 == 0) || (bytes == 0 && write)
    || (bytes == 8 && off % 8 == 0 && m == .pcie
      && decide ((0x608000 ≤ off ∧ off < 0x608400) ∨ (0x609000 ≤ off ∧ off < 0x609008)))

-- Writes --------------------------------------------------------------------------------------------------------

/-- The block whose key guards the WK fields at an offset (R10, R497). -/
def keyBlockOf (off : Nat) : KeyBlock :=
  if off < 0x100000 then .gctl else if off < 0x300000 then .ssw else if off < 0x600000 then .pair else .mss

/-- The bits of `v` under a mask, the rest of `w` kept. -/
def maskIn (w v : Word) (mask : Nat) : Word :=
  let k := BitVec.ofNat 32 mask
  (w &&& ~~~k) ||| (v &&& k)

/-- A write by the access codes alone (R8, R9, R10): RW and W1C fields, then WK fields under the key. -/
def State.writeByCode (s : State) (off : Nat) (v : Word) : State :=
  match regRow off with
  | none => s
  | some r =>
    let w := maskIn (s.reg off) v r.rw
    let s := s.setReg off (w &&& ~~~(v &&& BitVec.ofNat 32 r.w1c))
    if r.wk = 0 then s
    else
      let w := s.reg off
      s.wkWrite (keyBlockOf off) (maskIn w v r.wk != w) fun s => s.setReg off (maskIn w v r.wk)

/-- Write of PAIR_CFG (R253): UNIT is discarded unless the role is NONE. -/
def State.writePairCfg (s : State) (v : Word) : State :=
  let b := v.toNat
  s.wkWrite .pair (b % 8 != (s.reg R.PAIR_CFG).toNat) fun s =>
    let s := (s.setFld F.PAIR_CFG_ACCEPT_JOIN (bitsOf b 2 1)).setFld F.PAIR_CFG_AUTO_TAKEOVER (bitsOf b 1 1)
    if s.role = 0 then s.setFld F.PAIR_CFG_UNIT b else s

/-- Write of PAIR_ID (R253): discarded unless the role is NONE. -/
def State.writePairId (s : State) (v : Word) : State :=
  s.wkWrite .pair (v != s.reg R.PAIR_ID) fun s => if s.role = 0 then s.setReg R.PAIR_ID v else s

/-- Write of LANE_STEER_CTL (R184, R187): EN = 0 brings OFF, and no request is sent any more (DESIGN CHOICE, assumption 26). -/
def State.writeSteerCtl (s : State) (n off : Nat) (v : Word) : State :=
  let s := s.writeByCode off v
  if s.flag (F.LANE_STEER_CTL_EN n) then s
  else
    let s := (s.setFld (F.LANE_STEER_STAT_STATE n) 0).setFld (F.LANE_STEER_STAT_ID n) 0
    s.updLane n fun l => { l with steerId := 0, steerTail := 0 }

/-- Write of LANE_TT_CTL (R281, R283). On M0 and M1 only EN and SUSPECT_CLR exist. -/
def State.writeTtCtl (s : State) (n off : Nat) (v : Word) : State :=
  let s := s.writeByCode off (if n < 128 then v else maskIn (s.reg off) v 0x80000000)
  s.when (v.toNat.testBit 28) fun s => s.writeSuspectClr n

/-- Writes of a lane's window (R74); `o` is the offset in the window. -/
def State.writeLaneReg (s : State) (n off : Nat) (v : Word) : State :=
  let o := off % 0x1000
  if o = 0x000 then s.writeLaneCtl n v
  else if o = 0x010 then s.writeTxFfe n v
  else if o = 0x030 then s.writeTapLoad n v
  else if o = 0x110 ∨ o = 0x114 ∨ o = 0x118 ∨ (0x140 ≤ o ∧ o < 0x180) then s.writeThreshold n o v
  else if o = 0x11C then s.writeTimCtl n v
  else if o = 0x200 ∧ n < 128 then s.writeSteerCtl n off v
  else if o = 0x300 then s.writeTtCtl n off v
  else if o = 0x304 then s.writeTtAsym n v
  else s.writeByCode off v

/-- Write of HIF_MSIX_VCTL (R338): a pending vector that is unmasked is sent. -/
def State.writeVctl (s : State) (k : Nat) (v : Word) : State :=
  let s := s.writeByCode (R.HIF_MSIX_VCTL k) v
  let f : Fld := ⟨R.HIF_MSIX_PBA (k / 32), k % 32, 1⟩
  if s.flag f && !s.flag (F.HIF_MSIX_VCTL_MASK k) then (s.setFlag f false).msix k else s

/-- Writes of the host interface's registers (R325, R344, R353). A kick written here is remembered, and the fetch it asks for is
made by HANDLE_CLOSE_REFETCH. -/
def State.writeHifReg (s : State) (off : Nat) (v : Word) : State :=
  if off = R.HIF_HOST_KICK then (s.icEdge 33).updHif fun h => { h with kickHeld := true }
  else if off = R.HIF_EV_CTL then s.writeEvCtl v
  else if off = R.HIF_CMC_CTL then s.writeCmcCtl v
  else if (0x600010 ≤ off ∧ off < 0x600020) ∨ off = R.HIF_EV_BASE_LO ∨ off = R.HIF_EV_BASE_HI ∨ off = R.HIF_CMC_BASE_LO
      ∨ off = R.HIF_CMC_BASE_HI then
    if s.anyRing then s.setFlag F.HIF_ERR_DB_ADDR_REFUSED true else s.writeByCode off v
  else if 0x600100 ≤ off ∧ off < 0x600200 then
    let n := (off - 0x600100) / 0x10
    let st := s.fld (F.HIF_CR_STAT_STATE n)
    if off % 0x10 = 8 then s.writeCrCtl n v else if st = 1 ∨ st = 2 then s else s.writeByCode off v
  else if 0x600200 ≤ off ∧ off < 0x600300 then
    let k := (off - 0x600200) / 0x10
    if off % 0x10 = 8 then s.writeCqCtl k v else if s.flag (F.HIF_CQ_CTL_EN k) then s else s.writeByCode off v
  else if 0x608000 ≤ off ∧ off < 0x608400 ∧ off % 0x10 = 0xC then s.writeVctl ((off - 0x608000) / 0x10) v
  else s.writeByCode off v

/-- Writes of the I3C target's registers (R473 to R478). -/
def State.writeI3ctReg (s : State) (m : Master) (off : Nat) (v : Word) : State :=
  if off = R.I3CT_CTL then s.writeI3ctCtl v
  else if off = R.I3CT_MBX_CTL then s.writeMbxCtl m v
  else if 0x680040 ≤ off ∧ off < 0x680080 then s.writeMbxDesc m off v
  else if off = R.I3CT_RCV_CTL then s.writeRcvCtl m v
  else if off = R.I3CT_RCV_BYTES then s.writeRcvBytes m v
  else if 0x681000 ≤ off ∧ off < 0x682000 then s.writeI3ctBuf m off v
  else s.writeByCode off v

/-- Writes of the interrupt controller's registers (R411, R416, R420, R424). -/
def State.writeIcReg (s : State) (off : Nat) (v : Word) : State :=
  if off = R.IC_SWI_SET then s.writeSwi v
  else if off = R.IC_HOST_SET then s.writeHostSet v
  else if 0x701000 ≤ off ∧ off < 0x702400 then s.writeIcSrc ((off - 0x701000) / 4) v
  else
    let s := s.writeByCode off v
    if off = R.IC_CTL ∨ (0x700020 ≤ off ∧ off < 0x700030) then s.touchedSources.foldl State.icSettle s else s

/-- Write of MSS_TAG_CTL_c (R431, R432): tagging that starts draws its first interval, and a lower FILL may raise TAG_FILL_c. -/
def State.writeTagCtl (s : State) (c off : Nat) (v : Word) : State :=
  let start := v.toNat.testBit 31 && !s.flag (F.MSS_TAG_CTL_EN c)
  let s := (s.writeByCode off v).when start fun s => s.drawTag c
  if s.icRaw (20 + c) then s.icRaise (20 + c) else s

/-- Writes of the management registers (R386, R388, R403, R406, R435 to R447). -/
def State.writeMssReg (s : State) (m : Master) (off : Nat) (v : Word) : State :=
  if off = R.MSS_BOOT then s.writeRemap m v
  else if off = R.MSS_CORE_CTL then s.writeHold m v []
  else if off = R.MSS_RESTART then s.writeRestart v []
  else if off = R.MSS_MTEST_CTL then s.writeMtest v []
  else if 0x801100 ≤ off ∧ off < 0x801180 ∧ off % 0x20 = 4 then s.writeTagCtl ((off - 0x801100) / 0x20) off v
  else if off = R.MSS_LC_CTL then s.writeLcCtl m v
  else if off = R.MSS_ZEROISE then s.writeZeroise m v
  else if off = R.MSS_KEYLOAD_CTL then s.writeKeyloadCtl m v
  else if 0x802010 ≤ off ∧ off < 0x802040 then s.writeKeyload m ((off - 0x802010) / 4) v
  else if off = R.MSS_FW_TRIAL then s.writeTrial m v
  else if off = R.MSS_FW_ROLLBACK then s.writeRollback m v
  else s.writeByCode off v

/-- Writes of the loops and patterns (R481 to R486). -/
def State.writeTestReg (s : State) (off : Nat) (v : Word) : State :=
  let n := (off - 0x900000) / 0x100
  let o := off % 0x100
  if 130 ≤ n then s
  else if o = 0 then s.writeTestLoop n v
  else if o = 4 then s.writePrbsGen n v
  else if o = 8 then s.writePrbsChk n v
  else s

/-- Write of CIRC_DAILIES_CTL (R213). -/
def State.writeDailiesCtl (s : State) (v : Word) : State :=
  (s.writeByCode R.CIRC_DAILIES_CTL v).when (v.toNat.testBit 30) State.writeRelease

/-- A 32-bit write of a register by a master (R9, R10, R497). -/
def State.writeReg (s : State) (m : Master) (off : Nat) (v : Word) : State :=
  if off = R.GCTL_KEY then s.writeKey .gctl v
  else if off = R.SSW_KEY then s.writeKey .ssw v
  else if off = R.PAIR_KEY then s.writeKey .pair v
  else if off = R.MSS_KEY then s.writeKey .mss v
  else if off = R.GCTL_ALIVE then s.keepAlive
  else if off = R.GCTL_FENCE_CTL then s.writeFenceCtl v
  else if off = R.MATE_HB_CTL then
    let s := s.writeByCode off v
    if s.flag F.MATE_HB_CTL_RX_EN then s else s.heartbeatAbsent
  else if off = R.SSW_SBY_PORT then (s.writeByCode off v).placeImage
  else if off = R.SSW_FACET_BAR then s.writeFacetBar v
  else if off = R.SSW_SPLICE_AT then s.writeSpliceAt v
  else if off = R.SSW_SPLICE_CTL then s.writeSpliceCtl v
  else if off = R.CIRC_DAILIES_CTL then s.writeDailiesCtl v
  else if off = R.REF_PTP_SAMPLE then s.writePtpSample v
  else if 0x480100 ≤ off ∧ off < 0x480200 ∧ off % 0x20 = 0 then s.writeCandCtl ((off - 0x480100) / 0x20) v
  else if 0x480100 ≤ off ∧ off < 0x480200 ∧ off % 0x20 = 0x18 ∧ off ≠ R.REF_CANDn_DLY 2 ∧ off ≠ R.REF_CANDn_DLY 3 then s
  else if off = R.PAIR_CFG then s.writePairCfg v
  else if off = R.PAIR_ID then s.writePairId v
  else if 0x500020 ≤ off ∧ off ≤ 0x500030 then (s.writeByCode off v).refreshEvidence
  else if 0x600000 ≤ off ∧ off < 0x680000 then s.writeHifReg off v
  else if 0x680000 ≤ off ∧ off < 0x700000 then s.writeI3ctReg m off v
  else if 0x700000 ≤ off ∧ off < 0x800000 then s.writeIcReg off v
  else if 0x800000 ≤ off ∧ off < 0x900000 then s.writeMssReg m off v
  else if 0x900000 ≤ off ∧ off < 0xA00000 then s.writeTestReg off v
  else match laneOfOffset off with
    | some n => s.writeLaneReg n off v
    | none => s.writeByCode off v

/-- A 32-bit write at an offset of the register space (R6, R170, R389, R396, R497): the window range is read-only, and a core's
write there raises a store access fault. -/
def State.busWrite (s : State) (m : Master) (off : Nat) (v : Word) : State :=
  if off % 4 ≠ 0 then s.badSize m off true
  else if 0x1000000 ≤ off ∧ off < 0x2000000 then
    let s := s.denied (matrixNo m) (0x40000000 + off) 3
    match m with | .core c _ => s.raiseExc c.val 7 (0x40000000 + off) | _ => s
  else s.writeReg m off v

-- Reads ---------------------------------------------------------------------------------------------------------

/-- Whether a window offset shows set B, and whether its words have a meaning now (R170, R215): a standby word while the standby
is COMPILING, INVALID or RECEIVING has none, nor has the shadow while no record is READY. -/
def windowSetB (off : Nat) : Bool :=
  decide ((0x1200000 ≤ off ∧ off < 0x1400000) ∨ (0x1500000 ≤ off ∧ off < 0x1600000) ∨ (0x1601000 ≤ off ∧ off < 0x1601400)
    ∨ (0x1880000 ≤ off ∧ off < 0x1900000) ∨ (0x1A00000 ≤ off ∧ off < 0x1B00000))

def State.windowDefined (s : State) (off : Nat) : Bool :=
  if 0x1B00000 ≤ off then s.dailies == 2
  else windowSetB off == s.activeIsB || !(s.sby == 2 || s.sby == 5 || s.sby == 6)

/-- Registers that show a word computed at the read rather than a stored one: flywheel and fence state, exchange state, maps and
counts, interrupt sources, core states, the event queue and the operand words. -/
def State.view (s : State) (off : Nat) : Word :=
  let w := s.reg off
  let put (lo n v : Nat) : Word := BitVec.ofNat 32 (putBits w.toNat lo n v)
  if off = R.GCTL_STATE then put 3 1 s.flywheel.toNat
  else if off = R.GCTL_FENCE_CTL then put 0 1 (s.recorded .command).toNat
  else if off = R.GCTL_FENCE_LIVE then BitVec.ofNat 32 s.fenceLive
  else if off = R.CIRC_STATE then put 0 17 s.active.circs.length
  else if 0x200400 ≤ off ∧ off < 0x200600 then
    let k := (off - 0x200400) / 4
    BitVec.ofNat 32 (s.active.facetOf (2 * k) + 65536 * s.active.facetOf (2 * k + 1))
  else if 0x701000 ≤ off ∧ off < 0x702400 then s.icSrcWord ((off - 0x701000) / 4)
  else if 0x703000 ≤ off ∧ off < 0x7030A0 then s.icPendWord ((off - 0x703000) / 4)
  else if off = R.MSS_CORE_STAT then s.coreStatWord
  else if off = R.MSS_EVQ_STAT then put 16 11 s.evq.length
  else if 0x802010 ≤ off ∧ off < 0x802040 then s.keyloadWord ((off - 0x802010) / 4)
  else match laneOfOffset off with
    | some n =>
      if off % 0x1000 = 0x310 then put 29 3 (s.ttState n)
      else if off = R.LANE_TT_ASYM_EST n ∧ s.ttState n ≠ 3 then 0x80000000#32 else w
    | none => w

/-- Whether a word is one that another read latches (R500). -/
def isLatched (off : Nat) : Bool :=
  off == R.GCTL_DEVNUM_HI || decide (R.TIME_ANCHOR_1 ≤ off ∧ off ≤ R.TIME_ANCHOR_4) || off == R.TIME_TSQ_POP_1
    || off == R.TIME_TSQ_POP_2 || decide (0x900000 ≤ off ∧ off < 0x908200 ∧ 0x14 ≤ off % 0x100 ∧ off % 0x100 < 0x20)
    || decide (0x801100 ≤ off ∧ off < 0x801180 ∧ off % 0x20 = 0x14)

/-- A 32-bit read of a register by a master (R9, R500). Its word goes to what the master read last. -/
def State.readReg (s : State) (m : Master) (off : Nat) : State :=
  let done (r : Word × State) : State := r.2.setRdata m r.1
  if off = R.GCTL_DEVNUM_LO then done (s.readDevnum m)
  else if off = R.TIME_ANCHOR_0 then
    let (e, s) := s.fresh 32
    s.readAnchor m (e.toNat % 655360)
  else if off = R.TIME_TSQ_POP_0 then s.popTsq m
  else if 0x900000 ≤ off ∧ off < 0x908200 ∧ off % 0x100 = 0x10 then done (s.readPrbs m ((off - 0x900000) / 0x100))
  else if 0x680080 ≤ off ∧ off < 0x680090 then s.readCpl m ((off - 0x680080) / 4)
  else if 0x801100 ≤ off ∧ off < 0x801180 ∧ off % 0x20 = 0x10 then done (s.popTag m ((off - 0x801100) / 0x20))
  else if isLatched off then s.setRdata m (s.latched m off)
  else if off = R.MSS_BOOT then
    let s := match m with | .core 0 _ => s.readBoot | _ => s
    s.setRdata m (s.reg R.MSS_BOOT)
  else match regRow off with
    | none => s.setRdata m 0
    | some r =>
      let w := s.view off
      (if r.rc = 0 then s else s.setReg off (s.reg off &&& ~~~(BitVec.ofNat 32 r.rc))).setRdata m w

/-- A 32-bit read at an offset of the register space (R6, R170, R215, R497). A word that has no defined meaning is a free value. -/
def State.busRead (s : State) (m : Master) (off : Nat) : State :=
  if off % 4 ≠ 0 then s.badSize m off false
  else if 0x1000000 ≤ off ∧ off < 0x2000000 then
    match s.windowRead off with
    | none => s.setRdata m 0
    | some w =>
      if s.windowDefined off then s.setRdata m w
      else
        let (f, s) := s.fresh 32
        s.setRdata m f
  else s.readReg m off

/-- What a master read last. -/
def State.rdataOf (s : State) (m : Master) : Word := Tbl.get (fun _ => 0) s.rdata (masterIdx m)

-- Commands ------------------------------------------------------------------------------------------------------

/-- REGISTER_WRITE (R9). -/
def execRegisterWrite (m : Master) (off : BitVec 26) (v : Word) (s : State) : Host.Outcome State Fault Refusal :=
  .next (s.busWrite m off.toNat v)

/-- READ_CLEAR (R9): a read, of a register with RC fields or of any other. -/
def execReadClear (m : Master) (off : BitVec 26) (s : State) : Host.Outcome State Fault Refusal := .next (s.busRead m off.toNat)

/-- REG_ACCESS_SIZE (R6): an access of `bytes` bytes. -/
def execRegAccessSize (m : Master) (off : BitVec 26) (bytes : Nat) (write : Bool) (s : State) : Host.Outcome State Fault Refusal :=
  .next (if sizeOk m off.toNat bytes write then s else s.badSize m off.toNat write)

end Sys2Proof.Machine
end

