-- ==== Sys2Proof/Machine/I3c.lean ====
section
/-!
DEFINITION. The I3C target (spec 16 R468 to R472): private transfers, HDR-DDR, common command codes, the target reset pattern and
in-band interrupts. The layout of the bytes that a CCC returns is the MIPI I3C Basic one (assumption 40).
-/
namespace Sys2Proof.Machine
open Sys2Proof

/-- Whether the target takes part in the bus (R466, R480). -/
def State.i3cUp (s : State) : Bool := s.flag F.I3CT_CTL_EN && !s.gctl.porstLow

/-- The target NACKs, or does not take part. -/
def State.nack (s : State) : State := s.updI3c fun x => { x with nacked := true, reply := [] }

/-- The target takes a transfer and sends some bytes. -/
def State.ack (s : State) (bytes : List Byte := []) : State := s.updI3c fun x => { x with nacked := false, reply := bytes }

/-- An operation of a target that takes part in the bus. -/
def State.onBus (s : State) (act : State → State) : State := if s.i3cUp then act s else s.nack

-- Private transfers ---------------------------------------------------------------------------------------------

/-- Words at consecutive offsets are written (R470), each as a write of the I3C bridge; an offset beyond the register space is
denied with cause DECODE (R396). -/
def State.bridgeWrite (s : State) (off : Nat) (ws : List Word) : State :=
  ((List.range ws.length).zip ws).foldl (fun s (k, w) =>
    let o := off + 4 * k
    if o < 0x4000000 then s.busWrite .i3c o w else s.denied 10 (0x40000000 + o) 1) s

/-- Words at consecutive offsets are read (R470); a denied read returns 0. -/
def State.bridgeRead (s : State) (off n : Nat) : List Word × State :=
  (List.range n).foldl (fun (ws, s) k =>
    let o := off + 4 * k
    if o < 0x4000000 then
      let s := s.busRead .i3c o
      (ws ++ [s.rdataOf .i3c], s)
    else (ws ++ [0], s.denied 10 (0x40000000 + o) 1)) ([], s)

/-- A write that is discarded and counted (R470). -/
def State.badOp (s : State) : State := (s.incFld F.I3CT_ERR_BAD_OP).ack

/-- A private write by its operation byte (R470): 0x01 WRITE with an offset and one or more words, 0x02 SET_READ with an offset
and a COUNT from 1 to 1,024; anything else is discarded. -/
def State.privateWrite (s : State) (op : Nat) (bytes : List Byte) : State :=
  let off := leAt bytes 0 4
  let n := bytes.length
  if op = 1 ∧ 8 ≤ n ∧ n % 4 = 0 then
    (s.bridgeWrite off ((List.range (n / 4 - 1)).map fun k => BitVec.ofNat 32 (leAt bytes (4 + 4 * k) 4))).ack
  else if op = 2 ∧ n = 6 ∧ 1 ≤ leAt bytes 4 2 ∧ leAt bytes 4 2 ≤ 1024 then
    let (ws, s) := s.bridgeRead off (leAt bytes 4 2)
    (s.updI3c fun x => { x with words := some ws }).ack
  else s.badOp

/-- PRIVATE_WRITE_WRITE (R470): `bytes` begin with the operation byte. A parity error is counted and its write discarded. -/
def execPrivateWriteWrite (bytes : List Byte) (parity : Bool) (s : State) : Host.Outcome State Fault Refusal :=
  .next (s.onBus fun s =>
    if parity then ((s.incFld F.I3CT_ERR_PARITY).updI3c fun x => { x with protoErr := true }).ack
    else s.privateWrite (leAt bytes 0 1) (bytes.drop 1))

/-- SET_READ (R470). -/
def execSetRead (off : Word) (count : BitVec 16) (s : State) : Host.Outcome State Fault Refusal :=
  .next (s.onBus fun s => s.privateWrite 2 (leBytes 4 off.toNat ++ leBytes 2 count.toNat))

/-- The words of a SET_READ are delivered (R470); without one the target NACKs. -/
def State.privateRead (s : State) : State :=
  match s.i3c.words with
  | none => s.nack
  | some ws => (s.updI3c fun x => { x with words := none }).ack (ws.flatMap fun w => leBytes 4 w.toNat)

/-- PRIVATE_READ (R470). -/
def execPrivateRead (s : State) : Host.Outcome State Fault Refusal := .next (s.onBus State.privateRead)

/-- An HDR-DDR transfer with a CRC or parity error (R471). -/
def State.hdrError (s : State) : State := ((s.incFld F.I3CT_ERR_HDR_ERR).updI3c fun x => { x with protoErr := true }).ack

/-- HDR-DDR is available only while a dynamic address is held (R468). -/
def State.onHdr (s : State) (act : State → State) : State := s.onBus fun s => if s.flag F.I3CT_STAT_DA_VALID then act s else s.nack

/-- HDR_DDR_WRITE (R471): command codes 0x01 and 0x02 carry what follows the operation byte; `bad` says that the transfer has a
CRC or parity error. -/
def execHdrDdrWrite (code : Byte) (bytes : List Byte) (bad : Bool) (s : State) : Host.Outcome State Fault Refusal :=
  .next (s.onHdr fun s =>
    if bad then s.hdrError
    else if code = 1 ∨ code = 2 then s.privateWrite code.toNat bytes
    else s.nack)

/-- HDR_DDR_READ (R471): command code 0x82 returns the words of a SET_READ. -/
def execHdrDdrRead (code : Byte) (bad : Bool) (s : State) : Host.Outcome State Fault Refusal :=
  .next (s.onHdr fun s => if bad then s.hdrError else if code = 0x82 then s.privateRead else s.nack)

-- Common command codes ------------------------------------------------------------------------------------------

/-- ENEC (R469): `enint` says that ENINT is among the events enabled. -/
def execEnec (enint : Bool) (s : State) : Host.Outcome State Fault Refusal :=
  .next (s.onBus fun s => (s.when enint fun s => s.setFlag F.I3CT_STAT_IBI_EN true).ack)

/-- DISEC (R469). -/
def execDisec (enint : Bool) (s : State) : Host.Outcome State Fault Refusal :=
  .next (s.onBus fun s => (s.when enint fun s => s.setFlag F.I3CT_STAT_IBI_EN false).ack)

/-- RSTDAA (R468). -/
def execRstdaa (s : State) : Host.Outcome State Fault Refusal :=
  .next (s.onBus fun s => ((s.setFlag F.I3CT_STAT_DA_VALID false).setFld F.I3CT_STAT_DYN_ADDR 0).ack)

/-- The PID (R468): manufacturer, type 0, part, instance and stepping. -/
def State.pid (s : State) : Nat :=
  Config.mipiManufacturer.toNat * 2 ^ 33 + 0x7128 * 2 ^ 16 + s.fld F.GCTL_STRAP_STRAP % 4 * 2 ^ 12 + s.fld F.GCTL_ID_STEPPING

/-- BCR and DCR (R468). -/
def bcr : Byte := 0x27
def dcr : Byte := 0x00

/-- ENTDAA (R468): a target that holds a dynamic address already takes no part. -/
def execEntdaa (addr : BitVec 7) (s : State) : Host.Outcome State Fault Refusal :=
  .next (s.onBus fun s =>
    if s.flag F.I3CT_STAT_DA_VALID then s.nack
    else ((s.setFlag F.I3CT_STAT_DA_VALID true).setFld F.I3CT_STAT_DYN_ADDR addr.toNat).ack (beBytes 6 s.pid ++ [bcr, dcr]))

/-- SETMWL (R469): 16 to 4,101 bytes; a value outside acts as the nearer limit. -/
def execSetmwl (v : BitVec 16) (s : State) : Host.Outcome State Fault Refusal :=
  .next (s.onBus fun s => (s.updI3c fun x => { x with mwl := clampNat 16 4101 v.toNat }).ack)

/-- GETMWL (R469). -/
def execGetmwl (s : State) : Host.Outcome State Fault Refusal := .next (s.onBus fun s => s.ack (beBytes 2 s.i3c.mwl))

/-- SETMRL (R469): 16 to 4,096 bytes. -/
def execSetmrl (v : BitVec 16) (s : State) : Host.Outcome State Fault Refusal :=
  .next (s.onBus fun s => (s.updI3c fun x => { x with mrl := clampNat 16 4096 v.toNat }).ack)

/-- GETMRL (R469): the maximum read length and the in-band interrupt payload size. -/
def execGetmrl (s : State) : Host.Outcome State Fault Refusal := .next (s.onBus fun s => s.ack (beBytes 2 s.i3c.mrl ++ [1]))

/-- GETPID (R468). -/
def execGetpid (s : State) : Host.Outcome State Fault Refusal := .next (s.onBus fun s => s.ack (beBytes 6 s.pid))

/-- GETBCR (R468). -/
def execGetbcr (s : State) : Host.Outcome State Fault Refusal := .next (s.onBus fun s => s.ack [bcr])

/-- GETDCR (R468). -/
def execGetdcr (s : State) : Host.Outcome State Fault Refusal := .next (s.onBus fun s => s.ack [dcr])

/-- GETSTATUS (R469): in-band interrupts pending, and the protocol error since the last GETSTATUS. -/
def execGetstatus (s : State) : Host.Outcome State Fault Refusal :=
  .next (s.onBus fun s =>
    let v := min 15 s.i3c.ibis.length + 32 * s.i3c.protoErr.toNat
    (s.updI3c fun x => { x with protoErr := false }).ack (beBytes 2 v))

/-- GETMXDS (R469): no limit on write and read rates, no turnaround. -/
def execGetmxds (s : State) : Host.Outcome State Fault Refusal := .next (s.onBus fun s => s.ack [0, 0])

/-- GETCAPS (R469): HDR-DDR and no other HDR mode. -/
def execGetcaps (s : State) : Host.Outcome State Fault Refusal :=
  .next (s.onBus fun s => s.ack (1 :: leBytes 3 Config.getcapsTail.toNat))

/-- RSTACT (R469): sets the action of the next target reset pattern; the GET forms report 1 ms for a peripheral reset and 2 s for a
whole-target reset. A defining byte other than 0x00 to 0x02 is not supported. -/
def execRstact (defining : Byte) (report : Bool) (s : State) : Host.Outcome State Fault Refusal :=
  .next (s.onBus fun s =>
    if report then
      if defining = 1 then s.ack [Config.resetTimeCode 1]
      else if defining = 2 then s.ack [Config.resetTimeCode 2000]
      else s.nack
    else if defining.toNat ≤ 2 then (s.updI3c fun x => { x with rstact := some defining.toNat }).ack
    else s.nack)

/-- The peripheral reset (R401, R469, R476): target and bridge restart, the dynamic address stays, and a mailbox unit in progress
ends. -/
def State.peripheralReset (s : State) (bursts : List Burst) : State :=
  let s := ((s.orphans [10] bursts).setFlag F.I3CT_STAT_IBI_EN false).setFld F.I3CT_STAT_IBI_PENDING 0
  (s.updI3c fun x => { x with
    mwl := 4101, mrl := 4096, ibis := [], protoErr := false, rstact := none, words := none, reply := [], nacked := false }).mbxBroken

/-- TARGET_RESET_PATTERN (R469): the action last set, or the peripheral reset. -/
def execTargetResetPattern (bursts : List Burst) (s : State) : Host.Outcome State Fault Refusal :=
  .next (if !s.i3cUp then s
  else match s.i3c.rstact with
    | some 0 => s
    | some 2 => s.mgmtRestart 4 bursts
    | _ => s.peripheralReset bursts)

/-- BUS_AVAILABLE_IBI (R468, R472): the oldest in-band interrupt is raised; one that the controller NACKs waits for the next Bus
Available condition. -/
def execBusAvailableIbi (acked : Bool) (s : State) : Host.Outcome State Fault Refusal :=
  .next (if !(s.i3cUp && s.flag F.I3CT_STAT_IBI_EN && s.flag F.I3CT_STAT_DA_VALID) then s
  else match s.i3c.ibis with
    | [] => s
    | b :: rest =>
      if acked then ((s.updI3c fun x => { x with ibis := rest }).setFld F.I3CT_STAT_IBI_PENDING rest.length).ack [BitVec.ofNat 8 b]
      else s)

end Sys2Proof.Machine
end

