-- ==== Sys2Proof/Machine/Dispatch.lean ====
section
/-!
DEFINITION. The meaning of each command: one arm per row of spec/opcode_table.json.
-/
namespace Sys2Proof.Machine
open Sys2Proof

/-- The effect of a command on everything but the queue of commands. -/
def exec (i : Instr) (s : State) : Host.Outcome State Fault Refusal :=
  match i with
  | .nop h => Sys2Proof.Machine.execNop h s
  | .laneTrace h sg obj => Sys2Proof.Machine.execLaneTrace h sg obj s
  | .laneCmc h => Sys2Proof.Machine.execLaneCmc h s
  | .circSet h => Sys2Proof.Machine.execCircSet h s
  | .mergeReanchor h => Sys2Proof.Machine.execMergeReanchor h s
  | .takeCompile h sg obj => Sys2Proof.Machine.execTakeCompile h sg obj s
  | .takeIncrement h sg obj => Sys2Proof.Machine.execTakeIncrement h sg obj s
  | .takeDiscard h => Sys2Proof.Machine.execTakeDiscard h s
  | .takeSplice h => Sys2Proof.Machine.execTakeSplice h s
  | .spliceCancel h => Sys2Proof.Machine.execSpliceCancel h s
  | .reportTake h sg => Sys2Proof.Machine.execReportTake h sg s
  | .dailies h sg => Sys2Proof.Machine.execDailies h sg s
  | .refForce h => Sys2Proof.Machine.execRefForce h s
  | .refSeed h sg obj => Sys2Proof.Machine.execRefSeed h sg obj s
  | .pairJoin h => Sys2Proof.Machine.execPairJoin h s
  | .pairHandover h => Sys2Proof.Machine.execPairHandover h s
  | .pairSolo h => Sys2Proof.Machine.execPairSolo h s
  | .fence h => Sys2Proof.Machine.execFence h s
  | .cmcSend h sg obj => Sys2Proof.Machine.execCmcSend h sg obj s
  | .logRead h sg => Sys2Proof.Machine.execLogRead h sg s
  | .fwStage h sg obj flashOk => Sys2Proof.Machine.execFwStage h sg obj flashOk s
  | .fwActivate h bursts => Sys2Proof.Machine.execFwActivate h bursts s
  | .facetRetire h => Sys2Proof.Machine.execFacetRetire h s
  | .facetReinstate h => Sys2Proof.Machine.execFacetReinstate h s
  | .eyeHistogram h sg obj => Sys2Proof.Machine.execEyeHistogram h sg obj s
  | .registerWrite m off v => Sys2Proof.Machine.execRegisterWrite m off v s
  | .readClear m off => Sys2Proof.Machine.execReadClear m off s
  | .regAccessSize m off bytes write => Sys2Proof.Machine.execRegAccessSize m off bytes write s
  | .keyWrite b v => Sys2Proof.Machine.execKeyWrite b v s
  | .keyTimeout b => Sys2Proof.Machine.execKeyTimeout b s
  | .gctlAlive v => Sys2Proof.Machine.execGctlAlive v s
  | .fenceReq v => Sys2Proof.Machine.execFenceReq v s
  | .flywheel => Sys2Proof.Machine.execFlywheel s
  | .flywheelTimeout => Sys2Proof.Machine.execFlywheelTimeout s
  | .fenceTakesEffect => Sys2Proof.Machine.execFenceTakesEffect s
  | .internalLink => Sys2Proof.Machine.execInternalLink s
  | .porstNAssert => Sys2Proof.Machine.execPorstNAssert s
  | .porstNRelease straps tamperLow => Sys2Proof.Machine.execPorstNRelease straps tamperLow s
  | .startupFacetTest failed => Sys2Proof.Machine.execStartupFacetTest failed s
  | .sramStartupTest bad => Sys2Proof.Machine.execSramStartupTest bad s
  | .bootImageChoice => Sys2Proof.Machine.execBootImageChoice s
  | .refclkFail inputB => Sys2Proof.Machine.execRefclkFail inputB s
  | .refclkReturn inputB both => Sys2Proof.Machine.execRefclkReturn inputB both s
  | .xoLost => Sys2Proof.Machine.execXoLost s
  | .xoReturn => Sys2Proof.Machine.execXoReturn s
  | .tamper => Sys2Proof.Machine.execTamper s
  | .zeroisationEnd ok => Sys2Proof.Machine.execZeroisationEnd ok s
  | .sensorSample temps volts currs => Sys2Proof.Machine.execSensorSample temps volts currs s
  | .thermalWarnClear => Sys2Proof.Machine.execThermalWarnClear s
  | .voltageAlarmClear n => Sys2Proof.Machine.execVoltageAlarmClear n s
  | .localReelBoundary => Sys2Proof.Machine.execLocalReelBoundary s
  | .coreReelStart errors => Sys2Proof.Machine.execCoreReelStart errors s
  | .reelSlip n fast => Sys2Proof.Machine.execReelSlip n fast s
  | .signalLoss n mv sinceSnapNs => Sys2Proof.Machine.execSignalLoss n mv sinceSnapNs s
  | .signalReturn n mv => Sys2Proof.Machine.execSignalReturn n mv s
  | .los n mv => Sys2Proof.Machine.execLos n mv s
  | .losClear n mv => Sys2Proof.Machine.execLosClear n mv s
  | .lol n ppm badPhase samples => Sys2Proof.Machine.execLol n ppm badPhase samples s
  | .lolClear n ppm badPhase samples => Sys2Proof.Machine.execLolClear n ppm badPhase samples s
  | .fastConvergeEnd n => Sys2Proof.Machine.execFastConvergeEnd n s
  | .freeze n w => Sys2Proof.Machine.execFreeze n w s
  | .freezeEnd n w => Sys2Proof.Machine.execFreezeEnd n w s
  | .tapSnapshot n w lms => Sys2Proof.Machine.execTapSnapshot n w lms s
  | .laneFofs n mean lolSeen => Sys2Proof.Machine.execLaneFofs n mean lolSeen s
  | .laneCtlWrite n v => Sys2Proof.Machine.execLaneCtlWrite n v s
  | .transmitterStop n => Sys2Proof.Machine.execTransmitterStop n s
  | .transmitterStart n => Sys2Proof.Machine.execTransmitterStart n s
  | .receiverStopDone n => Sys2Proof.Machine.execReceiverStopDone n s
  | .receiverStart n t => Sys2Proof.Machine.execReceiverStart n t s
  | .laneTxFfeWrite n v => Sys2Proof.Machine.execLaneTxFfeWrite n v s
  | .laneTapLoad n v => Sys2Proof.Machine.execLaneTapLoad n v s
  | .pathDelayUpdate snr => Sys2Proof.Machine.execPathDelayUpdate snr s
  | .blockHeader n hdr prev offset => Sys2Proof.Machine.execBlockHeader n hdr prev offset s
  | .blockDecode n raw prev => Sys2Proof.Machine.execBlockDecode n raw prev s
  | .reelControl n arrival => Sys2Proof.Machine.execReelControl n arrival s
  | .reelSyncTimeout n => Sys2Proof.Machine.execReelSyncTimeout n s
  | .barExpiry n => Sys2Proof.Machine.execBarExpiry n s
  | .defectWindowEnd n => Sys2Proof.Machine.execDefectWindowEnd n s
  | .timingWords n => Sys2Proof.Machine.execTimingWords n s
  | .claimAndWitnessWords n => Sys2Proof.Machine.execClaimAndWitnessWords n s
  | .defectReport n => Sys2Proof.Machine.execDefectReport n s
  | .cmcSlice n => Sys2Proof.Machine.execCmcSlice n s
  | .cmcBufferHold => Sys2Proof.Machine.execCmcBufferHold s
  | .laneTimCtlWrite n v => Sys2Proof.Machine.execLaneTimCtlWrite n v s
  | .laneThresholdWrite n off v => Sys2Proof.Machine.execLaneThresholdWrite n off v s
  | .steerRequest n => Sys2Proof.Machine.execSteerRequest n s
  | .steerFailed n => Sys2Proof.Machine.execSteerFailed n s
  | .arrivalMean n => Sys2Proof.Machine.execArrivalMean n s
  | .splice => Sys2Proof.Machine.execSplice s
  | .seamReelEnd => Sys2Proof.Machine.execSeamReelEnd s
  | .resyncDone uncorrectable => Sys2Proof.Machine.execResyncDone uncorrectable s
  | .compileStart => Sys2Proof.Machine.execCompileStart s
  | .compileDone time collided => Sys2Proof.Machine.execCompileDone time collided s
  | .repairPassDone time => Sys2Proof.Machine.execRepairPassDone time s
  | .spliceArm => Sys2Proof.Machine.execSpliceArm s
  | .spliceCtlCancel => Sys2Proof.Machine.execSpliceCtlCancel s
  | .sswFacetBar f => Sys2Proof.Machine.execSswFacetBar f s
  | .facetErrorWindow => Sys2Proof.Machine.execFacetErrorWindow s
  | .facetTestPass f failed => Sys2Proof.Machine.execFacetTestPass f failed s
  | .facetReinstatable f => Sys2Proof.Machine.execFacetReinstatable f s
  | .effectReel => Sys2Proof.Machine.execEffectReel s
  | .dailiesBoundary => Sys2Proof.Machine.execDailiesBoundary s
  | .periodicCapture => Sys2Proof.Machine.execPeriodicCapture s
  | .deferredCapture => Sys2Proof.Machine.execDeferredCapture s
  | .captureCopyDone => Sys2Proof.Machine.execCaptureCopyDone s
  | .release => Sys2Proof.Machine.execRelease s
  | .yield => Sys2Proof.Machine.execYield s
  | .takeover => Sys2Proof.Machine.execTakeover s
  | .heartbeatFrame f => Sys2Proof.Machine.execHeartbeatFrame f s
  | .heartbeatAbsent => Sys2Proof.Machine.execHeartbeatAbsent s
  | .authHello w => Sys2Proof.Machine.execAuthHello w s
  | .authProof w => Sys2Proof.Machine.execAuthProof w s
  | .ack w => Sys2Proof.Machine.execAck w s
  | .snapBegin w => Sys2Proof.Machine.execSnapBegin w s
  | .snapData w => Sys2Proof.Machine.execSnapData w s
  | .snapEnd w => Sys2Proof.Machine.execSnapEnd w s
  | .takeImage w => Sys2Proof.Machine.execTakeImage w s
  | .takeDelta w => Sys2Proof.Machine.execTakeDelta w s
  | .prepared w => Sys2Proof.Machine.execPrepared w s
  | .order w => Sys2Proof.Machine.execOrder w s
  | .orderAck w => Sys2Proof.Machine.execOrderAck w s
  | .takeDiscardRecord w => Sys2Proof.Machine.execTakeDiscardRecord w s
  | .journal w => Sys2Proof.Machine.execJournal w s
  | .journalApply => Sys2Proof.Machine.execJournalApply s
  | .timeAlign w => Sys2Proof.Machine.execTimeAlign w s
  | .digest w => Sys2Proof.Machine.execDigest w s
  | .digestResult w => Sys2Proof.Machine.execDigestResult w s
  | .resyncReq w => Sys2Proof.Machine.execResyncReq w s
  | .handle w => Sys2Proof.Machine.execHandle w s
  | .handoverReq w => Sys2Proof.Machine.execHandoverReq w s
  | .handoverAck w => Sys2Proof.Machine.execHandoverAck w s
  | .handoverRefuse w => Sys2Proof.Machine.execHandoverRefuse w s
  | .joinReady w => Sys2Proof.Machine.execJoinReady w s
  | .eject w => Sys2Proof.Machine.execEject w s
  | .pairDigest => Sys2Proof.Machine.execPairDigest s
  | .retransmit => Sys2Proof.Machine.execRetransmit s
  | .ackInterval => Sys2Proof.Machine.execAckInterval s
  | .contStalled => Sys2Proof.Machine.execContStalled s
  | .prepareTimeout => Sys2Proof.Machine.execPrepareTimeout s
  | .orderTimeout => Sys2Proof.Machine.execOrderTimeout s
  | .joinTimeout => Sys2Proof.Machine.execJoinTimeout s
  | .joinLockoutEnd => Sys2Proof.Machine.execJoinLockoutEnd s
  | .ackLate => Sys2Proof.Machine.execAckLate s
  | .takeSplit n => Sys2Proof.Machine.execTakeSplit n s
  | .pairProve => Sys2Proof.Machine.execPairProve s
  | .stepConfirm => Sys2Proof.Machine.execStepConfirm s
  | .timeStep => Sys2Proof.Machine.execTimeStep s
  | .timeDiscEnd => Sys2Proof.Machine.execTimeDiscEnd s
  | .timeAnchorRead m elapsed => Sys2Proof.Machine.execTimeAnchorRead m elapsed s
  | .timingPortFrame frame captured => Sys2Proof.Machine.execTimingPortFrame frame captured s
  | .transmitRequest r => Sys2Proof.Machine.execTransmitRequest r s
  | .timeTsqPop m => Sys2Proof.Machine.execTimeTsqPop m s
  | .asymSuspect n mate => Sys2Proof.Machine.execAsymSuspect n mate s
  | .asymClear n => Sys2Proof.Machine.execAsymClear n s
  | .suspectClr n => Sys2Proof.Machine.execSuspectClr n s
  | .laneTtAsymWrite n v => Sys2Proof.Machine.execLaneTtAsymWrite n v s
  | .dpllUpdate freqA freqB => Sys2Proof.Machine.execDpllUpdate freqA freqB s
  | .candidateEvaluation => Sys2Proof.Machine.execCandidateEvaluation s
  | .candidateLost n => Sys2Proof.Machine.execCandidateLost n s
  | .candidateReturn n offset => Sys2Proof.Machine.execCandidateReturn n offset s
  | .wtrExpiry n => Sys2Proof.Machine.execWtrExpiry n s
  | .selectionChange => Sys2Proof.Machine.execSelectionChange s
  | .dissolveEnd => Sys2Proof.Machine.execDissolveEnd s
  | .historySample => Sys2Proof.Machine.execHistorySample s
  | .holdoverExpired => Sys2Proof.Machine.execHoldoverExpired s
  | .refCandnCtlWrite n v => Sys2Proof.Machine.execRefCandnCtlWrite n v s
  | .refPtpSample v => Sys2Proof.Machine.execRefPtpSample v s
  | .ppsIn b captured highNs => Sys2Proof.Machine.execPpsIn b captured highNs s
  | .stormEnd n => Sys2Proof.Machine.execStormEnd n s
  | .todMessage b delayUs second => Sys2Proof.Machine.execTodMessage b delayUs second s
  | .hifHostKick f => Sys2Proof.Machine.execHifHostKick f s
  | .doorbellPoll f => Sys2Proof.Machine.execDoorbellPoll f s
  | .handleCloseRefetch f => Sys2Proof.Machine.execHandleCloseRefetch f s
  | .heldCompletionWrite k => Sys2Proof.Machine.execHeldCompletionWrite k s
  | .coalesceTimeout ring => Sys2Proof.Machine.execCoalesceTimeout ring s
  | .eventLost => Sys2Proof.Machine.execEventLost s
  | .commandRingEnable n v => Sys2Proof.Machine.execCommandRingEnable n v s
  | .commandRingDisable n v => Sys2Proof.Machine.execCommandRingDisable n v s
  | .drainEnd n => Sys2Proof.Machine.execDrainEnd n s
  | .completionRingEnable k v => Sys2Proof.Machine.execCompletionRingEnable k v s
  | .eventRingEnable v => Sys2Proof.Machine.execEventRingEnable v s
  | .linkReset perst bursts => Sys2Proof.Machine.execLinkReset perst bursts s
  | .returnToD0 => Sys2Proof.Machine.execReturnToD0 s
  | .cplTimeout h waited obj => Sys2Proof.Machine.execCplTimeout h waited obj s
  | .dmaFault h kind obj => Sys2Proof.Machine.execDmaFault h kind obj s
  | .stagedPrefixExpiry opcode => Sys2Proof.Machine.execStagedPrefixExpiry opcode s
  | .mssRestart m v bursts => Sys2Proof.Machine.execMssRestart m v bursts s
  | .core0LeavesReset => Sys2Proof.Machine.execCore0LeavesReset s
  | .autoAge bursts => Sys2Proof.Machine.execAutoAge bursts s
  | .holdWrite m v bursts => Sys2Proof.Machine.execHoldWrite m v bursts s
  | .remapWrite m v => Sys2Proof.Machine.execRemapWrite m v s
  | .remapReadback machine => Sys2Proof.Machine.execRemapReadback machine s
  | .windowBorrow fault => Sys2Proof.Machine.execWindowBorrow fault s
  | .mtestEnWrite v bursts => Sys2Proof.Machine.execMtestEnWrite v bursts s
  | .vectorFetch c r => Sys2Proof.Machine.execVectorFetch c r s
  | .mret c r => Sys2Proof.Machine.execMret c r s
  | .wfi c r => Sys2Proof.Machine.execWfi c r s
  | .arm n => Sys2Proof.Machine.execArm n s
  | .icSwiSet v => Sys2Proof.Machine.execIcSwiSet v s
  | .icHostSet v => Sys2Proof.Machine.execIcHostSet v s
  | .counterRead c user k high adv => Sys2Proof.Machine.execCounterRead c user k high adv s
  | .counterOverflow c k => Sys2Proof.Machine.execCounterOverflow c k s
  | .tagSample c pc latency stall miss user trapped => Sys2Proof.Machine.execTagSample c pc latency stall miss user trapped s
  | .mssTagSampleRead m c => Sys2Proof.Machine.execMssTagSampleRead m c s
  | .fenceInstruction c => Sys2Proof.Machine.execFenceInstruction c s
  | .fenceI c => Sys2Proof.Machine.execFenceI c s
  | .lrW c machine addr ecc => Sys2Proof.Machine.execLrW c machine addr ecc s
  | .scW c machine addr v => Sys2Proof.Machine.execScW c machine addr v s
  | .amo c machine op addr v ecc => Sys2Proof.Machine.execAmo c machine op addr v ecc s
  | .lcTransition m v => Sys2Proof.Machine.execLcTransition m v s
  | .fuseWriteEnd ok => Sys2Proof.Machine.execFuseWriteEnd ok s
  | .owner m => Sys2Proof.Machine.execOwner m s
  | .install m => Sys2Proof.Machine.execInstall m s
  | .load m => Sys2Proof.Machine.execLoad m s
  | .rotate m => Sys2Proof.Machine.execRotate m s
  | .clear m => Sys2Proof.Machine.execClear m s
  | .zeroiseReq m v => Sys2Proof.Machine.execZeroiseReq m v s
  | .confirm m => Sys2Proof.Machine.execConfirm m s
  | .raise m v => Sys2Proof.Machine.execRaise m v s
  | .gctlDevnumRead m => Sys2Proof.Machine.execGctlDevnumRead m s
  | .privateWriteWrite bytes parity => Sys2Proof.Machine.execPrivateWriteWrite bytes parity s
  | .setRead off count => Sys2Proof.Machine.execSetRead off count s
  | .privateRead => Sys2Proof.Machine.execPrivateRead s
  | .hdrDdrWrite code bytes bad => Sys2Proof.Machine.execHdrDdrWrite code bytes bad s
  | .hdrDdrRead code bad => Sys2Proof.Machine.execHdrDdrRead code bad s
  | .enec enint => Sys2Proof.Machine.execEnec enint s
  | .disec enint => Sys2Proof.Machine.execDisec enint s
  | .rstdaa => Sys2Proof.Machine.execRstdaa s
  | .entdaa addr => Sys2Proof.Machine.execEntdaa addr s
  | .setmwl v => Sys2Proof.Machine.execSetmwl v s
  | .getmwl => Sys2Proof.Machine.execGetmwl s
  | .setmrl v => Sys2Proof.Machine.execSetmrl v s
  | .getmrl => Sys2Proof.Machine.execGetmrl s
  | .getpid => Sys2Proof.Machine.execGetpid s
  | .getbcr => Sys2Proof.Machine.execGetbcr s
  | .getdcr => Sys2Proof.Machine.execGetdcr s
  | .getstatus => Sys2Proof.Machine.execGetstatus s
  | .getmxds => Sys2Proof.Machine.execGetmxds s
  | .getcaps => Sys2Proof.Machine.execGetcaps s
  | .rstact defining report => Sys2Proof.Machine.execRstact defining report s
  | .targetResetPattern bursts => Sys2Proof.Machine.execTargetResetPattern bursts s
  | .busAvailableIbi acked => Sys2Proof.Machine.execBusAvailableIbi acked s
  | .mbxEnWrite m v => Sys2Proof.Machine.execMbxEnWrite m v s
  | .mbxGo m => Sys2Proof.Machine.execMbxGo m s
  | .mbxUnitDone m => Sys2Proof.Machine.execMbxUnitDone m s
  | .mbxUnitTimeout waitedMs => Sys2Proof.Machine.execMbxUnitTimeout waitedMs s
  | .mbxCplRead m k => Sys2Proof.Machine.execMbxCplRead m k s
  | .rcvStart m => Sys2Proof.Machine.execRcvStart m s
  | .rcvUnitDone m => Sys2Proof.Machine.execRcvUnitDone m s
  | .rcvAbort m => Sys2Proof.Machine.execRcvAbort m s
  | .rcvVerifyDone flashOk => Sys2Proof.Machine.execRcvVerifyDone flashOk s
  | .testLoopWrite n v => Sys2Proof.Machine.execTestLoopWrite n v s
  | .loopEnd n overrun => Sys2Proof.Machine.execLoopEnd n overrun s
  | .prbsGenEn n v => Sys2Proof.Machine.execPrbsGenEn n v s
  | .inject n => Sys2Proof.Machine.execInject n s
  | .prbsChkEn n v => Sys2Proof.Machine.execPrbsChkEn n v s
  | .checkerClear n => Sys2Proof.Machine.execCheckerClear n s
  | .lockLost n bits errs windowErrs => Sys2Proof.Machine.execLockLost n bits errs windowErrs s
  | .prbsCountRead m n bits errs => Sys2Proof.Machine.execPrbsCountRead m n bits errs s
  | .idcode => Sys2Proof.Machine.execIdcode s
  | .sample pins => Sys2Proof.Machine.execSample pins s
  | .preload cells => Sys2Proof.Machine.execPreload cells s
  | .extest pins => Sys2Proof.Machine.execExtest pins s
  | .extestPulse pins => Sys2Proof.Machine.execExtestPulse pins s
  | .extestTrain pins => Sys2Proof.Machine.execExtestTrain pins s
  | .clamp pins => Sys2Proof.Machine.execClamp pins s
  | .highz pins => Sys2Proof.Machine.execHighz pins s
  | .ecidcode => Sys2Proof.Machine.execEcidcode s
  | .bypass => Sys2Proof.Machine.execBypass s
  | .productionTestOpcode op => Sys2Proof.Machine.execProductionTestOpcode op s
  | .d3hotEntry => Sys2Proof.Machine.execD3hotEntry s
  | .linkUp speed width => Sys2Proof.Machine.execLinkUp speed width s
  | .vddIoRemoved => Sys2Proof.Machine.execVddIoRemoved s
  | .trapEntry c r cause tval => Sys2Proof.Machine.execTrapEntry c r cause tval s
  | .counterWrite c user k part v adv => Sys2Proof.Machine.execCounterWrite c user k part v adv s
  | .checkerLocked n => Sys2Proof.Machine.execCheckerLocked n s
  | .timingPortBlockLock lock fault => Sys2Proof.Machine.execTimingPortBlockLock lock fault s
  | .testLogicReset => Sys2Proof.Machine.execTestLogicReset s

end Sys2Proof.Machine
end

