-- ==== Sys2Proof/Safety.lean ====
section
/-!
DEFINITION. What holds of the machine whatever is commanded: its tables and memories are in their canonical form, and its queues
stay within the sizes the spec gives them (R27 1,024 events, R278 64 stamps, R391 and R450 16,384 log entries).
-/
namespace Sys2Proof.Machine
open Sys2Proof

/-- The register table, host memory, working SRAM and scratchpad are in their canonical form, so that equal contents are equal
data. -/
def State.canonical (s : State) : Bool :=
  Tbl.wf resetReg s.regs && s.hif.hostMem.wf && s.mss.sram.wf && s.mss.scratch.wf

/-- The event queue, the log with its mirror, and the transmit timestamp queue stay within their sizes. -/
def State.bounded (s : State) : Bool :=
  decide (s.evq.length ≤ 1024) && decide (s.log.length ≤ 16384) && decide (s.mirror.length ≤ 16384)
    && decide (s.time.tsq.length ≤ 64)

/-- The invariant of every step. -/
def State.Inv (s : State) : Prop := s.canonical = true ∧ s.bounded = true

/-- A run that neither faults nor is refused. -/
def isNext (o : Host.Outcome State Fault Refusal) : Bool := match o with | .next _ => true | _ => false

/-- The command answers a next state, and that state has the property. -/
def Completes (c : Instr) (s : State) (P : State → Prop) : Prop := ∃ t, exec c s = .next t ∧ P t

/-- Two fields share no bit of a register. -/
def Fld.apart (f g : Fld) : Bool :=
  decide (f.reg ≠ g.reg ∨ (g.lo + g.width ≤ 32 ∧ (f.lo + f.width ≤ g.lo ∨ g.lo + g.width ≤ f.lo)))

/-- Nothing but these register fields differs: every other field reads as before, and everything beyond the registers is the
same. -/
def OnlyFields (l : List Fld) (s t : State) : Prop :=
  t = { s with regs := t.regs } ∧ ∀ g : Fld, l.all (·.apart g) = true → t.fld g = s.fld g

/-- Nothing but these register fields and what lane `n` holds beyond its registers differs. -/
def OnlyLane (n : Nat) (l : List Fld) (s t : State) : Prop :=
  t = { s with regs := t.regs, lanes := t.lanes } ∧ (∀ m, m ≠ n → t.lane m = s.lane m)
    ∧ ∀ g : Fld, l.all (·.apart g) = true → t.fld g = s.fld g

-- Host commands (spec 11) --------------------------------------------------------------------------------------------

/-- A host command of opcode `o` may start under handle `h`, whose entry is `e` (R339 to R342, R357), and is not refused for
its scope (R234). -/
structure Runs (s : State) (o : Nat) (h : Word) (e : Handle) (lanes : List Nat) : Prop where
  entry : s.handle? h.toNat = some e
  opcode : e.opcode = o
  free : s.startable e lanes = true
  allowed : ((s.updHandle h.toNat fun x => { x with state := .running }).when (e.state == .waiting) fun s =>
    s.sendHandle e 2 0 0).pairRefusal e = 0

/-- The state in which a host command that starts has been marked running. -/
def State.begun (s : State) (h : Word) (e : Handle) : State :=
  (s.updHandle h.toNat fun x => { x with state := .running }).when (e.state == .waiting) fun s => s.sendHandle e 2 0 0

/-- The buffer of a command is one range, is used from its start, and holds `size` bytes; the command did not come through the
mailbox. -/
structure DirectBuffer (e : Handle) (size : Nat) : Prop where
  plain : e.list = false
  start : e.bufOffset = 0
  room : size ≤ e.bufLen
  ring : ringOf e.handle ≠ 15

/-- The state once the object of a command has been read from host memory. -/
def State.objectIn (s : State) (e : Handle) : State :=
  (s.dmaDone e.handle).updHif fun x => { x with staged := x.staged.filter fun y => !(y.opcode == e.opcode) }

/-- The state once an object has been written to the buffer of a command. -/
def State.objectOut (s : State) (e : Handle) (obj : List Byte) : State := (s.hostWrite e.bufAddr obj).dmaDone e.handle

end Sys2Proof.Machine
end

