-- ==== Sys2Proof/Certificates/Slice0/Obligations.lean ====
section
/-!
DEFINITION. The statements about the block: what each family of commands does, and what holds of every step.
-/
open Sys2Proof Sys2Proof.Machine

-- The machine as a whole ----------------------------------------------------------------------------------------------------------

/-- A step runs the command at the front of the queue with the queue's rest; with no command waiting the block idles (assumption
1, the model's choice). -/
def Obligations.StepRunsTheFrontCommand : Prop := ∀ (s : State),
  (∀ c rest, s.pending = c :: rest → step s = exec c { s with pending := rest }) ∧ (s.pending = [] → step s = .next s)

/-- Every command, whatever its operands and whatever the state, answers a next state: none faults and none is refused. -/
def Obligations.EveryCommandCompletes : Prop := ∀ (c : Instr) (s : State), ∃ t, exec c s = .next t

/-- Every step keeps the invariant: the register table and the memories stay in canonical form, and the event queue, the log, its
mirror and the transmit timestamp queue stay within their sizes (R27, R278, R391, R450). The step takes one command off the queue
and never reuses a free value. -/
def Obligations.EveryStepKeepsTheInvariant : Prop := ∀ s t : State, step s = .next t →
  (s.Inv → t.Inv) ∧ t.pending = s.pending.tail ∧ s.free ≤ t.free

/-- The owner key hash, once fused, is never changed by any step (R440). -/
def Obligations.OwnerKeyIsFusedOnce : Prop := ∀ s t : State, step s = .next t → s.mss.ownerHash ≠ [] →
  t.mss.ownerHash = s.mss.ownerHash

/-- After reset the invariant holds and no command waits; the unit is fenced with cause START, has the role NONE and no session, time and
the reel count stand at 0 (assumption 5 for the values R501 gives none), no lane is enabled or in sync, no handle is open, the log is
empty, no reference is selected, and both page sets are empty (R33, R217, R254). -/
def Obligations.ResetState : Prop :=
  let s := State.reset
  s.Inv ∧ s.pending = [] ∧ s.fenced = true ∧ s.recorded .start = true ∧ s.role = 0 ∧ s.session = 0 ∧ s.pair.journal = [] ∧ s.tai = 0 ∧ s.reelSeq = 0
    ∧ s.lanes = [] ∧ s.hif.handles = [] ∧ s.active = {} ∧ s.standby = {} ∧ s.selected = 15 ∧ s.mode = 0 ∧ s.log = []
    ∧ (∀ n < 130, s.sync n = 0 ∧ s.flag (F.LANE_CTL_EN n) = false)

/-- In the reference block outside the candidates and the sample register: a write of a register changes its RW fields to the value
written, clears its W1C fields where it writes 1, and changes nothing else; where no register stands a write changes nothing (R8). -/
def Obligations.AccessCodes : Prop := ∀ (s : State) (m : Master) (o : BitVec 26) (v : Word),
  0x480000 ≤ o.toNat → o.toNat < 0x480100 → o.toNat % 4 = 0 → o.toNat ≠ R.REF_PTP_SAMPLE →
  (∀ r, regRow o.toNat = some r → r.wk = 0 → exec (.registerWrite m o v) s =
    .next (s.setReg o.toNat (((s.reg o.toNat &&& ~~~(BitVec.ofNat 32 r.rw)) ||| (v &&& BitVec.ofNat 32 r.rw))
      &&& ~~~(v &&& BitVec.ofNat 32 r.w1c)))) ∧
  (regRow o.toNat = none → exec (.registerWrite m o v) s = .next s)

/-- An event that sets no alert is taken by firmware while it runs, under the next number and among the newest 16,384; otherwise it waits
in the hardware queue, and where 1,024 wait it is dropped and counted (R27, R448). -/
def Obligations.EventLogging : Prop := ∀ (s : State) (code src : Nat) (data : List Byte),
  alertOf code = none →
  (s.fwRuns = true → s.flag F.HIF_EV_CTL_EN = false → ∃ e : LogEntry, (s.logEvent code src data).log =
      (s.log ++ [e]).drop (s.log.length + 1 - 16384) ∧ e.code = code ∧ e.source = src ∧ e.num = s.logNext ∧ e.tai = s.tai
      ∧ e.data.length = 16 ∧ e.queued = false ∧ (s.logEvent code src data).logNext = (s.logNext + 1) % 2 ^ 32
      ∧ (s.logEvent code src data).evq = s.evq) ∧
  (s.fwRuns = false → s.evq.length < 1024 → ∃ e : LogEntry, (s.logEvent code src data).evq = s.evq ++ [e] ∧ e.code = code
      ∧ e.source = src ∧ e.tai = s.tai ∧ (s.logEvent code src data).log = s.log) ∧
  (s.fwRuns = false → 1024 ≤ s.evq.length → (s.logEvent code src data).evq = s.evq
      ∧ (s.logEvent code src data).log = s.log ∧ (s.logEvent code src data).evDropped = s.evDropped + 1)

/-- A completion is written to its ring when there is room and none is held before it, in 16 bytes that hold its handle, status,
outcome, phase and result; otherwise it is held, in order (R331, R337). -/
def Obligations.Completions : Prop := ∀ (s : State) (k : Nat) (c : Completion),
  (s.cqHeldOf k = [] → s.cqRoom k = true → s.hif.d3hot = false → s.putCompletion k c = s.cqWrite k c) ∧
  (s.cqHeldOf k ≠ [] ∨ s.cqRoom k = false ∨ s.hif.d3hot = true → (s.putCompletion k c).cqHeldOf k = s.cqHeldOf k ++ [c]
    ∧ (s.putCompletion k c).hif.hostMem = s.hif.hostMem) ∧
  (∀ ph, ph < 2 → let b := completionBytes c ph
    b.length = 16 ∧ leAt b 0 4 = c.handle % 2 ^ 32 ∧ leAt b 4 2 = c.status % 2 ^ 16 ∧ leAt b 6 1 = c.outcome % 2 ^ 8
      ∧ leAt b 7 1 / 128 = ph ∧ leAt b 7 1 / 64 % 2 = c.first.toNat ∧ leAt b 7 1 / 32 % 2 = c.final.toNat
      ∧ leAt b 8 8 = c.result % 2 ^ 64)

/-- An edge of an edge source sets PENDING and is delivered; more than 64 edges within 1 ms put the source, TAMPER_N apart, into
storm state, in which PENDING is held and nothing is delivered (R413, R422, R423). -/
def Obligations.EdgesAndStorms : Prop := ∀ (s : State) (n : Nat), n < 1280 →
  let recent := ((Tbl.get (fun _ => []) s.stormEdges n).filter fun t => decide (s.time.clock < t + 1000000)) ++ [s.time.clock]
  let u := { s with stormEdges := Tbl.put (fun _ => []) s.stormEdges n (recent.drop (recent.length - 65)) }
  (s.flag (F.IC_SRC_STORM n) = false → recent.length ≤ 64 ∨ n = 276 → s.icEdge n = u.icPend n) ∧
  (s.flag (F.IC_SRC_STORM n) = false → 64 < recent.length → n ≠ 276 → s.fwRuns = false → s.evq.length = 1024 →
    (s.icEdge n).flag (F.IC_SRC_STORM n) = true ∧ (s.icEdge n).flag (F.IC_SRC_PENDING n) = true
      ∧ (s.icEdge n).hif.msixSent = s.hif.msixSent) ∧
  (s.flag (F.IC_SRC_STORM n) = true → s.icEdge n = u.setFlag (F.IC_SRC_PENDING n) true)

/-- A local reel boundary ends the reel sent to the mate, counts the reel, adds 2,560 ns to TAI, and then does the boundary's work in
this order (DESIGN CHOICE within the reel, assumption 12); a core reel of a
unit without connections, pairs, held reels and errors shows the reel about to begin (R11 to R13). -/
def Obligations.ReelBoundaries : Prop := ∀ s : State,
  s.tickReel = { s with reelSeq := (s.reelSeq + 1) % 2 ^ 32, tai := (s.tai + 2560) % 2 ^ 64 } ∧
  (let a := s.endStreamReel.tickReel.tickGctl.tickFacets.pairBoundary.stampDeparture.stepOutputs
   let b := ((List.range 130).foldl State.stepNotice a).stepThermal
   let c := ((List.range 130).foldl (fun s n => (s.testBoundary n).ffeNow n) b).stepCmc.stepTrace
   exec .localReelBoundary s = .next ((List.range 130).foldl State.stepSteer ((List.range 130).foldl State.runPrecoder
      ((List.range 130).foldl State.formOverhead c))).stepDisc) ∧
  (s.active = {} → s.circ.pairs = [] → s.sby ≠ 7 → s.lanes = [] → Completes (.coreReelStart []) s fun t =>
    (t.reg R.SSW_REEL_NOW).toNat = (s.reelSeq + 1) % 2 ^ 32 ∧ t.ssw.tx = [] ∧ t.reelSeq = s.reelSeq ∧ t.tai = s.tai
      ∧ t.log = s.log)

-- Host commands (spec 11, 12) ----------------------------------------------------------------------------------------

/-- NOP ends OK; REF_FORCE sets the force bits of its mode and ends OK, with status FORCE_IGNORED in the roles JOINING and FOLLOWER;
FACET_REINSTATE makes a REINSTATABLE facet SPARE and fails for any other; FENCE records COMMAND, and on a fenced unit ends OK at once
(R356, R370, R381, R375). -/
def Obligations.HostImmediate : Prop := ∀ (s : State) (h : Word) (e : Handle),
  (Runs s Op.NOP h e [] → exec (.nop h) s = .next ((s.begun h e).finish e.handle Out.OK 0 0)) ∧
  (Runs s Op.REF_FORCE h e [] →
    let status := if s.role = 1 ∨ s.role = 2 then St.FORCE_IGNORED else 0
    let u := s.begun h e
    (e.param 0 1 = 0 → exec (.refForce h) s = .next (((u.setFlag F.REF_CTL_FORCE_HO false).setFlag F.REF_CTL_FORCE_EN
      false).finish e.handle Out.OK status 0)) ∧
    (e.param 0 1 = 1 → exec (.refForce h) s = .next ((((u.setFlag F.REF_CTL_FORCE_HO false).setFlag F.REF_CTL_FORCE_EN
      true).setFld F.REF_CTL_FORCE_CAND (e.param 1 1)).finish e.handle Out.OK status 0)) ∧
    (e.param 0 1 = 2 → exec (.refForce h) s = .next ((u.setFlag F.REF_CTL_FORCE_HO true).finish e.handle Out.OK status 0))) ∧
  (Runs s Op.FACET_REINSTATE h e [] → s.facetState (e.param 0 2) = 5 →
    exec (.facetReinstate h) s = .next (((s.begun h e).setFacet (e.param 0 2) 2 0).finish e.handle Out.OK 0 0)) ∧
  (Runs s Op.FACET_REINSTATE h e [] → s.facetState (e.param 0 2) ≠ 5 →
    exec (.facetReinstate h) s = .next ((s.begun h e).fail e.handle St.FACET_STATE 0)) ∧
  (Runs s Op.FENCE h e [] → s.fenced = false → exec (.fence h) s = .next ((s.begun h e).detect .command)) ∧
  (Runs s Op.FENCE h e [] → s.fenced = true →
    exec (.fence h) s = .next (((s.begun h e).detect .command).finish e.handle Out.OK 0 s.reelSeq))

/-- A host command whose object comes from one buffer has its effect on the bytes read (R355): LANE_TRACE takes the trace sent or, in
REEL_SYNC, the one expected; REF_SEED takes a valid seed and refuses another; TAKE_COMPILE and TAKE_INCREMENT request the job where no
condition refuses it and none is held; CMC_SEND queues records without a fault; FW_STAGE refuses a bad image and stages a good one into the
slot not running, unless the flash fails. -/
def Obligations.HostObjects : Prop := ∀ (s : State) (h : Word) (e : Handle) (sg : List (Nat × Nat)) (obj : List Byte),
  let u := (s.begun h e).objectIn e
  (Runs s Op.LANE_TRACE h e [] → DirectBuffer e 128 → e.param 1 1 = 1 →
    exec (.laneTrace h sg obj) s = .next ((u.setCtx e.handle 1).updLane (e.param 0 1) fun l =>
      { l with traceTxNext := some (bytesAt obj 0 64) })) ∧
  (Runs s Op.LANE_TRACE h e [] → DirectBuffer e 128 → e.param 1 1 = 2 → s.sync (e.param 0 1) = 2 →
    exec (.laneTrace h sg obj) s = .next (((List.range 16).foldl (fun s k =>
      s.setReg (R.LANE_TRACE_EXP (e.param 0 1) k) (BitVec.ofNat 32 (leAt (bytesAt obj 0 128) (64 + 4 * k) 4)))
      (u.setCtx e.handle 2)).updLane (e.param 0 1) fun l => { l with traceExpTouched := true })) ∧
  (∀ x, Runs s Op.REF_SEED h e [] → DirectBuffer e 40 → parseSeed (bytesAt obj 0 40) = some x →
    exec (.refSeed h sg obj) s = .next ((u.updRef fun r => { r with seed := some x }).refreshHold.finish e.handle Out.OK 0 0)) ∧
  (Runs s Op.REF_SEED h e [] → DirectBuffer e 40 → parseSeed (bytesAt obj 0 40) = none →
    exec (.refSeed h sg obj) s = .next (u.fail e.handle St.RECORD_INVALID 0)) ∧
  (∀ n c x, Runs s Op.TAKE_COMPILE h e [] → e.param 4 4 = n → e.param 8 4 = c → DirectBuffer e (8 * n + c) →
    u.jobRefusal false (e.param 0 4) 0 = none → s.ssw.hostJob = none → checkSection none (bytesAt (bytesAt obj 0 (8 * n + c)) (8 * n) c) = .ok x →
    exec (.takeCompile h sg obj) s = .next (((u.updSsw fun w => { w with
      hostJob := some { kind := .full, take := e.param 0 4, base := 0, records := (bytesAt obj 0 (8 * n + c)).take (8 * n)
                        section_ := bytesAt (bytesAt obj 0 (8 * n + c)) (8 * n) c, handle := e.handle } }).setFld
          F.SSW_COL_STATE_HOST_JOB 3).startJobs)) ∧
  (∀ n c x, Runs s Op.TAKE_INCREMENT h e [] → e.param 8 4 = n → e.param 12 4 = c → DirectBuffer e (8 * n + c) →
    u.jobRefusal true (e.param 0 4) (e.param 4 4) = none → s.ssw.hostJob = none →
    checkSection (some u.active) (bytesAt (bytesAt obj 0 (8 * n + c)) (8 * n) c) = .ok x →
    exec (.takeIncrement h sg obj) s = .next (((u.updSsw fun w => { w with
      hostJob := some { kind := .increment, take := e.param 0 4, base := e.param 4 4, records := (bytesAt obj 0 (8 * n + c)).take (8 * n)
                        section_ := bytesAt (bytesAt obj 0 (8 * n + c)) (8 * n) c, handle := e.handle } }).setFld
          F.SSW_COL_STATE_HOST_JOB 3).startJobs)) ∧
  (∀ size, let b := bytesAt obj 0 size
    Runs s Op.CMC_SEND h e ((cmcRecords (e.param 0 4) 0 obj).map fun x => x.2.1) → s.stagedFor e = none →
    cmcObjectSize (e.param 0 4) obj = size → DirectBuffer e size →
    (∀ x ∈ cmcRecords (e.param 0 4) 0 b, u.cmcFault (cmcRecords (e.param 0 4) 0 b) x = 0) →
    exec (.cmcSend h sg obj) s = .next (((cmcRecords (e.param 0 4) 0 b).foldl (fun s x =>
      s.updCmc x.2.1 fun c => { c with txQueue := c.txQueue ++ [x.2.2] }) u).finish e.handle Out.OK 0 0)) ∧
  (∀ size k, let img := bytesAt obj 0 size
    Runs s Op.FW_STAGE h e [] → e.param 0 4 = size → DirectBuffer e size →
    k = 3 - (if u.fld F.MSS_BOOT_IMAGE = 0 then u.mss.preferred else u.fld F.MSS_BOOT_IMAGE) →
    exec (.fwStage h sg obj true) s = .next (if u.imageFault img = 1 then u.fail e.handle St.IMAGE_SIZE 0
      else if u.imageFault img = 2 then u.fail e.handle St.SIGNATURE_BAD 0
      else ((u.setSlot k img).updMss fun x => { x with staged := some (k, leAt img 8 4) }).finish e.handle Out.OK 0 (leAt img 8 4)) ∧
    exec (.fwStage h sg obj false) s = .next (if u.imageFault img = 1 then u.fail e.handle St.IMAGE_SIZE 0
      else if u.imageFault img = 2 then u.fail e.handle St.SIGNATURE_BAD 0
      else ((u.setSlot k []).updMss fun x => { x with staged := none }).fail e.handle St.FLASH_ERROR 0))

/-- A host command that writes an object to one buffer large enough for it places it there and ends OK (R355): REPORT_TAKE of the active
take or of a compiled standby, LOG_READ of a range the log still holds, EYE_HISTOGRAM of an ACTIVE receiver. LOG_READ of an older range
fails with the oldest number; DAILIES asks a capture, delivers the record held, or fails where there is none. -/
def Obligations.HostReports : Prop := ∀ (s : State) (h : Word) (e : Handle) (sg : List (Nat × Nat)),
  let u := s.begun h e
  (∀ obj, Runs s Op.REPORT_TAKE h e [] → e.param 4 1 ≠ 1 → u.activeTake = e.param 0 4 →
    obj = u.takeReport u.active 1 (u.reg R.SSW_REEL_NOW).toNat → DirectBuffer e obj.length →
    exec (.reportTake h sg) s = .next ((u.objectOut e obj).finish e.handle Out.OK 0
      (obj.length + 2 ^ 32 * (u.reg R.SSW_REEL_NOW).toNat))) ∧
  (∀ obj, Runs s Op.REPORT_TAKE h e [] → e.param 4 1 = 1 → u.sby = 3 → u.standby.take = e.param 0 4 →
    obj = u.takeReport u.standby 2 (u.reg R.SSW_REEL_NOW).toNat → DirectBuffer e obj.length →
    exec (.reportTake h sg) s = .next ((u.objectOut e obj).finish e.handle Out.OK 0
      (obj.length + 2 ^ 32 * (u.reg R.SSW_REEL_NOW).toNat))) ∧
  (∀ l x, Runs s Op.LOG_READ h e [] → u.log.head? = some x → seqLater x.num (e.param 0 4) = false →
    l = u.log.filter (fun x => decide (seqDiff x.num (e.param 0 4) < e.param 4 4)) →
    DirectBuffer e (l.flatMap logBytes).length →
    exec (.logRead h sg) s = .next ((u.objectOut e (l.flatMap logBytes)).finish e.handle Out.OK 0
      (l.length + 2 ^ 32 * ((u.logNext + 2 ^ 32 - 1) % 2 ^ 32)))) ∧
  (∀ x, Runs s Op.LOG_READ h e [] → u.log.head? = some x → seqLater x.num (e.param 0 4) = true →
    exec (.logRead h sg) s = .next (u.fail e.handle St.LOG_RANGE x.num)) ∧
  (∀ obj, Runs s Op.EYE_HISTOGRAM h e [] → u.rxState (e.param 0 1) = 0 → DirectBuffer e (bytesAt obj 0 65536).length →
    exec (.eyeHistogram h sg obj) s = .next ((u.objectOut e (bytesAt obj 0 65536)).finish e.handle Out.OK 0
      (2 ^ (e.param 2 1) % 2 ^ 32))) ∧
  (Runs s Op.DAILIES h e [] → e.ready = false → e.param 0 1 = 0 →
    exec (.dailies h sg) s = .next ((u.updHandle e.handle fun x => { x with sg := sg }).requestCapture 0 e.handle)) ∧
  (Runs s Op.DAILIES h e [] → e.ready = false → e.param 0 1 ≠ 0 → s.dailies = 2 →
    exec (.dailies h sg) s = .next ((u.updHandle e.handle fun x => { x with sg := sg }).deliverRecord e.handle)) ∧
  (Runs s Op.DAILIES h e [] → e.ready = false → e.param 0 1 ≠ 0 → s.dailies ≠ 2 →
    exec (.dailies h sg) s = .next ((u.updHandle e.handle fun x => { x with sg := sg }).fail e.handle St.NO_RECORD 0))

/-- On a SOLO unit TAKE_DISCARD gives up the take it holds and TAKE_SPLICE arms it, or both fail where the unit does not hold it;
SPLICE_CANCEL ends a waiting TAKE_SPLICE, and fails where none is open; CIRC_SET enters an add of an absent circuit, or a delete of a
present one, for its effect reel, and waits while the colourist compiles or receives; MERGE_REANCHOR moves a pair's anchor and
answers old and new; LANE_CMC sets the mode the lane takes next (R360 to R362, R365 to R367). -/
def Obligations.HostTakes : Prop := ∀ (s : State) (h : Word) (e : Handle),
  let u := s.begun h e
  (Runs s Op.TAKE_DISCARD h e [] → s.role = 4 → s.holdsTake (e.param 0 4) = true →
    exec (.takeDiscard h) s = .next (((u.startResync 0).updPair fun p => { p with matchedTake := none }).finish e.handle
      Out.OK 0 0)) ∧
  (Runs s Op.TAKE_DISCARD h e [] → s.role = 4 → s.holdsTake (e.param 0 4) = false →
    exec (.takeDiscard h) s = .next (u.fail e.handle St.TAKE_STATE 0)) ∧
  (Runs s Op.TAKE_SPLICE h e [] → s.role = 4 → s.holdsTake (e.param 0 4) = true →
    exec (.takeSplice h) s = .next (u.armHost e.handle
      (if e.param 4 4 = 0 then ((s.reg R.SSW_REEL_NOW).toNat + 64) % 2 ^ 32 else e.param 4 4))) ∧
  (Runs s Op.TAKE_SPLICE h e [] → s.role = 4 → s.holdsTake (e.param 0 4) = true → e.param 4 4 = 0 → s.standby.mergeList = [] →
    Completes (.takeSplice h) s fun t => t.sby = 4 ∧ t.armed = true ∧ t.ssw.spliceHandle = e.handle
      ∧ t.fld F.SSW_SPLICE_AT_REEL = ((s.reg R.SSW_REEL_NOW).toNat + 64) % 2 ^ 32) ∧
  (Runs s Op.TAKE_SPLICE h e [] → s.role = 4 → s.holdsTake (e.param 0 4) = false →
    exec (.takeSplice h) s = .next (u.fail e.handle St.NOT_COMPILED 0)) ∧
  (∀ x, Runs s Op.SPLICE_CANCEL h e [] → u.openSplice (e.param 0 4) = some x → x.state = .waiting →
    exec (.spliceCancel h) s = .next ((u.finish x.handle Out.NOT_SPLICED St.CANCELLED 0).finish e.handle Out.OK 0 0)) ∧
  (Runs s Op.SPLICE_CANCEL h e [] → u.openSplice (e.param 0 4) = none →
    exec (.spliceCancel h) s = .next (u.fail e.handle St.NOT_ARMED 0)) ∧
  (Runs s Op.CIRC_SET h e [] → s.sby ≠ 2 → s.sby ≠ 6 → s.role = 4 → s.pair.joinLead = false →
    (e.param 8 1 = 0 ∧ u.deleting (e.param 0 2) = false ∧ s.active.circAt (e.param 0 2) = none
      ∨ e.param 8 1 = 1 ∧ (s.active.circAt (e.param 0 2)).isSome = true) →
    exec (.circSet h) s = .next (u.updCirc fun c =>
      { c with changes := c.changes ++
        [{ reel := seqNext (s.reg R.SSW_REEL_NOW).toNat, circuit := e.param 0 2, flags := e.param 2 2, label := e.param 4 4
           add := e.param 8 1 == 0, handle := e.handle }] })) ∧
  (Runs s Op.CIRC_SET h e [] → s.sby ≠ 2 → s.sby ≠ 6 → e.param 8 1 = 0 → u.deleting (e.param 0 2) = false →
    (s.active.circAt (e.param 0 2)).isSome = true → exec (.circSet h) s = .next (u.fail e.handle St.ID_PRESENT 0)) ∧
  (s.sby = 2 ∨ s.sby = 6 → exec (.circSet h) s = .next s) ∧
  (∀ p, Runs s Op.MERGE_REANCHOR h e [] → u.pairOf (e.param 0 1) = some p →
    exec (.mergeReanchor h) s = .next (((u.reanchor p).1.setPair (u.reanchor p).2).finish e.handle Out.OK 0
      ((u.reanchor p).2.anchor.getD 0 + 2 ^ 32 * (if p.anchor.isSome then
        ((u.reanchor p).2.anchor.getD 0 + 2 ^ 32 - p.anchor.getD 0) % 2 ^ 32 else 0)))) ∧
  (Runs s Op.LANE_CMC h e [] → e.param 1 1 = 0 →
    exec (.laneCmc h) s = .next ((u.dissolveCourier (e.param 0 1)).updCmc (e.param 0 1) fun c =>
      { c with next := some .none })) ∧
  (Runs s Op.LANE_CMC h e [] → e.param 1 1 = 1 →
    exec (.laneCmc h) s = .next ((u.dissolveCourier (e.param 0 1)).updCmc (e.param 0 1) fun c =>
      { c with next := some .terminated })) ∧
  (Runs s Op.LANE_CMC h e [] → e.param 1 1 = 2 →
    exec (.laneCmc h) s = .next ((((u.dissolveCourier (e.param 0 1)).dissolveCourier (e.param 2 1)).updCmc (e.param 2 1) fun c =>
      { c with next := some (.courier (e.param 0 1)) }).updCmc (e.param 0 1) fun c =>
        { c with next := some (.courier (e.param 2 1)) }))

/-- Where their conditions hold, PAIR_JOIN makes the unit JOINING in step 1, PAIR_HANDOVER at a follower waits for the boundary with
the claim two epochs on and at a lead asks the follower, PAIR_SOLO waits for the boundary that makes the unit SOLO, FW_ACTIVATE arms
the trial of the staged slot and restarts the management side, and FACET_RETIRE retires the facet into the lowest spare; and
PAIR_JOIN off the fence or in a role, PAIR_HANDOVER in a role without a mate, PAIR_SOLO in another role, FW_ACTIVATE with nothing staged, and
FACET_RETIRE of another facet or without a spare fail with the status R372 to R374, R379 and R380 give. -/
def Obligations.HostPair : Prop := ∀ (s : State) (h : Word) (e : Handle),
  let u := s.begun h e
  (Runs s Op.PAIR_JOIN h e [] → s.fenced = true → s.role = 0 → u.fenceLive = 0 → s.mss.pairKey.isSome = true →
    s.reg R.PAIR_ID ≠ 0 → s.sync 128 = 2 ∨ s.sync 129 = 2 →
    exec (.pairJoin h) s = .next ((((((u.closeSession.setRole 1).setFld F.PAIR_CONT_STAT_STATE 1).setFlag
      F.SSW_SBY_PORT_CONTINUITY_EN true).cand7On).updPair fun p =>
      { p with joinStep := 1, joinLead := false, joinHandle := e.handle, align := none }).drawNonce)) ∧
  (Runs s Op.PAIR_JOIN h e [] → s.fenced = false ∨ s.role ≠ 0 →
    exec (.pairJoin h) s = .next (u.fail e.handle St.BAD_ROLE 0)) ∧
  (Runs s Op.PAIR_HANDOVER h e [] → s.role = 2 → u.handoverRefusal = 0 →
    exec (.pairHandover h) s = .next ((u.setFlag F.PAIR_STATE_HANDOVER true).updPair fun p => { p with
      handoverHandle := e.handle, handoverAhead := true, change := some { role := 3, claim := 2 * (u.epochOf + 2) + s.unit } })) ∧
  (Runs s Op.PAIR_HANDOVER h e [] → s.role = 3 → s.session = 2 →
    exec (.pairHandover h) s = .next (((u.setFlag F.PAIR_STATE_HANDOVER true).updPair fun p =>
      { p with handoverHandle := e.handle, handoverAhead := false }).sendRecord 0x70 0 (beBytes 4 e.handle))) ∧
  (Runs s Op.PAIR_HANDOVER h e [] → s.role = 3 → s.session ≠ 2 →
    exec (.pairHandover h) s = .next (u.fail e.handle St.ISOLATED 0)) ∧
  (Runs s Op.PAIR_HANDOVER h e [] → s.role ≠ 2 → s.role ≠ 3 → exec (.pairHandover h) s = .next (u.fail e.handle St.BAD_ROLE 0)) ∧
  (∀ ep, Runs s Op.PAIR_SOLO h e [] → s.role = 0 → u.fenceLive = 0 → s.session ≠ 2 →
    s.flag F.PAIR_STATE_EV_MATE_LANES = false → s.flag F.PAIR_STATE_EV_HEARTBEAT = false → u.nextEpoch = some ep →
    exec (.pairSolo h) s = .next (u.updPair fun p =>
      { p with change := some { role := 4, claim := 2 * ep + s.unit, clears := true, handle := e.handle } })) ∧
  (Runs s Op.PAIR_SOLO h e [] → s.role = 3 → s.session ≠ 2 →
    s.flag F.PAIR_STATE_EV_MATE_LANES = false → s.flag F.PAIR_STATE_EV_HEARTBEAT = false →
    exec (.pairSolo h) s = .next (u.updPair fun p =>
      { p with change := some { role := 4, claim := u.claim, handle := e.handle } })) ∧
  (Runs s Op.PAIR_SOLO h e [] → s.role ≠ 0 → s.role ≠ 3 → exec (.pairSolo h) s = .next (u.fail e.handle St.BAD_ROLE 0)) ∧
  (∀ k v bursts, Runs s Op.FW_ACTIVATE h e [] → s.mss.staged = some (k, v) →
    exec (.fwActivate h bursts) s = .next (((((u.setFld F.MSS_FW_TRIAL_TRY_SLOT k).setFlag F.MSS_FW_TRIAL_ARMED true).setFlag
      F.MSS_FW_TRIAL_TRIED false).updMss fun x => { x with activateHandle := e.handle, activateFailed := false }).mgmtRestart 2
        bursts)) ∧
  (∀ bursts, Runs s Op.FW_ACTIVATE h e [] → s.mss.staged = none →
    exec (.fwActivate h bursts) s = .next (u.fail e.handle St.NO_STAGED_IMAGE 0)) ∧
  (Runs s Op.FACET_RETIRE h e [] → u.facetState (e.param 0 2) = 1 → u.lowestSpare.isSome = true →
    u.reservedFor (e.param 0 2) = none →
    exec (.facetRetire h) s = .next ((u.setCtx e.handle (e.param 0 2 + 1)).retire (e.param 0 2) false)) ∧
  (Runs s Op.FACET_RETIRE h e [] → u.facetState (e.param 0 2) ≠ 1 →
    exec (.facetRetire h) s = .next (u.fail e.handle St.FACET_STATE 0)) ∧
  (Runs s Op.FACET_RETIRE h e [] → u.facetState (e.param 0 2) = 1 → u.lowestSpare = none →
    exec (.facetRetire h) s = .next (u.fail e.handle St.NO_SPARE 0))

-- The register bus (spec 00, 18) ---------------------------------------------------------------------------------------

/-- A write of REF_SLOPE changes its field and nothing else; a read of HIF_DMA_FAULTS, which is read-clear, answers the word and
leaves 0; at an offset without a register a read answers 0 and a write changes nothing; an access of a wrong size or alignment is
logged with its offset (assumption 73, the model's choice of address) and its requester, changes nothing where it is a write, and a read
of it answers all ones; the 64-bit accesses of the function to the MSI-X table and PBA are no such accesses (R6 to R9, R316). -/
def Obligations.BusAccess : Prop := ∀ (m : Master) (s : State),
  (∀ v : Word, Completes (.registerWrite m (BitVec.ofNat 26 R.REF_SLOPE) v) s fun t =>
    t.fld F.REF_SLOPE_SLOPE = v.toNat % 2 ^ F.REF_SLOPE_SLOPE.width ∧ OnlyFields [F.REF_SLOPE_SLOPE] s t) ∧
  Completes (.readClear m (BitVec.ofNat 26 R.HIF_DMA_FAULTS)) s (fun t =>
    t.rdataOf m = s.reg R.HIF_DMA_FAULTS ∧ t.reg R.HIF_DMA_FAULTS = 0
      ∧ (∀ o, o ≠ R.HIF_DMA_FAULTS → t.reg o = s.reg o) ∧ t = { s with regs := t.regs, rdata := t.rdata }) ∧
  (∀ v : Word, exec (.registerWrite m 0xA00000#26 v) s = .next s) ∧
  exec (.readClear m 0xA00000#26) s = .next (s.setRdata m 0) ∧
  (∀ (off : BitVec 26) (v : Word), off.toNat % 4 ≠ 0 → exec (.registerWrite m off v) s =
    .next (s.logEvent Ev.REG_ACCESS_SIZE (matrixNo m) (leBytes 4 off.toNat))) ∧
  (∀ off : BitVec 26, off.toNat % 4 ≠ 0 → exec (.readClear m off) s =
    .next ((s.logEvent Ev.REG_ACCESS_SIZE (matrixNo m) (leBytes 4 off.toNat)).setRdata m 0xFFFFFFFF#32)) ∧
  (∀ (off : BitVec 26) (n : Nat), n ≠ 0 → (n = 4 → off.toNat % 4 ≠ 0) →
    (n = 8 → m ≠ .pcie ∨ off.toNat % 8 ≠ 0 ∨ ¬(0x608000 ≤ off.toNat ∧ off.toNat < 0x608400
      ∨ 0x609000 ≤ off.toNat ∧ off.toNat < 0x609008)) →
    exec (.regAccessSize m off n true) s = .next (s.logEvent Ev.REG_ACCESS_SIZE (matrixNo m) (leBytes 4 off.toNat)) ∧
    exec (.regAccessSize m off n false) s =
      .next ((s.logEvent Ev.REG_ACCESS_SIZE (matrixNo m) (leBytes 4 off.toNat)).setRdata m 0xFFFFFFFF#32)) ∧
  (∀ (off : BitVec 26) (w : Bool), off.toNat % 4 = 0 → exec (.regAccessSize m off 4 w) s = .next s) ∧
  (∀ (off : BitVec 26) (w : Bool), off.toNat % 8 = 0 → (0x608000 ≤ off.toNat ∧ off.toNat < 0x608400
    ∨ 0x609000 ≤ off.toNat ∧ off.toNat < 0x609008) → exec (.regAccessSize .pcie off 8 w) s = .next s) ∧
  (∀ off : BitVec 26, exec (.regAccessSize m off 0 true) s = .next s)

/-- The unlock value written to a block's key register opens the key of that block, any other value closes it, and so does the key
timeout. FENCE_REQ with the key of GCTL open closes it, and where its bit is 1 records COMMAND; with the key closed it is refused, and
logged where its bit differs from what the register reads (R10, R37). -/
def Obligations.WriteKeys : Prop := ∀ (s : State) (b : KeyBlock) (v : Word),
  Completes (.keyWrite b v) s (fun t => t.keyOpen b = decide (v.toNat = keyUnlock b)
    ∧ (∀ c, c ≠ b → t.keyOpen c = s.keyOpen c) ∧ t = { s with gctl := t.gctl }) ∧
  Completes (.keyTimeout b) s (fun t => t.keyOpen b = false ∧ (∀ c, c ≠ b → t.keyOpen c = s.keyOpen c)
    ∧ t = { s with gctl := t.gctl }) ∧
  (s.keyOpen .gctl = true → v.toNat.testBit 0 = true → Completes (.fenceReq v) s fun t =>
    t.recorded .command = true ∧ t.keyOpen .gctl = false ∧ t.gctl.causeNew = true ∧ t.gctl.faultN = true
      ∧ t = { s with regs := t.regs, gctl := t.gctl } ∧ ∀ o, o ≠ R.GCTL_FENCE_CAUSE → t.reg o = s.reg o) ∧
  (s.keyOpen .gctl = true → v.toNat.testBit 0 = false → exec (.fenceReq v) s = .next (s.setKey .gctl false)) ∧
  (s.keyOpen .gctl = false → v.toNat.testBit 0 ≠ s.recorded .command →
    exec (.fenceReq v) s = .next (s.logEvent Ev.KEY_REFUSED noSource [])) ∧
  (s.keyOpen .gctl = false → v.toNat.testBit 0 = s.recorded .command → exec (.fenceReq v) s = .next s)

-- Platform (spec 01) ----------------------------------------------------------------------------------------------------

/-- A keep-alive restarts the age, ends the flywheel where firmware runs, and while the management side is in reset restarts nothing
else; FLYWHEEL shows the flywheel; an age of 10,000 ms is detected once; an internal link error is recorded and its second starts; a detected
cause fences an unfenced unit when it takes effect (R26, R29, R32, R33, R39, R40). -/
def Obligations.Flywheel : Prop := ∀ s : State,
  (∀ v : Word, s.flag F.GCTL_STATE_MGMT_IN_RESET = true → Completes (.gctlAlive v) s fun t =>
    t.fld F.GCTL_ALIVE_AGE_AGE_MS = 0 ∧ t.gctl.everAlive = true ∧ t.gctl.ageNs = 0 ∧ t.mss.autoDone = false
      ∧ t.flag F.GCTL_STATE_FLYWHEEL = true ∧ t.mss.fwUp = s.mss.fwUp) ∧
  (∀ v : Word, s.flag F.GCTL_STATE_MGMT_IN_RESET = false → s.inRecovery = false → s.mss.fwUp = true → s.gctl.everAlive = true →
    s.fld F.GCTL_ALIVE_AGE_AGE_MS < 10000 →
    exec (.gctlAlive v) s = .next (((((s.setFld F.GCTL_ALIVE_AGE_AGE_MS 0).updGctl fun g =>
      { g with everAlive := true, ageNs := 0 }).updMss fun x => { x with autoDone := false }).setFlag
        F.GCTL_STATE_FLYWHEEL false).firmwareResumes)) ∧
  Completes .flywheel s (fun t => t.flag F.GCTL_STATE_FLYWHEEL = s.flywheel ∧ OnlyFields [F.GCTL_STATE_FLYWHEEL] s t) ∧
  (s.gctl.everAlive = true → 10000 ≤ s.fld F.GCTL_ALIVE_AGE_AGE_MS → s.recorded .flywheelTimeout = false →
    exec .flywheelTimeout s = .next (s.detect .flywheelTimeout)) ∧
  (s.gctl.everAlive = false ∨ s.fld F.GCTL_ALIVE_AGE_AGE_MS < 10000 → exec .flywheelTimeout s = .next s) ∧
  Completes .internalLink s (fun t => t.recorded .internalLink = true ∧ t.gctl.linkErrNs = 1000000000 ∧ t.gctl.causeNew = true
    ∧ t.gctl.faultN = true ∧ t = { s with regs := t.regs, gctl := t.gctl }) ∧
  (s.gctl.causeNew = false → exec .fenceTakesEffect s = .next s) ∧
  (s.gctl.causeNew = true → s.recorded .thermal = false → s.fenced = false → exec .fenceTakesEffect s =
    .next ((s.updGctl fun g => { g with causeNew := false }).fenceAtSplice (seqNext s.reelSeq)).enterFence) ∧
  (s.gctl.causeNew = true → s.recorded .thermal = false → s.fenced = true → s.pair.joinStep = 0 → s.pair.change = none →
    exec .fenceTakesEffect s = .next (s.updGctl fun g => { g with causeNew := false }))

/-- PORST_N leaves the machine fenced with cause START, keeps host memory, the flash slots and the owner key, and moves the log
to its mirror; its release samples the straps, and is a tamper where TAMPER_N is low (R33, R437, R466). -/
def Obligations.PowerOn : Prop := ∀ s : State,
  Completes .porstNAssert s (fun t => t.gctl.porstLow = true ∧ t.fenced = true ∧ t.recorded .start = true ∧ t.log = []
    ∧ t.mirror = (s.mirror ++ s.log).drop ((s.mirror ++ s.log).length - 16384) ∧ t.hif.hostMem = s.hif.hostMem
    ∧ t.mss.slotA = s.mss.slotA ∧ t.mss.slotB = s.mss.slotB ∧ t.mss.ownerHash = s.mss.ownerHash
    ∧ t.mss.pairKey = none ∧ t.lanes = [] ∧ t.tai = 0 ∧ t.reelSeq = 0 ∧ t.pending = s.pending) ∧
  (∀ straps : BitVec 4, s.gctl.porstLow = true → Completes (.porstNRelease straps false) s fun t =>
    t.gctl.porstLow = false ∧ t.fenced = true ∧ t.fld F.GCTL_STRAP_STRAP = straps.toNat
      ∧ t.fld F.MSS_BOOT_BOOT_SRC = straps.toNat / 4 ∧ t.fld F.I3CT_STAT_STATIC_ADDR = 0x58 + straps.toNat % 4
      ∧ t.hif.hostMem = s.hif.hostMem ∧ t.pending = s.pending) ∧
  (∀ straps : BitVec 4, s.gctl.porstLow = true → exec (.porstNRelease straps true) s =
    .next (((((s.porst.when (drivesPins s.jtag.ir) State.tapReset).setFld F.GCTL_STRAP_STRAP straps.toNat).setFld
      F.MSS_BOOT_BOOT_SRC (straps.toNat / 4)).setFld F.I3CT_STAT_STATIC_ADDR (0x58 + straps.toNat % 4)).tamper)) ∧
  (∀ straps low, s.gctl.porstLow = false → exec (.porstNRelease straps low) s = .next s)

/-- What starts the unit: where all facets pass, the facet test binds the colours in order; where no window fails, the SRAM test
releases core 0; without a trial the boot ROM starts the preferred slot, else the other, else recovery or nothing (R163, R390,
R445). -/
def Obligations.StartUp : Prop := ∀ s : State,
  (s.facetCount (fun x => x != 0) = 0 → exec (.startupFacetTest []) s =
    .next (let t := (List.range 272).foldl (fun s f => s.icEdge (288 + f)) (s.bindColours (List.range 272)).refreshFacets
      if t.usableFacets < 256 then t.detect .facetsShort else t)) ∧
  (∀ l, (∀ f < 272, s.facetState f ≠ 0) → exec (.startupFacetTest l) s = .next s) ∧
  (s.mss.started = false → Completes (.sramStartupTest []) s fun t =>
    t.mss = { s.mss with started := true, sram := [], imageBytes := [] } ∧ t.flag F.GCTL_STATE_MGMT_IN_RESET = false ∧ t.coreOn 0 = true
      ∧ t = { s with regs := t.regs, mss := t.mss }) ∧
  (∀ l, s.mss.started = true → exec (.sramStartupTest l) s = .next s) ∧
  (∀ k, s.coreOn 0 = true → s.mss.booted = false → s.fld F.MSS_BOOT_BOOT_SRC ≠ 1 → s.flag F.MSS_FW_TRIAL_ARMED = false →
    s.mss.preferred = k →
    let u := ((s.setFld F.MSS_BOOT_IMAGE 0).setReg R.MSS_FW_VERSION 0).setRcv 0
    exec .bootImageChoice s = .next (if u.imageFault (u.slotImage k) = 0 then u.bootSlot k
      else if u.imageFault (u.slotImage (3 - k)) = 0 then (u.logEvent Ev.BOOT_IMAGE_BAD noSource []).bootSlot (3 - k)
      else if u.fld F.MSS_BOOT_BOOT_SRC = 0 then (u.logEvent Ev.BOOT_IMAGE_BAD noSource []).enterRecovery
      else (u.logEvent Ev.BOOT_IMAGE_BAD noSource []).updMss fun x => { x with booted := true })) ∧
  (∀ k, k < 4 → let t := s.bootSlot k
    t.fld F.MSS_BOOT_IMAGE = k ∧ t.mss.booted = true ∧ t.reg R.MSS_FW_VERSION = BitVec.ofNat 32 (leAt (s.slotImage k) 8 4)
      ∧ (t.core 0).r.pc = BitVec.ofNat 32 (leAt (s.slotImage k) 20 4)) ∧
  (s.mss.booted = true → exec .bootImageChoice s = .next s)

/-- Loss and return of the reference inputs and of XO_IN (R20, R21). -/
def Obligations.PlatformClocks : Prop := ∀ s : State,
  (s.gctl.refA = true → s.gctl.refB = true → s.gctl.refSelB = false → exec (.refclkFail false) s =
    .next ((s.updGctl fun g => { g with refA := false, refSelB := true }).logEvent Ev.REFCLK_SWITCH noSource [])) ∧
  (s.gctl.refA = true → s.gctl.refB = true → s.gctl.refSelB = false → exec (.refclkFail true) s =
    .next (s.updGctl fun g => { g with refB := false })) ∧
  (s.gctl.refA = true → s.gctl.refB = true → s.gctl.refSelB = true → exec (.refclkFail true) s =
    .next ((s.updGctl fun g => { g with refB := false, refSelB := false }).logEvent Ev.REFCLK_SWITCH noSource [])) ∧
  (s.gctl.refA = true → s.gctl.refB = true → s.gctl.refSelB = true → exec (.refclkFail false) s =
    .next (s.updGctl fun g => { g with refA := false })) ∧
  (s.gctl.refA = false → s.gctl.refB = true → exec (.refclkFail true) s =
    .next ((s.updGctl fun g => { g with refB := false }).detect .refclkLost)) ∧
  (s.gctl.refA = true → s.gctl.refB = false → exec (.refclkReturn true false) s =
    .next ((s.updGctl fun g => { g with refB := true }).logEvent Ev.REFCLK_RETURN noSource [1])) ∧
  (s.gctl.refA = false → s.gctl.refB = false → exec (.refclkReturn false false) s =
    .next ((((s.updGctl fun g => { g with refA := true }).logEvent Ev.REFCLK_RETURN noSource [0]).updGctl fun g =>
      { g with refSelB := false }).logEvent Ev.REFCLK_SWITCH noSource [])) ∧
  (∀ b, s.gctl.refA = false → s.gctl.refB = false → exec (.refclkReturn b true) s =
    .next ((((((s.updGctl fun g => { g with refA := true }).logEvent Ev.REFCLK_RETURN noSource [0]).updGctl fun g =>
      { g with refB := true }).logEvent Ev.REFCLK_RETURN noSource [1]).updGctl fun g =>
      { g with refSelB := false }).logEvent Ev.REFCLK_SWITCH noSource [])) ∧
  (s.gctl.refA = true ∨ s.gctl.refB = true → s.causeHolds .refclkLost = false) ∧
  (s.gctl.refA = true → s.gctl.refB = false → exec (.refclkFail false) s =
    .next ((s.updGctl fun g => { g with refA := false }).detect .refclkLost)) ∧
  (s.gctl.refA = false → s.gctl.refB = true → exec (.refclkReturn false false) s =
    .next ((s.updGctl fun g => { g with refA := true }).logEvent Ev.REFCLK_RETURN noSource [0])) ∧
  (s.gctl.refA = false → s.gctl.refB = false → exec (.refclkReturn true false) s =
    .next ((((s.updGctl fun g => { g with refB := true }).logEvent Ev.REFCLK_RETURN noSource [1]).updGctl fun g =>
      { g with refSelB := true }).logEvent Ev.REFCLK_SWITCH noSource [])) ∧
  (s.gctl.xoGood = true → exec .xoLost s =
    .next ((((s.updGctl fun g => { g with xoGood := false }).setFlag F.TIME_STATE_XO_SYNTH true).setFlag
      F.REF_HO_STAT_MODEL_UNAVAILABLE true).logEvent Ev.XO_LOST noSource [])) ∧
  (s.gctl.xoGood = false → exec .xoReturn s =
    .next ((((s.updGctl fun g => { g with xoGood := true }).setFlag F.TIME_STATE_XO_SYNTH false).setFlag
      F.REF_HO_STAT_MODEL_UNAVAILABLE false).refreshHold.logEvent Ev.XO_RETURN noSource [])) ∧
  (s.gctl.xoGood = false → exec .xoLost s = .next s) ∧ (s.gctl.xoGood = true → exec .xoReturn s = .next s)

/-- The first tamper zeroises, is logged, recorded as a cause and raises its source; the end of zeroisation shows its outcome; a sensor
sample below the warning shows its temperatures and raises nothing; THERMAL_WARN ends below 100 °C and a voltage alarm once its rail is
good (R437 to R439, R451, R452). -/
def Obligations.TamperAndSensors : Prop := ∀ s : State,
  (s.mss.tamperDone = false → exec .tamper s =
    .next ((((((s.updMss fun x => { x with tamperDone := true }).setFlag F.MSS_ZEROISE_TAMPER_SEEN true).zeroise.logEvent
      Ev.TAMPER noSource []).detect .tamper).icPend 276))) ∧
  (s.mss.tamperDone = true → exec .tamper s = .next s) ∧
  (s.flag F.MSS_ZEROISE_BUSY = true → s.flag F.MSS_ZEROISE_ZEROISE_FAIL = false → Completes (.zeroisationEnd true) s fun t =>
    t.flag F.MSS_ZEROISE_BUSY = false ∧ t.flag F.MSS_ZEROISE_ZEROISED = true ∧ t.mss.scratchDenied = false) ∧
  (s.flag F.MSS_ZEROISE_BUSY = true → Completes (.zeroisationEnd false) s fun t =>
    t.flag F.MSS_ZEROISE_BUSY = false ∧ t.flag F.MSS_ZEROISE_ZEROISE_FAIL = true ∧ t.mss.scratchDenied = true) ∧
  (∀ temps : List Int, temps.length = 24 → (∀ x ∈ temps, -640 ≤ x ∧ x < 1680) → (∀ i < 12, s.voltBad i = false) →
    Completes (.sensorSample temps [] []) s fun t => (∀ i < 24, t.fldI (F.MSS_TEMP_TEMP i) = temps.getD i 0)
      ∧ t.mss.hotLast = [] ∧ t.evq = s.evq ∧ t.log = s.log) ∧
  (s.flag F.GCTL_STATE_THERMAL_WARN = true → (∀ i < 24, s.fldI (F.MSS_TEMP_TEMP i) < 1600) → exec .thermalWarnClear s =
    .next (((s.setFlag F.GCTL_STATE_THERMAL_WARN false).setFlag F.MSS_SENSE_STAT_WARN false).logEvent Ev.THERMAL_WARN noSource
      [])) ∧
  (s.flag F.GCTL_STATE_THERMAL_WARN = false → exec .thermalWarnClear s = .next s) ∧
  (∀ n : Fin 12, s.mss.voltAlarms = [n.val] → s.voltBad n.val = false → Completes (.voltageAlarmClear n) s fun t =>
    t.mss.voltAlarms = [] ∧ t.flag F.MSS_SENSE_STAT_VOLT_ALARM = false) ∧
  (∀ n : Fin 12, s.voltBad n.val = true → exec (.voltageAlarmClear n) s = .next s)

-- Lanes: signal, equaliser, power states (spec 02) -----------------------------------------------------------------------

/-- Loss of the signal holds the taps, is expected where a stop notice was seen within 25,600 ns, and with AUTO_QUIET then takes the
receiver to QUIET; its return uses the held taps; LOS sets LOL with it and loses sync, and clears at twice the level (R58, R59, R61,
R67). -/
def Obligations.LaneSignal : Prop := ∀ (n : LaneNo) (mv : Nat) (s : State),
  (∀ k, mv < s.losLevel n → s.rxState n = 0 → (s.testLane n).active ≠ 2 → (s.lane n).ctlAutoQuiet = false → (s.lane n).held = none →
    Completes (.signalLoss n mv k) s fun t => (t.lane n).expectLos = (match (s.lane n).stopAt with
        | some a => decide (s.time.clock ≤ a + 25600) | none => false)
      ∧ (t.lane n).sigPresent = false ∧ (t.lane n).autoQuiet = false ∧ (t.lane n).held.isSome = true
      ∧ t.rxState n = 0 ∧ t.flag (F.LANE_STATUS_FAST_CONV n) = false ∧ ∀ m, m ≠ n.val → t.lane m = s.lane m) ∧
  (∀ k a, mv < s.losLevel n → s.rxState n = 0 → s.sync n = 2 → (s.testLane n).active ≠ 2 → (s.lane n).ctlAutoQuiet = true →
    (s.lane n).stopAt = some a → s.time.clock ≤ a + 25600 → Completes (.signalLoss n mv k) s fun t => t.rxState n = 1
      ∧ (t.lane n).autoQuiet = true ∧ (t.lane n).expectLos = true ∧ (t.lane n).sigPresent = false) ∧
  (∀ k, s.losLevel n ≤ mv → exec (.signalLoss n mv k) s = .next s) ∧
  (s.losLevel n ≤ mv → s.rxState n = 0 → exec (.signalReturn n mv) s =
    .next ((s.updLane n fun l => { l with sigPresent := true }).resumeTaps n)) ∧
  (mv < s.losLevel n → exec (.signalReturn n mv) s = .next s) ∧
  (mv < s.losLevel n → s.rxState n = 0 → (s.testLane n).active ≠ 2 → s.flag (F.LANE_STATUS_LOS n) = false →
    exec (.los n mv) s = .next (((((((s.setFlag (F.LANE_STATUS_LOS n) true).setFlag (F.LANE_STATUS_LOL n) true).setFlag
      (F.LANE_STATUS_LOS_EXPECTED n) (s.lane n).expectLos).setFlag (F.LANE_FLAGS_LOS n) true).setFlag (F.LANE_FLAGS_LOL n)
        true).setFld (F.LANE_SNR_SNR n) 0).loseToHunt n 0 [(.los, true), (.lol, true)])) ∧
  (s.flag (F.LANE_STATUS_LOS n) = true → exec (.los n mv) s = .next s) ∧
  (2 * s.losLevel n ≤ mv → s.rxState n = 0 → s.flag (F.LANE_STATUS_LOS n) = true → (s.lane n).autoQuiet = false →
    exec (.losClear n mv) s = .next ((((s.setFlag (F.LANE_STATUS_LOS n) false).updLane n fun l =>
      { l with expectLos := false, autoQuiet := false, stopAt := none }).setRaws n [(.los, false)]).setFlag
        (F.LANE_STATUS_LOS_EXPECTED n) false)) ∧
  (mv < 2 * s.losLevel n → exec (.losClear n mv) s = .next s)

/-- LOL is set where its condition holds, with sync lost, and clears where it does not while LOS is clear; fast convergence ends; a window
of poor data freezes, and a rich one ends the freeze; an adapting receiver keeps its taps of a rich window; the offset shows none after a
second with LOL, and its alarm is set by the third second out of the limit and cleared by the third within it (R49, R57 to R59, R62). -/
def Obligations.LaneLock : Prop := ∀ (n : LaneNo) (s : State),
  (∀ ppm bad k, s.lolHolds n ppm bad k = true → (s.testLane n).active ≠ 2 → s.rxState n = 0 →
    s.flag (F.LANE_STATUS_LOL n) = false → exec (.lol n ppm bad k) s =
      .next ((((s.setFlag (F.LANE_STATUS_LOL n) true).setFlag (F.LANE_FLAGS_LOL n) true).setFld (F.LANE_SNR_SNR n) 0).loseToHunt
        n 0 [(.lol, true)])) ∧
  (∀ ppm bad k, s.lolHolds n ppm bad k = false → exec (.lol n ppm bad k) s = .next s) ∧
  (∀ ppm bad k, s.lolHolds n ppm bad k = false → s.rxState n = 0 → s.flag (F.LANE_STATUS_LOS n) = false →
    s.flag (F.LANE_STATUS_LOL n) = true → exec (.lolClear n ppm bad k) s =
      .next (((s.setFlag (F.LANE_STATUS_LOL n) false).updLane n fun l => { l with lolInWindow := true }).setRaws n
        [(.lol, false)])) ∧
  Completes (.fastConvergeEnd n) s (fun t => t.flag (F.LANE_STATUS_FAST_CONV n) = false
    ∧ OnlyFields [F.LANE_STATUS_FAST_CONV n] s t) ∧
  (∀ w, Completes (.freeze n w) s fun t => t.flag (F.LANE_STATUS_RICH n) = s.isRich n w
    ∧ (s.isRich n w = false → t.flag (F.LANE_STATUS_FREEZE n) = true ∧ t.flag (F.LANE_FLAGS_FREEZE n) = true)
    ∧ OnlyFields [F.LANE_STATUS_RICH n, F.LANE_STATUS_FREEZE n, F.LANE_FLAGS_FREEZE n] s t) ∧
  (∀ w, Completes (.freezeEnd n w) s fun t => t.flag (F.LANE_STATUS_RICH n) = s.isRich n w
    ∧ t.flag (F.LANE_STATUS_FREEZE n) = (s.flag (F.LANE_STATUS_FREEZE n) && !s.isRich n w)
    ∧ OnlyFields [F.LANE_STATUS_RICH n, F.LANE_STATUS_FREEZE n] s t) ∧
  (∀ w, s.isRich n w = true → s.adapting n = true → Completes (.tapSnapshot n w []) s fun t =>
    (t.lane n).snapOld = (s.lane n).snapNew ∧ (t.lane n).snapNew = some (s.liveTaps n)
      ∧ OnlyLane n [F.LANE_STATUS_RICH n] s t) ∧
  (∀ mean, Completes (.laneFofs n mean true) s fun t => t.fld (F.LANE_FOFS_FOFS n) = 0x80000000 ∧ (t.lane n).fofsOut = 0
    ∧ (t.lane n).fofsIn = 0 ∧ OnlyLane n [F.LANE_FOFS_FOFS n] s t) ∧
  (∀ w, s.adapting n = false → exec (.tapSnapshot n w []) s = .next (s.setFlag (F.LANE_STATUS_RICH n) (s.isRich n w))) ∧
  (∀ mean : Int, s.fld (F.LANE_FOFS_LIM_LIM n) < mean.natAbs → 2 ≤ (s.lane n).fofsOut →
    s.flag (F.LANE_STATUS_LOL n) = false → (s.lane n).lolInWindow = false →
    s.flag (F.LANE_STATUS_FOFS_ALARM n) = false → exec (.laneFofs n mean false) s =
      .next ((((((s.updLane n fun l => { l with lolInWindow := false }).setFldI (F.LANE_FOFS_FOFS n) mean).updLane n fun l => { l with fofsOut := 3, fofsIn := 0 }).setFlag
        (F.LANE_STATUS_FOFS_ALARM n) true).setFlag (F.LANE_FLAGS_FOFS_ALARM n) true).logEvent Ev.LANE_FOFS n
          (leBytes 4 (ofSigned 32 mean)))) ∧
  (∀ mean : Int, mean.natAbs ≤ s.fld (F.LANE_FOFS_LIM_LIM n) → 2 ≤ (s.lane n).fofsIn →
    s.flag (F.LANE_STATUS_LOL n) = false → (s.lane n).lolInWindow = false →
    Completes (.laneFofs n mean false) s fun t => t.flag (F.LANE_STATUS_FOFS_ALARM n) = false
      ∧ OnlyLane n [F.LANE_FOFS_FOFS n, F.LANE_STATUS_FOFS_ALARM n] s t)

/-- LANE_CTL with unsupported power states is refused; a supported write is stored and acted on, or held while a transition
runs; the transmitter equaliser takes taps within their ranges whose sizes sum to at most 64, and refuses others; live taps are loaded
only while adaptation is off, and those of the seed set always (R52, R60, R66, R69). -/
def Obligations.LaneWrites : Prop := ∀ (n : LaneNo) (v : Word) (s : State),
  ((!txPstateOk (bitsOf v.toNat 4 3) || !rxPstateOk (bitsOf v.toNat 8 3)) = true → Completes (.laneCtlWrite n v) s fun t =>
    t.flag (F.LANE_FLAGS_PSTATE_REFUSED n) = true ∧ OnlyFields [F.LANE_FLAGS_PSTATE_REFUSED n] s t) ∧
  (txPstateOk (bitsOf v.toNat 4 3) = true → rxPstateOk (bitsOf v.toNat 8 3) = true → s.inTransition n = true →
    Completes (.laneCtlWrite n v) s fun t => t.flag (F.LANE_STATE_HELD n) = true
      ∧ t.reg (R.LANE_CTL n) = BitVec.ofNat 32 (v.toNat &&& (if n.val < 128 then 0xF771 else 0xB771))
      ∧ t.lane n = s.lane n) ∧
  (txPstateOk (bitsOf v.toNat 4 3) = true → rxPstateOk (bitsOf v.toNat 8 3) = true → s.inTransition n = false →
    exec (.laneCtlWrite n v) s = .next ((s.setReg (R.LANE_CTL n) (BitVec.ofNat 32 (v.toNat &&&
      (if n.val < 128 then 0xF771 else 0xB771)))).laneAct n)) ∧
  (let m := bitsOf v.toNat 24 7
   let p (i : Nat) := toSigned 6 (bitsOf v.toNat (6 * i) 6)
   let ok := -8 ≤ p 3 ∧ p 3 ≤ 0 ∧ 0 ≤ p 2 ∧ p 2 ≤ 12 ∧ -24 ≤ p 1 ∧ p 1 ≤ 0 ∧ 24 ≤ m ∧ m ≤ 64 ∧ -16 ≤ p 0 ∧ p 0 ≤ 0
      ∧ (p 3).natAbs + (p 2).natAbs + (p 1).natAbs + m + (p 0).natAbs ≤ 64
   (ok → exec (.laneTxFfeWrite n v) s = .next ((s.setReg (R.LANE_TX_FFE n) (BitVec.ofNat 32 (v.toNat % 2 ^ 31))).ffeNow n)) ∧
   (¬ok → exec (.laneTxFfeWrite n v) s = .next ((s.setFlag (F.LANE_FLAGS_FFE_REFUSED n) true).logEvent Ev.LANE_FFE_RANGE n
      (leBytes 4 v.toNat)))) ∧
  (v.toNat.testBit 31 = false → s.flag (F.LANE_EQ_CTL_ADAPT n) = true → Completes (.laneTapLoad n v) s fun t =>
    t.flag (F.LANE_FLAGS_TAP_LOAD_REFUSED n) = true ∧ OnlyFields [F.LANE_FLAGS_TAP_LOAD_REFUSED n] s t) ∧
  (v.toNat.testBit 31 = false → s.flag (F.LANE_EQ_CTL_ADAPT n) = false → bitsOf v.toNat 29 2 = 2 → Completes (.laneTapLoad n v) s
    fun t => t.fld (F.LANE_CTLE_CODE n) = bitsOf v.toNat 0 10 % 32 ∧ OnlyFields [F.LANE_CTLE_CODE n] s t) ∧
  (v.toNat.testBit 31 = false → s.flag (F.LANE_EQ_CTL_ADAPT n) = false →
    let idx := bitsOf v.toNat 24 5
    (bitsOf v.toNat 29 2 = 0 → idx < 24 → exec (.laneTapLoad n v) s =
      .next (s.setFldI (ffeFld n idx) (toSigned 10 (bitsOf v.toNat 0 10)))) ∧
    (bitsOf v.toNat 29 2 = 1 → idx < 6 → exec (.laneTapLoad n v) s =
      .next (s.setFldI (dfeFld n idx) (toSigned 8 (bitsOf v.toNat 0 10)))) ∧
    (bitsOf v.toNat 29 2 = 3 → exec (.laneTapLoad n v) s =
      .next (s.updLane n fun l => { l with cdrPhase := toSigned 10 (bitsOf v.toNat 0 10) }))) ∧
  (v.toNat.testBit 31 = true → bitsOf v.toNat 29 2 = 0 → Completes (.laneTapLoad n v) s fun t =>
    (t.lane n).seed.ffe = (s.lane n).seed.ffe.set (bitsOf v.toNat 24 5) (toSigned 10 (bitsOf v.toNat 0 10))
      ∧ OnlyLane n [] s t)

/-- A transmitter stops into its target once its notice is over, and starts into ACTIVE; a receiver stops into its target with its taps
copied to the seed set, and starts with the taps of its start mode, kept or trained, in HUNT; the path delays follow the temperature of
the lane's die, and show the measured ratio of a lane with lock (R46, R63 to R68, R74, R260). -/
def Obligations.LanePower : Prop := ∀ (n : LaneNo) (s : State),
  (s.txState n = 5 → (s.lane n).noticeLeft = 0 → (s.lane n).txTarget ≠ 0 → exec (.transmitterStop n) s =
    .next ((s.setFld (F.LANE_STATE_TX_STATE n) (s.lane n).txTarget).transitionEnd n)) ∧
  (s.txState n ≠ 5 → exec (.transmitterStop n) s = .next s) ∧
  (s.txState n = 6 → exec (.transmitterStart n) s =
    .next (((s.setFld (F.LANE_STATE_TX_STATE n) 0).ffeNow n).transitionEnd n)) ∧
  (s.txState n ≠ 6 → exec (.transmitterStart n) s = .next s) ∧
  (s.rxState n = 5 → exec (.receiverStopDone n) s =
    .next (((s.copyToSeed n).rxPowerDown n (s.lane n).rxTarget).transitionEnd n)) ∧
  (s.rxState n ≠ 5 → exec (.receiverStopDone n) s = .next s) ∧
  (∀ (tr : Trained) (taps : TapSet), s.rxState n = 6 →
    (s.fld (F.LANE_STATE_START_MODE n) = 0 ∧ taps = (s.lane n).startSet
      ∨ s.fld (F.LANE_STATE_START_MODE n) = 1 ∧ s.flag (F.LANE_EQ_CTL_CTLE_MANUAL n) = false ∧
        taps = { ctle := clampNat ((s.lane n).startSet.ctle - 3) (min 20 ((s.lane n).startSet.ctle + 3)) tr.ctle, ffe := tr.ffe,
                 dfe := tr.dfe, cdr := tr.cdr }
      ∨ s.fld (F.LANE_STATE_START_MODE n) = 2 ∧ s.flag (F.LANE_EQ_CTL_CTLE_MANUAL n) = false ∧
        taps = { ctle := min 20 tr.ctle, ffe := tr.ffe, dfe := tr.dfe, cdr := tr.cdr }) →
    exec (.receiverStart n tr) s = .next
      ((((((s.loadTaps n taps).setFlag (F.LANE_STATUS_FAST_CONV n) (s.fld (F.LANE_STATE_START_MODE n) == 0)).setFld
        (F.LANE_STATE_RX_STATE n) (s.lane n).rxTarget).updLane n fun l =>
          { l with held := none, snapNew := none, snapOld := none, stopAt := none }).loseToHunt n 0
            [(.los, s.flag (F.LANE_STATUS_LOS n)), (.lol, s.flag (F.LANE_STATUS_LOL n))]).transitionEnd n)) ∧
  (∀ tr : Trained, s.rxState n ≠ 6 → exec (.receiverStart n tr) s = .next s) ∧
  (∀ snr : List (BitVec 10), Completes (.pathDelayUpdate snr) s fun t =>
    t.fld (F.LANE_TT_PATHDLY_RXDLY n) = pathDelay (s.fld (F.LANE_TT_DBASE_RX_BASE n))
      (s.fldI (F.TIME_TSK_K_RX (laneDie n))) (s.dieTempSum (laneDie n)) % 2 ^ 16 ∧
    t.fld (F.LANE_TT_PATHDLY_TXDLY n) = pathDelay (s.fld (F.LANE_TT_DBASE_TX_BASE n))
      (s.fldI (F.TIME_TSK_K_TX (laneDie n))) (s.dieTempSum (laneDie n)) % 2 ^ 16 ∧
    (s.raw n .lol = false → s.rxDown n = false → t.fld (F.LANE_SNR_SNR n) = (snr.getD n 0).toNat) ∧
    t = { s with regs := t.regs, lanes := t.lanes })

-- Alignment, defects and the overhead words (spec 03, 04) ------------------------------------------------------------------

/-- Blocks of a lane, from their symbols on the line: in HUNT a first clapper at a free offset opens a candidate and nothing is decoded;
from block sync on a block is decoded under its class, a good header ends the run of bad ones, and a bad one below the eighth adds to it
and is counted (R84, R111, R115). -/
def Obligations.LaneBlocks : Prop := ∀ (n : LaneNo) (s : State),
  (∀ (hdr : BitVec 80) (prev : Fin 4) (off : Fin 17920), let h := s.fromLine n prev 80 hdr.toNat
    s.sync n = 0 → off.val % 2 = 0 → s.flag (F.LANE_STATUS_LOS n) = false →
    s.flag (F.LANE_STATUS_LOL n) = false → s.rxState n = 0 → (s.lane n).candidates = [] → (s.lane n).barred = none →
    hdrClapper h = clapper → hdrMatches h = true → Completes (.blockHeader n hdr prev off) s fun t =>
      (t.lane n).candidates = [{ offset := off.val, blockNo := hdrBlock h, seqByte := hdrSeq h, headers := 1 }]
        ∧ t.fld (F.LANE_SYNC_STATE_CANDIDATES n) = 1 ∧ OnlyLane n [F.LANE_SYNC_STATE_CANDIDATES n] s t) ∧
  (∀ hdr prev off b, s.sync n ≠ 0 → (s.lane n).blk = some b → b.headerJudged = false → (s.judgeHeader n b).1 = true →
    Completes (.blockHeader n hdr prev off) s fun t => (t.lane n).badHeaders = 0
      ∧ (t.lane n).blk = some { b with headerJudged := true, headerGood := true }
      ∧ (t.lane n).reelByte = (s.judgeHeader n b).2 ∧ OnlyLane n [] s t) ∧
  (∀ hdr prev off b, s.sync n ≠ 0 → (s.lane n).blk = some b → b.headerJudged = false → (s.judgeHeader n b).1 = false →
    (s.lane n).badHeaders < 7 → Completes (.blockHeader n hdr prev off) s fun t => (t.lane n).badHeaders = (s.lane n).badHeaders + 1
      ∧ (t.lane n).rptHdr = ((s.lane n).rptHdr + 1) % 2 ^ 32 ∧ t.regs = s.regs) ∧
  (∀ line prev, s.sync n = 0 → exec (.blockDecode n line prev) s = .next s) ∧
  (∀ (line : RawBlock) (prev : Fin 4), let raw : RawBlock := BitVec.ofNat 17920 (s.fromLine n prev 17920 line.toNat)
    s.sync n = 1 → Completes (.blockDecode n line prev) s fun t =>
    (t.lane n).blkNo = ((s.lane n).blkNo + 1) % 32 ∧ (t.lane n).rx = (s.lane n).rx ∧ t.regs = s.regs
      ∧ ((t.lane n).blk.map fun b => (b.no, b.cls, b.csym)) = some (((s.lane n).blkNo + 1) % 32, (decodeBlock raw).cls,
        (decodeBlock raw).csym) ∧ ∀ m, m ≠ n.val → t.lane m = s.lane m)

/-- Reel control: the third good one in a row in BLOCK_SYNC gives REEL_SYNC; a good one in REEL_SYNC moves the last sequence number, an
unreadable one is a first failure, and the second in a row loses the reel; eight reels without success bar the offset, and the bar ends;
a window below the thresholds changes no defect; a slip loses the late reel or blanks the core reel, is counted and logged (R16, R113,
R114, R116, R119). -/
def Obligations.LaneReels : Prop := ∀ (n : LaneNo) (s : State),
  (∀ b (a : BitVec 72), (s.lane n).blk = some b → b.no = 0 → b.used = false → s.sync n = 2 → b.headerGood = false →
    b.cls = .uncorrectable → (s.lane n).badControls = 1 → exec (.reelControl n a) s =
      .next ((((s.updLane n fun l => { l with blk := some { b with used := true } }).noteArrival n
        ((s.fld (F.LANE_SEQ_LAST_SEQ n) + (s.lane n).reelsSince + 1) % 2 ^ 32)
        ((a.toNat + 2 ^ 72 - s.fld (F.LANE_TT_PATHDLY_RXDLY n)) % 2 ^ 72) false).count (laneCtr n 4)).loseReel n)) ∧
  (∀ b (a : BitVec 72), (s.lane n).blk = some b → b.no = 0 → b.used = false → b.headerGood = true → b.cls = .clean →
    let oh := dataOverhead b.data
    beAt oh 0 4 % 256 = hdrSeq (dataHeader b.data) → beAt oh 17 1 = 1 →
    (s.sync n = 1 → (s.lane n).qualRun = 2 → beAt oh 0 4 = ((s.lane n).qualSeq + 1) % 2 ^ 32 →
      Completes (.reelControl n a) s fun t => t.sync n = 2 ∧ t.fld (F.LANE_SEQ_LAST_SEQ n) = beAt oh 0 4
        ∧ t.raw n .loa = false) ∧
    (s.sync n = 2 → s.steerState n = 0 → Completes (.reelControl n a) s fun t => t.sync n = 2
      ∧ t.fld (F.LANE_SEQ_LAST_SEQ n) = beAt oh 0 4 ∧ (t.lane n).reelsSince = 0 ∧ (t.lane n).badControls = 0)) ∧
  (∀ b (a : BitVec 72), (s.lane n).blk = some b → b.no = 0 → b.used = false → s.sync n = 2 → b.cls = .uncorrectable →
    (s.lane n).badControls = 0 → Completes (.reelControl n a) s fun t => (t.lane n).badControls = 1
      ∧ (t.lane n).reelsSince = (s.lane n).reelsSince + 1 ∧ t.regs = s.regs) ∧
  (∀ a, (s.lane n).blk = none → exec (.reelControl n a) s = .next s) ∧
  (s.sync n = 1 → 8 ≤ (s.lane n).reelsInBlock → exec (.reelSyncTimeout n) s =
    .next (((s.updLane n fun l => { l with barred := some l.offset }).setFlag (F.LANE_SYNC_STATE_BARRED n) true).loseToHunt
      n 1 [])) ∧
  (s.sync n ≠ 1 → exec (.reelSyncTimeout n) s = .next s) ∧
  Completes (.barExpiry n) s (fun t => (t.lane n).barred = none ∧ t.flag (F.LANE_SYNC_STATE_BARRED n) = false
    ∧ OnlyLane n [F.LANE_SYNC_STATE_BARRED n] s t) ∧
  (s.sync n ≠ 2 → exec (.defectWindowEnd n) s = .next s) ∧
  (s.sync n = 2 → (s.lane n).ucbClr < (s.lane n).ucbCount → (s.lane n).degSet = 0 → (s.lane n).degClr < (s.lane n).csymCount →
    Completes (.defectWindowEnd n) s fun t => (t.lane n).ucbCount = 0 ∧ (t.lane n).csymCount = 0 ∧ (t.lane n).ucbLowRun = 0
      ∧ (t.lane n).ucbSet = s.fld (F.LANE_UCB_CTL_SET n) ∧ (t.lane n).degSet = s.fld (F.LANE_DEG_SET_SET n)
      ∧ t.raw n .ucb = s.raw n .ucb ∧ t.raw n .deg = s.raw n .deg) ∧
  (s.sync n.val = 2 → exec (.reelSlip n true) s = .next (((s.updLane n.val fun l => { l with rx := {} }).count
    (laneCtr n.val 5)).logEvent Ev.REEL_SLIP n.val [])) ∧
  (s.sync n.val = 2 → exec (.reelSlip n false) s = .next (((s.updLane n.val fun l => { l with slip := .slow }).count
    (laneCtr n.val 5)).logEvent Ev.REEL_SLIP n.val [])) ∧
  (∀ fast, s.sync n.val ≠ 2 → exec (.reelSlip n fast) s = .next s)


/-- What the overhead words of a block not yet used do in REEL_SYNC: unreadable timing words are counted as discarded, claim words of a
mate lane and witness words of a witness lane are taken as evidence, the defect report is taken, present or missing, with its trace
segment, and the CMC slice is taken or its loss ends the record in progress (R101, R106, R223, R263). -/
def Obligations.LaneOverhead : Prop := ∀ (n : LaneNo) (s : State) (b : RxBlock),
  (s.lane n).blk = some b → b.used = false → s.sync n = 2 →
  let u := s.updLane n fun l => { l with blk := some { b with used := true } }
  (b.no = 1 → s.looped n = false → b.cls = .uncorrectable → exec (.timingWords n) s =
    .next (u.incFld (F.LANE_TT_DISC_OTHER n))) ∧
  (b.no = 2 → s.looped n = false → b.cls ≠ .uncorrectable → 128 ≤ n.val → exec (.claimAndWitnessWords n) s =
    .next (u.mateWords n (dataOverhead b.data)).refreshEvidence) ∧
  (b.no = 2 → s.looped n = false → b.cls ≠ .uncorrectable → n.val < 128 → s.isWitness n = true →
    exec (.claimAndWitnessWords n) s = .next (u.witnessWords n (dataOverhead b.data)).refreshEvidence) ∧
  (b.no = 3 → s.looped n = false → b.cls ≠ .uncorrectable → exec (.defectReport n) s =
    .next ((u.farReport n (some (dataOverhead b.data))).traceSegment n
      ((s.fld (F.LANE_SEQ_LAST_SEQ n) + (s.lane n).reelsSince) % 2 ^ 32) (some (dataOverhead b.data)))) ∧
  (b.no = 3 → s.looped n = false → b.cls = .uncorrectable → exec (.defectReport n) s =
    .next ((u.farReport n none).traceSegment n ((s.fld (F.LANE_SEQ_LAST_SEQ n) + (s.lane n).reelsSince) % 2 ^ 32) none)) ∧
  (4 ≤ b.no → b.cls ≠ .uncorrectable → exec (.cmcSlice n) s = .next (u.cmcSlice n (dataOverhead b.data))) ∧
  (4 ≤ b.no → b.cls = .uncorrectable → (s.lane n).cmc.rxSync = true → Completes (.cmcSlice n) s fun t =>
    (t.lane n).cmc.rxSync = false ∧ (t.lane n).cmc.rxPart = [] ∧ t.regs = s.regs)

/-- A first exchange that R263 admits: the offset and delay of R264 enter the empty means, and the far end's epoch and TRACEABLE flag
are shown (R263, R264). -/
def Obligations.TimingExchange : Prop := ∀ (n : LaneNo) (s : State) (b : RxBlock) (a d : Stamp),
  let oh := dataOverhead b.data
  (s.lane n).blk = some b → b.no = 1 → b.used = false → s.sync n = 2 → s.looped n = false → (s.lane n).chassis = false →
  s.flag (F.LANE_TT_CTL_EN n) = true → (s.lane n).reelsSince = 0 → b.cls = .clean → (s.lane n).ttCap = true →
  (beAt oh 19 1).testBit 7 = true → (beAt oh 19 1).testBit 6 = true →
  (s.lane n).arrivals.find? (fun a => a.seq == beAt oh 0 4) = some a →
  s.time.departures.find? (fun a => a.seq == beAt oh 9 4) = some d → a.epoch = d.epoch → (s.lane n).tt.epoch = none →
  (s.lane n).tt.delay = [] →
  Completes (.timingWords n) s fun t =>
    let x := exchange (beAt oh 4 5) a.time (256 * d.time) (beAt oh 13 5) (beAt oh 20 4) (s.fldI (F.LANE_TT_ASYM_ASYM n))
    (t.lane n).tt.latest = some x.2 ∧ (t.lane n).tt.delay.head? = some x.1 ∧ (t.lane n).tt.ofs.head? = some x.2
      ∧ (t.lane n).tt.epoch = some (beAt oh 18 1) ∧ t.fld (F.LANE_TT_STAT_FAR_EPOCH n) = beAt oh 18 1
      ∧ t.flag (F.LANE_TT_STAT_FAR_TRACEABLE n) = (beAt oh 19 1).testBit 5

/-- A CMC buffer held with bytes in it is handed to the host; a TIM mode is stored, and mode 0 clears TIM; a threshold and a word of the
expected trace are stored; a drifted lane that holds issues the next request, and a request without an answer fails with its event; the
mean wait of 256 reels is shown (R122, R132, R183 to R186, R350). -/
def Obligations.LaneServices : Prop := ∀ (n : LaneNo) (v : Word) (s : State),
  (0 < s.hif.cmcFill → exec .cmcBufferHold s = .next s.closeCmcBuffer) ∧
  (∀ b rest, s.hif.cmcPosted = b :: rest → 0 < s.hif.cmcFill → Completes .cmcBufferHold s fun t =>
    t.hif.cmcPosted = rest ∧ t.hif.cmcFill = 0 ∧ t.hif.cmcCons = (b.entry + 1) % s.cmcSize) ∧
  (s.hif.cmcFill = 0 → exec .cmcBufferHold s = .next s) ∧
  (v.toNat % 4 ≠ 0 → Completes (.laneTimCtlWrite n v) s fun t => t.fld (F.LANE_TIM_CTL_MODE n) = v.toNat % 4
    ∧ OnlyFields [F.LANE_TIM_CTL_MODE n] s t) ∧
  (v.toNat % 4 = 0 → exec (.laneTimCtlWrite n v) s = .next (((s.setFld (F.LANE_TIM_CTL_MODE n) 0).updLane n fun l =>
    { l with timMode := 0 }).setRaws n [(.tim, false)])) ∧
  (∀ off : BitVec 12, off = 0x110#12 ∨ off = 0x114#12 ∨ off = 0x118#12 → Completes (.laneThresholdWrite n off v) s fun t =>
    t.reg (laneBase n + off.toNat) = v ∧ (∀ o, o ≠ laneBase n + off.toNat → t.reg o = s.reg o) ∧ t = { s with regs := t.regs }) ∧
  (∀ off : BitVec 12, 0x140 ≤ off.toNat → off.toNat < 0x180 → off.toNat % 4 = 0 → exec (.laneThresholdWrite n off v) s =
    .next ((s.setReg (laneBase n + off.toNat) v).updLane n fun l => { l with traceExpTouched := true })) ∧
  (s.steerState n = 3 → s.drifted n = true → n.val < 128 → Completes (.steerRequest n) s fun t =>
    t.steerState n = 4 ∧ (t.lane n).steerId = (s.lane n).steerNext
      ∧ (t.lane n).steerNext = (if (s.lane n).steerNext = 255 then 1 else (s.lane n).steerNext + 1)
      ∧ OnlyLane n [F.LANE_STEER_STAT_ID n, F.LANE_STEER_ADV_ADV n, F.LANE_STEER_STAT_STATE n] s t) ∧
  (s.steerState n ≠ 3 → exec (.steerRequest n) s = .next s) ∧
  (s.steerState n = 4 → s.sync n = 2 → s.raw n .bdiRx = false → exec (.steerFailed n) s =
    .next ((((s.updLane n fun l => { l with steerId := 0 }).setFld (F.LANE_STEER_STAT_ID n) 0).setFld
      (F.LANE_STEER_STAT_STATE n) 5).logEvent Ev.STEER_FAILED n
        (leBytes 1 (s.lane n).steerId ++ leBytes 4 (s.fld (F.LANE_STEER_ADV_ADV n))))) ∧
  (s.steerState n ≠ 4 → exec (.steerFailed n) s = .next s) ∧
  (n.val < 128 → s.sync n = 2 → (s.lane n).waits.length = 256 → (s.lane n).skews = [] → s.steerState n = 0 →
    s.flag (F.LANE_STEER_CTL_EN n) = false → Completes (.arrivalMean n) s fun t =>
      t.fld (F.LANE_ARRIVAL_WAIT n) = (roundDiv ((s.lane n).waits.foldl (· + ·) 0 : Nat) 256).toNat % 2 ^ 32
        ∧ OnlyLane n [F.LANE_ARRIVAL_WAIT n] s t)

-- Splices, colourist, facets (spec 05, 06) --------------------------------------------------------------------------------

/-- An armed splice takes effect at its reel, or is skipped where a fence takes effect there; the seam reel ends with the resync;
the resync makes the standby a mirror (R154, R172, R180, R181). Arming through the register needs a compiled standby and a lead of
64 to 390,625 reels, and cancelling an armed splice that no order binds and that is at least 8 reels away (R178, R179, R240); both need
the key of the SSW block (R10). -/
def Obligations.Splices : Prop := ∀ s : State,
  let q := seqNext s.reelSeq
  (s.armed = true → (s.reg R.SSW_SPLICE_AT).toNat = q → s.fencePending = false → exec .splice s = .next (s.doSplice q)) ∧
  (s.armed = true → (s.reg R.SSW_SPLICE_AT).toNat = q → s.fencePending = true → exec .splice s = .next (s.skipSplice q)) ∧
  (s.armed = false ∨ (s.reg R.SSW_SPLICE_AT).toNat ≠ q → exec .splice s = .next s) ∧
  (s.armed = true → (s.reg R.SSW_SPLICE_AT).toNat = q → s.fencePending = false → s.circ.pairs = [] → s.circ.newPairs = [] →
    s.active.circuits = [] → s.standby.mergeList = [] → Completes .splice s fun t =>
      t.active = s.standby ∧ t.standby = s.active ∧ t.sby = 7 ∧ t.fld F.SSW_SPLICE_STATE_STATE = 2
        ∧ t.fld F.SSW_ACTIVE_TAKE_TAKE = s.standby.take % 2 ^ 32 ∧ t.fld F.SSW_LAST_SPLICE_REEL = q % 2 ^ 32) ∧
  (s.sby ≠ 7 → exec .seamReelEnd s = .next s) ∧
  (s.sby = 7 → s.ssw.spliceHandle = 0 → s.pair.inheritSplice = 0 → s.pair.catchUp = false → s.role = 4 →
    s.pair.snapWaiting = false → s.ssw.retires = [] → Completes .seamReelEnd s fun t =>
      t.sby = 0 ∧ t.flag F.SSW_COL_STATE_RESYNC = true ∧ t.fld F.SSW_SPLICE_STATE_STATE = 0 ∧ t.circ.leaving = 0) ∧
  (s.flag F.SSW_COL_STATE_RESYNC = true → s.sby = 0 → s.pair.imageDone = false → Completes (.resyncDone []) s fun t =>
    t.sby = 1 ∧ t.flag F.SSW_COL_STATE_RESYNC = false ∧ t.standby = { s.active with lost := [] } ∧ t.active = s.active
      ∧ t.fld F.SSW_SBY_DIRTY_DIRTY = 0) ∧
  (∀ l, s.flag F.SSW_COL_STATE_RESYNC = false → s.pair.imageDone = false → exec (.resyncDone l) s = .next s) ∧
  (s.keyOpen .ssw = false → exec .spliceArm s = .next (s.logEvent Ev.KEY_REFUSED noSource [])) ∧
  (s.keyOpen .ssw = true → s.sby ≠ 3 → Completes .spliceArm s fun t => t.fld F.SSW_SPLICE_STATE_RESULT = 0x20
    ∧ t.keyOpen .ssw = false ∧ t.sby = s.sby) ∧
  (s.keyOpen .ssw = true → s.sby = 3 → s.spliceLead < 64 → Completes .spliceArm s fun t =>
    t.fld F.SSW_SPLICE_STATE_RESULT = 0x21 ∧ t.keyOpen .ssw = false ∧ t.armed = s.armed) ∧
  (s.keyOpen .ssw = true → s.sby = 3 → 64 ≤ s.spliceLead → s.spliceLead ≤ 390625 → s.standby.mergeList = [] →
    Completes .spliceArm s fun t => t.sby = 4 ∧ t.armed = true ∧ t.fld F.SSW_SPLICE_STATE_RESULT = 0) ∧
  (s.keyOpen .ssw = false → exec .spliceCtlCancel s = .next (s.logEvent Ev.KEY_REFUSED noSource [])) ∧
  (s.keyOpen .ssw = true → s.armed = false → Completes .spliceCtlCancel s fun t => t.fld F.SSW_SPLICE_STATE_RESULT = 0x24
    ∧ t.keyOpen .ssw = false) ∧
  (s.keyOpen .ssw = true → s.sby = 3 → 390625 < s.spliceLead → Completes .spliceArm s fun t =>
    t.fld F.SSW_SPLICE_STATE_RESULT = 0x22 ∧ t.keyOpen .ssw = false ∧ t.armed = s.armed) ∧
  (s.keyOpen .ssw = true → s.armed = true → s.cancellable = false ∨ s.orderBound = true → Completes .spliceCtlCancel s fun t =>
    t.fld F.SSW_SPLICE_STATE_RESULT = 0x23 ∧ t.keyOpen .ssw = false ∧ t.armed = true) ∧
  (s.keyOpen .ssw = true → s.cancellable = true → s.orderBound = false → s.ssw.spliceHandle = 0 → Completes .spliceCtlCancel s fun t =>
    t.sby = 3 ∧ t.armed = false ∧ t.fld F.SSW_SPLICE_STATE_RESULT = 0)

/-- A whole compile starts on a mirror standby, with the repair port not waiting; a running job that compiles leaves its take in the
standby as COMPILED, and one that is refused leaves its result and a resync; a repair pass that ends leaves a repaired copy of the
active take, which is armed (R141, R153, R157, R166). -/
def Obligations.ColouristJobs : Prop := ∀ s : State,
  (∀ j, s.ssw.repairWaiting = false → s.ssw.hostJob = some j → s.ssw.moreJobs = [] → j.kind = .full → s.sby = 1 →
    s.jobRunning = false → s.fwRuns = true → Completes .compileStart s fun t => t.sby = 2 ∧ t.fld F.SSW_COL_STATE_HOST_JOB = 1
      ∧ t.fld F.SSW_STANDBY_TAKE_TAKE = j.take % 2 ^ 32 ∧ t.ssw.hostJob = some j ∧ t.active = s.active ∧ t.lanes = s.lanes) ∧
  (s.ssw.repairWaiting = false → s.ssw.hostJob = none → s.ssw.moreJobs = [] → exec .compileStart s = .next s) ∧
  (∀ time ws, s.ssw.hostJob = none ∨ s.jobRunning = false ∨ s.fwRuns = false → exec (.compileDone time ws) s = .next s) ∧
  (∀ time j, s.ssw.hostJob = some j → s.jobRunning = true → s.fwRuns = true → (s.compile j time).1.code ≠ 0 →
    exec (.compileDone time []) s = .next ((((((((s.updSsw fun x => { x with hostJob := none }).setFld F.SSW_COL_STATE_HOST_JOB
      0).setFld F.SSW_COL_TIME_TIME time).showResult (s.compile j time).1).icEdge 37)).startResync 5).failJob j.handle
        (s.compile j time).1)) ∧
  (∀ time j, s.ssw.hostJob = some j → s.jobRunning = true → s.fwRuns = true → (s.compile j time).1.code = 0 →
    s.ssw.retires = [] → exec (.compileDone time []) s = .next ((((((((((s.updSsw fun x => { x with hostJob := none }).setFld
      F.SSW_COL_STATE_HOST_JOB 0).setFld F.SSW_COL_TIME_TIME time).showResult (s.compile j time).1).icEdge 37).setStandby
        (s.compile j time).2).setSby 3).writeImage).updSsw fun x => { x with repairWaiting := false }).compiled j
          (s.compile j time).2)) ∧
  (∀ ws : List (MemKind × Nat), ws ≠ [] → s.flag F.SSW_SBY_PORT_COLOURIST_EN = true → s.flag F.SSW_SBY_PORT_CONTINUITY_EN = true →
    let t := s.collide ws
    t.fld F.SSW_SBY_COLLIDE_COUNT = satAdd F.SSW_SBY_COLLIDE_COUNT.width (s.fld F.SSW_SBY_COLLIDE_COUNT) ws.length
      ∧ t.ssw.dirty = (s.ssw.dirty ++ ws).eraseDups) ∧
  (∀ time, s.ssw.repairRunning = true → s.sby = 2 → s.fwRuns = true → s.ssw.retires = [] → exec (.repairPassDone time) s =
    .next (((((((((s.updSsw fun x => { x with repairRunning := false }).setFlag F.SSW_COL_STATE_REPAIR false).setStandby
      { s.active with repair := true, compileTime := time }).setSby 3).writeImage).showResult { code := 0 }).setFld
        F.SSW_COL_TIME_TIME time).icEdge 37).armRepair)) ∧
  (∀ time, s.ssw.repairRunning = false → exec (.repairPassDone time) s = .next s)

/-- SSW_FACET_BAR bars a facet under the key of its block; the error window shows what it counted and starts again; a SPARE facet that
fails a test fails, and one that passes is unchanged; a TESTING facet with 24 clean hours becomes REINSTATABLE (R163 to R165, R169). -/
def Obligations.Facets : Prop := ∀ s : State,
  (∀ f : BitVec 9, s.keyOpen .ssw = true → f.toNat ≤ 271 → exec (.sswFacetBar f) s =
    .next (((s.setKey .ssw false).setFld F.SSW_FACET_BAR_FACET f.toNat).barFacet f.toNat)) ∧
  (∀ f : BitVec 9, s.keyOpen .ssw = true → 271 < f.toNat → exec (.sswFacetBar f) s = .next (s.setKey .ssw false)) ∧
  (∀ f : BitVec 9, s.keyOpen .ssw = false → f.toNat ≠ s.fld F.SSW_FACET_BAR_FACET → exec (.sswFacetBar f) s =
    .next (s.logEvent Ev.KEY_REFUSED noSource [])) ∧
  (s.ssw.errWin = [] → Completes .facetErrorWindow s fun t => (∀ f < 272, t.fld (F.SSW_FACET_ERR_CE_WIN f) = 0
    ∧ t.fld (F.SSW_FACET_ERR_UE_WIN f) = 0) ∧ t = { s with regs := t.regs }) ∧
  (∀ f : Fin 272, s.facetState f.val = 2 → exec (.facetTestPass f true) s =
    .next (if (s.failFacet f.val).usableFacets < 256 then (s.failFacet f.val).detect .facetsShort else s.failFacet f.val)) ∧
  (∀ f : Fin 272, exec (.facetTestPass f false) s = .next s) ∧
  (∀ f : Fin 272, s.facetState f.val = 4 → s.fld (F.SSW_FACET_TEST_HOURS f.val) = 24 → exec (.facetReinstatable f) s =
    .next ((s.setFacet f.val 5 0).logEvent Ev.FACET_REINSTATABLE f.val [])) ∧
  (∀ f : Fin 272, s.facetState f.val ≠ 4 ∨ s.fld (F.SSW_FACET_TEST_HOURS f.val) ≠ 24 → exec (.facetReinstatable f) s = .next s)

-- Circuits and dailies (spec 07) --------------------------------------------------------------------------------------------

/-- A circuit change takes effect at its reel, and waits while the colourist compiles or receives; a wanted capture swaps the banks of the
loupe at the boundary; a periodic one is asked when its period is due; a deferred one is taken once the shadow is free; a copied record
stands in the shadow, and its release frees it (R195, R212, R213). -/
def Obligations.CircuitsAndDailies : Prop := ∀ s : State,
  let q := seqNext (s.reg R.SSW_REEL_NOW).toNat
  (∀ x, s.sby ≠ 2 → s.sby ≠ 6 → s.circ.changes = [x] → x.waits = false → x.reel = q → exec .effectReel s =
    .next ((s.updCirc fun c => { c with changes := [] }).applyChange x)) ∧
  (∀ x, s.sby = 2 ∨ s.sby = 6 → s.circ.changes = [x] → x.reel = q → exec .effectReel s =
    .next (s.updCirc fun c => { c with changes := [{ x with waits := true }] })) ∧
  (∀ x, s.sby ≠ 2 → s.sby ≠ 6 → s.circ.changes = [x] → x.waits = false → seqLater x.reel q = true → seqLater q x.reel = false → x.reel ≠ q → exec .effectReel s =
    .next s) ∧
  (∀ f, s.circ.wanted = some f → exec .dailiesBoundary s = .next (s.swapBanks f s.circ.wantedHandle)) ∧
  (s.circ.wanted = none → exec .dailiesBoundary s = .next s) ∧
  (∀ f, s.circ.wanted = some f → s.sby ≠ 7 → Completes .dailiesBoundary s fun t =>
    t.circ.frozen.counts = s.circ.live.counts ∧ t.circ.live.counts = [] ∧ t.circ.live.startReel = q ∧ t.circ.wanted = none
      ∧ t.dailies = 1 ∧ t.circ.copying = true) ∧
  (s.flag F.CIRC_DAILIES_CTL_PERIODIC = true → s.periodDue = true → exec .periodicCapture s = .next (s.requestCapture 1 0)) ∧
  (s.flag F.CIRC_DAILIES_CTL_PERIODIC = false → exec .periodicCapture s = .next s) ∧
  (∀ f h, s.circ.deferred = [(f, h)] → s.dailies = 0 → s.circ.wanted = none → exec .deferredCapture s =
    .next (((s.updCirc fun c => { c with deferred := [] }).setFlag F.CIRC_DAILIES_STAT_DEFERRED false).swapBanks f h)) ∧
  (s.circ.deferred = [] ∨ s.dailies ≠ 0 ∨ s.circ.wanted.isSome = true → exec .deferredCapture s = .next s) ∧
  (s.circ.copying = true → s.circ.copyHandle = 0 → Completes .captureCopyDone s fun t => t.circ.shadow = s.circ.frozen
    ∧ t.circ.frozen = {} ∧ t.circ.copying = false ∧ t.dailies = 2
      ∧ t.fld F.CIRC_DAILIES_SEQ_SEQ = ((s.reg R.CIRC_DAILIES_SEQ).toNat + 1) % 2 ^ 32) ∧
  (s.circ.copying = false → exec .captureCopyDone s = .next s) ∧
  (s.dailies = 2 → Completes .release s fun t => t.dailies = 0 ∧ OnlyFields [F.CIRC_DAILIES_STAT_STATE] s t) ∧
  (s.dailies ≠ 2 → exec .release s = .next s)

-- The pair (spec 08) --------------------------------------------------------------------------------------------------------

/-- A lead that sees a higher claim yields with the claim of the epoch below it; a follower without evidence for 20 ms, with
AUTO_TAKEOVER and a witness, takes over with the next epoch, or logs that the epochs are exhausted (R219, R220, R224). -/
def Obligations.PairRoles : Prop := ∀ s : State,
  (let u := (((((s.setFld F.PAIR_CLAIM_CLAIM (2 * (s.mateClaim / 2 - 1) + s.unit)).setRole 2).setFlag
      F.SSW_SBY_PORT_CONTINUITY_EN true).takeCand7 false).logEvent Ev.PAIR_ROLE noSource []).updPair fun p =>
        { p with yielded := true, change := none }
   (s.role = 3 ∨ s.role = 4) → s.claim < s.mateClaim → exec .yield s = .next (if u.fwRuns then u.finishYield else u)) ∧
  (s.mateClaim ≤ s.claim → exec .yield s = .next s) ∧
  (s.role ≠ 3 → s.role ≠ 4 → exec .yield s = .next s) ∧
  (s.role = 2 → s.allAbsent = true → 20000000 ≤ s.pair.absentNs → s.flag F.PAIR_CFG_AUTO_TAKEOVER = true →
    s.witnessLanes ≠ [] →
    (∀ e, s.nextEpoch = some e →
      let u := (((((s.setFld F.PAIR_CLAIM_CLAIM (2 * e + s.unit)).setRole 3).setPorts true false).dropReceiving.leaveCand7).logEvent
        Ev.TAKEOVER noSource []).updPair fun p => { p with change := none, inheritDue := true }
      exec .takeover s = .next (if u.fwRuns then u.inherit else u)) ∧
    (s.nextEpoch = none → exec .takeover s = .next (s.logEvent Ev.EPOCH_EXHAUSTED noSource []))) ∧
  (s.role ≠ 2 ∨ s.pair.absentNs < 20000000 → exec .takeover s = .next s)

/-- The second good heartbeat frame in a row locks, and is evidence with its flags and claim shown; the fourth bad one in a row loses the
lock; a frame with a bad CRC is counted; with RX_EN 0 a frame does nothing; absence clears the evidence (R222, R226, R227). -/
def Obligations.Heartbeat : Prop := ∀ (s : State) (f : BitVec 64),
  let b := beBytes 8 f.toNat
  (s.flag F.MATE_HB_CTL_RX_EN = false → exec (.heartbeatFrame f) s = .next s) ∧
  (s.flag F.MATE_HB_CTL_RX_EN = true → beAt b 0 1 = 0xA5 → crc8 (b.take 7) = beAt b 7 1 → s.pair.order = none →
    (beAt b 1 1).testBit 7 = false → s.pair.hbGoodRun = 1 →
    exec (.heartbeatFrame f) s = .next ((((((((s.updPair fun p =>
      { p with hbGoodRun := 2, hbBadRun := 0, hbFencedSign := false, hbAt := s.time.clock }).setFlag F.MATE_HB_STAT_LOCKED true).setFld
        F.MATE_HB_STAT_FLAGS (beAt b 1 1)).setFld F.MATE_HB_STAT_ACK_TAG (beAt b 6 1)).setFld F.MATE_HB_CLAIM_CLAIM
          (beAt b 2 4)).seeClaim (beAt b 2 4)).setFlag F.PAIR_STATE_EV_HEARTBEAT true).refreshEvidence)) ∧
  (s.flag F.MATE_HB_CTL_RX_EN = true → beAt b 0 1 ≠ 0xA5 → s.pair.hbBadRun = 3 → s.flag F.MATE_HB_STAT_LOCKED = true →
    Completes (.heartbeatFrame f) s fun t => t.flag F.MATE_HB_STAT_LOCKED = false ∧ t.pair.hbGoodRun = 0
      ∧ t.pair.hbBadRun = 4 ∧ t.fld F.MATE_HB_ERR_LOCK_LOSS = satAdd F.MATE_HB_ERR_LOCK_LOSS.width
        (s.fld F.MATE_HB_ERR_LOCK_LOSS) 1) ∧
  (s.flag F.MATE_HB_CTL_RX_EN = true → beAt b 0 1 = 0xA5 → crc8 (b.take 7) ≠ beAt b 7 1 → s.pair.hbBadRun = 0 →
    Completes (.heartbeatFrame f) s fun t => t.fld F.MATE_HB_ERR_CRC_ERR = satAdd F.MATE_HB_ERR_CRC_ERR.width
        (s.fld F.MATE_HB_ERR_CRC_ERR) 1 ∧ t.pair.hbBadRun = 1 ∧ t.pair.hbGoodRun = 0
      ∧ t.flag F.MATE_HB_STAT_LOCKED = s.flag F.MATE_HB_STAT_LOCKED) ∧
  (s.flag F.MATE_HB_CTL_RX_EN = true →
    exec .heartbeatAbsent s = .next (s.setFlag F.PAIR_STATE_EV_HEARTBEAT false).refreshEvidence) ∧
  (s.flag F.MATE_HB_CTL_RX_EN = false → exec .heartbeatAbsent s =
    .next ((s.updPair fun p => { p with hbFencedSign := false }).setFlag F.PAIR_STATE_EV_HEARTBEAT false).refreshEvidence)

/-- The two records of authentication: a HELLO moves a joining unit to its proof, fails its join for another pair or the same unit, and
is answered by a unit in role SOLO without a session; a PROOF of the next counter is accepted where it verifies over both nonces, and
brings the session UP, and otherwise fails the authentication; a unit that takes no records ignores both (R230, R244, R245). -/
def Obligations.Authentication : Prop := ∀ (s : State) (w : Wire),
  (s.takesRecords = true → wireKind w = 0x01 → wireHeaderOk w = true → wireSession w = 0 → wireCounter w = 0 →
    wireLength w = 52 →
    (s.role = 1 → s.pair.joinStep = 1 → beAt w.body 4 4 = (s.reg R.PAIR_ID).toNat → beAt w.body 0 1 ≠ s.unit →
      exec (.authHello w) s = .next ((s.updPair fun p =>
        { p with nonceMate := bytesAt w.body 16 32, joinStep := 2 }).deriveSession.sendProof)) ∧
    (s.role = 1 → s.pair.joinStep = 1 → beAt w.body 4 4 ≠ (s.reg R.PAIR_ID).toNat →
      exec (.authHello w) s = .next (s.joinFail St.PAIR_ID_MISMATCH)) ∧
    (s.role = 1 → s.pair.joinStep = 1 → beAt w.body 4 4 = (s.reg R.PAIR_ID).toNat → beAt w.body 0 1 = s.unit →
      exec (.authHello w) s = .next (s.joinFail St.UNIT_CLASH)) ∧
    (s.role = 4 → s.session = 0 → s.pair.joinStep = 0 → s.mss.pairKey.isSome = true →
      exec (.authHello w) s = .next ((s.updPair fun p => { p with nonceMate := bytesAt w.body 16 32 }).answerHello
        (beAt w.body 4 4 != (s.reg R.PAIR_ID).toNat) (beAt w.body 0 1 == s.unit)))) ∧
  (s.takesRecords = false → exec (.authHello w) s = .next s ∧ exec (.authProof w) s = .next s) ∧
  (s.takesRecords = true → wireKind w = 0x02 → wireHeaderOk w = true → s.session = 1 → s.pair.joinStep = 2 →
    wireCounter w = s.pair.rxNext + s.mateBit →
    let nonces := if s.unit = 0 then s.pair.nonceOwn ++ s.pair.nonceMate else s.pair.nonceMate ++ s.pair.nonceOwn
    exec (.authProof w) s = .next (if s.acceptable w = true ∧ s.plain w = nonces then
      s.counted fun s => let s := (s.setFld F.PAIR_CONT_STAT_STATE 2).settle
        if !s.pair.joinLead then s.updPair fun p => { p with joinStep := 3 }
        else if s.laneClaims.any (· != 0) then (s.updPair fun p => { p with joinStep := 0, joinLead := false }).sendEject 0
        else (s.updPair fun p => { p with joinStep := 3 }).startSnapshot
      else s.authFailed))

/-- A continuity record that verifies with the next counter is counted, and acts at once on its body where its APPLY_REEL
is 0 (R229, R231 to R235, R245): the records of the session, of the snapshot, and about
takes, orders, digests and handover (R237 to R239, R247, R249, R250). -/
def Obligations.ContinuityRecords : Prop := ∀ (s : State) (w : Wire),
  s.takesRecords = true → s.acceptable w = true → wireApply w = 0 →
  (wireKind w = 0x03 → exec (.ack w) s = .next (s.counted fun u => u.onAck (s.plain w))) ∧
  (wireKind w = 0x10 → exec (.snapBegin w) s = .next (s.counted fun u => u.onSnapBegin (s.plain w))) ∧
  (wireKind w = 0x11 → exec (.snapData w) s = .next (s.counted fun u => u.onSnapData (s.plain w))) ∧
  (wireKind w = 0x12 → exec (.snapEnd w) s = .next (s.counted fun u => u.onSnapEnd (s.plain w))) ∧
  (wireKind w = 0x30 → exec (.journal w) s = .next (s.counted fun u => u.onJournal (s.plain w))) ∧
  (wireKind w = 0x40 → exec (.timeAlign w) s = .next (s.counted fun u => u.onTimeAlign (s.plain w))) ∧
  (wireKind w = 0x60 → exec (.handle w) s = .next (s.counted fun u => u.onHandle (s.plain w))) ∧
  (wireKind w = 0x72 → exec (.joinReady w) s = .next (s.counted fun u => u.onJoinReady)) ∧
  (wireKind w = 0x73 → exec (.eject w) s = .next (s.counted fun u => u.onEject (s.plain w))) ∧
  (wireKind w = 0x20 → exec (.takeImage w) s = .next (s.counted fun u => u.onTakeImage (s.plain w))) ∧
  (wireKind w = 0x21 → exec (.takeDelta w) s = .next (s.counted fun u => u.onTakeDelta (s.plain w))) ∧
  (wireKind w = 0x22 → exec (.prepared w) s = .next (s.counted fun u => u.onPrepared (s.plain w))) ∧
  (wireKind w = 0x23 → exec (.order w) s = .next (s.counted fun u => u.onOrder (s.plain w))) ∧
  (wireKind w = 0x24 → exec (.orderAck w) s = .next (s.counted fun u => u.onOrderAck (s.plain w))) ∧
  (wireKind w = 0x25 → exec (.takeDiscardRecord w) s = .next (s.counted fun u => u.onDiscard (s.plain w))) ∧
  (wireKind w = 0x50 → exec (.digest w) s = .next (s.counted fun u => u.onDigest (s.plain w))) ∧
  (wireKind w = 0x51 → exec (.digestResult w) s = .next (s.counted fun u => u.onDigestResult (s.plain w))) ∧
  (wireKind w = 0x52 → exec (.resyncReq w) s = .next (s.counted fun u => u.onResyncReq)) ∧
  (wireKind w = 0x70 → exec (.handoverReq w) s = .next (s.counted fun u => u.onHandoverReq (s.plain w))) ∧
  (wireKind w = 0x71 → exec (.handoverAck w) s = .next (s.counted fun u => u.onHandoverAck)) ∧
  (wireKind w = 0x74 → exec (.handoverRefuse w) s = .next (s.counted fun u => u.onHandoverRefuse (s.plain w)))

/-- A record that is not acceptable is discarded, by its count and an ACK that asks again; a unit that takes no records ignores it; one
with an APPLY_REEL is held in the journal; without a session key no ORDER changes more than that count (R229, R231, R233). -/
def Obligations.RecordsRefused : Prop := ∀ (s : State) (w : Wire),
  (s.takesRecords = false → exec (.order w) s = .next s ∧ exec (.journal w) s = .next s) ∧
  (s.takesRecords = true → wireKind w = 0x23 → s.acceptable w = false → exec (.order w) s = .next s.discard) ∧
  (s.takesRecords = true → wireKind w = 0x30 → s.acceptable w = true → wireApply w ≠ 0 → exec (.journal w) s =
    .next (s.counted fun u => u.holdRecord (wireApply w) 0x30 (s.plain w))) ∧
  (s.pair.key = [] → Completes (.order w) s fun t => t = s ∨ t = s.incFld F.PAIR_CONT_ERR_DISCARDED)

/-- A journal entry acts at its reel, unless the unit is still receiving its snapshot; a follower keeps its digest and a lead sends it;
unacknowledged records are sent again and counted; an ACK is sent while records are taken; without progress the session is STALLED, and
a handover asked for fails (R231, R233, R245, R249). -/
def Obligations.ContinuityTimers : Prop := ∀ s : State,
  (∀ x, s.role = 2 → s.pair.journal = [x] → x.reel = seqNext (s.reg R.SSW_REEL_NOW).toNat → exec .journalApply s =
    .next ((s.updPair fun p => { p with journal := [] }).actRecord x.kind x.body)) ∧
  (s.role = 1 → s.pair.joinStep ≤ 3 → exec .journalApply s = .next s) ∧
  (s.fwRuns = true → s.role = 2 → Completes .pairDigest s fun t =>
    t.pair.digestOwn = some ((s.reg R.SSW_REEL_NOW).toNat, s.active.pairDigest) ∧ t.regs = s.regs) ∧
  (s.fwRuns = true → s.role = 3 → exec .pairDigest s = .next s.sendDigest) ∧
  (s.fwRuns = false → exec .pairDigest s = .next s) ∧
  (s.pair.key ≠ [] → s.pair.unacked ≠ [] → Completes .retransmit s fun t =>
    t.pair.unacked = s.pair.unacked.map (fun r => { r with resent := true })
      ∧ (s.pair.txPos = 0 → t.pair.txQueue = s.pair.unacked.map fun r =>
          { record := { r with resent := true }, key := s.pair.key, session := s.pair.session })
      ∧ t.fld F.PAIR_CONT_ERR_RETRANSMITS = satAdd F.PAIR_CONT_ERR_RETRANSMITS.width (s.fld F.PAIR_CONT_ERR_RETRANSMITS)
        s.pair.unacked.length ∧ t = { s with regs := t.regs, pair := t.pair }) ∧
  (s.pair.unacked = [] → exec .retransmit s = .next s) ∧
  (s.takesRecords = true → s.pair.key ≠ [] → s.session ≠ 0 → Completes .ackInterval s fun t =>
    t.pair.txNext = s.pair.txNext + 1 ∧ t.pair.sinceAck = 0 ∧ (t.pair.unacked.getLast?.map fun r => (r.kind, r.counter)) =
      some (0x03, s.pair.txNext)) ∧
  (s.takesRecords = false → exec .ackInterval s = .next s) ∧
  (s.session = 2 → s.pair.unacked ≠ [] → exec .contStalled s =
    .next (((s.setFld F.PAIR_CONT_STAT_STATE 3).logEvent Ev.CONT_STALLED noSource []).handoverLost.settle)) ∧
  (s.session ≠ 2 → exec .contStalled s = .next s)

/-- A take not PREPARED in time fails its command; an order not acknowledged 64 reels before its reel fails, and its take is discarded at
the follower; a lead's join that lasts too long closes its session and is logged; the lockout of joins ends; a late ACK ends the
handover; 16 differing words of a witness show TAKE_SPLIT and ask for a resync; the second's lanes with far-end errors and rescues are
shown (R237, R239, R242, R246, R247, R252). -/
def Obligations.PairTimeouts : Prop := ∀ s : State,
  (s.pair.prepareTake ≠ 0 → s.hif.handles = [] → Completes .prepareTimeout s fun t => t.pair.prepareTake = 0
    ∧ t = { s with pair := t.pair }) ∧
  (∀ e, s.pair.prepareTake ≠ 0 → s.hif.handles.find? (fun e => Op.isCompile e.opcode && e.state == .running && e.ctx == 1) = some e →
    exec .prepareTimeout s = .next ((s.updPair fun p => { p with prepareTake := 0 }).fail e.handle St.NO_ACK 0)) ∧
  (s.pair.prepareTake = 0 → exec .prepareTimeout s = .next s) ∧
  (∀ o, s.pair.order = some o → o.acked = false → o.cancels = [] → seqDiff o.reel (s.reg R.SSW_REEL_NOW).toNat ≤ 64 →
    exec .orderTimeout s = .next ((((s.setFld F.PAIR_ORDER_STAT_TAG o.tag).setFld F.PAIR_ORDER_STAT_RESULT 3).sendDiscard
      o.take).endOrder o St.NO_ACK)) ∧
  (s.pair.order = none → exec .orderTimeout s = .next s) ∧
  (s.pair.joinStep ≠ 0 → s.pair.joinLead = true → exec .joinTimeout s =
    .next ((s.updPair fun p => { p with joinStep := 0, joinLead := false, snapWaiting := false }).closeSession.logEvent
      Ev.JOIN_FAILED noSource (leBytes 1 s.pair.joinStep ++ leBytes 2 St.JOIN_TIMEOUT))) ∧
  (s.pair.joinStep = 0 → exec .joinTimeout s = .next s) ∧
  Completes .joinLockoutEnd s (fun t => t.pair.lockout = false ∧ t = { s with pair := { s.pair with lockout := false } }) ∧
  (s.role = 3 → s.pair.handoverAhead = true → exec .ackLate s = .next (s.endHandover St.ACK_LATE)) ∧
  (s.role ≠ 3 → exec .ackLate s = .next s) ∧
  (∀ n : LaneNo, s.role = 2 → 16 ≤ Tbl.get (fun _ => 0) s.pair.splitRun n.val → s.flag F.PAIR_STATE_TAKE_SPLIT = false →
    exec (.takeSplit n) s =
      .next (((s.setFlag F.PAIR_STATE_TAKE_SPLIT true).logEvent Ev.TAKE_SPLIT noSource []).sendResyncReq 2)) ∧
  (∀ n : LaneNo, s.role ≠ 2 → exec (.takeSplit n) s = .next s) ∧
  Completes .pairProve s (fun t =>
    t.fld F.PAIR_PROVE_LANES_UCB = (s.witnessLanes.filter fun n => (s.lane n).ucbRose).length
      ∧ t.fld F.PAIR_PROVE_LANES_RESCUED = (s.witnessLanes.filter fun n => (s.lane n).rescuedRose).length
      ∧ ∀ n < 128, (t.lane n).ucbRose = false ∧ (t.lane n).rescuedRose = false)

-- Time and frequency (spec 09, 10) ---------------------------------------------------------------------------------------------

/-- A confirmed offset of whole reels is scheduled 64 reels ahead where PERMIT is 1, and not while one is pending or TIME_DISC runs;
where PERMIT is 0 it disqualifies the selected candidate; a scheduled step is applied at its boundary, advances STEP_EPOCH and starts 390,625 reels of
TIME_DISC, whose end clears the flag (R268 to R271). -/
def Obligations.TimeSteps : Prop := ∀ s : State,
  let reel := ((s.reg R.SSW_REEL_NOW).toNat + 64) % 2 ^ 32
  (∀ o : Int, s.refOffset = some o → 256 * (clampNat 100 1000000 (s.fld F.TIME_STEP_CTL_THRESH) : Int) ≤ o.natAbs →
    (s.role = 0 ∨ s.role = 3 ∨ s.role = 4) →
    (s.fld F.TIME_STEP_CTL_PERMIT = 1 → stepReels o ≠ 0 → s.fld F.TIME_DISC_LEFT_REELS = 0 →
      s.flag F.TIME_STATE_STEP_PENDING = false → exec .stepConfirm s =
      .next (((s.scheduleStep (2560 * stepReels o) reel).updTime fun t =>
        { t with residual := some (o - 655360 * stepReels o) }).sendAlign s.reelSeq s.tai)) ∧
    (s.fld F.TIME_STEP_CTL_PERMIT = 0 → s.fwRuns = false → exec .stepConfirm s =
      .next ((s.disqualify s.selected 5).logEvent Ev.TIME_INCONSISTENT s.selected []).enterHoldover)) ∧
  (s.refOffset = none → exec .stepConfirm s = .next s) ∧
  (s.fld F.TIME_STEP_CTL_PERMIT = 1 → s.flag F.TIME_STATE_STEP_PENDING = true ∨ s.fld F.TIME_DISC_LEFT_REELS ≠ 0 →
    exec .stepConfirm s = .next s) ∧
  (s.flag F.TIME_STATE_STEP_PENDING = true → (s.reg R.TIME_STEP_REEL).toNat = seqNext s.reelSeq → s.time.residual = none →
    Completes .timeStep s fun t => t.tai = (((s.tai : Int) + s.stepNs) % 2 ^ 64).toNat
      ∧ t.ref.phase = s.ref.phase + 256000000 * s.stepNs ∧ t.epoch = (s.epoch + 1) % 256
      ∧ t.fld F.TIME_DISC_LEFT_REELS = 390625 ∧ t.flag F.TIME_STATE_TIME_DISC = true
      ∧ t.flag F.TIME_STATE_STEP_PENDING = false ∧ t.reelSeq = s.reelSeq ∧ t.lanes = s.lanes) ∧
  (s.flag F.TIME_STATE_STEP_PENDING = false → exec .timeStep s = .next s) ∧
  (s.fld F.TIME_DISC_LEFT_REELS = 0 → Completes .timeDiscEnd s fun t => t.flag F.TIME_STATE_TIME_DISC = false
    ∧ OnlyFields [F.TIME_STATE_TIME_DISC] s t) ∧
  (s.fld F.TIME_DISC_LEFT_REELS ≠ 0 → exec .timeDiscEnd s = .next s)

/-- The anchor is read at one moment into the words of the reader; the timing port gives accepted frames to firmware with their
stamp, sends a requested frame and queues its stamp, of which 64 wait and more are counted; a read of the queue takes the
oldest (R259, R273 to R278). -/
def Obligations.TimingPort : Prop := ∀ (s : State) (m : Master),
  (∀ el : Fin 655360, Completes (.timeAnchorRead m el) s fun t => t.rdataOf m = (s.anchorWords el.val).getD 0 0
    ∧ (∀ i < 4, ∃ l ∈ t.latches, l.master = masterIdx m ∧ l.off = R.TIME_ANCHOR_1 + 4 * i
        ∧ l.value = (s.anchorWords el.val).getD (i + 1) 0)
    ∧ t = { s with rdata := t.rdata, latches := t.latches }) ∧
  (∀ (fr : List Byte) (c : BitVec 72), s.flag F.TIME_PTP_CTL_EN = true → s.flag F.TIME_PTP_STAT_BLOCK_LOCK = true →
    (s.acceptsFrame fr = false → exec (.timingPortFrame fr c) s = .next (s.incFld F.TIME_PTP_STAT_RX_DISCARDED)) ∧
    (s.acceptsFrame fr = true → exec (.timingPortFrame fr c) s = .next ((s.updTime fun t => { t with ptpRx := t.ptpRx ++
      [{ bytes := fr, stamp := (c.toNat + 2 ^ 72 - s.fld F.TIME_PTP_RXDLY_DELAY) % 2 ^ 40, epoch := s.epoch }] }).icRaise 42))) ∧
  (∀ fr c, s.flag F.TIME_PTP_CTL_EN = false → exec (.timingPortFrame fr c) s = .next s) ∧
  (∀ r : TransmitRequest, s.flag F.TIME_PTP_CTL_EN = true → r.stamp = 0 →
    exec (.transmitRequest r) s = .next (s.updTime fun t => { t with ptpTx := r.frame })) ∧
  (∀ r : TransmitRequest, s.flag F.TIME_PTP_CTL_EN = true → r.stamp = 1 → s.time.tsq.length < 64 →
    s.flag (F.IC_SRC_HELD 41) = true → Completes (.transmitRequest r) s fun t =>
      t.time.ptpTx = r.frame ∧ t.time.tsq.length = s.time.tsq.length + 1
      ∧ (t.time.tsq.getLast?.map fun e => (e.tag, e.epoch)) = some (r.tag.toNat, s.epoch)
      ∧ t.fld F.TIME_TSQ_STAT_FILL = (s.time.tsq.length + 1) % 2 ^ F.TIME_TSQ_STAT_FILL.width) ∧
  (∀ r : TransmitRequest, s.flag F.TIME_PTP_CTL_EN = true → r.stamp = 1 → 64 ≤ s.time.tsq.length → s.time.tsqDropped = true →
    Completes (.transmitRequest r) s fun t => t.time.tsq = s.time.tsq ∧ t.fld F.TIME_TSQ_OVERFLOW_COUNT =
      satAdd F.TIME_TSQ_OVERFLOW_COUNT.width (s.fld F.TIME_TSQ_OVERFLOW_COUNT) 1) ∧
  (∀ r, s.flag F.TIME_PTP_CTL_EN = false → exec (.transmitRequest r) s = .next s) ∧
  (s.time.tsq = [] → exec (.timeTsqPop m) s = .next (s.setRdata m 0)) ∧
  (∀ e rest, s.time.tsq = e :: rest → Completes (.timeTsqPop m) s fun t => t.time.tsq = rest ∧ t.time.tsqDropped = false
    ∧ t.rdataOf m = BitVec.ofNat 32 (2 ^ 31 + e.msgType * 2 ^ 24 + e.epoch * 65536 + e.tag)
    ∧ t.fld F.TIME_TSQ_STAT_FILL = rest.length % 2 ^ F.TIME_TSQ_STAT_FILL.width)

/-- A divergence of the mate lanes beyond the threshold marks the path that has moved further, and both where they have moved equally;
one within it, or without means, marks none; a path whose divergences are all within it loses its mark, and so does one written with
SUSPECT_CLR; a write of LANE_TT_ASYM starts the mean offset afresh (R280, R281). -/
def Obligations.PathAsymmetry : Prop := ∀ (n : LaneNo) (s : State),
  let clear := ((s.setFlag (F.LANE_TT_STAT_MATE_PATH_SUSPECT n) false).updLane n fun l => { l with
    tt := { l.tt with suspect := false, good := s.meanOfs n, mateGood := s.leadPath n } })
  (∀ a b ga gb : Int, n.val = 128 → s.meanOfs 128 = some a → s.meanOfs 129 = some b → s.asymThresh < (a - b).natAbs →
    (s.lane 128).tt.suspect = false → (s.lane 129).tt.suspect = false → (s.lane 128).tt.good = some ga →
    (s.lane 129).tt.good = some gb →
    let data := leBytes 1 129 ++ leBytes 4 (ofSigned 32 (a - b)) ++ leBytes 1 0
    ((b - gb).natAbs < (a - ga).natAbs → exec (.asymSuspect n false) s =
      .next ((s.makeSuspect 128).logEvent Ev.ASYM_SUSPECT 128 data)) ∧
    ((a - ga).natAbs < (b - gb).natAbs → exec (.asymSuspect n false) s =
      .next ((s.makeSuspect 129).logEvent Ev.ASYM_SUSPECT 128 data)) ∧
    ((a - ga).natAbs = (b - gb).natAbs → exec (.asymSuspect n false) s =
      .next (((s.makeSuspect 128).makeSuspect 129).logEvent Ev.ASYM_SUSPECT 128 data))) ∧
  (∀ a b : Int, s.meanOfs n = some a → s.leadPath n = some b → ((a - b).natAbs : Int) ≤ s.asymThresh →
    exec (.asymSuspect n true) s = .next s) ∧
  (∀ mate, s.meanOfs n = none → exec (.asymSuspect n mate) s = .next s) ∧
  (s.divergences n ≠ [] → (∀ d ∈ s.divergences n, (d.natAbs : Int) ≤ s.asymThresh) → (s.lane n).tt.suspect = true →
    exec (.asymClear n) s = .next ((clear.showAsymEst n).logEvent Ev.ASYM_CLEAR n [])) ∧
  (s.divergences n = [] → exec (.asymClear n) s = .next s) ∧
  ((s.lane n).tt.suspect = false → s.flag (F.LANE_TT_STAT_MATE_PATH_SUSPECT n) = false →
    exec (.asymClear n) s = .next s ∧ exec (.suspectClr n) s = .next s) ∧
  ((s.lane n).tt.suspect = true ∨ s.flag (F.LANE_TT_STAT_MATE_PATH_SUSPECT n) = true → exec (.suspectClr n) s =
    .next ((clear.showAsymEst n).logEvent Ev.ASYM_CLEAR n [])) ∧
  (∀ v : Word, Completes (.laneTtAsymWrite n v) s fun t => t.reg (R.LANE_TT_ASYM n) = v ∧ (t.lane n).tt.ofs = []
    ∧ (t.lane n).tt.delay = (s.lane n).tt.delay ∧ t.fld (F.LANE_TT_OFS_OFS n) = 0x80000000 ∧ t.ref = s.ref ∧ t.time = s.time)

/-- In FREE_RUN the loop word moves towards 0 by at most 10,000 per update and is added to the phase; the evaluation of a second counts
it and fits the windows, also under the flywheel; the second's mean enters the history while LOCKED with no build-out; a holdover beyond
its budget ends in FREE_RUN; a finished dissolve is LOCKED; the selection changes to the wanted candidate where none is selected or one
is forced, and not under the flywheel. A PPS edge falls where the timebase less its delay is a whole second and raises an enabled output, and
an enabled frequency output that ran in the last reel is high in the first half of each period (R28, R291, R298, R304, R306, R308, R310,
R312, R313). -/
def Obligations.FrequencyLoop : Prop := ∀ s : State,
  (let f := s.fldI F.REF_FREQ_FREQ
   let g := clampInt (-25000000) 25000000 (f + clampInt (-10000) 10000 (0 - f))
   s.mode = 0 → s.selected = 15 → s.flag F.REF_CTL_FORCE_HO = false → s.ref.build = 0 → s.ref.residual = 0 →
   Completes (.dpllUpdate none none) s fun t => t.fldI F.REF_FREQ_FREQ = g
     ∧ t.ref = { s.ref with phase := s.ref.phase + 256 * g, freqSum := s.ref.freqSum + g, freqN := s.ref.freqN + 1 }
     ∧ t.fld F.TIME_INCR_LO_FRAC = incrOf g % 2 ^ 32 ∧ t.free = s.free ∧ t.mode = 0 ∧ t = { s with regs := t.regs, ref := t.ref }) ∧
  (s.fwRuns = false → exec .candidateEvaluation s = .next
    (let u := ((List.range 8).foldl State.fitWindow (s.updRef fun r => { r with secs := r.secs + 1 })).refreshHold
     (if u.mode = 3 then u.incFld F.REF_HO_STAT_ELAPSED else u).keepHoldover)) ∧
  (s.mode ≠ 1 → Completes .historySample s fun t => t.ref = { s.ref with freqSum := 0, freqN := 0 }
    ∧ t = { s with ref := t.ref }) ∧
  (s.mode = 1 → s.ref.build = 0 → s.ref.freqN ≠ 0 → exec .historySample s = .next
    (s.updRef fun r => { r with
      freqSum := 0, freqN := 0, histN := r.histN + 1
      hist := ({ sec := r.secs, freq := roundDiv r.freqSum r.freqN, temp := s.hoTemp } :: r.hist).take 86400 }).refreshHold) ∧
  (s.mode = 3 → s.fld F.REF_HO_CTL_BUDGET ≠ 0 → min (s.fld F.REF_HO_CTL_BUDGET) (2 ^ 20 - 1) ≤ s.fld F.REF_HO_STAT_ELAPSED → exec .holdoverExpired s =
    .next ((((s.setFld F.REF_STATE_MODE 0).setFlag F.REF_HO_STAT_EXPIRED true).setFld F.REF_HO_STAT_ELAPSED
      0).refreshTime.logEvent Ev.HOLDOVER_EXPIRED noSource [])) ∧
  (s.fld F.REF_HO_CTL_BUDGET = 0 ∨ s.mode ≠ 3 → exec .holdoverExpired s = .next s) ∧
  (s.mode = 2 → s.ref.build = 0 → exec .dissolveEnd s = .next (s.setFld F.REF_STATE_MODE 1).refreshTime) ∧
  (s.mode ≠ 2 ∨ s.ref.build ≠ 0 → exec .dissolveEnd s = .next s) ∧
  (s.fwRuns = false → exec .selectionChange s = .next s) ∧
  (s.fwRuns = true → s.wanted = none → s.selected = 15 → exec .selectionChange s = .next s) ∧
  (∀ n, s.fwRuns = true → s.wanted = some n → n ≠ s.selected → s.forced = true ∨ s.selected = 15 → exec .selectionChange s = .next (s.selectCand n)) ∧
  (∀ k e, s.ppsEdge k = some e → (256 * (s.tai : Int) + e - s.ppsDelay k) % secondUnits = 0) ∧
  (∀ k e, s.ppsEdge k = some e → s.flag (F.REF_PPSO_EN k) = true → s.squelched (s.fld (F.REF_PPSO_SQUELCH k)) = false →
    Tbl.get (fun _ => none) s.time.pps k = none → (s.stepPps k).ppsLevel k e = true) ∧
  (∀ k e, s.flag (F.REF_FOUT_EN k) = true → s.foutOn k = true → Tbl.get (fun _ => false) s.time.fout k = true →
    s.foutLevel k e = decide (2 * ((256 * s.tai + e) % s.foutPeriod k) < s.foutPeriod k))

/-- The candidates: a lost one not selected empties its window and is LOST; one that returns from LOST with no dissolve to reverse is
QUALIFYING; wait-to-restore ends QUALIFIED; a control word with EN 0 disables; a sample of the host enters the window; a pulse of at
least 300 ns is stamped, and a time of day 1,000 to 500,000 µs after it gives the offset (R284 to R290, R303). -/
def Obligations.Candidates : Prop := ∀ (n : Fin 8) (s : State),
  ((n.val < 2 ∨ n.val < 4 ∧ (s.cand n).lastSample + 1000100000 ≤ s.time.clock) → s.candState n = 3 → s.selected ≠ n.val → Completes (.candidateLost n) s fun t => t.candState n = 1
    ∧ t.fld (F.REF_CANDn_STAT_CAUSE n) = 1 ∧ t.fld (F.REF_CANDn_STAT_LEFT n) = 0 ∧ t.candOffset n = none
    ∧ (t.cand n).samples = [] ∧ t.fofs n = none ∧ ∀ m, m ≠ n.val → t.cand m = s.cand m) ∧
  (s.candState n = 0 ∨ s.candState n = 1 ∨ s.lossHolds n = false → exec (.candidateLost n) s = .next s) ∧
  (∀ o, s.candState n ≠ 1 ∨ s.lossEnded n = false → exec (.candidateReturn n o) s = .next s) ∧
  (∀ o, s.candState n = 1 → s.ref.lost = none → n.val < 2 → exec (.candidateReturn n o) s = .next (s.startQualifying n)) ∧
  (∀ o, s.candState n = 1 → s.ref.lost = none → 2 ≤ n.val → s.lossHolds n = false → exec (.candidateReturn n o) s =
    .next ((s.startQualifying n).showOffset n o)) ∧
  (s.candState n = 5 → s.fld (F.REF_CANDn_STAT_LEFT n) = 0 → exec (.wtrExpiry n) s =
    .next ((s.setFld (F.REF_CANDn_STAT_STATE n) 3).icEdge (256 + n))) ∧
  (s.candState n ≠ 5 → exec (.wtrExpiry n) s = .next s) ∧
  (∀ v : Word, v.toNat.testBit 31 = false → Completes (.refCandnCtlWrite n v) s fun t => t.candState n = 0
    ∧ t.fld (F.REF_CANDn_CTL_PRIO n) = bitsOf v.toNat 26 4 ∧ t.fld (F.REF_CANDn_CTL_EN n) = 0 ∧ t.candOffset n = none
    ∧ t.fofs n = none) ∧
  (∀ v : Word, s.candState 6 = 0 ∨ s.candState 6 = 1 →
    exec (.refPtpSample v) s = .next (s.updCand 6 fun c => { c with lastSample := s.time.clock })) ∧
  (∀ v : Word, s.candState 6 ≠ 0 → s.candState 6 ≠ 1 → exec (.refPtpSample v) s =
    .next (((s.updCand 6 fun c => { c with lastSample := s.time.clock }).showOffset 6 v.toInt).phaseSample 6
      (v.toInt + s.tbPhase))) ∧
  (∀ b c hi, hi < 300 → exec (.ppsIn b c hi) s = .next s) ∧
  (∀ b (c : BitVec 72) hi, 300 ≤ hi → (s.cand (if b then 3 else 2)).pulse = none → exec (.ppsIn b c hi) s =
    .next (((s.updCand (if b then 3 else 2) fun x => { x with
      pulse := some ((c.toNat : Int) - s.fldI (F.REF_CANDn_DLY_DLY (if b then 3 else 2))), pulseAt := s.time.clock
      todMiss := 0, lastSample := s.time.clock }).icEdge (272 + b.toNat)).pulseSample (if b then 3 else 2)
        ((c.toNat : Int) - s.fldI (F.REF_CANDn_DLY_DLY (if b then 3 else 2))))) ∧
  (∀ b d, (s.cand (if b then 3 else 2)).pulse = none → exec (.todMessage b d none) s =
    .next ((s.icEdge (274 + b.toNat)).updCand (if b then 3 else 2) fun c => { c with todBad := c.todBad + 1 })) ∧
  (∀ (b : Bool) (d sec : Nat), let u := s.icEdge (274 + b.toNat)
    let k := if b then 3 else 2
    ∀ stamp, (u.cand k).pulse = some stamp → 1000 ≤ d → d ≤ 500000 → u.candState k ≠ 0 → u.candState k ≠ 1 →
      exec (.todMessage b d (some sec)) s =
        .next ((u.updCand k fun c => { c with pulse := none, todMiss := 0, todRun := c.todRun + 1 }).showOffset k
          ((sec : Int) * 256000000000 - stamp)))

-- Host interface (spec 11) ------------------------------------------------------------------------------------------------------

/-- A kick is served while firmware runs and the function is not in D3hot, and remembered otherwise; the poll, and the fetch of
the device's own, are served on their conditions; held completions are written in order while there is room; a lapsed coalescing
time signals the vector once; lost events are reported once there is room (R325, R327, R337, R338, R352). -/
def Obligations.HostDoorbell : Prop := ∀ (s : State) (f : DoorbellFetch),
  (s.flag (F.IC_SRC_STORM 33) = false → (Tbl.get (fun _ => []) s.stormEdges 33).length < 64 →
    (s.icEdge 33).fwRuns = false → exec (.hifHostKick f) s = .next ((s.icEdge 33).updHif fun h => { h with kickHeld := true })) ∧
  ((s.icEdge 33).fwRuns = true → (s.icEdge 33).hif.d3hot = false → exec (.hifHostKick f) s = .next ((s.icEdge 33).doorbell f)) ∧
  (s.fld F.HIF_POLL_US ≠ 0 → s.fwRuns = true → s.hif.d3hot = false → exec (.doorbellPoll f) s = .next (s.doorbell f)) ∧
  (s.fld F.HIF_POLL_US = 0 ∨ s.fwRuns = false ∨ s.hif.d3hot = true → exec (.doorbellPoll f) s = .next s) ∧
  (s.hif.fetchHeld = true → s.openCount < 1024 → s.fwRuns = true → s.hif.d3hot = false →
    exec (.handleCloseRefetch f) s = .next (s.doorbell f)) ∧
  (s.hif.fetchHeld = false → s.hif.kickHeld = false → exec (.handleCloseRefetch f) s = .next s) ∧
  (∀ k : Fin 16, s.cqHeldOf k = [] → exec (.heldCompletionWrite k) s = .next s) ∧
  (∀ (k : Fin 16) c, s.cqHeldOf k = [c] → s.cqRoom k = true → s.hif.d3hot = false →
    exec (.heldCompletionWrite k) s = .next ((s.setHeld k []).cqWrite k c)) ∧
  (∀ (k : Fin 16), s.cqRoom k = false ∨ s.hif.d3hot = true → exec (.heldCompletionWrite k) s = .next s) ∧
  (∀ k : Fin 16, Tbl.get (fun _ => 0) s.hif.cqUnsig k.val = 0 → exec (.coalesceTimeout (some k)) s = .next s) ∧
  (∀ k : Fin 16, Tbl.get (fun _ => 0) s.hif.cqUnsig k.val ≠ 0 →
    s.flag (F.HIF_MSIX_VCTL_MASK (s.fld (F.HIF_CQ_CTL_VECTOR k))) = false → Completes (.coalesceTimeout (some k)) s fun t =>
      Tbl.get (fun _ => 0) t.hif.cqUnsig k.val = 0 ∧ t.regs = s.regs
      ∧ Tbl.get (fun _ => 0) t.hif.msixSent (s.fld (F.HIF_CQ_CTL_VECTOR k)) =
        Tbl.get (fun _ => 0) s.hif.msixSent (s.fld (F.HIF_CQ_CTL_VECTOR k)) + 1) ∧
  (s.hif.evUnsig = 0 → exec (.coalesceTimeout none) s = .next s) ∧
  (s.hif.evUnsig ≠ 0 → exec (.coalesceTimeout none) s = .next ((s.updHif fun h => { h with evUnsig := 0 }).msix
    (s.fld F.HIF_EV_CTL_VECTOR))) ∧
  (s.hif.evMissed = 0 → exec .eventLost s = .next s) ∧
  (0 < s.hif.evMissed → s.evRoom = true → s.hif.d3hot = false → exec .eventLost s =
    .next ((s.updHif fun h => { h with evMissed := 0 }).logEvent Ev.EVENT_LOST noSource (leBytes 4 s.hif.evMissed)))

/-- A command ring is enabled where its completion ring is, and refused where it is not, or remembers the write while it drains; it is
disabled at once where it has no handle and drains otherwise; a completion ring is enabled afresh, and refused a disable while mapped; an
enabled event ring keeps its size; a link reset leaves every ring disabled and the rest of the unit as it was; D3hot is entered and left;
the link shows its speed and width; a DMA fault is counted under its kind and reported, a completion timeout once it has lasted its time,
and one in the source ends its command; an expired staged prefix is dropped (R319, R321, R344, R347, R348, R353). -/
def Obligations.HostRings : Prop := ∀ (s : State) (n : Fin 16) (v : Word),
  (s.fld (F.HIF_CR_STAT_STATE n) = 0 → s.flag (F.HIF_CQ_CTL_EN (bitsOf v.toNat 24 4)) = true → s.isMailbox n = false →
    Completes (.commandRingEnable n v) s fun t => t.flag (F.HIF_CR_CTL_EN n) = true ∧ t.fld (F.HIF_CR_STAT_STATE n) = 1
      ∧ Tbl.get (fun _ => 0) t.hif.crCons n.val = 0 ∧ t.fld (F.HIF_CR_CTL_CQ n) = bitsOf v.toNat 24 4
      ∧ t.flag (F.HIF_CR_CTL_URGENT n) = v.toNat.testBit 30) ∧
  (s.fld (F.HIF_CR_STAT_STATE n) = 0 → s.flag (F.HIF_CQ_CTL_EN (bitsOf v.toNat 24 4)) = false → s.isMailbox n = false →
    Completes (.commandRingEnable n v) s fun t => t.flag F.HIF_ERR_RING_REFUSED = true ∧ t.fld F.HIF_ERR_RING = n.val
      ∧ t.fld (F.HIF_CR_STAT_STATE n) = 0 ∧ t.hif = s.hif) ∧
  (s.fld (F.HIF_CR_STAT_STATE n) = 2 → Completes (.commandRingEnable n v) s fun t =>
    Tbl.get (fun _ => false) t.hif.crEnHeld n.val = true ∧ t.fld (F.HIF_CR_STAT_STATE n) = 2) ∧
  (s.fld (F.HIF_CR_STAT_STATE n) = 1 → Completes (.commandRingDisable n v) s fun t => t.flag (F.HIF_CR_CTL_EN n) = false
    ∧ t.fld (F.HIF_CR_STAT_STATE n) = (if s.ringBusy n then 2 else 0) ∧ Tbl.get (fun _ => false) t.hif.crEnHeld n.val = false) ∧
  (s.fld (F.HIF_CR_STAT_STATE n) = 2 → s.ringBusy n = false → Tbl.get (fun _ => false) s.hif.crEnHeld n.val = false →
    Completes (.drainEnd n) s fun t => t.fld (F.HIF_CR_STAT_STATE n) = 0 ∧ OnlyFields [F.HIF_CR_STAT_STATE n] s t) ∧
  (s.fld (F.HIF_CR_STAT_STATE n) ≠ 2 ∨ s.ringBusy n = true → exec (.drainEnd n) s = .next s) ∧
  (s.flag (F.HIF_CQ_CTL_EN n) = false → v.toNat.testBit 31 = true → s.cqHeldOf n = [] → Completes (.completionRingEnable n v) s fun t =>
    t.flag (F.HIF_CQ_CTL_EN n) = true ∧ t.fld (F.HIF_CQ_STAT_STATE n) = 1 ∧ Tbl.get (fun _ => 0) t.hif.cqTail n.val = 0
      ∧ Tbl.get (fun _ => 1) t.hif.cqPhase n.val = 1 ∧ t.fld (F.HIF_CQ_CTL_VECTOR n) = bitsOf v.toNat 24 6) ∧
  (s.flag (F.HIF_CQ_CTL_EN n) = true → v.toNat.testBit 31 = false → s.cqMapped n = true → Completes (.completionRingEnable n v) s
    fun t => t.flag (F.HIF_CQ_CTL_EN n) = true ∧ t.flag F.HIF_ERR_RING_REFUSED = true ∧ t.fld F.HIF_ERR_RING = n.val) ∧
  (v.toNat.testBit 31 = false → Completes (.eventRingEnable v) s fun t => t.flag F.HIF_EV_CTL_EN = false ∧ t.hif = s.hif) ∧
  (s.flag F.HIF_EV_CTL_EN = true → v.toNat.testBit 31 = true → Completes (.eventRingEnable v) s fun t =>
    t.fld F.HIF_EV_CTL_SIZE_LOG2 = s.fld F.HIF_EV_CTL_SIZE_LOG2 ∧ t.hif = s.hif) ∧
  (∀ b, exec (.linkReset b []) s = .next (s.linkReset.when b State.perstEdges)) ∧
  (s.hif.handles = [] → s.hif.heldFinal = [] → Completes (.linkReset false []) s fun t => t.flag F.HIF_EV_CTL_EN = false
    ∧ (∀ k < 16, t.flag (F.HIF_CQ_CTL_EN k) = false ∧ t.fld (F.HIF_CR_STAT_STATE k) = 0) ∧ t.hif.cqHeld = []
    ∧ t.hif.d3hot = false ∧ t.hif.hostMem = s.hif.hostMem ∧ t.lanes = s.lanes ∧ t.ssw = s.ssw) ∧
  exec .d3hotEntry s = .next (s.updHif fun h => { h with d3hot := true }) ∧
  (s.hif.cqHeld = [] → s.hif.evMissed = 0 → exec .returnToD0 s = .next (s.updHif fun h => { h with d3hot := false })) ∧
  (∀ sp w : Fin 5, Completes (.linkUp sp w) s fun t => t.fld F.HIF_STATE_LINK_SPEED = sp.val ∧ t.fld F.HIF_STATE_LINK_WIDTH = w.val
    ∧ (s.fwRuns = true → t.flag F.HIF_STATE_FW_READY = true)
    ∧ OnlyFields [F.HIF_STATE_LINK_SPEED, F.HIF_STATE_LINK_WIDTH, F.HIF_STATE_FW_READY] s t) ∧
  (∀ (h : Word) obj waited, waited < s.cplTimeoutUs → exec (.cplTimeout h waited obj) s = .next s) ∧
  (∀ (h : Word) obj waited, s.handle? h.toNat = none → s.cplTimeoutUs ≤ waited →
    exec (.cplTimeout h waited obj) s = .next ((s.incFld F.HIF_DMA_FAULTS_CPL_TIMEOUT).reportAer .completionTimeout)) ∧
  (∀ (h : Word) obj, s.handle? h.toNat = none →
    exec (.dmaFault h .poisoned obj) s = .next ((s.incFld F.HIF_DMA_FAULTS_POISONED).reportAer .poisoned)
    ∧ exec (.dmaFault h .unsupported obj) s = .next ((s.incFld F.HIF_DMA_FAULTS_UR_CA).reportAer .advisoryNonFatal)
    ∧ exec (.dmaFault h .abort obj) s = .next ((s.incFld F.HIF_DMA_FAULTS_UR_CA).reportAer .advisoryNonFatal)
    ∧ exec (.dmaFault h .source obj) s = .next s) ∧
  (∀ (h : Word) e obj, Runs s e.opcode h e [] → Op.toDevice e.opcode = false → Op.toHost e.opcode = true → e.list = false →
    exec (.dmaFault h .source obj) s = .next (((State.scatter (s.begun h e) [(e.bufAddr, e.bufLen)] obj).dmaDone h.toNat).faultEnd
      h.toNat St.SOURCE_ERROR (e.bufOffset + obj.length))) ∧
  (∀ o : BitVec 16, Completes (.stagedPrefixExpiry o) s fun t => (∀ x ∈ t.hif.staged, x.opcode ≠ o.toNat)
    ∧ (∀ x ∈ s.hif.staged, x.opcode ≠ o.toNat → x ∈ t.hif.staged) ∧ t = { s with hif := { s.hif with staged := t.hif.staged } })

-- Management subsystem and interrupt controller (spec 13, 14) ------------------------------------------------------------------

/-- A restart needs the key, resets the management side and merges with one in progress; core 0 leaves reset once the memory test is
done; AUTO_AGE restarts once at its age; HOLD and the remap bit obey core 0 in machine mode alone, and a remap takes effect at the read of
MSS_BOOT; the memory test is enabled by its bit, and borrows its windows in turn (R386, R388, R403, R405 to R409). -/
def Obligations.MgmtRestart : Prop := ∀ (s : State) (v : Word),
  (∀ m, s.keyOpen .mss = true → v.toNat.testBit 31 = true → s.flag F.GCTL_STATE_MGMT_IN_RESET = true →
    exec (.mssRestart m v []) s = .next (s.setKey .mss false)) ∧
  (∀ m, s.keyOpen .mss = true → v.toNat.testBit 31 = true → s.flag F.GCTL_STATE_MGMT_IN_RESET = false → s.sby ≠ 2 →
    s.flag { F.GCTL_ALERT_STAT_MGMT_RESTART with reg := R.GCTL_ALERT_MASK } = false → Completes (.mssRestart m v []) s fun t =>
      t.flag F.GCTL_STATE_MGMT_IN_RESET = true ∧ t.fld F.MSS_RESTART_LAST_CAUSE = 1 ∧ t.keyOpen .mss = false
        ∧ t.flag F.GCTL_ALERT_STAT_MGMT_RESTART = true ∧ t.reg R.MSS_CORE_CTL = 0xE#32 ∧ t.mss.fwUp = false
        ∧ t.mss.booted = false ∧ (∀ c < 4, t.fld (coreStat c) = 0 ∧ t.reg (R.IC_VTBASE c) = 0)
        ∧ t.flag F.HIF_STATE_FW_READY = false ∧ t.lanes = s.lanes ∧ t.log = s.log) ∧
  (∀ m, s.keyOpen .mss = false → v.toNat.testBit 31 = true → exec (.mssRestart m v []) s =
    .next (s.logEvent Ev.KEY_REFUSED noSource [])) ∧
  (s.flag F.GCTL_STATE_MGMT_IN_RESET = true → s.mss.started = true → Completes .core0LeavesReset s fun t =>
    t.flag F.GCTL_STATE_MGMT_IN_RESET = false ∧ t.coreOn 0 = true
      ∧ OnlyFields [F.GCTL_STATE_MGMT_IN_RESET, coreStat 0] s t) ∧
  (s.flag F.GCTL_STATE_MGMT_IN_RESET = false → exec .core0LeavesReset s = .next s) ∧
  (s.fld F.MSS_RESTART_CTL_AUTO_AGE ≠ 0 → s.gctl.everAlive = true →
    min 7500 (s.fld F.MSS_RESTART_CTL_AUTO_AGE) ≤ s.fld F.GCTL_ALIVE_AGE_AGE_MS →
    s.mss.autoDone = false → exec (.autoAge []) s =
      .next ((s.updMss fun x => { x with autoDone := true }).mgmtRestart 3 [])) ∧
  (∀ b, s.fld F.MSS_RESTART_CTL_AUTO_AGE = 0 ∨ s.mss.autoDone = true → exec (.autoAge b) s = .next s) ∧
  (∀ m b, isCore0Machine m = false → exec (.holdWrite m v b) s = .next (s.writeRefused m R.MSS_CORE_CTL)) ∧
  (s.reg R.MSS_CORE_CTL = 0xE#32 → v.toNat % 16 / 2 = 6 → Completes (.holdWrite (.core 0 true) v []) s fun t =>
    t.reg R.MSS_CORE_CTL = 0xC#32 ∧ t.fld (coreStat 1) = 1 ∧ (∀ o, o ≠ R.MSS_CORE_CTL → o ≠ R.MSS_CORE_STAT → t.reg o = s.reg o)
      ∧ t = { s with regs := t.regs }) ∧
  (∀ m, isCore0Machine m = false → exec (.remapWrite m v) s = .next (s.writeRefused m R.MSS_BOOT)) ∧
  (Completes (.remapWrite (.core 0 true) v) s fun t => t.flag F.MSS_BOOT_REMAP_PENDING = true
    ∧ t.mss = { s.mss with remapNext := v.toNat.testBit 0 } ∧ t.flag F.MSS_BOOT_REMAP = s.flag F.MSS_BOOT_REMAP) ∧
  (∀ b, s.flag F.MSS_BOOT_REMAP_PENDING = true → Completes (.remapReadback b) s fun t =>
    t.flag F.MSS_BOOT_REMAP = s.mss.remapNext ∧ t.flag F.MSS_BOOT_REMAP_PENDING = false ∧ (∀ c < 4, (t.core c).icache = [])
      ∧ t.rdataOf (.core 0 b) = t.reg R.MSS_BOOT) ∧
  (∀ b, s.flag F.MSS_BOOT_REMAP_PENDING = false → exec (.remapReadback b) s = .next (s.setRdata (.core 0 b) (s.reg R.MSS_BOOT))) ∧
  (∀ b, s.flag F.MSS_MTEST_CTL_EN = false → exec (.windowBorrow b) s = .next s) ∧
  (s.flag F.MSS_MTEST_CTL_EN = true → s.mss.window < 4095 → Completes (.windowBorrow false) s fun t =>
    t.mss = { s.mss with window := s.mss.window + 1 } ∧ t.fld F.MSS_MTEST_STAT_WINDOW = s.mss.window
      ∧ OnlyFields [F.MSS_MTEST_STAT_WINDOW] { s with mss := t.mss } t) ∧
  (Completes (.mtestEnWrite v []) s fun t => t.flag F.MSS_MTEST_CTL_EN = v.toNat.testBit 31
    ∧ OnlyFields [F.MSS_MTEST_CTL_EN, F.MSS_MTEST_CTL_INTERVAL_US] s t)

/-- A core that fetches its vector takes the presented source whose PRIO is above its own, at an address in working SRAM, and goes back
with MRET, which in user mode is an illegal instruction and with no trap kept pops by a free value; WFI sleeps while none is presented; a
trap goes to mtvec, with the exception of the core's own access before the one named; an armed level source is pending again while its
level holds; the set registers are edges; the end of a storm delivers what is pending (R411 to R415, R419, R422). -/
def Obligations.Interrupts : Prop := ∀ (s : State) (c : Fin 4) (r : CoreRegs),
  (s.touchedSources = [] → Completes (.vectorFetch c r) s fun t => (t.core c).r = r ∧ t.regs = s.regs
    ∧ (t.core c).service = (s.core c).service) ∧
  (∀ n off, (s.updCore c fun x => { x with r := r }).bestSource c = some (n, false) → r.mie = true → r.meie = true →
    s.coreOffline c = false → s.abovePrio c (s.fld (F.IC_SRC_PRIO n)) = true →
    s.coreTarget (BitVec.ofNat 32 ((s.reg (R.IC_VTBASE c)).toNat + 8 * n)).toNat = some (.sram off) →
    Completes (.vectorFetch c r) s fun t =>
      (t.core c).r = trapRegs r 0x8000000B#32 0 (BitVec.ofNat 32 ((s.reg (R.IC_VTBASE c)).toNat + 8 * n))
      ∧ (t.core c).service = (n, s.fld (F.IC_SRC_PRIO n)) :: (s.core c).service ∧ (t.core c).wfi = false
      ∧ (t.core c).traps = pushTrap true (s.core c).traps) ∧
  (r.user = true → Completes (.mret c r) s fun t => (t.core c).exc = some (2, 0) ∧ (t.core c).service = (s.core c).service
    ∧ t.regs = s.regs) ∧
  (∀ b l, r.user = false → (s.core c).traps = b :: l → Completes (.mret c r) s fun t => (t.core c).traps = l
    ∧ (t.core c).service = (if b then (s.core c).service.drop 1 else (s.core c).service)
    ∧ (t.core c).r = { r with pc := r.mepc, user := r.mppUser, mie := r.mpie, mpie := true, mppUser := true }
    ∧ t.fld (F.IC_CORE_DEPTH c) = (t.core c).service.length % 2 ^ (F.IC_CORE_DEPTH c).width ∧ t.free = s.free) ∧
  (r.user = false → (s.core c).traps = [] → Completes (.mret c r) s fun t => (t.core c).traps = [] ∧ t.free = s.free + 1
    ∧ (t.core c).r.pc = r.mepc) ∧
  (Completes (.wfi c r) s fun t => (t.core c).wfi = ((s.updCore c fun x => { x with r := r }).bestSource c).isNone
    ∧ (t.core c).r = r ∧ (∀ k, k ≠ c.val → t.core k = s.core k) ∧ t = { s with mss := t.mss }) ∧
  (∀ cause tval, (s.core c).exc = none → Completes (.trapEntry c r cause tval) s fun t =>
    (t.core c).r = trapRegs r cause tval (trapTarget r.mtvec cause) ∧ (t.core c).traps = pushTrap false (s.core c).traps
    ∧ (t.core c).exc = none ∧ (t.core c).wfi = false ∧ (∀ k, k ≠ c.val → t.core k = s.core k) ∧ t = { s with mss := t.mss }) ∧
  (∀ cause tval a b, (s.core c).exc = some (a, b) → Completes (.trapEntry c r cause tval) s fun t =>
    (t.core c).r = trapRegs r (BitVec.ofNat 32 a) (BitVec.ofNat 32 b) (trapTarget r.mtvec (BitVec.ofNat 32 a))
    ∧ (t.core c).exc = none) ∧
  (∀ n : Fin 1280, icIsLevel n = false → exec (.arm n) s = .next s) ∧
  (∀ n : Fin 1280, icIsLevel n = true → s.icRaw n = false → Completes (.arm n) s fun t => t.flag (F.IC_SRC_HELD n) = false
    ∧ OnlyFields [F.IC_SRC_HELD n] s t) ∧
  (∀ n : Fin 1280, icIsLevel n = true → s.icRaw n = true → exec (.arm n) s =
    .next ((s.setFlag (F.IC_SRC_HELD n) false).icPend n)) ∧
  (∀ k : Fin 16, exec (.icSwiSet (BitVec.ofNat 32 (2 ^ k.val))) s = .next (s.icEdge k.val)) ∧
  exec (.icSwiSet 0) s = .next s ∧
  (∀ v : Word, exec (.icHostSet v) s = .next (s.icEdge (1024 + v.toNat % 256))) ∧
  (∀ n : Fin 1280, s.flag (F.IC_SRC_STORM n) = true → exec (.stormEnd n) s =
    .next ((s.setFlag (F.IC_SRC_STORM n) false).icSettle n)) ∧
  (∀ n : Fin 1280, s.flag (F.IC_SRC_STORM n) = false → exec (.stormEnd n) s = .next s)

/-- Counters and tags: a counter that counts has advanced by what the command says; the low half latches the high half, which is
answered once; a write of a half sets it and invalidates the shadow, and a write of an event its code and bits; user mode may not write,
and reads where USER_RD lets it; an overflow of a counter that counts sets its flag; a tag of a mode that a counter selects is queued
while fewer than 32 wait, and counted as dropped otherwise; a read takes the oldest (R427 to R432). -/
def Obligations.CountersAndTags : Prop := ∀ (s : State) (c : Fin 4) (k : Fin 9),
  (∀ adv, s.counter c k + adv < 2 ^ 48 →
    (s.advance c k adv).counter c k = s.counter c k + if s.counts c k = true then adv else 0) ∧
  (∀ user adv, (user = false ∨ s.userRd c = true) → Completes (.counterRead c user k false adv) s fun t =>
    let v := (s.advance c k adv).counter c k
    t.rdataOf (.core c (!user)) = BitVec.ofNat 32 v ∧ Tbl.get (fun _ => none) (t.core c).shadow k.val = some (v / 2 ^ 32)) ∧
  (∀ v adv, Tbl.get (fun _ => none) (s.core c).shadow k.val = some v → Completes (.counterRead c false k true adv) s fun t =>
    t.rdataOf (.core c true) = BitVec.ofNat 32 v ∧ Tbl.get (fun _ => none) (t.core c).shadow k.val = none) ∧
  (s.userRd c = false → ∀ high adv, Completes (.counterRead c true k high adv) s fun t => (t.core c).exc = some (2, 0)
    ∧ t.rdata = s.rdata) ∧
  (∀ (v : Word) part adv, Completes (.counterWrite c true k part v adv) s fun t => (t.core c).exc = some (2, 0)) ∧
  (∀ (v : Word) adv, Completes (.counterWrite c false k .low v adv) s fun t =>
    t.counter c k % 2 ^ 32 = v.toNat ∧ Tbl.get (fun _ => none) (t.core c).shadow k.val = none) ∧
  (∀ (v : Word) adv, Completes (.counterWrite c false k .high v adv) s fun t =>
    t.counter c k / 2 ^ 32 = v.toNat % 2 ^ (counterWidth k - 32) ∧ Tbl.get (fun _ => none) (t.core c).shadow k.val = none) ∧
  (k.val ≠ 0 → ∀ (v : Word) adv, Completes (.counterWrite c false k .event v adv) s fun t =>
    Tbl.get (fun _ => 0) (t.core c).events k.val = (v &&& 0x800007FF#32).toNat) ∧
  (k.val ≠ 0 → s.counts c k = true → Completes (.counterOverflow c k) s fun t => t.counter c k = 0
    ∧ t.flag ⟨R.MSS_PERF_OVF c, k - 1, 1⟩ = true) ∧
  (k.val = 0 ∨ s.counts c k = false → exec (.counterOverflow c k) s = .next s) ∧
  (∀ pc lat st miss u tr, s.flag (F.MSS_TAG_CTL_EN c) = false ∨ s.tagMode c u = false →
    exec (.tagSample c pc lat st miss u tr) s = .next s) ∧
  (∀ (pc : Word) lat (st : Fin 8) (miss : BitVec 4) u tr, s.flag (F.MSS_TAG_CTL_EN c) = true → s.tagMode c u = true →
    (s.core c).tags.length < 32 → Completes (.tagSample c pc lat st miss u tr) s fun t =>
      let w := 2 ^ 31 + u.toNat * 2 ^ 30 + tr.toNat * 2 ^ 29 + miss.toNat * 2 ^ 25 + st.val * 2 ^ 20 + min 65535 lat
      (t.core c).tags = (s.core c).tags ++ [{ pc := pc, word := BitVec.ofNat 32 w }]) ∧
  (∀ pc lat st miss u tr, s.flag (F.MSS_TAG_CTL_EN c) = true → s.tagMode c u = true → 32 ≤ (s.core c).tags.length →
    Completes (.tagSample c pc lat st miss u tr) s fun t => (t.core c).tags = (s.core c).tags
      ∧ t.fld (F.MSS_TAG_STAT_DROPPED c) = satAdd (F.MSS_TAG_STAT_DROPPED c).width (s.fld (F.MSS_TAG_STAT_DROPPED c)) 1
      ∧ t.free = s.free + 1) ∧
  (∀ m, (s.core c).tags = [] → exec (.mssTagSampleRead m c) s = .next (s.setRdata m 0)) ∧
  (∀ m x l, (s.core c).tags = x :: l → Completes (.mssTagSampleRead m c) s fun t => t.rdataOf m = x.word ∧ (t.core c).tags = l
    ∧ t.fld (F.MSS_TAG_STAT_COUNT c) = l.length % 2 ^ (F.MSS_TAG_STAT_COUNT c).width)

/-- FENCE has no work of its own, FENCE.I empties the instruction cache. In working SRAM LR answers the word and reserves its block, SC
stores only while the reservation of its block holds and ends every reservation of it, and an AMO answers the old word and stores its result; no other
byte of the SRAM changes. A misaligned access is an exception and is not made, and a core in reset makes none (R384, R385, R400). -/
def Obligations.Atomics : Prop := ∀ (s : State) (c : Fin 4) (mach : Bool) (a v : Word),
  exec (.fenceInstruction c) s = .next s ∧
  (Completes (.fenceI c) s fun t => (t.core c).icache = [] ∧ (∀ k, k ≠ c.val → t.core k = s.core k) ∧ t = { s with mss := t.mss }) ∧
  (∀ off, s.coreOn c = true → a.toNat % 4 = 0 → s.coreTarget a.toNat = some (.sram off) →
    (Completes (.lrW c mach a .good) s fun t => (t.core c).resv = some (off / 64)
      ∧ t.rdataOf (.core c mach) = BitVec.ofNat 32 (leNat ((List.range 4).map fun i => s.sramByte (off + i)))
      ∧ (∀ b, t.sramByte b = s.sramByte b) ∧ t.regs = s.regs ∧ ∀ k, k ≠ c.val → t.core k = s.core k) ∧
    ((s.core c).resv = some (off / 64) → Completes (.scW c mach a v) s fun t => t.rdataOf (.core c mach) = 0
      ∧ (∀ i < 4, t.sramByte (off + i) = (leBytes 4 v.toNat).getD i 0)
      ∧ (∀ b, b < off ∨ off + 4 ≤ b → t.sramByte b = s.sramByte b) ∧ (t.core c).resv = none
      ∧ (∀ k < 4, (t.core k).resv ≠ some (off / 64)) ∧ t.regs = s.regs) ∧
    ((s.core c).resv = none → Completes (.scW c mach a v) s fun t => t.rdataOf (.core c mach) = 1
      ∧ (∀ b, t.sramByte b = s.sramByte b) ∧ t.regs = s.regs) ∧
    (∀ op, Completes (.amo c mach op a v .good) s fun t =>
      let old := BitVec.ofNat 32 (leNat ((List.range 4).map fun i => s.sramByte (off + i)))
      t.rdataOf (.core c mach) = old ∧ t.regs = s.regs
      ∧ (∀ i < 4, t.sramByte (off + i) = (leBytes 4 (amoResult op old v).toNat).getD i 0)
      ∧ (∀ b, b < off ∨ off + 4 ≤ b → t.sramByte b = s.sramByte b))) ∧
  (s.coreOn c = true → a.toNat % 4 ≠ 0 → (Completes (.lrW c mach a .good) s fun t => (t.core c).exc = some (4, a.toNat)
      ∧ (t.core c).resv = (s.core c).resv ∧ t.mss.sram = s.mss.sram ∧ t.mss.imageBytes = s.mss.imageBytes) ∧
    (Completes (.scW c mach a v) s fun t => (t.core c).exc = some (6, a.toNat) ∧ t.mss.sram = s.mss.sram
      ∧ t.mss.imageBytes = s.mss.imageBytes ∧ (t.core c).resv = none)) ∧
  (s.coreOn c = false → exec (.lrW c mach a .good) s = .next s ∧ exec (.scW c mach a v) s = .next s
    ∧ ∀ op, exec (.amo c mach op a v .good) s = .next s)

-- Security (spec 15) --------------------------------------------------------------------------------------------------------------

/-- A life-cycle transition, the confirmation of a trial and a raise of the rollback count are refused to all but core 0 in machine mode;
with the key open a transition without a refusal begins, the fuse write then changes the state or leaves FUSE_ERROR, and zeroises either
way; zeroisation is requested with the key, and its flags are cleared without; a trial is confirmed; the rollback count goes up to what the
running image allows and never down; the loss of VDD_IO clears what it keeps; the device number is read in two halves (R2, R435 to R438,
R446, R447). -/
def Obligations.LifeCycle : Prop := ∀ (s : State) (v : Word),
  let o := s.setKey .mss false
  (∀ m, isCore0Machine m = false →
    exec (.lcTransition m v) s = .next (s.writeRefused m R.MSS_LC_CTL) ∧
    exec (.confirm m) s = .next (s.writeRefused m R.MSS_FW_TRIAL) ∧
    exec (.raise m v) s = .next (s.writeRefused m R.MSS_FW_ROLLBACK)) ∧
  (s.keyOpen .mss = true → v.toNat.testBit 31 = true → o.lcResult (v.toNat % 4) = 0 → (o.setFld F.MSS_LC_CTL_TARGET
      (v.toNat % 4)).lcResult (v.toNat % 4) = 0 → Completes (.lcTransition (.core 0 true) v) s fun t =>
    t.mss.lcTarget = some (v.toNat % 4) ∧ t.fld F.MSS_LC_CTL_TARGET = v.toNat % 4 ∧ t.fld F.MSS_LC_CTL_RESULT = 0
      ∧ t.keyOpen .mss = false ∧ t.lifeCycle = s.lifeCycle) ∧
  (s.keyOpen .mss = false → v.toNat.testBit 31 = true → exec (.lcTransition (.core 0 true) v) s =
    .next (s.logEvent Ev.KEY_REFUSED noSource [])) ∧
  (s.mss.lcTarget = none → ∀ ok, exec (.fuseWriteEnd ok) s = .next s) ∧
  (∀ t, s.mss.lcTarget = some t → t < 3 → exec (.fuseWriteEnd true) s = .next (((((s.updMss fun x =>
    { x with lcTarget := none }).setFld F.MSS_LC_STATE_STATE t).setFlag F.MSS_LC_STATE_DEBUG_OPEN (t != 2)).zeroise).logEvent
      Ev.LIFE_CYCLE noSource [])) ∧
  (s.mss.lcTarget = some 3 → s.flag F.MSS_ZEROISE_BUSY = true → s.fwRuns = false → s.evq.length = 1024 →
    Completes (.fuseWriteEnd true) s fun t => t.lifeCycle = 3 ∧ t.flag F.MSS_LC_STATE_DEVICE_SECRET = false
      ∧ t.flag F.MSS_LC_STATE_DEBUG_OPEN = true ∧ t.mss.lcTarget = none) ∧
  (∀ t, s.mss.lcTarget = some t → exec (.fuseWriteEnd false) s = .next (((s.updMss fun x => { x with lcTarget := none }).setFld
    F.MSS_LC_CTL_RESULT 4).zeroise)) ∧
  (s.keyOpen .mss = true → exec (.zeroiseReq (.core 0 true) 0x80000000#32) s = .next o.zeroise) ∧
  (∀ m, s.keyOpen .mss = false → Completes (.zeroiseReq m 0x00000006#32) s fun t => t.flag F.MSS_ZEROISE_ZEROISED = false
    ∧ t.flag F.MSS_ZEROISE_TAMPER_SEEN = false ∧ OnlyFields [F.MSS_ZEROISE_ZEROISED, F.MSS_ZEROISE_TAMPER_SEEN] s t) ∧
  (s.keyOpen .mss = true → s.mss.activateHandle = 0 → s.handle? 0 = none → Completes (.confirm (.core 0 true)) s fun t =>
    t.flag F.MSS_FW_TRIAL_ARMED = false ∧ t.flag F.MSS_FW_TRIAL_TRIED = false ∧ t.mss.staged = s.mss.staged
      ∧ t.mss.preferred = (if s.fld F.MSS_BOOT_IMAGE = 0 then s.mss.preferred else s.fld F.MSS_BOOT_IMAGE)) ∧
  (s.keyOpen .mss = true → v.toNat.testBit 31 = true → s.fld F.MSS_FW_ROLLBACK_COUNT < bitsOf v.toNat 8 6 →
    bitsOf v.toNat 8 6 ≤ s.mss.runSec → s.flag F.MSS_FW_TRIAL_ARMED = false → Completes (.raise (.core 0 true) v) s fun t =>
      t.fld F.MSS_FW_ROLLBACK_COUNT = bitsOf v.toNat 8 6 ∧ t.keyOpen .mss = false
      ∧ OnlyFields [F.MSS_FW_ROLLBACK_COUNT, F.MSS_FW_ROLLBACK_TO] { s with gctl := t.gctl } t) ∧
  (s.keyOpen .mss = true → v.toNat.testBit 31 = true → bitsOf v.toNat 8 6 ≤ s.fld F.MSS_FW_ROLLBACK_COUNT →
    exec (.raise (.core 0 true) v) s = .next o) ∧
  (Completes .vddIoRemoved s fun t => t.flag F.MSS_ZEROISE_ZEROISED = false ∧ t.flag F.MSS_ZEROISE_ZEROISE_FAIL = false
    ∧ t.flag F.MSS_ZEROISE_TAMPER_SEEN = false ∧ t.flag F.MSS_FW_TRIAL_ARMED = false ∧ t.flag F.MSS_FW_TRIAL_TRIED = false
    ∧ t.mss.scratchDenied = s.flag F.MSS_ZEROISE_BUSY ∧ t.mss.pairKey = s.mss.pairKey) ∧
  (∀ m, Completes (.gctlDevnumRead m) s fun t => t.rdataOf m = s.reg R.GCTL_DEVNUM_LO ∧ t.regs = s.regs
    ∧ ∃ l ∈ t.latches, l.master = masterIdx m ∧ l.off = R.GCTL_DEVNUM_HI ∧ l.value = s.reg R.GCTL_DEVNUM_HI)

/-- The five operations of MSS_KEYLOAD run for core 0 in machine mode with the key open, in the life-cycle states R440 gives them,
outside zeroisation, on the words of the key-load registers (R436, R440). -/
def Obligations.KeyLoad : Prop := ∀ s : State,
  let o (op : Nat) := (s.setKey .mss false).setFld F.MSS_KEYLOAD_CTL_OP op
  (∀ m, isCore0Machine m = false →
    exec (.owner m) s = .next (s.writeRefused m R.MSS_KEYLOAD_CTL) ∧ exec (.install m) s = .next (s.writeRefused m R.MSS_KEYLOAD_CTL) ∧
    exec (.load m) s = .next (s.writeRefused m R.MSS_KEYLOAD_CTL) ∧ exec (.rotate m) s = .next (s.writeRefused m R.MSS_KEYLOAD_CTL) ∧
    exec (.clear m) s = .next (s.writeRefused m R.MSS_KEYLOAD_CTL)) ∧
  (s.keyOpen .mss = false → exec (.owner (.core 0 true)) s = .next (s.logEvent Ev.KEY_REFUSED noSource [])) ∧
  (s.keyOpen .mss = true → s.flag F.MSS_ZEROISE_BUSY = true → exec (.install (.core 0 true)) s = .next ((o 2).keyRefused 4)) ∧
  (s.keyOpen .mss = true → s.flag F.MSS_ZEROISE_BUSY = false →
    (s.lifeCycle = 0 → s.mss.ownerHash = [] → exec (.owner (.core 0 true)) s = .next ((((o 1).updMss fun x =>
      { x with ownerHash := s.keyloadBytes 12 }).setFlag F.MSS_LC_STATE_OWNER_KEY true).keyDone [])) ∧
    (s.lifeCycle = 0 → s.mss.ownerHash ≠ [] → exec (.owner (.core 0 true)) s = .next ((o 1).keyRefused 5)) ∧
    (s.lifeCycle ≠ 0 → exec (.owner (.core 0 true)) s = .next ((o 1).keyRefused 1)) ∧
    (s.lifeCycle ≠ 1 → exec (.install (.core 0 true)) s = .next ((o 2).keyRefused 1)) ∧
    (s.lifeCycle ≠ 1 → s.lifeCycle ≠ 2 → exec (.load (.core 0 true)) s = .next ((o 3).keyRefused 1) ∧
      exec (.rotate (.core 0 true)) s = .next ((o 4).keyRefused 1)) ∧
    (s.lifeCycle = 1 → exec (.install (.core 0 true)) s = .next (((o 2).setPairKey (some (s.keyloadBytes 8))).keyDone
      (keyWrap kekBytes (s.keyloadBytes 8)))) ∧
    (s.lifeCycle = 1 ∨ s.lifeCycle = 2 → exec (.load (.core 0 true)) s = .next
      (match keyUnwrap kekBytes (s.keyloadBytes 10) with
      | some k => ((o 3).setPairKey (some k)).keyDone []
      | none => (o 3).keyRefused 2)) ∧
    (s.lifeCycle = 1 ∨ s.lifeCycle = 2 → s.mss.pairKey = none → exec (.rotate (.core 0 true)) s = .next ((o 4).keyRefused 3)) ∧
    (∀ old, s.lifeCycle = 1 ∨ s.lifeCycle = 2 → s.mss.pairKey = some old → exec (.rotate (.core 0 true)) s = .next
      (match keyUnwrap old (s.keyloadBytes 10) with
      | some k => ((o 4).setPairKey (some k)).keyDone (keyWrap kekBytes k)
      | none => (o 4).keyRefused 2)) ∧
    (s.lifeCycle < 4 → exec (.clear (.core 0 true)) s = .next (((o 5).setPairKey none).keyDone [])))

-- I3C target, mailbox and recovery (spec 16) ------------------------------------------------------------------------------------

/-- The common command codes of a target that is on the bus: event enables, the dynamic address, the length limits, what the GET codes
return, and the reset action, which the reset pattern then takes; off the bus a code is not acknowledged (R468, R469). -/
def Obligations.CommonCommandCodes : Prop := ∀ s : State,
  (s.i3cUp = true →
    (∀ b, Completes (.enec b) s fun t => t.flag F.I3CT_STAT_IBI_EN = (b || s.flag F.I3CT_STAT_IBI_EN) ∧ t.i3c.nacked = false
      ∧ OnlyFields [F.I3CT_STAT_IBI_EN] { s with i3c := t.i3c } t) ∧
    (∀ b, Completes (.disec b) s fun t => t.flag F.I3CT_STAT_IBI_EN = (!b && s.flag F.I3CT_STAT_IBI_EN) ∧ t.i3c.nacked = false
      ∧ OnlyFields [F.I3CT_STAT_IBI_EN] { s with i3c := t.i3c } t) ∧
    (Completes .rstdaa s fun t => t.flag F.I3CT_STAT_DA_VALID = false ∧ t.fld F.I3CT_STAT_DYN_ADDR = 0 ∧ t.i3c.nacked = false
      ∧ OnlyFields [F.I3CT_STAT_DA_VALID, F.I3CT_STAT_DYN_ADDR] { s with i3c := t.i3c } t) ∧
    (∀ a : BitVec 7, s.flag F.I3CT_STAT_DA_VALID = false → Completes (.entdaa a) s fun t => t.flag F.I3CT_STAT_DA_VALID = true
      ∧ t.fld F.I3CT_STAT_DYN_ADDR = a.toNat ∧ t.i3c = { s.i3c with nacked := false, reply := beBytes 6 s.pid ++ [bcr, dcr] }) ∧
    (∀ a, s.flag F.I3CT_STAT_DA_VALID = true → exec (.entdaa a) s = .next s.nack) ∧
    (∀ v : BitVec 16, exec (.setmwl v) s = .next { s with i3c := { s.i3c with
      mwl := clampNat 16 4101 v.toNat, nacked := false, reply := [] } }) ∧
    (∀ v : BitVec 16, exec (.setmrl v) s = .next { s with i3c := { s.i3c with
      mrl := clampNat 16 4096 v.toNat, nacked := false, reply := [] } }) ∧
    exec .getmwl s = .next (s.ack (beBytes 2 s.i3c.mwl)) ∧
    exec .getmrl s = .next (s.ack (beBytes 2 s.i3c.mrl ++ [1])) ∧
    exec .getpid s = .next (s.ack (beBytes 6 s.pid)) ∧ exec .getbcr s = .next (s.ack [0x27]) ∧
    exec .getdcr s = .next (s.ack [0x00]) ∧ exec .getmxds s = .next (s.ack [0, 0]) ∧
    (Completes .getcaps s fun t => t.i3c.reply.head? = some 1 ∧ t = { s with i3c := t.i3c }) ∧
    (Completes .getstatus s fun t => t.i3c.protoErr = false
      ∧ t.i3c.reply = beBytes 2 (min 15 s.i3c.ibis.length + 32 * s.i3c.protoErr.toNat) ∧ t = { s with i3c := t.i3c }) ∧
    (∀ d : Byte, d.toNat ≤ 2 → exec (.rstact d false) s = .next { s with i3c := { s.i3c with
      rstact := some d.toNat, nacked := false, reply := [] } }) ∧
    (∀ d : Byte, 2 < d.toNat → exec (.rstact d false) s = .next s.nack) ∧
    exec (.rstact 1 true) s = .next (s.ack [Config.resetTimeCode 1])) ∧
  (s.i3cUp = false → exec .getpid s = .next s.nack ∧ exec .rstdaa s = .next s.nack ∧ exec .privateRead s = .next s.nack
    ∧ exec (.targetResetPattern []) s = .next s) ∧
  (s.i3cUp = true → (s.i3c.rstact = some 0 → exec (.targetResetPattern []) s = .next s) ∧
    (∀ b, s.i3c.rstact = some 2 → exec (.targetResetPattern b) s = .next (s.mgmtRestart 4 b)) ∧
    (s.i3c.rstact = none → exec (.targetResetPattern []) s = .next (s.peripheralReset [])))

/-- Private transfers and HDR-DDR: a write of whole words reaches the bridge, SET_READ of 1 to 1,024 words keeps them for the next read,
which returns them once; other operations are bad; parity and HDR errors are counted; HDR-DDR writes and reads act as private ones; the
oldest in-band interrupt waits until it is acknowledged (R470 to R472). -/
def Obligations.PrivateTransfers : Prop := ∀ s : State, s.i3cUp = true →
  (∀ bytes, exec (.privateWriteWrite bytes true) s = .next (((s.incFld F.I3CT_ERR_PARITY).updI3c fun x =>
    { x with protoErr := true }).ack)) ∧
  (∀ off v : Word, exec (.privateWriteWrite (0x01#8 :: (leBytes 4 off.toNat ++ leBytes 4 v.toNat)) false) s =
    .next ((s.bridgeWrite off.toNat [v]).ack)) ∧
  (∀ b : List Byte, 8 ≤ b.length → b.length % 4 = 0 → exec (.privateWriteWrite (0x01#8 :: b) false) s =
    .next ((s.bridgeWrite (leAt b 0 4) ((List.range (b.length / 4 - 1)).map fun k => BitVec.ofNat 32 (leAt b (4 + 4 * k) 4))).ack)) ∧
  (exec (.privateWriteWrite [0x03#8] false) s = .next s.badOp) ∧
  (∀ (off : Word) (n : BitVec 16), 1 ≤ n.toNat → n.toNat ≤ 1024 → exec (.setRead off n) s =
    .next (((s.bridgeRead off.toNat n.toNat).2.updI3c fun x => { x with words := some (s.bridgeRead off.toNat n.toNat).1 }).ack)) ∧
  (∀ (off : Word) (n : BitVec 16), n.toNat = 0 ∨ 1024 < n.toNat → exec (.setRead off n) s = .next s.badOp) ∧
  (∀ ws, s.i3c.words = some ws → Completes .privateRead s fun t => t.i3c.words = none ∧ t.i3c.nacked = false
    ∧ t.i3c.reply = ws.flatMap (fun w => leBytes 4 w.toNat) ∧ t = { s with i3c := t.i3c }) ∧
  (s.i3c.words = none → exec .privateRead s = .next s.nack) ∧
  (s.flag F.I3CT_STAT_DA_VALID = true →
    (∀ c bytes, Completes (.hdrDdrWrite c bytes true) s fun t => t.i3c.protoErr = true ∧ t.fld F.I3CT_ERR_HDR_ERR =
      satAdd F.I3CT_ERR_HDR_ERR.width (s.fld F.I3CT_ERR_HDR_ERR) 1 ∧ OnlyFields [F.I3CT_ERR_HDR_ERR] { s with i3c := t.i3c } t) ∧
    (∀ bytes, exec (.hdrDdrWrite 2 bytes false) s = exec (.privateWriteWrite (2 :: bytes) false) s) ∧
    (∀ bytes, exec (.hdrDdrWrite 3 bytes false) s = .next s.nack) ∧
    (exec (.hdrDdrRead 0x82 false) s = exec .privateRead s) ∧ (exec (.hdrDdrRead 0x81 false) s = .next s.nack) ∧
    (∀ b rest, s.flag F.I3CT_STAT_IBI_EN = true → s.i3c.ibis = b :: rest →
      exec (.busAvailableIbi false) s = .next s ∧
      Completes (.busAvailableIbi true) s fun t => t.i3c.ibis = rest ∧ t.i3c.reply = [BitVec.ofNat 8 b]
        ∧ t.fld F.I3CT_STAT_IBI_PENDING = rest.length % 2 ^ F.I3CT_STAT_IBI_PENDING.width)) ∧
  (s.flag F.I3CT_STAT_DA_VALID = false → ∀ c bytes bad, exec (.hdrDdrWrite c bytes bad) s = .next s.nack
    ∧ exec (.hdrDdrRead c bad) s = .next s.nack ∧ exec (.busAvailableIbi true) s = .next s)

/-- The mailbox is enabled while ring 15 is idle, and keeps a disable for later while it works; it takes a command from the I3C bus while
it is IDLE, ends a transfer with its last unit, and is broken off by the unit timeout; the read of a completion's last word frees it; outside
RECOVERY the recovery commands do nothing, in it they are taken from their owner alone, and an image that verifies is stored, preferred and
started (R473 to R478). -/
def Obligations.MailboxAndRecovery : Prop := ∀ s : State,
  (∀ m, s.fld (F.HIF_CR_STAT_STATE 15) = 0 → Completes (.mbxEnWrite m 0xC0000000#32) s fun t => t.flag F.I3CT_CTL_EN = true
    ∧ t.flag F.I3CT_CTL_MBX_EN = true ∧ t.flag F.HIF_STATE_MAILBOX_15 = true) ∧
  (∀ m, s.fld (F.HIF_CR_STAT_STATE 15) = 1 → Completes (.mbxEnWrite m 0xC0000000#32) s fun t =>
    t.flag F.I3CT_CTL_MBX_EN = s.flag F.I3CT_CTL_MBX_EN
    ∧ t.fld F.I3CT_ERR2_MBX_REFUSED = satAdd F.I3CT_ERR2_MBX_REFUSED.width (s.fld F.I3CT_ERR2_MBX_REFUSED) 1) ∧
  (∀ m, s.mbx ≠ 0 → Completes (.mbxEnWrite m 0x80000000#32) s fun t => t.i3c.disableHeld = true
    ∧ t.flag F.I3CT_CTL_MBX_EN = s.flag F.I3CT_CTL_MBX_EN) ∧
  (∀ m, m ≠ .i3c → exec (.mbxGo m) s = .next (s.incFld F.I3CT_ERR_REFUSED) ∧
    exec (.mbxUnitDone m) s = .next (s.incFld F.I3CT_ERR_REFUSED)) ∧
  (s.flag F.I3CT_CTL_MBX_EN = true → s.mbx ≠ 0 → Completes (.mbxGo .i3c) s fun t => t.fld F.I3CT_ERR2_MBX_BUSY =
    satAdd F.I3CT_ERR2_MBX_BUSY.width (s.fld F.I3CT_ERR2_MBX_BUSY) 1 ∧ t.mbx = s.mbx ∧ t.hif = s.hif) ∧
  (let u := s.setFld F.I3CT_MBX_CTL_UNIT_TO_MS (s.reg R.I3CT_MBX_CTL).toNat
   s.flag F.I3CT_CTL_MBX_EN = true → s.mbx = 0 → exec (.mbxGo .i3c) s =
    .next (((u.setFld F.I3CT_MBX_STAT_STATE 1).icRaise 47).takeDescriptor 15
      (((u.setFld F.I3CT_MBX_STAT_STATE 1).icRaise 47).regBytes (R.I3CT_MBX_DESC 0) 16))) ∧
  (s.mbx = 3 → s.i3c.mbxOut = false → s.i3c.mbxTotal ≤ s.i3c.mbxPos → Completes (.mbxUnitDone .i3c) s fun t => t.mbx = 1
    ∧ t.hif.handles = s.hif.handles.map fun e => if e.handle = s.i3c.mbxHandle then { e with ready := true } else e) ∧
  (∀ w, s.mbx = 0 ∨ s.mbx = 1 ∨ w < s.unitTimeoutMs → exec (.mbxUnitTimeout w) s = .next s) ∧
  (∀ e w, s.mbx = 2 → s.i3c.mbxOut = true → s.handle? s.i3c.mbxHandle = some e → s.unitTimeoutMs ≤ w → exec (.mbxUnitTimeout w) s =
    .next ((s.setFld F.I3CT_MBX_STAT_STATE 1).faultEnd s.i3c.mbxHandle St.CPL_TIMEOUT (e.bufOffset + s.i3c.mbxPos))) ∧
  (∀ m, Completes (.mbxCplRead m 0) s fun t => t.rdataOf m = s.reg (R.I3CT_MBX_CPL 0) ∧ t.regs = s.regs ∧ t.i3c = s.i3c) ∧
  (∀ m, s.i3c.cplUnread = true → s.i3c.disableHeld = false → s.hif.mbxOut = [] →
    (s.reg (R.I3CT_MBX_CPL 1)).toNat.testBit 29 = true → (s.reg (R.I3CT_MBX_CPL 1)).toNat.testBit 28 = false →
    Completes (.mbxCplRead m 3) s fun t => t.mbx = 0 ∧ t.i3c.cplUnread = false) ∧
  (s.rcv = 0 → ∀ m, exec (.rcvStart m) s = .next s ∧ exec (.rcvUnitDone m) s = .next s ∧ exec (.rcvAbort m) s = .next s) ∧
  (s.rcv ≠ 0 → s.rcvForeign .i3c = false → exec (.rcvStart .i3c) s = .next (s.rcvStart .i3c) ∧
    exec (.rcvUnitDone .i3c) s = .next s.rcvUnitDone ∧ exec (.rcvAbort .i3c) s = .next s.rcvAbort) ∧
  (s.rcv ≠ 0 → ∀ c b, rcvMaster (.core c b) = false → exec (.rcvStart (.core c b)) s = .next (s.incFld F.I3CT_ERR_REFUSED)) ∧
  (∀ ok, s.rcv ≠ 3 → exec (.rcvVerifyDone ok) s = .next s) ∧
  (s.rcv = 3 → exec (.rcvVerifyDone false) s = .next (s.rcvFail s.rcvSlot 3)) ∧
  (s.rcv = 3 → exec (.rcvVerifyDone true) s = .next (if s.imageFault s.i3c.rcvData = 0 then (((s.setSlot s.rcvSlot
    s.i3c.rcvData).updMss fun x => { x with preferred := s.rcvSlot }).setRcv 4).bootSlot s.rcvSlot
    else s.rcvFail s.rcvSlot (s.imageFault s.i3c.rcvData)))

-- Test (spec 17) -----------------------------------------------------------------------------------------------------------------

/-- Test loops, generators and checkers: a request on a lane in use is refused outside the fence, an accepted one is held for the
boundary, a loop ends where a condition of R483 holds; the checker locks on an ACTIVE receiver, counts while it is locked, loses lock above
a quarter of a window, and is read and cleared (R481 to R487). -/
def Obligations.TestLanes : Prop := ∀ (n : LaneNo) (s : State),
  (∀ v : Word, v.toNat % 4 ≠ 0 → s.laneInUse n = true → s.fenced = false → Completes (.testLoopWrite n v) s fun t =>
    t.fld (F.TEST_LOOP_STATUS n) = 2 ∧ OnlyFields [F.TEST_LOOP_STATUS n] s t) ∧
  (∀ v : Word, s.laneInUse n = false → exec (.testLoopWrite n v) s =
    .next ((s.setFld (F.TEST_LOOP_MODE n) (v.toNat % 4)).testRequest n)) ∧
  ((s.testLane n).active ≠ 0 → s.loopEnds n = true → ∀ b, Completes (.loopEnd n b) s fun t => t.fld (F.TEST_LOOP_MODE n) = 0
    ∧ t.flag (F.TEST_PRBS_GEN_EN n) = false ∧ t.flag (F.TEST_PRBS_GEN_SENDING n) = false ∧ t.fld (F.TEST_LOOP_STATUS n) = 3
    ∧ (t.testLane n).active = 0 ∧ (t.testLane n).notice = none ∧ ∀ m, m ≠ n.val → t.testLane m = s.testLane m) ∧
  (s.loopEnds n = false → exec (.loopEnd n false) s = .next s) ∧
  (∀ v : Word, v.toNat.testBit 31 = true → s.laneInUse n = true → s.fenced = false → Completes (.prbsGenEn n v) s fun t =>
    t.fld (F.TEST_LOOP_STATUS n) = 2 ∧ OnlyFields [F.TEST_LOOP_STATUS n] s t) ∧
  (∀ v : Word, v.toNat.testBit 31 = false → v.toNat.testBit 30 = false → exec (.prbsGenEn n v) s =
    .next (((s.setFlag (F.TEST_PRBS_GEN_EN n) false).setFld (F.TEST_PRBS_GEN_PATTERN n) v.toNat).testRequest n)) ∧
  (Completes (.inject n) s fun t => (t.testLane n) = { s.testLane n with inject := true }
    ∧ (∀ m, m ≠ n.val → t.testLane m = s.testLane m) ∧ t = { s with test := t.test }) ∧
  (∀ v : Word, v.toNat.testBit 31 = false → v.toNat.testBit 26 = false → v.toNat.testBit 30 = false → Completes (.prbsChkEn n v) s fun t =>
    t.flag (F.TEST_PRBS_CHK_EN n) = false ∧ t.flag (F.TEST_PRBS_CHK_LOCKED n) = false
    ∧ t.flag (F.TEST_PRBS_CHK_LOCK_LOST n) = s.flag (F.TEST_PRBS_CHK_LOCK_LOST n) ∧ t.test = s.test) ∧
  (Completes (.checkerClear n) s fun t => (t.testLane n).chkBits = 0 ∧ (t.testLane n).chkErrs = 0
    ∧ t = { s with test := t.test }) ∧
  (s.flag (F.TEST_PRBS_CHK_EN n) = true → s.rxState n = 0 → Completes (.checkerLocked n) s fun t =>
    t.flag (F.TEST_PRBS_CHK_LOCKED n) = true ∧ OnlyFields [F.TEST_PRBS_CHK_LOCKED n] s t) ∧
  (s.flag (F.TEST_PRBS_CHK_EN n) = false → exec (.checkerLocked n) s = .next s) ∧
  (∀ b e w, s.flag (F.TEST_PRBS_CHK_LOCKED n) = true → s.rxState n = 0 → 16384 < w → Completes (.lockLost n b e w) s fun t =>
    t.flag (F.TEST_PRBS_CHK_LOCKED n) = false ∧ t.flag (F.TEST_PRBS_CHK_LOCK_LOST n) = true
    ∧ (t.testLane n).chkBits = satAdd 48 (s.testLane n).chkBits b ∧ (t.testLane n).chkErrs = satAdd 48 (s.testLane n).chkErrs e) ∧
  (∀ b e w, w ≤ 16384 ∨ s.rxState n ≠ 0 → exec (.lockLost n b e w) s = .next s) ∧
  (∀ m b e, s.flag (F.TEST_PRBS_CHK_LOCKED n) = true → s.rxState n = 0 → Completes (.prbsCountRead m n b e) s fun t =>
    (t.testLane n).chkBits = satAdd 48 (s.testLane n).chkBits b
    ∧ t.rdataOf m = BitVec.ofNat 32 (satAdd 48 (s.testLane n).chkBits b) ∧ t.regs = s.regs) ∧
  (∀ m b e, s.flag (F.TEST_PRBS_CHK_LOCKED n) = false ∨ s.rxState n ≠ 0 → Completes (.prbsCountRead m n b e) s fun t =>
    t.rdataOf m = BitVec.ofNat 32 (s.testLane n).chkBits ∧ t.test = s.test ∧ t.regs = s.regs)

/-- The test access port: each instruction selects its register; the pin-driving ones act as SAMPLE while PORST_N is high; production
opcodes are current only in BLANK and RETURNED and are BYPASS otherwise; Test-Logic-Reset selects IDCODE; nothing but the test
logic changes (R491 to R495). The state of the timing port's lock is shown (R282). -/
def Obligations.TestAccessPort : Prop := ∀ (s : State) (pins : List Bool),
  let sel (ir dr : Nat) := { s with jtag := { s.jtag with ir := ir, dr := dr } }
  let cap (ir : Nat) := { s with jtag := { s.jtag with ir := ir, sample := pins, dr := 0 } }
  exec .idcode s = .next (sel 0x01 s.idcode) ∧ s.idcode % 2 = 1 ∧ s.idcode / 2 ^ 12 % 2 ^ 16 = 0x7128 ∧
  exec (.sample pins) s = .next (cap 0x02) ∧
  exec (.preload pins) s = .next { s with jtag := { s.jtag with ir := 0x03, preload := pins, dr := 0 } } ∧
  exec (.extest pins) s = .next (cap 0x04) ∧ exec (.extestPulse pins) s = .next (cap 0x05) ∧
  exec (.extestTrain pins) s = .next (cap 0x06) ∧
  exec (.clamp pins) s = .next (if s.gctl.porstLow then sel 0x07 0 else cap 0x07) ∧
  exec (.highz pins) s = .next (if s.gctl.porstLow then sel 0x08 0 else cap 0x08) ∧
  exec .ecidcode s = .next (sel 0x09 Config.deviceNumber.toNat) ∧ exec .bypass s = .next (sel 0xFF 0) ∧
  (∀ op : BitVec 8, 0x80 ≤ op.toNat → op.toNat ≤ 0xFE → s.lifeCycle = 0 ∨ s.lifeCycle = 3 →
    exec (.productionTestOpcode op) s = .next (sel op.toNat 0)) ∧
  (∀ op : BitVec 8, s.lifeCycle = 1 ∨ s.lifeCycle = 2 ∨ op.toNat < 0x80 → exec (.productionTestOpcode op) s = .next (sel 0xFF 0)) ∧
  exec .testLogicReset s = .next (sel 0x01 s.idcode) ∧
  (∀ lock fault, Completes (.timingPortBlockLock lock fault) s fun t => t.flag F.TIME_PTP_STAT_BLOCK_LOCK = lock
    ∧ t.flag F.TIME_PTP_STAT_LINK_FAULT = fault ∧ OnlyFields [F.TIME_PTP_STAT_BLOCK_LOCK, F.TIME_PTP_STAT_LINK_FAULT] s t)
end

