-- ==== Sys2Proof/Laws/Exec.lean ====
section
/-!
SUPPORT. Which meaning each command runs, so that a proof never unfolds the dispatch.
-/
namespace Sys2Proof.Machine
open Sys2Proof

@[simp] theorem exec_nop {h} (s : State) : exec (.nop h) s = execNop h s := rfl
@[simp] theorem exec_laneTrace {h sg obj} (s : State) : exec (.laneTrace h sg obj) s = execLaneTrace h sg obj s := rfl
@[simp] theorem exec_laneCmc {h} (s : State) : exec (.laneCmc h) s = execLaneCmc h s := rfl
@[simp] theorem exec_circSet {h} (s : State) : exec (.circSet h) s = execCircSet h s := rfl
@[simp] theorem exec_mergeReanchor {h} (s : State) : exec (.mergeReanchor h) s = execMergeReanchor h s := rfl
@[simp] theorem exec_takeCompile {h sg obj} (s : State) : exec (.takeCompile h sg obj) s = execTakeCompile h sg obj s := rfl
@[simp] theorem exec_takeIncrement {h sg obj} (s : State) : exec (.takeIncrement h sg obj) s = execTakeIncrement h sg obj s := rfl
@[simp] theorem exec_takeDiscard {h} (s : State) : exec (.takeDiscard h) s = execTakeDiscard h s := rfl
@[simp] theorem exec_takeSplice {h} (s : State) : exec (.takeSplice h) s = execTakeSplice h s := rfl
@[simp] theorem exec_spliceCancel {h} (s : State) : exec (.spliceCancel h) s = execSpliceCancel h s := rfl
@[simp] theorem exec_reportTake {h sg} (s : State) : exec (.reportTake h sg) s = execReportTake h sg s := rfl
@[simp] theorem exec_dailies {h sg} (s : State) : exec (.dailies h sg) s = execDailies h sg s := rfl
@[simp] theorem exec_refForce {h} (s : State) : exec (.refForce h) s = execRefForce h s := rfl
@[simp] theorem exec_refSeed {h sg obj} (s : State) : exec (.refSeed h sg obj) s = execRefSeed h sg obj s := rfl
@[simp] theorem exec_pairJoin {h} (s : State) : exec (.pairJoin h) s = execPairJoin h s := rfl
@[simp] theorem exec_pairHandover {h} (s : State) : exec (.pairHandover h) s = execPairHandover h s := rfl
@[simp] theorem exec_pairSolo {h} (s : State) : exec (.pairSolo h) s = execPairSolo h s := rfl
@[simp] theorem exec_fence {h} (s : State) : exec (.fence h) s = execFence h s := rfl
@[simp] theorem exec_cmcSend {h sg obj} (s : State) : exec (.cmcSend h sg obj) s = execCmcSend h sg obj s := rfl
@[simp] theorem exec_logRead {h sg} (s : State) : exec (.logRead h sg) s = execLogRead h sg s := rfl
@[simp] theorem exec_fwStage {h sg obj flashOk} (s : State) : exec (.fwStage h sg obj flashOk) s = execFwStage h sg obj flashOk s := rfl
@[simp] theorem exec_fwActivate {h bursts} (s : State) : exec (.fwActivate h bursts) s = execFwActivate h bursts s := rfl
@[simp] theorem exec_facetRetire {h} (s : State) : exec (.facetRetire h) s = execFacetRetire h s := rfl
@[simp] theorem exec_facetReinstate {h} (s : State) : exec (.facetReinstate h) s = execFacetReinstate h s := rfl
@[simp] theorem exec_eyeHistogram {h sg obj} (s : State) : exec (.eyeHistogram h sg obj) s = execEyeHistogram h sg obj s := rfl
@[simp] theorem exec_registerWrite {m off v} (s : State) : exec (.registerWrite m off v) s = execRegisterWrite m off v s := rfl
@[simp] theorem exec_readClear {m off} (s : State) : exec (.readClear m off) s = execReadClear m off s := rfl
@[simp] theorem exec_regAccessSize {m off bytes write} (s : State) : exec (.regAccessSize m off bytes write) s = execRegAccessSize m off bytes write s := rfl
@[simp] theorem exec_keyWrite {b v} (s : State) : exec (.keyWrite b v) s = execKeyWrite b v s := rfl
@[simp] theorem exec_keyTimeout {b} (s : State) : exec (.keyTimeout b) s = execKeyTimeout b s := rfl
@[simp] theorem exec_gctlAlive {v} (s : State) : exec (.gctlAlive v) s = execGctlAlive v s := rfl
@[simp] theorem exec_fenceReq {v} (s : State) : exec (.fenceReq v) s = execFenceReq v s := rfl
@[simp] theorem exec_flywheel (s : State) : exec .flywheel s = execFlywheel s := rfl
@[simp] theorem exec_flywheelTimeout (s : State) : exec .flywheelTimeout s = execFlywheelTimeout s := rfl
@[simp] theorem exec_fenceTakesEffect (s : State) : exec .fenceTakesEffect s = execFenceTakesEffect s := rfl
@[simp] theorem exec_internalLink (s : State) : exec .internalLink s = execInternalLink s := rfl
@[simp] theorem exec_porstNAssert (s : State) : exec .porstNAssert s = execPorstNAssert s := rfl
@[simp] theorem exec_porstNRelease {straps tamperLow} (s : State) : exec (.porstNRelease straps tamperLow) s = execPorstNRelease straps tamperLow s := rfl
@[simp] theorem exec_startupFacetTest {failed} (s : State) : exec (.startupFacetTest failed) s = execStartupFacetTest failed s := rfl
@[simp] theorem exec_sramStartupTest {bad} (s : State) : exec (.sramStartupTest bad) s = execSramStartupTest bad s := rfl
@[simp] theorem exec_bootImageChoice (s : State) : exec .bootImageChoice s = execBootImageChoice s := rfl
@[simp] theorem exec_refclkFail {inputB} (s : State) : exec (.refclkFail inputB) s = execRefclkFail inputB s := rfl
@[simp] theorem exec_refclkReturn {inputB both} (s : State) : exec (.refclkReturn inputB both) s = execRefclkReturn inputB both s := rfl
@[simp] theorem exec_xoLost (s : State) : exec .xoLost s = execXoLost s := rfl
@[simp] theorem exec_xoReturn (s : State) : exec .xoReturn s = execXoReturn s := rfl
@[simp] theorem exec_tamper (s : State) : exec .tamper s = execTamper s := rfl
@[simp] theorem exec_zeroisationEnd {ok} (s : State) : exec (.zeroisationEnd ok) s = execZeroisationEnd ok s := rfl
@[simp] theorem exec_sensorSample {temps volts currs} (s : State) : exec (.sensorSample temps volts currs) s = execSensorSample temps volts currs s := rfl
@[simp] theorem exec_thermalWarnClear (s : State) : exec .thermalWarnClear s = execThermalWarnClear s := rfl
@[simp] theorem exec_voltageAlarmClear {n} (s : State) : exec (.voltageAlarmClear n) s = execVoltageAlarmClear n s := rfl
@[simp] theorem exec_localReelBoundary (s : State) : exec .localReelBoundary s = execLocalReelBoundary s := rfl
@[simp] theorem exec_coreReelStart {errors} (s : State) : exec (.coreReelStart errors) s = execCoreReelStart errors s := rfl
@[simp] theorem exec_reelSlip {n fast} (s : State) : exec (.reelSlip n fast) s = execReelSlip n fast s := rfl
@[simp] theorem exec_signalLoss {n mv sinceSnapNs} (s : State) : exec (.signalLoss n mv sinceSnapNs) s = execSignalLoss n mv sinceSnapNs s := rfl
@[simp] theorem exec_signalReturn {n mv} (s : State) : exec (.signalReturn n mv) s = execSignalReturn n mv s := rfl
@[simp] theorem exec_los {n mv} (s : State) : exec (.los n mv) s = execLos n mv s := rfl
@[simp] theorem exec_losClear {n mv} (s : State) : exec (.losClear n mv) s = execLosClear n mv s := rfl
@[simp] theorem exec_lol {n ppm badPhase samples} (s : State) : exec (.lol n ppm badPhase samples) s = execLol n ppm badPhase samples s := rfl
@[simp] theorem exec_lolClear {n ppm badPhase samples} (s : State) : exec (.lolClear n ppm badPhase samples) s = execLolClear n ppm badPhase samples s := rfl
@[simp] theorem exec_fastConvergeEnd {n} (s : State) : exec (.fastConvergeEnd n) s = execFastConvergeEnd n s := rfl
@[simp] theorem exec_freeze {n w} (s : State) : exec (.freeze n w) s = execFreeze n w s := rfl
@[simp] theorem exec_freezeEnd {n w} (s : State) : exec (.freezeEnd n w) s = execFreezeEnd n w s := rfl
@[simp] theorem exec_tapSnapshot {n w lms} (s : State) : exec (.tapSnapshot n w lms) s = execTapSnapshot n w lms s := rfl
@[simp] theorem exec_laneFofs {n mean lolSeen} (s : State) : exec (.laneFofs n mean lolSeen) s = execLaneFofs n mean lolSeen s := rfl
@[simp] theorem exec_laneCtlWrite {n v} (s : State) : exec (.laneCtlWrite n v) s = execLaneCtlWrite n v s := rfl
@[simp] theorem exec_transmitterStop {n} (s : State) : exec (.transmitterStop n) s = execTransmitterStop n s := rfl
@[simp] theorem exec_transmitterStart {n} (s : State) : exec (.transmitterStart n) s = execTransmitterStart n s := rfl
@[simp] theorem exec_receiverStopDone {n} (s : State) : exec (.receiverStopDone n) s = execReceiverStopDone n s := rfl
@[simp] theorem exec_receiverStart {n t} (s : State) : exec (.receiverStart n t) s = execReceiverStart n t s := rfl
@[simp] theorem exec_laneTxFfeWrite {n v} (s : State) : exec (.laneTxFfeWrite n v) s = execLaneTxFfeWrite n v s := rfl
@[simp] theorem exec_laneTapLoad {n v} (s : State) : exec (.laneTapLoad n v) s = execLaneTapLoad n v s := rfl
@[simp] theorem exec_pathDelayUpdate {snr} (s : State) : exec (.pathDelayUpdate snr) s = execPathDelayUpdate snr s := rfl
@[simp] theorem exec_blockHeader {n hdr prev offset} (s : State) : exec (.blockHeader n hdr prev offset) s = execBlockHeader n hdr prev offset s := rfl
@[simp] theorem exec_blockDecode {n raw prev} (s : State) : exec (.blockDecode n raw prev) s = execBlockDecode n raw prev s := rfl
@[simp] theorem exec_reelControl {n arrival} (s : State) : exec (.reelControl n arrival) s = execReelControl n arrival s := rfl
@[simp] theorem exec_reelSyncTimeout {n} (s : State) : exec (.reelSyncTimeout n) s = execReelSyncTimeout n s := rfl
@[simp] theorem exec_barExpiry {n} (s : State) : exec (.barExpiry n) s = execBarExpiry n s := rfl
@[simp] theorem exec_defectWindowEnd {n} (s : State) : exec (.defectWindowEnd n) s = execDefectWindowEnd n s := rfl
@[simp] theorem exec_timingWords {n} (s : State) : exec (.timingWords n) s = execTimingWords n s := rfl
@[simp] theorem exec_claimAndWitnessWords {n} (s : State) : exec (.claimAndWitnessWords n) s = execClaimAndWitnessWords n s := rfl
@[simp] theorem exec_defectReport {n} (s : State) : exec (.defectReport n) s = execDefectReport n s := rfl
@[simp] theorem exec_cmcSlice {n} (s : State) : exec (.cmcSlice n) s = execCmcSlice n s := rfl
@[simp] theorem exec_cmcBufferHold (s : State) : exec .cmcBufferHold s = execCmcBufferHold s := rfl
@[simp] theorem exec_laneTimCtlWrite {n v} (s : State) : exec (.laneTimCtlWrite n v) s = execLaneTimCtlWrite n v s := rfl
@[simp] theorem exec_laneThresholdWrite {n off v} (s : State) : exec (.laneThresholdWrite n off v) s = execLaneThresholdWrite n off v s := rfl
@[simp] theorem exec_steerRequest {n} (s : State) : exec (.steerRequest n) s = execSteerRequest n s := rfl
@[simp] theorem exec_steerFailed {n} (s : State) : exec (.steerFailed n) s = execSteerFailed n s := rfl
@[simp] theorem exec_arrivalMean {n} (s : State) : exec (.arrivalMean n) s = execArrivalMean n s := rfl
@[simp] theorem exec_splice (s : State) : exec .splice s = execSplice s := rfl
@[simp] theorem exec_seamReelEnd (s : State) : exec .seamReelEnd s = execSeamReelEnd s := rfl
@[simp] theorem exec_resyncDone {uncorrectable} (s : State) : exec (.resyncDone uncorrectable) s = execResyncDone uncorrectable s := rfl
@[simp] theorem exec_compileStart (s : State) : exec .compileStart s = execCompileStart s := rfl
@[simp] theorem exec_compileDone {time collided} (s : State) : exec (.compileDone time collided) s = execCompileDone time collided s := rfl
@[simp] theorem exec_repairPassDone {time} (s : State) : exec (.repairPassDone time) s = execRepairPassDone time s := rfl
@[simp] theorem exec_spliceArm (s : State) : exec .spliceArm s = execSpliceArm s := rfl
@[simp] theorem exec_spliceCtlCancel (s : State) : exec .spliceCtlCancel s = execSpliceCtlCancel s := rfl
@[simp] theorem exec_sswFacetBar {f} (s : State) : exec (.sswFacetBar f) s = execSswFacetBar f s := rfl
@[simp] theorem exec_facetErrorWindow (s : State) : exec .facetErrorWindow s = execFacetErrorWindow s := rfl
@[simp] theorem exec_facetTestPass {f failed} (s : State) : exec (.facetTestPass f failed) s = execFacetTestPass f failed s := rfl
@[simp] theorem exec_facetReinstatable {f} (s : State) : exec (.facetReinstatable f) s = execFacetReinstatable f s := rfl
@[simp] theorem exec_effectReel (s : State) : exec .effectReel s = execEffectReel s := rfl
@[simp] theorem exec_dailiesBoundary (s : State) : exec .dailiesBoundary s = execDailiesBoundary s := rfl
@[simp] theorem exec_periodicCapture (s : State) : exec .periodicCapture s = execPeriodicCapture s := rfl
@[simp] theorem exec_deferredCapture (s : State) : exec .deferredCapture s = execDeferredCapture s := rfl
@[simp] theorem exec_captureCopyDone (s : State) : exec .captureCopyDone s = execCaptureCopyDone s := rfl
@[simp] theorem exec_release (s : State) : exec .release s = execRelease s := rfl
@[simp] theorem exec_yield (s : State) : exec .yield s = execYield s := rfl
@[simp] theorem exec_takeover (s : State) : exec .takeover s = execTakeover s := rfl
@[simp] theorem exec_heartbeatFrame {f} (s : State) : exec (.heartbeatFrame f) s = execHeartbeatFrame f s := rfl
@[simp] theorem exec_heartbeatAbsent (s : State) : exec .heartbeatAbsent s = execHeartbeatAbsent s := rfl
@[simp] theorem exec_authHello {w} (s : State) : exec (.authHello w) s = execAuthHello w s := rfl
@[simp] theorem exec_authProof {w} (s : State) : exec (.authProof w) s = execAuthProof w s := rfl
@[simp] theorem exec_ack {w} (s : State) : exec (.ack w) s = execAck w s := rfl
@[simp] theorem exec_snapBegin {w} (s : State) : exec (.snapBegin w) s = execSnapBegin w s := rfl
@[simp] theorem exec_snapData {w} (s : State) : exec (.snapData w) s = execSnapData w s := rfl
@[simp] theorem exec_snapEnd {w} (s : State) : exec (.snapEnd w) s = execSnapEnd w s := rfl
@[simp] theorem exec_takeImage {w} (s : State) : exec (.takeImage w) s = execTakeImage w s := rfl
@[simp] theorem exec_takeDelta {w} (s : State) : exec (.takeDelta w) s = execTakeDelta w s := rfl
@[simp] theorem exec_prepared {w} (s : State) : exec (.prepared w) s = execPrepared w s := rfl
@[simp] theorem exec_order {w} (s : State) : exec (.order w) s = execOrder w s := rfl
@[simp] theorem exec_orderAck {w} (s : State) : exec (.orderAck w) s = execOrderAck w s := rfl
@[simp] theorem exec_takeDiscardRecord {w} (s : State) : exec (.takeDiscardRecord w) s = execTakeDiscardRecord w s := rfl
@[simp] theorem exec_journal {w} (s : State) : exec (.journal w) s = execJournal w s := rfl
@[simp] theorem exec_journalApply (s : State) : exec .journalApply s = execJournalApply s := rfl
@[simp] theorem exec_timeAlign {w} (s : State) : exec (.timeAlign w) s = execTimeAlign w s := rfl
@[simp] theorem exec_digest {w} (s : State) : exec (.digest w) s = execDigest w s := rfl
@[simp] theorem exec_digestResult {w} (s : State) : exec (.digestResult w) s = execDigestResult w s := rfl
@[simp] theorem exec_resyncReq {w} (s : State) : exec (.resyncReq w) s = execResyncReq w s := rfl
@[simp] theorem exec_handle {w} (s : State) : exec (.handle w) s = execHandle w s := rfl
@[simp] theorem exec_handoverReq {w} (s : State) : exec (.handoverReq w) s = execHandoverReq w s := rfl
@[simp] theorem exec_handoverAck {w} (s : State) : exec (.handoverAck w) s = execHandoverAck w s := rfl
@[simp] theorem exec_handoverRefuse {w} (s : State) : exec (.handoverRefuse w) s = execHandoverRefuse w s := rfl
@[simp] theorem exec_joinReady {w} (s : State) : exec (.joinReady w) s = execJoinReady w s := rfl
@[simp] theorem exec_eject {w} (s : State) : exec (.eject w) s = execEject w s := rfl
@[simp] theorem exec_pairDigest (s : State) : exec .pairDigest s = execPairDigest s := rfl
@[simp] theorem exec_retransmit (s : State) : exec .retransmit s = execRetransmit s := rfl
@[simp] theorem exec_ackInterval (s : State) : exec .ackInterval s = execAckInterval s := rfl
@[simp] theorem exec_contStalled (s : State) : exec .contStalled s = execContStalled s := rfl
@[simp] theorem exec_prepareTimeout (s : State) : exec .prepareTimeout s = execPrepareTimeout s := rfl
@[simp] theorem exec_orderTimeout (s : State) : exec .orderTimeout s = execOrderTimeout s := rfl
@[simp] theorem exec_joinTimeout (s : State) : exec .joinTimeout s = execJoinTimeout s := rfl
@[simp] theorem exec_joinLockoutEnd (s : State) : exec .joinLockoutEnd s = execJoinLockoutEnd s := rfl
@[simp] theorem exec_ackLate (s : State) : exec .ackLate s = execAckLate s := rfl
@[simp] theorem exec_takeSplit {n} (s : State) : exec (.takeSplit n) s = execTakeSplit n s := rfl
@[simp] theorem exec_pairProve (s : State) : exec .pairProve s = execPairProve s := rfl
@[simp] theorem exec_stepConfirm (s : State) : exec .stepConfirm s = execStepConfirm s := rfl
@[simp] theorem exec_timeStep (s : State) : exec .timeStep s = execTimeStep s := rfl
@[simp] theorem exec_timeDiscEnd (s : State) : exec .timeDiscEnd s = execTimeDiscEnd s := rfl
@[simp] theorem exec_timeAnchorRead {m elapsed} (s : State) : exec (.timeAnchorRead m elapsed) s = execTimeAnchorRead m elapsed s := rfl
@[simp] theorem exec_timingPortFrame {frame captured} (s : State) : exec (.timingPortFrame frame captured) s = execTimingPortFrame frame captured s := rfl
@[simp] theorem exec_transmitRequest {r} (s : State) : exec (.transmitRequest r) s = execTransmitRequest r s := rfl
@[simp] theorem exec_timeTsqPop {m} (s : State) : exec (.timeTsqPop m) s = execTimeTsqPop m s := rfl
@[simp] theorem exec_asymSuspect {n mate} (s : State) : exec (.asymSuspect n mate) s = execAsymSuspect n mate s := rfl
@[simp] theorem exec_asymClear {n} (s : State) : exec (.asymClear n) s = execAsymClear n s := rfl
@[simp] theorem exec_suspectClr {n} (s : State) : exec (.suspectClr n) s = execSuspectClr n s := rfl
@[simp] theorem exec_laneTtAsymWrite {n v} (s : State) : exec (.laneTtAsymWrite n v) s = execLaneTtAsymWrite n v s := rfl
@[simp] theorem exec_dpllUpdate {freqA freqB} (s : State) : exec (.dpllUpdate freqA freqB) s = execDpllUpdate freqA freqB s := rfl
@[simp] theorem exec_candidateEvaluation (s : State) : exec .candidateEvaluation s = execCandidateEvaluation s := rfl
@[simp] theorem exec_candidateLost {n} (s : State) : exec (.candidateLost n) s = execCandidateLost n s := rfl
@[simp] theorem exec_candidateReturn {n offset} (s : State) : exec (.candidateReturn n offset) s = execCandidateReturn n offset s := rfl
@[simp] theorem exec_wtrExpiry {n} (s : State) : exec (.wtrExpiry n) s = execWtrExpiry n s := rfl
@[simp] theorem exec_selectionChange (s : State) : exec .selectionChange s = execSelectionChange s := rfl
@[simp] theorem exec_dissolveEnd (s : State) : exec .dissolveEnd s = execDissolveEnd s := rfl
@[simp] theorem exec_historySample (s : State) : exec .historySample s = execHistorySample s := rfl
@[simp] theorem exec_holdoverExpired (s : State) : exec .holdoverExpired s = execHoldoverExpired s := rfl
@[simp] theorem exec_refCandnCtlWrite {n v} (s : State) : exec (.refCandnCtlWrite n v) s = execRefCandnCtlWrite n v s := rfl
@[simp] theorem exec_refPtpSample {v} (s : State) : exec (.refPtpSample v) s = execRefPtpSample v s := rfl
@[simp] theorem exec_ppsIn {b captured highNs} (s : State) : exec (.ppsIn b captured highNs) s = execPpsIn b captured highNs s := rfl
@[simp] theorem exec_stormEnd {n} (s : State) : exec (.stormEnd n) s = execStormEnd n s := rfl
@[simp] theorem exec_todMessage {b delayUs second} (s : State) : exec (.todMessage b delayUs second) s = execTodMessage b delayUs second s := rfl
@[simp] theorem exec_hifHostKick {f} (s : State) : exec (.hifHostKick f) s = execHifHostKick f s := rfl
@[simp] theorem exec_doorbellPoll {f} (s : State) : exec (.doorbellPoll f) s = execDoorbellPoll f s := rfl
@[simp] theorem exec_handleCloseRefetch {f} (s : State) : exec (.handleCloseRefetch f) s = execHandleCloseRefetch f s := rfl
@[simp] theorem exec_heldCompletionWrite {k} (s : State) : exec (.heldCompletionWrite k) s = execHeldCompletionWrite k s := rfl
@[simp] theorem exec_coalesceTimeout {ring} (s : State) : exec (.coalesceTimeout ring) s = execCoalesceTimeout ring s := rfl
@[simp] theorem exec_eventLost (s : State) : exec .eventLost s = execEventLost s := rfl
@[simp] theorem exec_commandRingEnable {n v} (s : State) : exec (.commandRingEnable n v) s = execCommandRingEnable n v s := rfl
@[simp] theorem exec_commandRingDisable {n v} (s : State) : exec (.commandRingDisable n v) s = execCommandRingDisable n v s := rfl
@[simp] theorem exec_drainEnd {n} (s : State) : exec (.drainEnd n) s = execDrainEnd n s := rfl
@[simp] theorem exec_completionRingEnable {k v} (s : State) : exec (.completionRingEnable k v) s = execCompletionRingEnable k v s := rfl
@[simp] theorem exec_eventRingEnable {v} (s : State) : exec (.eventRingEnable v) s = execEventRingEnable v s := rfl
@[simp] theorem exec_linkReset {perst bursts} (s : State) : exec (.linkReset perst bursts) s = execLinkReset perst bursts s := rfl
@[simp] theorem exec_returnToD0 (s : State) : exec .returnToD0 s = execReturnToD0 s := rfl
@[simp] theorem exec_cplTimeout {h waited obj} (s : State) : exec (.cplTimeout h waited obj) s = execCplTimeout h waited obj s := rfl
@[simp] theorem exec_dmaFault {h kind obj} (s : State) : exec (.dmaFault h kind obj) s = execDmaFault h kind obj s := rfl
@[simp] theorem exec_stagedPrefixExpiry {opcode} (s : State) : exec (.stagedPrefixExpiry opcode) s = execStagedPrefixExpiry opcode s := rfl
@[simp] theorem exec_mssRestart {m v bursts} (s : State) : exec (.mssRestart m v bursts) s = execMssRestart m v bursts s := rfl
@[simp] theorem exec_core0LeavesReset (s : State) : exec .core0LeavesReset s = execCore0LeavesReset s := rfl
@[simp] theorem exec_autoAge {bursts} (s : State) : exec (.autoAge bursts) s = execAutoAge bursts s := rfl
@[simp] theorem exec_holdWrite {m v bursts} (s : State) : exec (.holdWrite m v bursts) s = execHoldWrite m v bursts s := rfl
@[simp] theorem exec_remapWrite {m v} (s : State) : exec (.remapWrite m v) s = execRemapWrite m v s := rfl
@[simp] theorem exec_remapReadback {machine} (s : State) : exec (.remapReadback machine) s = execRemapReadback machine s := rfl
@[simp] theorem exec_windowBorrow {fault} (s : State) : exec (.windowBorrow fault) s = execWindowBorrow fault s := rfl
@[simp] theorem exec_mtestEnWrite {v bursts} (s : State) : exec (.mtestEnWrite v bursts) s = execMtestEnWrite v bursts s := rfl
@[simp] theorem exec_vectorFetch {c r} (s : State) : exec (.vectorFetch c r) s = execVectorFetch c r s := rfl
@[simp] theorem exec_mret {c r} (s : State) : exec (.mret c r) s = execMret c r s := rfl
@[simp] theorem exec_wfi {c r} (s : State) : exec (.wfi c r) s = execWfi c r s := rfl
@[simp] theorem exec_arm {n} (s : State) : exec (.arm n) s = execArm n s := rfl
@[simp] theorem exec_icSwiSet {v} (s : State) : exec (.icSwiSet v) s = execIcSwiSet v s := rfl
@[simp] theorem exec_icHostSet {v} (s : State) : exec (.icHostSet v) s = execIcHostSet v s := rfl
@[simp] theorem exec_counterRead {c user k high adv} (s : State) : exec (.counterRead c user k high adv) s = execCounterRead c user k high adv s := rfl
@[simp] theorem exec_counterOverflow {c k} (s : State) : exec (.counterOverflow c k) s = execCounterOverflow c k s := rfl
@[simp] theorem exec_tagSample {c pc latency stall miss user trapped} (s : State) : exec (.tagSample c pc latency stall miss user trapped) s = execTagSample c pc latency stall miss user trapped s := rfl
@[simp] theorem exec_mssTagSampleRead {m c} (s : State) : exec (.mssTagSampleRead m c) s = execMssTagSampleRead m c s := rfl
@[simp] theorem exec_fenceInstruction {c} (s : State) : exec (.fenceInstruction c) s = execFenceInstruction c s := rfl
@[simp] theorem exec_fenceI {c} (s : State) : exec (.fenceI c) s = execFenceI c s := rfl
@[simp] theorem exec_lrW {c machine addr ecc} (s : State) : exec (.lrW c machine addr ecc) s = execLrW c machine addr ecc s := rfl
@[simp] theorem exec_scW {c machine addr v} (s : State) : exec (.scW c machine addr v) s = execScW c machine addr v s := rfl
@[simp] theorem exec_amo {c machine op addr v ecc} (s : State) : exec (.amo c machine op addr v ecc) s = execAmo c machine op addr v ecc s := rfl
@[simp] theorem exec_lcTransition {m v} (s : State) : exec (.lcTransition m v) s = execLcTransition m v s := rfl
@[simp] theorem exec_fuseWriteEnd {ok} (s : State) : exec (.fuseWriteEnd ok) s = execFuseWriteEnd ok s := rfl
@[simp] theorem exec_owner {m} (s : State) : exec (.owner m) s = execOwner m s := rfl
@[simp] theorem exec_install {m} (s : State) : exec (.install m) s = execInstall m s := rfl
@[simp] theorem exec_load {m} (s : State) : exec (.load m) s = execLoad m s := rfl
@[simp] theorem exec_rotate {m} (s : State) : exec (.rotate m) s = execRotate m s := rfl
@[simp] theorem exec_clear {m} (s : State) : exec (.clear m) s = execClear m s := rfl
@[simp] theorem exec_zeroiseReq {m v} (s : State) : exec (.zeroiseReq m v) s = execZeroiseReq m v s := rfl
@[simp] theorem exec_confirm {m} (s : State) : exec (.confirm m) s = execConfirm m s := rfl
@[simp] theorem exec_raise {m v} (s : State) : exec (.raise m v) s = execRaise m v s := rfl
@[simp] theorem exec_gctlDevnumRead {m} (s : State) : exec (.gctlDevnumRead m) s = execGctlDevnumRead m s := rfl
@[simp] theorem exec_privateWriteWrite {bytes parity} (s : State) : exec (.privateWriteWrite bytes parity) s = execPrivateWriteWrite bytes parity s := rfl
@[simp] theorem exec_setRead {off count} (s : State) : exec (.setRead off count) s = execSetRead off count s := rfl
@[simp] theorem exec_privateRead (s : State) : exec .privateRead s = execPrivateRead s := rfl
@[simp] theorem exec_hdrDdrWrite {code bytes bad} (s : State) : exec (.hdrDdrWrite code bytes bad) s = execHdrDdrWrite code bytes bad s := rfl
@[simp] theorem exec_hdrDdrRead {code bad} (s : State) : exec (.hdrDdrRead code bad) s = execHdrDdrRead code bad s := rfl
@[simp] theorem exec_enec {enint} (s : State) : exec (.enec enint) s = execEnec enint s := rfl
@[simp] theorem exec_disec {enint} (s : State) : exec (.disec enint) s = execDisec enint s := rfl
@[simp] theorem exec_rstdaa (s : State) : exec .rstdaa s = execRstdaa s := rfl
@[simp] theorem exec_entdaa {addr} (s : State) : exec (.entdaa addr) s = execEntdaa addr s := rfl
@[simp] theorem exec_setmwl {v} (s : State) : exec (.setmwl v) s = execSetmwl v s := rfl
@[simp] theorem exec_getmwl (s : State) : exec .getmwl s = execGetmwl s := rfl
@[simp] theorem exec_setmrl {v} (s : State) : exec (.setmrl v) s = execSetmrl v s := rfl
@[simp] theorem exec_getmrl (s : State) : exec .getmrl s = execGetmrl s := rfl
@[simp] theorem exec_getpid (s : State) : exec .getpid s = execGetpid s := rfl
@[simp] theorem exec_getbcr (s : State) : exec .getbcr s = execGetbcr s := rfl
@[simp] theorem exec_getdcr (s : State) : exec .getdcr s = execGetdcr s := rfl
@[simp] theorem exec_getstatus (s : State) : exec .getstatus s = execGetstatus s := rfl
@[simp] theorem exec_getmxds (s : State) : exec .getmxds s = execGetmxds s := rfl
@[simp] theorem exec_getcaps (s : State) : exec .getcaps s = execGetcaps s := rfl
@[simp] theorem exec_rstact {defining report} (s : State) : exec (.rstact defining report) s = execRstact defining report s := rfl
@[simp] theorem exec_targetResetPattern {bursts} (s : State) : exec (.targetResetPattern bursts) s = execTargetResetPattern bursts s := rfl
@[simp] theorem exec_busAvailableIbi {acked} (s : State) : exec (.busAvailableIbi acked) s = execBusAvailableIbi acked s := rfl
@[simp] theorem exec_mbxEnWrite {m v} (s : State) : exec (.mbxEnWrite m v) s = execMbxEnWrite m v s := rfl
@[simp] theorem exec_mbxGo {m} (s : State) : exec (.mbxGo m) s = execMbxGo m s := rfl
@[simp] theorem exec_mbxUnitDone {m} (s : State) : exec (.mbxUnitDone m) s = execMbxUnitDone m s := rfl
@[simp] theorem exec_mbxUnitTimeout {waitedMs} (s : State) : exec (.mbxUnitTimeout waitedMs) s = execMbxUnitTimeout waitedMs s := rfl
@[simp] theorem exec_mbxCplRead {m k} (s : State) : exec (.mbxCplRead m k) s = execMbxCplRead m k s := rfl
@[simp] theorem exec_rcvStart {m} (s : State) : exec (.rcvStart m) s = execRcvStart m s := rfl
@[simp] theorem exec_rcvUnitDone {m} (s : State) : exec (.rcvUnitDone m) s = execRcvUnitDone m s := rfl
@[simp] theorem exec_rcvAbort {m} (s : State) : exec (.rcvAbort m) s = execRcvAbort m s := rfl
@[simp] theorem exec_rcvVerifyDone {flashOk} (s : State) : exec (.rcvVerifyDone flashOk) s = execRcvVerifyDone flashOk s := rfl
@[simp] theorem exec_testLoopWrite {n v} (s : State) : exec (.testLoopWrite n v) s = execTestLoopWrite n v s := rfl
@[simp] theorem exec_loopEnd {n overrun} (s : State) : exec (.loopEnd n overrun) s = execLoopEnd n overrun s := rfl
@[simp] theorem exec_prbsGenEn {n v} (s : State) : exec (.prbsGenEn n v) s = execPrbsGenEn n v s := rfl
@[simp] theorem exec_inject {n} (s : State) : exec (.inject n) s = execInject n s := rfl
@[simp] theorem exec_prbsChkEn {n v} (s : State) : exec (.prbsChkEn n v) s = execPrbsChkEn n v s := rfl
@[simp] theorem exec_checkerClear {n} (s : State) : exec (.checkerClear n) s = execCheckerClear n s := rfl
@[simp] theorem exec_lockLost {n bits errs windowErrs} (s : State) : exec (.lockLost n bits errs windowErrs) s = execLockLost n bits errs windowErrs s := rfl
@[simp] theorem exec_prbsCountRead {m n bits errs} (s : State) : exec (.prbsCountRead m n bits errs) s = execPrbsCountRead m n bits errs s := rfl
@[simp] theorem exec_idcode (s : State) : exec .idcode s = execIdcode s := rfl
@[simp] theorem exec_sample {pins} (s : State) : exec (.sample pins) s = execSample pins s := rfl
@[simp] theorem exec_preload {cells} (s : State) : exec (.preload cells) s = execPreload cells s := rfl
@[simp] theorem exec_extest {pins} (s : State) : exec (.extest pins) s = execExtest pins s := rfl
@[simp] theorem exec_extestPulse {pins} (s : State) : exec (.extestPulse pins) s = execExtestPulse pins s := rfl
@[simp] theorem exec_extestTrain {pins} (s : State) : exec (.extestTrain pins) s = execExtestTrain pins s := rfl
@[simp] theorem exec_clamp {pins} (s : State) : exec (.clamp pins) s = execClamp pins s := rfl
@[simp] theorem exec_highz {pins} (s : State) : exec (.highz pins) s = execHighz pins s := rfl
@[simp] theorem exec_ecidcode (s : State) : exec .ecidcode s = execEcidcode s := rfl
@[simp] theorem exec_bypass (s : State) : exec .bypass s = execBypass s := rfl
@[simp] theorem exec_productionTestOpcode {op} (s : State) : exec (.productionTestOpcode op) s = execProductionTestOpcode op s := rfl
@[simp] theorem exec_d3hotEntry (s : State) : exec .d3hotEntry s = execD3hotEntry s := rfl
@[simp] theorem exec_linkUp {speed width} (s : State) : exec (.linkUp speed width) s = execLinkUp speed width s := rfl
@[simp] theorem exec_vddIoRemoved (s : State) : exec .vddIoRemoved s = execVddIoRemoved s := rfl
@[simp] theorem exec_trapEntry {c r cause tval} (s : State) : exec (.trapEntry c r cause tval) s = execTrapEntry c r cause tval s := rfl
@[simp] theorem exec_counterWrite {c user k part v adv} (s : State) : exec (.counterWrite c user k part v adv) s = execCounterWrite c user k part v adv s := rfl
@[simp] theorem exec_checkerLocked {n} (s : State) : exec (.checkerLocked n) s = execCheckerLocked n s := rfl
@[simp] theorem exec_timingPortBlockLock {lock fault} (s : State) : exec (.timingPortBlockLock lock fault) s = execTimingPortBlockLock lock fault s := rfl
@[simp] theorem exec_testLogicReset (s : State) : exec .testLogicReset s = execTestLogicReset s := rfl

end Sys2Proof.Machine
end

