-- ==== Sys2Proof/Laws/State.lean ====
section
/-!
SUPPORT. What each update of a part of the state leaves alone, one lemma per field, so that no proof unfolds a record.
-/
namespace Sys2Proof.Machine
open Sys2Proof

-- setReg: regs only

@[simp] theorem State.setReg_gctl (s : State) (o : Nat) (w : Word) : (s.setReg o w).gctl = s.gctl := rfl
@[simp] theorem State.setReg_rdata (s : State) (o : Nat) (w : Word) : (s.setReg o w).rdata = s.rdata := rfl
@[simp] theorem State.setReg_latches (s : State) (o : Nat) (w : Word) : (s.setReg o w).latches = s.latches := rfl
@[simp] theorem State.setReg_tai (s : State) (o : Nat) (w : Word) : (s.setReg o w).tai = s.tai := rfl
@[simp] theorem State.setReg_reelSeq (s : State) (o : Nat) (w : Word) : (s.setReg o w).reelSeq = s.reelSeq := rfl
@[simp] theorem State.setReg_lanes (s : State) (o : Nat) (w : Word) : (s.setReg o w).lanes = s.lanes := rfl
@[simp] theorem State.setReg_evq (s : State) (o : Nat) (w : Word) : (s.setReg o w).evq = s.evq := rfl
@[simp] theorem State.setReg_evDropped (s : State) (o : Nat) (w : Word) : (s.setReg o w).evDropped = s.evDropped := rfl
@[simp] theorem State.setReg_log (s : State) (o : Nat) (w : Word) : (s.setReg o w).log = s.log := rfl
@[simp] theorem State.setReg_logNext (s : State) (o : Nat) (w : Word) : (s.setReg o w).logNext = s.logNext := rfl
@[simp] theorem State.setReg_mirror (s : State) (o : Nat) (w : Word) : (s.setReg o w).mirror = s.mirror := rfl
@[simp] theorem State.setReg_stormEdges (s : State) (o : Nat) (w : Word) : (s.setReg o w).stormEdges = s.stormEdges := rfl
@[simp] theorem State.setReg_hif (s : State) (o : Nat) (w : Word) : (s.setReg o w).hif = s.hif := rfl
@[simp] theorem State.setReg_ssw (s : State) (o : Nat) (w : Word) : (s.setReg o w).ssw = s.ssw := rfl
@[simp] theorem State.setReg_circ (s : State) (o : Nat) (w : Word) : (s.setReg o w).circ = s.circ := rfl
@[simp] theorem State.setReg_pair (s : State) (o : Nat) (w : Word) : (s.setReg o w).pair = s.pair := rfl
@[simp] theorem State.setReg_time (s : State) (o : Nat) (w : Word) : (s.setReg o w).time = s.time := rfl
@[simp] theorem State.setReg_ref (s : State) (o : Nat) (w : Word) : (s.setReg o w).ref = s.ref := rfl
@[simp] theorem State.setReg_mss (s : State) (o : Nat) (w : Word) : (s.setReg o w).mss = s.mss := rfl
@[simp] theorem State.setReg_i3c (s : State) (o : Nat) (w : Word) : (s.setReg o w).i3c = s.i3c := rfl
@[simp] theorem State.setReg_test (s : State) (o : Nat) (w : Word) : (s.setReg o w).test = s.test := rfl
@[simp] theorem State.setReg_jtag (s : State) (o : Nat) (w : Word) : (s.setReg o w).jtag = s.jtag := rfl
@[simp] theorem State.setReg_free (s : State) (o : Nat) (w : Word) : (s.setReg o w).free = s.free := rfl
@[simp] theorem State.setReg_pending (s : State) (o : Nat) (w : Word) : (s.setReg o w).pending = s.pending := rfl

-- setFld: regs only

@[simp] theorem State.setFld_gctl (s : State) (f : Fld) (v : Nat) : (s.setFld f v).gctl = s.gctl := rfl
@[simp] theorem State.setFld_rdata (s : State) (f : Fld) (v : Nat) : (s.setFld f v).rdata = s.rdata := rfl
@[simp] theorem State.setFld_latches (s : State) (f : Fld) (v : Nat) : (s.setFld f v).latches = s.latches := rfl
@[simp] theorem State.setFld_tai (s : State) (f : Fld) (v : Nat) : (s.setFld f v).tai = s.tai := rfl
@[simp] theorem State.setFld_reelSeq (s : State) (f : Fld) (v : Nat) : (s.setFld f v).reelSeq = s.reelSeq := rfl
@[simp] theorem State.setFld_lanes (s : State) (f : Fld) (v : Nat) : (s.setFld f v).lanes = s.lanes := rfl
@[simp] theorem State.setFld_evq (s : State) (f : Fld) (v : Nat) : (s.setFld f v).evq = s.evq := rfl
@[simp] theorem State.setFld_evDropped (s : State) (f : Fld) (v : Nat) : (s.setFld f v).evDropped = s.evDropped := rfl
@[simp] theorem State.setFld_log (s : State) (f : Fld) (v : Nat) : (s.setFld f v).log = s.log := rfl
@[simp] theorem State.setFld_logNext (s : State) (f : Fld) (v : Nat) : (s.setFld f v).logNext = s.logNext := rfl
@[simp] theorem State.setFld_mirror (s : State) (f : Fld) (v : Nat) : (s.setFld f v).mirror = s.mirror := rfl
@[simp] theorem State.setFld_stormEdges (s : State) (f : Fld) (v : Nat) : (s.setFld f v).stormEdges = s.stormEdges := rfl
@[simp] theorem State.setFld_hif (s : State) (f : Fld) (v : Nat) : (s.setFld f v).hif = s.hif := rfl
@[simp] theorem State.setFld_ssw (s : State) (f : Fld) (v : Nat) : (s.setFld f v).ssw = s.ssw := rfl
@[simp] theorem State.setFld_circ (s : State) (f : Fld) (v : Nat) : (s.setFld f v).circ = s.circ := rfl
@[simp] theorem State.setFld_pair (s : State) (f : Fld) (v : Nat) : (s.setFld f v).pair = s.pair := rfl
@[simp] theorem State.setFld_time (s : State) (f : Fld) (v : Nat) : (s.setFld f v).time = s.time := rfl
@[simp] theorem State.setFld_ref (s : State) (f : Fld) (v : Nat) : (s.setFld f v).ref = s.ref := rfl
@[simp] theorem State.setFld_mss (s : State) (f : Fld) (v : Nat) : (s.setFld f v).mss = s.mss := rfl
@[simp] theorem State.setFld_i3c (s : State) (f : Fld) (v : Nat) : (s.setFld f v).i3c = s.i3c := rfl
@[simp] theorem State.setFld_test (s : State) (f : Fld) (v : Nat) : (s.setFld f v).test = s.test := rfl
@[simp] theorem State.setFld_jtag (s : State) (f : Fld) (v : Nat) : (s.setFld f v).jtag = s.jtag := rfl
@[simp] theorem State.setFld_free (s : State) (f : Fld) (v : Nat) : (s.setFld f v).free = s.free := rfl
@[simp] theorem State.setFld_pending (s : State) (f : Fld) (v : Nat) : (s.setFld f v).pending = s.pending := rfl

-- setFlag: regs only

@[simp] theorem State.setFlag_gctl (s : State) (f : Fld) (b : Bool) : (s.setFlag f b).gctl = s.gctl := rfl
@[simp] theorem State.setFlag_rdata (s : State) (f : Fld) (b : Bool) : (s.setFlag f b).rdata = s.rdata := rfl
@[simp] theorem State.setFlag_latches (s : State) (f : Fld) (b : Bool) : (s.setFlag f b).latches = s.latches := rfl
@[simp] theorem State.setFlag_tai (s : State) (f : Fld) (b : Bool) : (s.setFlag f b).tai = s.tai := rfl
@[simp] theorem State.setFlag_reelSeq (s : State) (f : Fld) (b : Bool) : (s.setFlag f b).reelSeq = s.reelSeq := rfl
@[simp] theorem State.setFlag_lanes (s : State) (f : Fld) (b : Bool) : (s.setFlag f b).lanes = s.lanes := rfl
@[simp] theorem State.setFlag_evq (s : State) (f : Fld) (b : Bool) : (s.setFlag f b).evq = s.evq := rfl
@[simp] theorem State.setFlag_evDropped (s : State) (f : Fld) (b : Bool) : (s.setFlag f b).evDropped = s.evDropped := rfl
@[simp] theorem State.setFlag_log (s : State) (f : Fld) (b : Bool) : (s.setFlag f b).log = s.log := rfl
@[simp] theorem State.setFlag_logNext (s : State) (f : Fld) (b : Bool) : (s.setFlag f b).logNext = s.logNext := rfl
@[simp] theorem State.setFlag_mirror (s : State) (f : Fld) (b : Bool) : (s.setFlag f b).mirror = s.mirror := rfl
@[simp] theorem State.setFlag_stormEdges (s : State) (f : Fld) (b : Bool) : (s.setFlag f b).stormEdges = s.stormEdges := rfl
@[simp] theorem State.setFlag_hif (s : State) (f : Fld) (b : Bool) : (s.setFlag f b).hif = s.hif := rfl
@[simp] theorem State.setFlag_ssw (s : State) (f : Fld) (b : Bool) : (s.setFlag f b).ssw = s.ssw := rfl
@[simp] theorem State.setFlag_circ (s : State) (f : Fld) (b : Bool) : (s.setFlag f b).circ = s.circ := rfl
@[simp] theorem State.setFlag_pair (s : State) (f : Fld) (b : Bool) : (s.setFlag f b).pair = s.pair := rfl
@[simp] theorem State.setFlag_time (s : State) (f : Fld) (b : Bool) : (s.setFlag f b).time = s.time := rfl
@[simp] theorem State.setFlag_ref (s : State) (f : Fld) (b : Bool) : (s.setFlag f b).ref = s.ref := rfl
@[simp] theorem State.setFlag_mss (s : State) (f : Fld) (b : Bool) : (s.setFlag f b).mss = s.mss := rfl
@[simp] theorem State.setFlag_i3c (s : State) (f : Fld) (b : Bool) : (s.setFlag f b).i3c = s.i3c := rfl
@[simp] theorem State.setFlag_test (s : State) (f : Fld) (b : Bool) : (s.setFlag f b).test = s.test := rfl
@[simp] theorem State.setFlag_jtag (s : State) (f : Fld) (b : Bool) : (s.setFlag f b).jtag = s.jtag := rfl
@[simp] theorem State.setFlag_free (s : State) (f : Fld) (b : Bool) : (s.setFlag f b).free = s.free := rfl
@[simp] theorem State.setFlag_pending (s : State) (f : Fld) (b : Bool) : (s.setFlag f b).pending = s.pending := rfl

-- setFldI: regs only

@[simp] theorem State.setFldI_gctl (s : State) (f : Fld) (v : Int) : (s.setFldI f v).gctl = s.gctl := rfl
@[simp] theorem State.setFldI_rdata (s : State) (f : Fld) (v : Int) : (s.setFldI f v).rdata = s.rdata := rfl
@[simp] theorem State.setFldI_latches (s : State) (f : Fld) (v : Int) : (s.setFldI f v).latches = s.latches := rfl
@[simp] theorem State.setFldI_tai (s : State) (f : Fld) (v : Int) : (s.setFldI f v).tai = s.tai := rfl
@[simp] theorem State.setFldI_reelSeq (s : State) (f : Fld) (v : Int) : (s.setFldI f v).reelSeq = s.reelSeq := rfl
@[simp] theorem State.setFldI_lanes (s : State) (f : Fld) (v : Int) : (s.setFldI f v).lanes = s.lanes := rfl
@[simp] theorem State.setFldI_evq (s : State) (f : Fld) (v : Int) : (s.setFldI f v).evq = s.evq := rfl
@[simp] theorem State.setFldI_evDropped (s : State) (f : Fld) (v : Int) : (s.setFldI f v).evDropped = s.evDropped := rfl
@[simp] theorem State.setFldI_log (s : State) (f : Fld) (v : Int) : (s.setFldI f v).log = s.log := rfl
@[simp] theorem State.setFldI_logNext (s : State) (f : Fld) (v : Int) : (s.setFldI f v).logNext = s.logNext := rfl
@[simp] theorem State.setFldI_mirror (s : State) (f : Fld) (v : Int) : (s.setFldI f v).mirror = s.mirror := rfl
@[simp] theorem State.setFldI_stormEdges (s : State) (f : Fld) (v : Int) : (s.setFldI f v).stormEdges = s.stormEdges := rfl
@[simp] theorem State.setFldI_hif (s : State) (f : Fld) (v : Int) : (s.setFldI f v).hif = s.hif := rfl
@[simp] theorem State.setFldI_ssw (s : State) (f : Fld) (v : Int) : (s.setFldI f v).ssw = s.ssw := rfl
@[simp] theorem State.setFldI_circ (s : State) (f : Fld) (v : Int) : (s.setFldI f v).circ = s.circ := rfl
@[simp] theorem State.setFldI_pair (s : State) (f : Fld) (v : Int) : (s.setFldI f v).pair = s.pair := rfl
@[simp] theorem State.setFldI_time (s : State) (f : Fld) (v : Int) : (s.setFldI f v).time = s.time := rfl
@[simp] theorem State.setFldI_ref (s : State) (f : Fld) (v : Int) : (s.setFldI f v).ref = s.ref := rfl
@[simp] theorem State.setFldI_mss (s : State) (f : Fld) (v : Int) : (s.setFldI f v).mss = s.mss := rfl
@[simp] theorem State.setFldI_i3c (s : State) (f : Fld) (v : Int) : (s.setFldI f v).i3c = s.i3c := rfl
@[simp] theorem State.setFldI_test (s : State) (f : Fld) (v : Int) : (s.setFldI f v).test = s.test := rfl
@[simp] theorem State.setFldI_jtag (s : State) (f : Fld) (v : Int) : (s.setFldI f v).jtag = s.jtag := rfl
@[simp] theorem State.setFldI_free (s : State) (f : Fld) (v : Int) : (s.setFldI f v).free = s.free := rfl
@[simp] theorem State.setFldI_pending (s : State) (f : Fld) (v : Int) : (s.setFldI f v).pending = s.pending := rfl

-- incFld: regs only

@[simp] theorem State.incFld_gctl (s : State) (f : Fld) (k : Nat) : (s.incFld f k).gctl = s.gctl := rfl
@[simp] theorem State.incFld_rdata (s : State) (f : Fld) (k : Nat) : (s.incFld f k).rdata = s.rdata := rfl
@[simp] theorem State.incFld_latches (s : State) (f : Fld) (k : Nat) : (s.incFld f k).latches = s.latches := rfl
@[simp] theorem State.incFld_tai (s : State) (f : Fld) (k : Nat) : (s.incFld f k).tai = s.tai := rfl
@[simp] theorem State.incFld_reelSeq (s : State) (f : Fld) (k : Nat) : (s.incFld f k).reelSeq = s.reelSeq := rfl
@[simp] theorem State.incFld_lanes (s : State) (f : Fld) (k : Nat) : (s.incFld f k).lanes = s.lanes := rfl
@[simp] theorem State.incFld_evq (s : State) (f : Fld) (k : Nat) : (s.incFld f k).evq = s.evq := rfl
@[simp] theorem State.incFld_evDropped (s : State) (f : Fld) (k : Nat) : (s.incFld f k).evDropped = s.evDropped := rfl
@[simp] theorem State.incFld_log (s : State) (f : Fld) (k : Nat) : (s.incFld f k).log = s.log := rfl
@[simp] theorem State.incFld_logNext (s : State) (f : Fld) (k : Nat) : (s.incFld f k).logNext = s.logNext := rfl
@[simp] theorem State.incFld_mirror (s : State) (f : Fld) (k : Nat) : (s.incFld f k).mirror = s.mirror := rfl
@[simp] theorem State.incFld_stormEdges (s : State) (f : Fld) (k : Nat) : (s.incFld f k).stormEdges = s.stormEdges := rfl
@[simp] theorem State.incFld_hif (s : State) (f : Fld) (k : Nat) : (s.incFld f k).hif = s.hif := rfl
@[simp] theorem State.incFld_ssw (s : State) (f : Fld) (k : Nat) : (s.incFld f k).ssw = s.ssw := rfl
@[simp] theorem State.incFld_circ (s : State) (f : Fld) (k : Nat) : (s.incFld f k).circ = s.circ := rfl
@[simp] theorem State.incFld_pair (s : State) (f : Fld) (k : Nat) : (s.incFld f k).pair = s.pair := rfl
@[simp] theorem State.incFld_time (s : State) (f : Fld) (k : Nat) : (s.incFld f k).time = s.time := rfl
@[simp] theorem State.incFld_ref (s : State) (f : Fld) (k : Nat) : (s.incFld f k).ref = s.ref := rfl
@[simp] theorem State.incFld_mss (s : State) (f : Fld) (k : Nat) : (s.incFld f k).mss = s.mss := rfl
@[simp] theorem State.incFld_i3c (s : State) (f : Fld) (k : Nat) : (s.incFld f k).i3c = s.i3c := rfl
@[simp] theorem State.incFld_test (s : State) (f : Fld) (k : Nat) : (s.incFld f k).test = s.test := rfl
@[simp] theorem State.incFld_jtag (s : State) (f : Fld) (k : Nat) : (s.incFld f k).jtag = s.jtag := rfl
@[simp] theorem State.incFld_free (s : State) (f : Fld) (k : Nat) : (s.incFld f k).free = s.free := rfl
@[simp] theorem State.incFld_pending (s : State) (f : Fld) (k : Nat) : (s.incFld f k).pending = s.pending := rfl

-- setLane: lanes only

@[simp] theorem State.setLane_regs (s : State) (n : Nat) (l : Lane) : (s.setLane n l).regs = s.regs := rfl
@[simp] theorem State.setLane_gctl (s : State) (n : Nat) (l : Lane) : (s.setLane n l).gctl = s.gctl := rfl
@[simp] theorem State.setLane_rdata (s : State) (n : Nat) (l : Lane) : (s.setLane n l).rdata = s.rdata := rfl
@[simp] theorem State.setLane_latches (s : State) (n : Nat) (l : Lane) : (s.setLane n l).latches = s.latches := rfl
@[simp] theorem State.setLane_tai (s : State) (n : Nat) (l : Lane) : (s.setLane n l).tai = s.tai := rfl
@[simp] theorem State.setLane_reelSeq (s : State) (n : Nat) (l : Lane) : (s.setLane n l).reelSeq = s.reelSeq := rfl
@[simp] theorem State.setLane_evq (s : State) (n : Nat) (l : Lane) : (s.setLane n l).evq = s.evq := rfl
@[simp] theorem State.setLane_evDropped (s : State) (n : Nat) (l : Lane) : (s.setLane n l).evDropped = s.evDropped := rfl
@[simp] theorem State.setLane_log (s : State) (n : Nat) (l : Lane) : (s.setLane n l).log = s.log := rfl
@[simp] theorem State.setLane_logNext (s : State) (n : Nat) (l : Lane) : (s.setLane n l).logNext = s.logNext := rfl
@[simp] theorem State.setLane_mirror (s : State) (n : Nat) (l : Lane) : (s.setLane n l).mirror = s.mirror := rfl
@[simp] theorem State.setLane_stormEdges (s : State) (n : Nat) (l : Lane) : (s.setLane n l).stormEdges = s.stormEdges := rfl
@[simp] theorem State.setLane_hif (s : State) (n : Nat) (l : Lane) : (s.setLane n l).hif = s.hif := rfl
@[simp] theorem State.setLane_ssw (s : State) (n : Nat) (l : Lane) : (s.setLane n l).ssw = s.ssw := rfl
@[simp] theorem State.setLane_circ (s : State) (n : Nat) (l : Lane) : (s.setLane n l).circ = s.circ := rfl
@[simp] theorem State.setLane_pair (s : State) (n : Nat) (l : Lane) : (s.setLane n l).pair = s.pair := rfl
@[simp] theorem State.setLane_time (s : State) (n : Nat) (l : Lane) : (s.setLane n l).time = s.time := rfl
@[simp] theorem State.setLane_ref (s : State) (n : Nat) (l : Lane) : (s.setLane n l).ref = s.ref := rfl
@[simp] theorem State.setLane_mss (s : State) (n : Nat) (l : Lane) : (s.setLane n l).mss = s.mss := rfl
@[simp] theorem State.setLane_i3c (s : State) (n : Nat) (l : Lane) : (s.setLane n l).i3c = s.i3c := rfl
@[simp] theorem State.setLane_test (s : State) (n : Nat) (l : Lane) : (s.setLane n l).test = s.test := rfl
@[simp] theorem State.setLane_jtag (s : State) (n : Nat) (l : Lane) : (s.setLane n l).jtag = s.jtag := rfl
@[simp] theorem State.setLane_free (s : State) (n : Nat) (l : Lane) : (s.setLane n l).free = s.free := rfl
@[simp] theorem State.setLane_pending (s : State) (n : Nat) (l : Lane) : (s.setLane n l).pending = s.pending := rfl

-- updLane: lanes only

@[simp] theorem State.updLane_regs (s : State) (n : Nat) (f : Lane → Lane) : (s.updLane n f).regs = s.regs := rfl
@[simp] theorem State.updLane_gctl (s : State) (n : Nat) (f : Lane → Lane) : (s.updLane n f).gctl = s.gctl := rfl
@[simp] theorem State.updLane_rdata (s : State) (n : Nat) (f : Lane → Lane) : (s.updLane n f).rdata = s.rdata := rfl
@[simp] theorem State.updLane_latches (s : State) (n : Nat) (f : Lane → Lane) : (s.updLane n f).latches = s.latches := rfl
@[simp] theorem State.updLane_tai (s : State) (n : Nat) (f : Lane → Lane) : (s.updLane n f).tai = s.tai := rfl
@[simp] theorem State.updLane_reelSeq (s : State) (n : Nat) (f : Lane → Lane) : (s.updLane n f).reelSeq = s.reelSeq := rfl
@[simp] theorem State.updLane_evq (s : State) (n : Nat) (f : Lane → Lane) : (s.updLane n f).evq = s.evq := rfl
@[simp] theorem State.updLane_evDropped (s : State) (n : Nat) (f : Lane → Lane) : (s.updLane n f).evDropped = s.evDropped := rfl
@[simp] theorem State.updLane_log (s : State) (n : Nat) (f : Lane → Lane) : (s.updLane n f).log = s.log := rfl
@[simp] theorem State.updLane_logNext (s : State) (n : Nat) (f : Lane → Lane) : (s.updLane n f).logNext = s.logNext := rfl
@[simp] theorem State.updLane_mirror (s : State) (n : Nat) (f : Lane → Lane) : (s.updLane n f).mirror = s.mirror := rfl
@[simp] theorem State.updLane_stormEdges (s : State) (n : Nat) (f : Lane → Lane) : (s.updLane n f).stormEdges = s.stormEdges := rfl
@[simp] theorem State.updLane_hif (s : State) (n : Nat) (f : Lane → Lane) : (s.updLane n f).hif = s.hif := rfl
@[simp] theorem State.updLane_ssw (s : State) (n : Nat) (f : Lane → Lane) : (s.updLane n f).ssw = s.ssw := rfl
@[simp] theorem State.updLane_circ (s : State) (n : Nat) (f : Lane → Lane) : (s.updLane n f).circ = s.circ := rfl
@[simp] theorem State.updLane_pair (s : State) (n : Nat) (f : Lane → Lane) : (s.updLane n f).pair = s.pair := rfl
@[simp] theorem State.updLane_time (s : State) (n : Nat) (f : Lane → Lane) : (s.updLane n f).time = s.time := rfl
@[simp] theorem State.updLane_ref (s : State) (n : Nat) (f : Lane → Lane) : (s.updLane n f).ref = s.ref := rfl
@[simp] theorem State.updLane_mss (s : State) (n : Nat) (f : Lane → Lane) : (s.updLane n f).mss = s.mss := rfl
@[simp] theorem State.updLane_i3c (s : State) (n : Nat) (f : Lane → Lane) : (s.updLane n f).i3c = s.i3c := rfl
@[simp] theorem State.updLane_test (s : State) (n : Nat) (f : Lane → Lane) : (s.updLane n f).test = s.test := rfl
@[simp] theorem State.updLane_jtag (s : State) (n : Nat) (f : Lane → Lane) : (s.updLane n f).jtag = s.jtag := rfl
@[simp] theorem State.updLane_free (s : State) (n : Nat) (f : Lane → Lane) : (s.updLane n f).free = s.free := rfl
@[simp] theorem State.updLane_pending (s : State) (n : Nat) (f : Lane → Lane) : (s.updLane n f).pending = s.pending := rfl

-- updHif: hif only

@[simp] theorem State.updHif_regs (s : State) (f : Hif → Hif) : (s.updHif f).regs = s.regs := rfl
@[simp] theorem State.updHif_gctl (s : State) (f : Hif → Hif) : (s.updHif f).gctl = s.gctl := rfl
@[simp] theorem State.updHif_rdata (s : State) (f : Hif → Hif) : (s.updHif f).rdata = s.rdata := rfl
@[simp] theorem State.updHif_latches (s : State) (f : Hif → Hif) : (s.updHif f).latches = s.latches := rfl
@[simp] theorem State.updHif_tai (s : State) (f : Hif → Hif) : (s.updHif f).tai = s.tai := rfl
@[simp] theorem State.updHif_reelSeq (s : State) (f : Hif → Hif) : (s.updHif f).reelSeq = s.reelSeq := rfl
@[simp] theorem State.updHif_lanes (s : State) (f : Hif → Hif) : (s.updHif f).lanes = s.lanes := rfl
@[simp] theorem State.updHif_evq (s : State) (f : Hif → Hif) : (s.updHif f).evq = s.evq := rfl
@[simp] theorem State.updHif_evDropped (s : State) (f : Hif → Hif) : (s.updHif f).evDropped = s.evDropped := rfl
@[simp] theorem State.updHif_log (s : State) (f : Hif → Hif) : (s.updHif f).log = s.log := rfl
@[simp] theorem State.updHif_logNext (s : State) (f : Hif → Hif) : (s.updHif f).logNext = s.logNext := rfl
@[simp] theorem State.updHif_mirror (s : State) (f : Hif → Hif) : (s.updHif f).mirror = s.mirror := rfl
@[simp] theorem State.updHif_stormEdges (s : State) (f : Hif → Hif) : (s.updHif f).stormEdges = s.stormEdges := rfl
@[simp] theorem State.updHif_hif (s : State) (f : Hif → Hif) : (s.updHif f).hif = f s.hif := rfl
@[simp] theorem State.updHif_ssw (s : State) (f : Hif → Hif) : (s.updHif f).ssw = s.ssw := rfl
@[simp] theorem State.updHif_circ (s : State) (f : Hif → Hif) : (s.updHif f).circ = s.circ := rfl
@[simp] theorem State.updHif_pair (s : State) (f : Hif → Hif) : (s.updHif f).pair = s.pair := rfl
@[simp] theorem State.updHif_time (s : State) (f : Hif → Hif) : (s.updHif f).time = s.time := rfl
@[simp] theorem State.updHif_ref (s : State) (f : Hif → Hif) : (s.updHif f).ref = s.ref := rfl
@[simp] theorem State.updHif_mss (s : State) (f : Hif → Hif) : (s.updHif f).mss = s.mss := rfl
@[simp] theorem State.updHif_i3c (s : State) (f : Hif → Hif) : (s.updHif f).i3c = s.i3c := rfl
@[simp] theorem State.updHif_test (s : State) (f : Hif → Hif) : (s.updHif f).test = s.test := rfl
@[simp] theorem State.updHif_jtag (s : State) (f : Hif → Hif) : (s.updHif f).jtag = s.jtag := rfl
@[simp] theorem State.updHif_free (s : State) (f : Hif → Hif) : (s.updHif f).free = s.free := rfl
@[simp] theorem State.updHif_pending (s : State) (f : Hif → Hif) : (s.updHif f).pending = s.pending := rfl

-- updGctl: gctl only

@[simp] theorem State.updGctl_regs (s : State) (f : Gctl → Gctl) : (s.updGctl f).regs = s.regs := rfl
@[simp] theorem State.updGctl_gctl (s : State) (f : Gctl → Gctl) : (s.updGctl f).gctl = f s.gctl := rfl
@[simp] theorem State.updGctl_rdata (s : State) (f : Gctl → Gctl) : (s.updGctl f).rdata = s.rdata := rfl
@[simp] theorem State.updGctl_latches (s : State) (f : Gctl → Gctl) : (s.updGctl f).latches = s.latches := rfl
@[simp] theorem State.updGctl_tai (s : State) (f : Gctl → Gctl) : (s.updGctl f).tai = s.tai := rfl
@[simp] theorem State.updGctl_reelSeq (s : State) (f : Gctl → Gctl) : (s.updGctl f).reelSeq = s.reelSeq := rfl
@[simp] theorem State.updGctl_lanes (s : State) (f : Gctl → Gctl) : (s.updGctl f).lanes = s.lanes := rfl
@[simp] theorem State.updGctl_evq (s : State) (f : Gctl → Gctl) : (s.updGctl f).evq = s.evq := rfl
@[simp] theorem State.updGctl_evDropped (s : State) (f : Gctl → Gctl) : (s.updGctl f).evDropped = s.evDropped := rfl
@[simp] theorem State.updGctl_log (s : State) (f : Gctl → Gctl) : (s.updGctl f).log = s.log := rfl
@[simp] theorem State.updGctl_logNext (s : State) (f : Gctl → Gctl) : (s.updGctl f).logNext = s.logNext := rfl
@[simp] theorem State.updGctl_mirror (s : State) (f : Gctl → Gctl) : (s.updGctl f).mirror = s.mirror := rfl
@[simp] theorem State.updGctl_stormEdges (s : State) (f : Gctl → Gctl) : (s.updGctl f).stormEdges = s.stormEdges := rfl
@[simp] theorem State.updGctl_hif (s : State) (f : Gctl → Gctl) : (s.updGctl f).hif = s.hif := rfl
@[simp] theorem State.updGctl_ssw (s : State) (f : Gctl → Gctl) : (s.updGctl f).ssw = s.ssw := rfl
@[simp] theorem State.updGctl_circ (s : State) (f : Gctl → Gctl) : (s.updGctl f).circ = s.circ := rfl
@[simp] theorem State.updGctl_pair (s : State) (f : Gctl → Gctl) : (s.updGctl f).pair = s.pair := rfl
@[simp] theorem State.updGctl_time (s : State) (f : Gctl → Gctl) : (s.updGctl f).time = s.time := rfl
@[simp] theorem State.updGctl_ref (s : State) (f : Gctl → Gctl) : (s.updGctl f).ref = s.ref := rfl
@[simp] theorem State.updGctl_mss (s : State) (f : Gctl → Gctl) : (s.updGctl f).mss = s.mss := rfl
@[simp] theorem State.updGctl_i3c (s : State) (f : Gctl → Gctl) : (s.updGctl f).i3c = s.i3c := rfl
@[simp] theorem State.updGctl_test (s : State) (f : Gctl → Gctl) : (s.updGctl f).test = s.test := rfl
@[simp] theorem State.updGctl_jtag (s : State) (f : Gctl → Gctl) : (s.updGctl f).jtag = s.jtag := rfl
@[simp] theorem State.updGctl_free (s : State) (f : Gctl → Gctl) : (s.updGctl f).free = s.free := rfl
@[simp] theorem State.updGctl_pending (s : State) (f : Gctl → Gctl) : (s.updGctl f).pending = s.pending := rfl

-- updMss: mss only

@[simp] theorem State.updMss_regs (s : State) (f : Mss → Mss) : (s.updMss f).regs = s.regs := rfl
@[simp] theorem State.updMss_gctl (s : State) (f : Mss → Mss) : (s.updMss f).gctl = s.gctl := rfl
@[simp] theorem State.updMss_rdata (s : State) (f : Mss → Mss) : (s.updMss f).rdata = s.rdata := rfl
@[simp] theorem State.updMss_latches (s : State) (f : Mss → Mss) : (s.updMss f).latches = s.latches := rfl
@[simp] theorem State.updMss_tai (s : State) (f : Mss → Mss) : (s.updMss f).tai = s.tai := rfl
@[simp] theorem State.updMss_reelSeq (s : State) (f : Mss → Mss) : (s.updMss f).reelSeq = s.reelSeq := rfl
@[simp] theorem State.updMss_lanes (s : State) (f : Mss → Mss) : (s.updMss f).lanes = s.lanes := rfl
@[simp] theorem State.updMss_evq (s : State) (f : Mss → Mss) : (s.updMss f).evq = s.evq := rfl
@[simp] theorem State.updMss_evDropped (s : State) (f : Mss → Mss) : (s.updMss f).evDropped = s.evDropped := rfl
@[simp] theorem State.updMss_log (s : State) (f : Mss → Mss) : (s.updMss f).log = s.log := rfl
@[simp] theorem State.updMss_logNext (s : State) (f : Mss → Mss) : (s.updMss f).logNext = s.logNext := rfl
@[simp] theorem State.updMss_mirror (s : State) (f : Mss → Mss) : (s.updMss f).mirror = s.mirror := rfl
@[simp] theorem State.updMss_stormEdges (s : State) (f : Mss → Mss) : (s.updMss f).stormEdges = s.stormEdges := rfl
@[simp] theorem State.updMss_hif (s : State) (f : Mss → Mss) : (s.updMss f).hif = s.hif := rfl
@[simp] theorem State.updMss_ssw (s : State) (f : Mss → Mss) : (s.updMss f).ssw = s.ssw := rfl
@[simp] theorem State.updMss_circ (s : State) (f : Mss → Mss) : (s.updMss f).circ = s.circ := rfl
@[simp] theorem State.updMss_pair (s : State) (f : Mss → Mss) : (s.updMss f).pair = s.pair := rfl
@[simp] theorem State.updMss_time (s : State) (f : Mss → Mss) : (s.updMss f).time = s.time := rfl
@[simp] theorem State.updMss_ref (s : State) (f : Mss → Mss) : (s.updMss f).ref = s.ref := rfl
@[simp] theorem State.updMss_mss (s : State) (f : Mss → Mss) : (s.updMss f).mss = f s.mss := rfl
@[simp] theorem State.updMss_i3c (s : State) (f : Mss → Mss) : (s.updMss f).i3c = s.i3c := rfl
@[simp] theorem State.updMss_test (s : State) (f : Mss → Mss) : (s.updMss f).test = s.test := rfl
@[simp] theorem State.updMss_jtag (s : State) (f : Mss → Mss) : (s.updMss f).jtag = s.jtag := rfl
@[simp] theorem State.updMss_free (s : State) (f : Mss → Mss) : (s.updMss f).free = s.free := rfl
@[simp] theorem State.updMss_pending (s : State) (f : Mss → Mss) : (s.updMss f).pending = s.pending := rfl

-- updCore: mss only

@[simp] theorem State.updCore_regs (s : State) (c : Nat) (f : CoreSt → CoreSt) : (s.updCore c f).regs = s.regs := rfl
@[simp] theorem State.updCore_gctl (s : State) (c : Nat) (f : CoreSt → CoreSt) : (s.updCore c f).gctl = s.gctl := rfl
@[simp] theorem State.updCore_rdata (s : State) (c : Nat) (f : CoreSt → CoreSt) : (s.updCore c f).rdata = s.rdata := rfl
@[simp] theorem State.updCore_latches (s : State) (c : Nat) (f : CoreSt → CoreSt) : (s.updCore c f).latches = s.latches := rfl
@[simp] theorem State.updCore_tai (s : State) (c : Nat) (f : CoreSt → CoreSt) : (s.updCore c f).tai = s.tai := rfl
@[simp] theorem State.updCore_reelSeq (s : State) (c : Nat) (f : CoreSt → CoreSt) : (s.updCore c f).reelSeq = s.reelSeq := rfl
@[simp] theorem State.updCore_lanes (s : State) (c : Nat) (f : CoreSt → CoreSt) : (s.updCore c f).lanes = s.lanes := rfl
@[simp] theorem State.updCore_evq (s : State) (c : Nat) (f : CoreSt → CoreSt) : (s.updCore c f).evq = s.evq := rfl
@[simp] theorem State.updCore_evDropped (s : State) (c : Nat) (f : CoreSt → CoreSt) : (s.updCore c f).evDropped = s.evDropped := rfl
@[simp] theorem State.updCore_log (s : State) (c : Nat) (f : CoreSt → CoreSt) : (s.updCore c f).log = s.log := rfl
@[simp] theorem State.updCore_logNext (s : State) (c : Nat) (f : CoreSt → CoreSt) : (s.updCore c f).logNext = s.logNext := rfl
@[simp] theorem State.updCore_mirror (s : State) (c : Nat) (f : CoreSt → CoreSt) : (s.updCore c f).mirror = s.mirror := rfl
@[simp] theorem State.updCore_stormEdges (s : State) (c : Nat) (f : CoreSt → CoreSt) : (s.updCore c f).stormEdges = s.stormEdges := rfl
@[simp] theorem State.updCore_hif (s : State) (c : Nat) (f : CoreSt → CoreSt) : (s.updCore c f).hif = s.hif := rfl
@[simp] theorem State.updCore_ssw (s : State) (c : Nat) (f : CoreSt → CoreSt) : (s.updCore c f).ssw = s.ssw := rfl
@[simp] theorem State.updCore_circ (s : State) (c : Nat) (f : CoreSt → CoreSt) : (s.updCore c f).circ = s.circ := rfl
@[simp] theorem State.updCore_pair (s : State) (c : Nat) (f : CoreSt → CoreSt) : (s.updCore c f).pair = s.pair := rfl
@[simp] theorem State.updCore_time (s : State) (c : Nat) (f : CoreSt → CoreSt) : (s.updCore c f).time = s.time := rfl
@[simp] theorem State.updCore_ref (s : State) (c : Nat) (f : CoreSt → CoreSt) : (s.updCore c f).ref = s.ref := rfl
@[simp] theorem State.updCore_i3c (s : State) (c : Nat) (f : CoreSt → CoreSt) : (s.updCore c f).i3c = s.i3c := rfl
@[simp] theorem State.updCore_test (s : State) (c : Nat) (f : CoreSt → CoreSt) : (s.updCore c f).test = s.test := rfl
@[simp] theorem State.updCore_jtag (s : State) (c : Nat) (f : CoreSt → CoreSt) : (s.updCore c f).jtag = s.jtag := rfl
@[simp] theorem State.updCore_free (s : State) (c : Nat) (f : CoreSt → CoreSt) : (s.updCore c f).free = s.free := rfl
@[simp] theorem State.updCore_pending (s : State) (c : Nat) (f : CoreSt → CoreSt) : (s.updCore c f).pending = s.pending := rfl

-- updPair: pair only

@[simp] theorem State.updPair_regs (s : State) (f : Pair → Pair) : (s.updPair f).regs = s.regs := rfl
@[simp] theorem State.updPair_gctl (s : State) (f : Pair → Pair) : (s.updPair f).gctl = s.gctl := rfl
@[simp] theorem State.updPair_rdata (s : State) (f : Pair → Pair) : (s.updPair f).rdata = s.rdata := rfl
@[simp] theorem State.updPair_latches (s : State) (f : Pair → Pair) : (s.updPair f).latches = s.latches := rfl
@[simp] theorem State.updPair_tai (s : State) (f : Pair → Pair) : (s.updPair f).tai = s.tai := rfl
@[simp] theorem State.updPair_reelSeq (s : State) (f : Pair → Pair) : (s.updPair f).reelSeq = s.reelSeq := rfl
@[simp] theorem State.updPair_lanes (s : State) (f : Pair → Pair) : (s.updPair f).lanes = s.lanes := rfl
@[simp] theorem State.updPair_evq (s : State) (f : Pair → Pair) : (s.updPair f).evq = s.evq := rfl
@[simp] theorem State.updPair_evDropped (s : State) (f : Pair → Pair) : (s.updPair f).evDropped = s.evDropped := rfl
@[simp] theorem State.updPair_log (s : State) (f : Pair → Pair) : (s.updPair f).log = s.log := rfl
@[simp] theorem State.updPair_logNext (s : State) (f : Pair → Pair) : (s.updPair f).logNext = s.logNext := rfl
@[simp] theorem State.updPair_mirror (s : State) (f : Pair → Pair) : (s.updPair f).mirror = s.mirror := rfl
@[simp] theorem State.updPair_stormEdges (s : State) (f : Pair → Pair) : (s.updPair f).stormEdges = s.stormEdges := rfl
@[simp] theorem State.updPair_hif (s : State) (f : Pair → Pair) : (s.updPair f).hif = s.hif := rfl
@[simp] theorem State.updPair_ssw (s : State) (f : Pair → Pair) : (s.updPair f).ssw = s.ssw := rfl
@[simp] theorem State.updPair_circ (s : State) (f : Pair → Pair) : (s.updPair f).circ = s.circ := rfl
@[simp] theorem State.updPair_pair (s : State) (f : Pair → Pair) : (s.updPair f).pair = f s.pair := rfl
@[simp] theorem State.updPair_time (s : State) (f : Pair → Pair) : (s.updPair f).time = s.time := rfl
@[simp] theorem State.updPair_ref (s : State) (f : Pair → Pair) : (s.updPair f).ref = s.ref := rfl
@[simp] theorem State.updPair_mss (s : State) (f : Pair → Pair) : (s.updPair f).mss = s.mss := rfl
@[simp] theorem State.updPair_i3c (s : State) (f : Pair → Pair) : (s.updPair f).i3c = s.i3c := rfl
@[simp] theorem State.updPair_test (s : State) (f : Pair → Pair) : (s.updPair f).test = s.test := rfl
@[simp] theorem State.updPair_jtag (s : State) (f : Pair → Pair) : (s.updPair f).jtag = s.jtag := rfl
@[simp] theorem State.updPair_free (s : State) (f : Pair → Pair) : (s.updPair f).free = s.free := rfl
@[simp] theorem State.updPair_pending (s : State) (f : Pair → Pair) : (s.updPair f).pending = s.pending := rfl

-- updSsw: ssw only

@[simp] theorem State.updSsw_regs (s : State) (f : Ssw → Ssw) : (s.updSsw f).regs = s.regs := rfl
@[simp] theorem State.updSsw_gctl (s : State) (f : Ssw → Ssw) : (s.updSsw f).gctl = s.gctl := rfl
@[simp] theorem State.updSsw_rdata (s : State) (f : Ssw → Ssw) : (s.updSsw f).rdata = s.rdata := rfl
@[simp] theorem State.updSsw_latches (s : State) (f : Ssw → Ssw) : (s.updSsw f).latches = s.latches := rfl
@[simp] theorem State.updSsw_tai (s : State) (f : Ssw → Ssw) : (s.updSsw f).tai = s.tai := rfl
@[simp] theorem State.updSsw_reelSeq (s : State) (f : Ssw → Ssw) : (s.updSsw f).reelSeq = s.reelSeq := rfl
@[simp] theorem State.updSsw_lanes (s : State) (f : Ssw → Ssw) : (s.updSsw f).lanes = s.lanes := rfl
@[simp] theorem State.updSsw_evq (s : State) (f : Ssw → Ssw) : (s.updSsw f).evq = s.evq := rfl
@[simp] theorem State.updSsw_evDropped (s : State) (f : Ssw → Ssw) : (s.updSsw f).evDropped = s.evDropped := rfl
@[simp] theorem State.updSsw_log (s : State) (f : Ssw → Ssw) : (s.updSsw f).log = s.log := rfl
@[simp] theorem State.updSsw_logNext (s : State) (f : Ssw → Ssw) : (s.updSsw f).logNext = s.logNext := rfl
@[simp] theorem State.updSsw_mirror (s : State) (f : Ssw → Ssw) : (s.updSsw f).mirror = s.mirror := rfl
@[simp] theorem State.updSsw_stormEdges (s : State) (f : Ssw → Ssw) : (s.updSsw f).stormEdges = s.stormEdges := rfl
@[simp] theorem State.updSsw_hif (s : State) (f : Ssw → Ssw) : (s.updSsw f).hif = s.hif := rfl
@[simp] theorem State.updSsw_ssw (s : State) (f : Ssw → Ssw) : (s.updSsw f).ssw = f s.ssw := rfl
@[simp] theorem State.updSsw_circ (s : State) (f : Ssw → Ssw) : (s.updSsw f).circ = s.circ := rfl
@[simp] theorem State.updSsw_pair (s : State) (f : Ssw → Ssw) : (s.updSsw f).pair = s.pair := rfl
@[simp] theorem State.updSsw_time (s : State) (f : Ssw → Ssw) : (s.updSsw f).time = s.time := rfl
@[simp] theorem State.updSsw_ref (s : State) (f : Ssw → Ssw) : (s.updSsw f).ref = s.ref := rfl
@[simp] theorem State.updSsw_mss (s : State) (f : Ssw → Ssw) : (s.updSsw f).mss = s.mss := rfl
@[simp] theorem State.updSsw_i3c (s : State) (f : Ssw → Ssw) : (s.updSsw f).i3c = s.i3c := rfl
@[simp] theorem State.updSsw_test (s : State) (f : Ssw → Ssw) : (s.updSsw f).test = s.test := rfl
@[simp] theorem State.updSsw_jtag (s : State) (f : Ssw → Ssw) : (s.updSsw f).jtag = s.jtag := rfl
@[simp] theorem State.updSsw_free (s : State) (f : Ssw → Ssw) : (s.updSsw f).free = s.free := rfl
@[simp] theorem State.updSsw_pending (s : State) (f : Ssw → Ssw) : (s.updSsw f).pending = s.pending := rfl

-- updCirc: circ only

@[simp] theorem State.updCirc_regs (s : State) (f : Circ → Circ) : (s.updCirc f).regs = s.regs := rfl
@[simp] theorem State.updCirc_gctl (s : State) (f : Circ → Circ) : (s.updCirc f).gctl = s.gctl := rfl
@[simp] theorem State.updCirc_rdata (s : State) (f : Circ → Circ) : (s.updCirc f).rdata = s.rdata := rfl
@[simp] theorem State.updCirc_latches (s : State) (f : Circ → Circ) : (s.updCirc f).latches = s.latches := rfl
@[simp] theorem State.updCirc_tai (s : State) (f : Circ → Circ) : (s.updCirc f).tai = s.tai := rfl
@[simp] theorem State.updCirc_reelSeq (s : State) (f : Circ → Circ) : (s.updCirc f).reelSeq = s.reelSeq := rfl
@[simp] theorem State.updCirc_lanes (s : State) (f : Circ → Circ) : (s.updCirc f).lanes = s.lanes := rfl
@[simp] theorem State.updCirc_evq (s : State) (f : Circ → Circ) : (s.updCirc f).evq = s.evq := rfl
@[simp] theorem State.updCirc_evDropped (s : State) (f : Circ → Circ) : (s.updCirc f).evDropped = s.evDropped := rfl
@[simp] theorem State.updCirc_log (s : State) (f : Circ → Circ) : (s.updCirc f).log = s.log := rfl
@[simp] theorem State.updCirc_logNext (s : State) (f : Circ → Circ) : (s.updCirc f).logNext = s.logNext := rfl
@[simp] theorem State.updCirc_mirror (s : State) (f : Circ → Circ) : (s.updCirc f).mirror = s.mirror := rfl
@[simp] theorem State.updCirc_stormEdges (s : State) (f : Circ → Circ) : (s.updCirc f).stormEdges = s.stormEdges := rfl
@[simp] theorem State.updCirc_hif (s : State) (f : Circ → Circ) : (s.updCirc f).hif = s.hif := rfl
@[simp] theorem State.updCirc_ssw (s : State) (f : Circ → Circ) : (s.updCirc f).ssw = s.ssw := rfl
@[simp] theorem State.updCirc_circ (s : State) (f : Circ → Circ) : (s.updCirc f).circ = f s.circ := rfl
@[simp] theorem State.updCirc_pair (s : State) (f : Circ → Circ) : (s.updCirc f).pair = s.pair := rfl
@[simp] theorem State.updCirc_time (s : State) (f : Circ → Circ) : (s.updCirc f).time = s.time := rfl
@[simp] theorem State.updCirc_ref (s : State) (f : Circ → Circ) : (s.updCirc f).ref = s.ref := rfl
@[simp] theorem State.updCirc_mss (s : State) (f : Circ → Circ) : (s.updCirc f).mss = s.mss := rfl
@[simp] theorem State.updCirc_i3c (s : State) (f : Circ → Circ) : (s.updCirc f).i3c = s.i3c := rfl
@[simp] theorem State.updCirc_test (s : State) (f : Circ → Circ) : (s.updCirc f).test = s.test := rfl
@[simp] theorem State.updCirc_jtag (s : State) (f : Circ → Circ) : (s.updCirc f).jtag = s.jtag := rfl
@[simp] theorem State.updCirc_free (s : State) (f : Circ → Circ) : (s.updCirc f).free = s.free := rfl
@[simp] theorem State.updCirc_pending (s : State) (f : Circ → Circ) : (s.updCirc f).pending = s.pending := rfl

-- updTime: time only

@[simp] theorem State.updTime_regs (s : State) (f : Time → Time) : (s.updTime f).regs = s.regs := rfl
@[simp] theorem State.updTime_gctl (s : State) (f : Time → Time) : (s.updTime f).gctl = s.gctl := rfl
@[simp] theorem State.updTime_rdata (s : State) (f : Time → Time) : (s.updTime f).rdata = s.rdata := rfl
@[simp] theorem State.updTime_latches (s : State) (f : Time → Time) : (s.updTime f).latches = s.latches := rfl
@[simp] theorem State.updTime_tai (s : State) (f : Time → Time) : (s.updTime f).tai = s.tai := rfl
@[simp] theorem State.updTime_reelSeq (s : State) (f : Time → Time) : (s.updTime f).reelSeq = s.reelSeq := rfl
@[simp] theorem State.updTime_lanes (s : State) (f : Time → Time) : (s.updTime f).lanes = s.lanes := rfl
@[simp] theorem State.updTime_evq (s : State) (f : Time → Time) : (s.updTime f).evq = s.evq := rfl
@[simp] theorem State.updTime_evDropped (s : State) (f : Time → Time) : (s.updTime f).evDropped = s.evDropped := rfl
@[simp] theorem State.updTime_log (s : State) (f : Time → Time) : (s.updTime f).log = s.log := rfl
@[simp] theorem State.updTime_logNext (s : State) (f : Time → Time) : (s.updTime f).logNext = s.logNext := rfl
@[simp] theorem State.updTime_mirror (s : State) (f : Time → Time) : (s.updTime f).mirror = s.mirror := rfl
@[simp] theorem State.updTime_stormEdges (s : State) (f : Time → Time) : (s.updTime f).stormEdges = s.stormEdges := rfl
@[simp] theorem State.updTime_hif (s : State) (f : Time → Time) : (s.updTime f).hif = s.hif := rfl
@[simp] theorem State.updTime_ssw (s : State) (f : Time → Time) : (s.updTime f).ssw = s.ssw := rfl
@[simp] theorem State.updTime_circ (s : State) (f : Time → Time) : (s.updTime f).circ = s.circ := rfl
@[simp] theorem State.updTime_pair (s : State) (f : Time → Time) : (s.updTime f).pair = s.pair := rfl
@[simp] theorem State.updTime_time (s : State) (f : Time → Time) : (s.updTime f).time = f s.time := rfl
@[simp] theorem State.updTime_ref (s : State) (f : Time → Time) : (s.updTime f).ref = s.ref := rfl
@[simp] theorem State.updTime_mss (s : State) (f : Time → Time) : (s.updTime f).mss = s.mss := rfl
@[simp] theorem State.updTime_i3c (s : State) (f : Time → Time) : (s.updTime f).i3c = s.i3c := rfl
@[simp] theorem State.updTime_test (s : State) (f : Time → Time) : (s.updTime f).test = s.test := rfl
@[simp] theorem State.updTime_jtag (s : State) (f : Time → Time) : (s.updTime f).jtag = s.jtag := rfl
@[simp] theorem State.updTime_free (s : State) (f : Time → Time) : (s.updTime f).free = s.free := rfl
@[simp] theorem State.updTime_pending (s : State) (f : Time → Time) : (s.updTime f).pending = s.pending := rfl

-- updRef: ref only

@[simp] theorem State.updRef_regs (s : State) (f : Ref → Ref) : (s.updRef f).regs = s.regs := rfl
@[simp] theorem State.updRef_gctl (s : State) (f : Ref → Ref) : (s.updRef f).gctl = s.gctl := rfl
@[simp] theorem State.updRef_rdata (s : State) (f : Ref → Ref) : (s.updRef f).rdata = s.rdata := rfl
@[simp] theorem State.updRef_latches (s : State) (f : Ref → Ref) : (s.updRef f).latches = s.latches := rfl
@[simp] theorem State.updRef_tai (s : State) (f : Ref → Ref) : (s.updRef f).tai = s.tai := rfl
@[simp] theorem State.updRef_reelSeq (s : State) (f : Ref → Ref) : (s.updRef f).reelSeq = s.reelSeq := rfl
@[simp] theorem State.updRef_lanes (s : State) (f : Ref → Ref) : (s.updRef f).lanes = s.lanes := rfl
@[simp] theorem State.updRef_evq (s : State) (f : Ref → Ref) : (s.updRef f).evq = s.evq := rfl
@[simp] theorem State.updRef_evDropped (s : State) (f : Ref → Ref) : (s.updRef f).evDropped = s.evDropped := rfl
@[simp] theorem State.updRef_log (s : State) (f : Ref → Ref) : (s.updRef f).log = s.log := rfl
@[simp] theorem State.updRef_logNext (s : State) (f : Ref → Ref) : (s.updRef f).logNext = s.logNext := rfl
@[simp] theorem State.updRef_mirror (s : State) (f : Ref → Ref) : (s.updRef f).mirror = s.mirror := rfl
@[simp] theorem State.updRef_stormEdges (s : State) (f : Ref → Ref) : (s.updRef f).stormEdges = s.stormEdges := rfl
@[simp] theorem State.updRef_hif (s : State) (f : Ref → Ref) : (s.updRef f).hif = s.hif := rfl
@[simp] theorem State.updRef_ssw (s : State) (f : Ref → Ref) : (s.updRef f).ssw = s.ssw := rfl
@[simp] theorem State.updRef_circ (s : State) (f : Ref → Ref) : (s.updRef f).circ = s.circ := rfl
@[simp] theorem State.updRef_pair (s : State) (f : Ref → Ref) : (s.updRef f).pair = s.pair := rfl
@[simp] theorem State.updRef_time (s : State) (f : Ref → Ref) : (s.updRef f).time = s.time := rfl
@[simp] theorem State.updRef_ref (s : State) (f : Ref → Ref) : (s.updRef f).ref = f s.ref := rfl
@[simp] theorem State.updRef_mss (s : State) (f : Ref → Ref) : (s.updRef f).mss = s.mss := rfl
@[simp] theorem State.updRef_i3c (s : State) (f : Ref → Ref) : (s.updRef f).i3c = s.i3c := rfl
@[simp] theorem State.updRef_test (s : State) (f : Ref → Ref) : (s.updRef f).test = s.test := rfl
@[simp] theorem State.updRef_jtag (s : State) (f : Ref → Ref) : (s.updRef f).jtag = s.jtag := rfl
@[simp] theorem State.updRef_free (s : State) (f : Ref → Ref) : (s.updRef f).free = s.free := rfl
@[simp] theorem State.updRef_pending (s : State) (f : Ref → Ref) : (s.updRef f).pending = s.pending := rfl

-- updI3c: i3c only

@[simp] theorem State.updI3c_regs (s : State) (f : I3c → I3c) : (s.updI3c f).regs = s.regs := rfl
@[simp] theorem State.updI3c_gctl (s : State) (f : I3c → I3c) : (s.updI3c f).gctl = s.gctl := rfl
@[simp] theorem State.updI3c_rdata (s : State) (f : I3c → I3c) : (s.updI3c f).rdata = s.rdata := rfl
@[simp] theorem State.updI3c_latches (s : State) (f : I3c → I3c) : (s.updI3c f).latches = s.latches := rfl
@[simp] theorem State.updI3c_tai (s : State) (f : I3c → I3c) : (s.updI3c f).tai = s.tai := rfl
@[simp] theorem State.updI3c_reelSeq (s : State) (f : I3c → I3c) : (s.updI3c f).reelSeq = s.reelSeq := rfl
@[simp] theorem State.updI3c_lanes (s : State) (f : I3c → I3c) : (s.updI3c f).lanes = s.lanes := rfl
@[simp] theorem State.updI3c_evq (s : State) (f : I3c → I3c) : (s.updI3c f).evq = s.evq := rfl
@[simp] theorem State.updI3c_evDropped (s : State) (f : I3c → I3c) : (s.updI3c f).evDropped = s.evDropped := rfl
@[simp] theorem State.updI3c_log (s : State) (f : I3c → I3c) : (s.updI3c f).log = s.log := rfl
@[simp] theorem State.updI3c_logNext (s : State) (f : I3c → I3c) : (s.updI3c f).logNext = s.logNext := rfl
@[simp] theorem State.updI3c_mirror (s : State) (f : I3c → I3c) : (s.updI3c f).mirror = s.mirror := rfl
@[simp] theorem State.updI3c_stormEdges (s : State) (f : I3c → I3c) : (s.updI3c f).stormEdges = s.stormEdges := rfl
@[simp] theorem State.updI3c_hif (s : State) (f : I3c → I3c) : (s.updI3c f).hif = s.hif := rfl
@[simp] theorem State.updI3c_ssw (s : State) (f : I3c → I3c) : (s.updI3c f).ssw = s.ssw := rfl
@[simp] theorem State.updI3c_circ (s : State) (f : I3c → I3c) : (s.updI3c f).circ = s.circ := rfl
@[simp] theorem State.updI3c_pair (s : State) (f : I3c → I3c) : (s.updI3c f).pair = s.pair := rfl
@[simp] theorem State.updI3c_time (s : State) (f : I3c → I3c) : (s.updI3c f).time = s.time := rfl
@[simp] theorem State.updI3c_ref (s : State) (f : I3c → I3c) : (s.updI3c f).ref = s.ref := rfl
@[simp] theorem State.updI3c_mss (s : State) (f : I3c → I3c) : (s.updI3c f).mss = s.mss := rfl
@[simp] theorem State.updI3c_i3c (s : State) (f : I3c → I3c) : (s.updI3c f).i3c = f s.i3c := rfl
@[simp] theorem State.updI3c_test (s : State) (f : I3c → I3c) : (s.updI3c f).test = s.test := rfl
@[simp] theorem State.updI3c_jtag (s : State) (f : I3c → I3c) : (s.updI3c f).jtag = s.jtag := rfl
@[simp] theorem State.updI3c_free (s : State) (f : I3c → I3c) : (s.updI3c f).free = s.free := rfl
@[simp] theorem State.updI3c_pending (s : State) (f : I3c → I3c) : (s.updI3c f).pending = s.pending := rfl

-- updTest: test only

@[simp] theorem State.updTest_regs (s : State) (n : Nat) (f : TestLane → TestLane) : (s.updTest n f).regs = s.regs := rfl
@[simp] theorem State.updTest_gctl (s : State) (n : Nat) (f : TestLane → TestLane) : (s.updTest n f).gctl = s.gctl := rfl
@[simp] theorem State.updTest_rdata (s : State) (n : Nat) (f : TestLane → TestLane) : (s.updTest n f).rdata = s.rdata := rfl
@[simp] theorem State.updTest_latches (s : State) (n : Nat) (f : TestLane → TestLane) : (s.updTest n f).latches = s.latches := rfl
@[simp] theorem State.updTest_tai (s : State) (n : Nat) (f : TestLane → TestLane) : (s.updTest n f).tai = s.tai := rfl
@[simp] theorem State.updTest_reelSeq (s : State) (n : Nat) (f : TestLane → TestLane) : (s.updTest n f).reelSeq = s.reelSeq := rfl
@[simp] theorem State.updTest_lanes (s : State) (n : Nat) (f : TestLane → TestLane) : (s.updTest n f).lanes = s.lanes := rfl
@[simp] theorem State.updTest_evq (s : State) (n : Nat) (f : TestLane → TestLane) : (s.updTest n f).evq = s.evq := rfl
@[simp] theorem State.updTest_evDropped (s : State) (n : Nat) (f : TestLane → TestLane) : (s.updTest n f).evDropped = s.evDropped := rfl
@[simp] theorem State.updTest_log (s : State) (n : Nat) (f : TestLane → TestLane) : (s.updTest n f).log = s.log := rfl
@[simp] theorem State.updTest_logNext (s : State) (n : Nat) (f : TestLane → TestLane) : (s.updTest n f).logNext = s.logNext := rfl
@[simp] theorem State.updTest_mirror (s : State) (n : Nat) (f : TestLane → TestLane) : (s.updTest n f).mirror = s.mirror := rfl
@[simp] theorem State.updTest_stormEdges (s : State) (n : Nat) (f : TestLane → TestLane) : (s.updTest n f).stormEdges = s.stormEdges := rfl
@[simp] theorem State.updTest_hif (s : State) (n : Nat) (f : TestLane → TestLane) : (s.updTest n f).hif = s.hif := rfl
@[simp] theorem State.updTest_ssw (s : State) (n : Nat) (f : TestLane → TestLane) : (s.updTest n f).ssw = s.ssw := rfl
@[simp] theorem State.updTest_circ (s : State) (n : Nat) (f : TestLane → TestLane) : (s.updTest n f).circ = s.circ := rfl
@[simp] theorem State.updTest_pair (s : State) (n : Nat) (f : TestLane → TestLane) : (s.updTest n f).pair = s.pair := rfl
@[simp] theorem State.updTest_time (s : State) (n : Nat) (f : TestLane → TestLane) : (s.updTest n f).time = s.time := rfl
@[simp] theorem State.updTest_ref (s : State) (n : Nat) (f : TestLane → TestLane) : (s.updTest n f).ref = s.ref := rfl
@[simp] theorem State.updTest_mss (s : State) (n : Nat) (f : TestLane → TestLane) : (s.updTest n f).mss = s.mss := rfl
@[simp] theorem State.updTest_i3c (s : State) (n : Nat) (f : TestLane → TestLane) : (s.updTest n f).i3c = s.i3c := rfl
@[simp] theorem State.updTest_jtag (s : State) (n : Nat) (f : TestLane → TestLane) : (s.updTest n f).jtag = s.jtag := rfl
@[simp] theorem State.updTest_free (s : State) (n : Nat) (f : TestLane → TestLane) : (s.updTest n f).free = s.free := rfl
@[simp] theorem State.updTest_pending (s : State) (n : Nat) (f : TestLane → TestLane) : (s.updTest n f).pending = s.pending := rfl

-- setRdata: rdata only

@[simp] theorem State.setRdata_regs (s : State) (m : Master) (v : Word) : (s.setRdata m v).regs = s.regs := rfl
@[simp] theorem State.setRdata_gctl (s : State) (m : Master) (v : Word) : (s.setRdata m v).gctl = s.gctl := rfl
@[simp] theorem State.setRdata_latches (s : State) (m : Master) (v : Word) : (s.setRdata m v).latches = s.latches := rfl
@[simp] theorem State.setRdata_tai (s : State) (m : Master) (v : Word) : (s.setRdata m v).tai = s.tai := rfl
@[simp] theorem State.setRdata_reelSeq (s : State) (m : Master) (v : Word) : (s.setRdata m v).reelSeq = s.reelSeq := rfl
@[simp] theorem State.setRdata_lanes (s : State) (m : Master) (v : Word) : (s.setRdata m v).lanes = s.lanes := rfl
@[simp] theorem State.setRdata_evq (s : State) (m : Master) (v : Word) : (s.setRdata m v).evq = s.evq := rfl
@[simp] theorem State.setRdata_evDropped (s : State) (m : Master) (v : Word) : (s.setRdata m v).evDropped = s.evDropped := rfl
@[simp] theorem State.setRdata_log (s : State) (m : Master) (v : Word) : (s.setRdata m v).log = s.log := rfl
@[simp] theorem State.setRdata_logNext (s : State) (m : Master) (v : Word) : (s.setRdata m v).logNext = s.logNext := rfl
@[simp] theorem State.setRdata_mirror (s : State) (m : Master) (v : Word) : (s.setRdata m v).mirror = s.mirror := rfl
@[simp] theorem State.setRdata_stormEdges (s : State) (m : Master) (v : Word) : (s.setRdata m v).stormEdges = s.stormEdges := rfl
@[simp] theorem State.setRdata_hif (s : State) (m : Master) (v : Word) : (s.setRdata m v).hif = s.hif := rfl
@[simp] theorem State.setRdata_ssw (s : State) (m : Master) (v : Word) : (s.setRdata m v).ssw = s.ssw := rfl
@[simp] theorem State.setRdata_circ (s : State) (m : Master) (v : Word) : (s.setRdata m v).circ = s.circ := rfl
@[simp] theorem State.setRdata_pair (s : State) (m : Master) (v : Word) : (s.setRdata m v).pair = s.pair := rfl
@[simp] theorem State.setRdata_time (s : State) (m : Master) (v : Word) : (s.setRdata m v).time = s.time := rfl
@[simp] theorem State.setRdata_ref (s : State) (m : Master) (v : Word) : (s.setRdata m v).ref = s.ref := rfl
@[simp] theorem State.setRdata_mss (s : State) (m : Master) (v : Word) : (s.setRdata m v).mss = s.mss := rfl
@[simp] theorem State.setRdata_i3c (s : State) (m : Master) (v : Word) : (s.setRdata m v).i3c = s.i3c := rfl
@[simp] theorem State.setRdata_test (s : State) (m : Master) (v : Word) : (s.setRdata m v).test = s.test := rfl
@[simp] theorem State.setRdata_jtag (s : State) (m : Master) (v : Word) : (s.setRdata m v).jtag = s.jtag := rfl
@[simp] theorem State.setRdata_free (s : State) (m : Master) (v : Word) : (s.setRdata m v).free = s.free := rfl
@[simp] theorem State.setRdata_pending (s : State) (m : Master) (v : Word) : (s.setRdata m v).pending = s.pending := rfl

-- latch: latches only

@[simp] theorem State.latch_regs (s : State) (m : Master) (l : List (Nat × Word)) : (s.latch m l).regs = s.regs := rfl
@[simp] theorem State.latch_gctl (s : State) (m : Master) (l : List (Nat × Word)) : (s.latch m l).gctl = s.gctl := rfl
@[simp] theorem State.latch_rdata (s : State) (m : Master) (l : List (Nat × Word)) : (s.latch m l).rdata = s.rdata := rfl
@[simp] theorem State.latch_tai (s : State) (m : Master) (l : List (Nat × Word)) : (s.latch m l).tai = s.tai := rfl
@[simp] theorem State.latch_reelSeq (s : State) (m : Master) (l : List (Nat × Word)) : (s.latch m l).reelSeq = s.reelSeq := rfl
@[simp] theorem State.latch_lanes (s : State) (m : Master) (l : List (Nat × Word)) : (s.latch m l).lanes = s.lanes := rfl
@[simp] theorem State.latch_evq (s : State) (m : Master) (l : List (Nat × Word)) : (s.latch m l).evq = s.evq := rfl
@[simp] theorem State.latch_evDropped (s : State) (m : Master) (l : List (Nat × Word)) : (s.latch m l).evDropped = s.evDropped := rfl
@[simp] theorem State.latch_log (s : State) (m : Master) (l : List (Nat × Word)) : (s.latch m l).log = s.log := rfl
@[simp] theorem State.latch_logNext (s : State) (m : Master) (l : List (Nat × Word)) : (s.latch m l).logNext = s.logNext := rfl
@[simp] theorem State.latch_mirror (s : State) (m : Master) (l : List (Nat × Word)) : (s.latch m l).mirror = s.mirror := rfl
@[simp] theorem State.latch_stormEdges (s : State) (m : Master) (l : List (Nat × Word)) : (s.latch m l).stormEdges = s.stormEdges := rfl
@[simp] theorem State.latch_hif (s : State) (m : Master) (l : List (Nat × Word)) : (s.latch m l).hif = s.hif := rfl
@[simp] theorem State.latch_ssw (s : State) (m : Master) (l : List (Nat × Word)) : (s.latch m l).ssw = s.ssw := rfl
@[simp] theorem State.latch_circ (s : State) (m : Master) (l : List (Nat × Word)) : (s.latch m l).circ = s.circ := rfl
@[simp] theorem State.latch_pair (s : State) (m : Master) (l : List (Nat × Word)) : (s.latch m l).pair = s.pair := rfl
@[simp] theorem State.latch_time (s : State) (m : Master) (l : List (Nat × Word)) : (s.latch m l).time = s.time := rfl
@[simp] theorem State.latch_ref (s : State) (m : Master) (l : List (Nat × Word)) : (s.latch m l).ref = s.ref := rfl
@[simp] theorem State.latch_mss (s : State) (m : Master) (l : List (Nat × Word)) : (s.latch m l).mss = s.mss := rfl
@[simp] theorem State.latch_i3c (s : State) (m : Master) (l : List (Nat × Word)) : (s.latch m l).i3c = s.i3c := rfl
@[simp] theorem State.latch_test (s : State) (m : Master) (l : List (Nat × Word)) : (s.latch m l).test = s.test := rfl
@[simp] theorem State.latch_jtag (s : State) (m : Master) (l : List (Nat × Word)) : (s.latch m l).jtag = s.jtag := rfl
@[simp] theorem State.latch_free (s : State) (m : Master) (l : List (Nat × Word)) : (s.latch m l).free = s.free := rfl
@[simp] theorem State.latch_pending (s : State) (m : Master) (l : List (Nat × Word)) : (s.latch m l).pending = s.pending := rfl

end Sys2Proof.Machine
end

