-- ==== Sys2Proof/Laws/Tables.lean ====
section
/-!
SUPPORT. Laws of the sparse tables: reading back what was written, at the same key and at others, and the canonical form.
-/
namespace Sys2Proof.Machine
open Sys2Proof

theorem Tbl.find?_insert {α : Type} (t : Tbl α) (k j : Nat) (v : α) :
    Tbl.find? (Tbl.insert t k v) j = if k = j then some v else Tbl.find? t j := by
  induction t with
  | nil => simp [Tbl.insert, Tbl.find?]
  | cons p t ih =>
    obtain ⟨k', v'⟩ := p
    by_cases h1 : k' = k
    · subst h1
      by_cases h2 : k' = j <;> simp [Tbl.insert, Tbl.find?, h2]
    · by_cases h2 : k < k'
      · simp only [Tbl.insert, h1, h2, if_true, if_false, Tbl.find?]
      · by_cases h3 : k' = j
        · subst h3
          have : ¬ k = k' := fun h => h1 h.symm
          simp [Tbl.insert, Tbl.find?, h1, h2, this]
        · simp [Tbl.insert, Tbl.find?, h1, h2, h3, ih]

theorem Tbl.find?_erase {α : Type} (t : Tbl α) (k j : Nat) :
    Tbl.find? (Tbl.erase t k) j = if k = j then none else Tbl.find? t j := by
  induction t with
  | nil => simp [Tbl.erase, Tbl.find?]
  | cons p t ih =>
    obtain ⟨k', v'⟩ := p
    by_cases h1 : k' = k
    · subst h1
      simp only [Tbl.erase, if_true, ih, Tbl.find?]
      by_cases h2 : k' = j <;> simp [h2]
    · by_cases h3 : k' = j
      · subst h3
        have : ¬ k = k' := fun h => h1 h.symm
        simp [Tbl.erase, Tbl.find?, h1, this]
      · simp [Tbl.erase, Tbl.find?, h1, h3, ih]

/-- Reading a table after a write: the value written at its key, the old value at every other. -/
theorem Tbl.get_put {α : Type} [DecidableEq α] (d : Nat → α) (t : Tbl α) (k j : Nat) (v : α) :
    Tbl.get d (Tbl.put d t k v) j = if k = j then v else Tbl.get d t j := by
  unfold Tbl.get Tbl.put
  by_cases h : v = d k
  · simp only [h, if_true, Tbl.find?_erase]
    by_cases hk : k = j
    · subst hk; simp
    · simp [hk]
  · simp only [h, if_false, Tbl.find?_insert]
    by_cases hk : k = j <;> simp [hk]

@[simp] theorem Tbl.get_put_same {α : Type} [DecidableEq α] (d : Nat → α) (t : Tbl α) (k : Nat) (v : α) :
    Tbl.get d (Tbl.put d t k v) k = v := by simp [Tbl.get_put]

theorem Tbl.get_put_ne {α : Type} [DecidableEq α] (d : Nat → α) (t : Tbl α) (k j : Nat) (v : α) (h : k ≠ j) :
    Tbl.get d (Tbl.put d t k v) j = Tbl.get d t j := by simp [Tbl.get_put, h]

@[simp] theorem Tbl.get_nil {α : Type} (d : Nat → α) (k : Nat) : Tbl.get d [] k = d k := rfl

theorem Tbl.wfFrom_mono {α : Type} [DecidableEq α] (d : Nat → α) (t : Tbl α) (k : Nat) (h : Tbl.wfFrom d (some k) t = true) :
    Tbl.wfFrom d none t = true := by
  cases t with
  | nil => rfl
  | cons p t => obtain ⟨k', v'⟩ := p; simp [Tbl.wfFrom] at h ⊢; tauto

theorem Tbl.wfFrom_lower {α : Type} [DecidableEq α] (d : Nat → α) (t : Tbl α) (i k : Nat) (hik : i < k)
    (h : Tbl.wfFrom d (some k) t = true) : Tbl.wfFrom d (some i) t = true := by
  cases t with
  | nil => rfl
  | cons p t => obtain ⟨k', v'⟩ := p; simp [Tbl.wfFrom] at h ⊢; exact ⟨⟨by omega, h.1.2⟩, h.2⟩

/-- Insertion keeps the canonical form. -/
theorem Tbl.wfFrom_insert {α : Type} [DecidableEq α] (d : Nat → α) (t : Tbl α) (lo : Option Nat) (k : Nat) (v : α)
    (hlo : ∀ l, lo = some l → l < k) (hv : v ≠ d k) (h : Tbl.wfFrom d lo t = true) :
    Tbl.wfFrom d lo (Tbl.insert t k v) = true := by
  induction t generalizing lo with
  | nil => cases lo <;> simp [Tbl.insert, Tbl.wfFrom, hv]; exact hlo _ rfl
  | cons p t ih =>
    obtain ⟨k', v'⟩ := p
    simp only [Tbl.wfFrom, Bool.and_eq_true, decide_eq_true_eq] at h
    by_cases h1 : k' = k
    · subst h1
      simp [Tbl.insert, Tbl.wfFrom, hv, h.1.1, h.2]
    · by_cases h2 : k < k'
      · simp only [Tbl.insert, h1, h2, if_true, if_false, Tbl.wfFrom, Bool.and_eq_true, decide_eq_true_eq]
        refine ⟨⟨?_, hv⟩, ⟨trivial, h.1.2⟩, h.2⟩
        cases lo with
        | none => rfl
        | some l => simpa using hlo l rfl
      · simp only [Tbl.insert, h1, h2, if_false, Tbl.wfFrom, Bool.and_eq_true, decide_eq_true_eq]
        refine ⟨h.1, ih (some k') ?_ h.2⟩
        intro l hl
        cases hl
        omega

/-- Removal keeps the canonical form. -/
theorem Tbl.wfFrom_erase {α : Type} [DecidableEq α] (d : Nat → α) (t : Tbl α) (lo : Option Nat) (k : Nat)
    (h : Tbl.wfFrom d lo t = true) : Tbl.wfFrom d lo (Tbl.erase t k) = true := by
  induction t generalizing lo with
  | nil => rfl
  | cons p t ih =>
    obtain ⟨k', v'⟩ := p
    simp only [Tbl.wfFrom, Bool.and_eq_true, decide_eq_true_eq] at h
    by_cases h1 : k' = k
    · simp only [Tbl.erase, h1, if_true]
      refine ih lo ?_
      cases lo with
      | none => exact Tbl.wfFrom_mono d t k' h.2
      | some l => exact Tbl.wfFrom_lower d t l k' (by simpa using h.1.1) h.2
    · simp only [Tbl.erase, h1, if_false, Tbl.wfFrom, Bool.and_eq_true, decide_eq_true_eq]
      exact ⟨h.1, ih (some k') h.2⟩

/-- A write keeps the canonical form. -/
theorem Tbl.wf_put {α : Type} [DecidableEq α] (d : Nat → α) (t : Tbl α) (k : Nat) (v : α) (h : Tbl.wf d t = true) :
    Tbl.wf d (Tbl.put d t k v) = true := by
  unfold Tbl.wf Tbl.put at *
  by_cases hv : v = d k
  · simp only [hv, if_true]; exact Tbl.wfFrom_erase d t none k h
  · simp only [hv, if_false]; exact Tbl.wfFrom_insert d t none k v (by simp) hv h

theorem Tbl.wfFrom_filter {α : Type} [DecidableEq α] (d : Nat → α) (p : Nat × α → Bool) (t : Tbl α) (lo : Option Nat)
    (h : Tbl.wfFrom d lo t = true) : Tbl.wfFrom d lo (t.filter p) = true := by
  induction t generalizing lo with
  | nil => rfl
  | cons q t ih =>
    obtain ⟨k', v'⟩ := q
    simp only [Tbl.wfFrom, Bool.and_eq_true, decide_eq_true_eq] at h
    by_cases hp : p (k', v') = true
    · simp only [List.filter_cons, hp, if_true, Tbl.wfFrom, Bool.and_eq_true, decide_eq_true_eq]
      exact ⟨h.1, ih (some k') h.2⟩
    · simp only [List.filter_cons, hp]
      refine ih lo ?_
      cases lo with
      | none => exact Tbl.wfFrom_mono d t k' h.2
      | some l => exact Tbl.wfFrom_lower d t l k' (by simpa using h.1.1) h.2

/-- Leaving out entries keeps the canonical form. -/
theorem Tbl.wf_filter {α : Type} [DecidableEq α] (d : Nat → α) (p : Nat × α → Bool) (t : Tbl α) (h : Tbl.wf d t = true) :
    Tbl.wf d (t.filter p) = true := Tbl.wfFrom_filter d p t none h

-- Byte memories -------------------------------------------------------------------------------------------------

/-- A byte read after a byte write. -/
theorem Memory.read_write (m : Memory) (a b : Nat) (v : Byte) :
    Memory.read (Memory.write m a v) b = if a = b then v else Memory.read m b := Tbl.get_put Memory.unlisted m a b v

/-- A byte write keeps the canonical form. -/
theorem Memory.wf_write (m : Memory) (a : Nat) (v : Byte) (h : m.wf = true) : (Memory.write m a v).wf = true :=
  Tbl.wf_put Memory.unlisted m a v h

/-- Writing bytes keeps the canonical form. -/
theorem Memory.wf_writeBytes (m : Memory) (a : Nat) (bs : List Byte) (h : m.wf = true) : (Memory.writeBytes m a bs).wf = true := by
  induction bs generalizing m a with
  | nil => exact h
  | cons b bs ih => exact ih _ _ (Memory.wf_write m a b h)

/-- A byte read after consecutive bytes were written: the byte written there, or the old one. -/
theorem Memory.read_writeBytes (m : Memory) (a b : Nat) (bs : List Byte) :
    Memory.read (Memory.writeBytes m a bs) b = if a ≤ b ∧ b < a + bs.length then bs.getD (b - a) 0 else Memory.read m b := by
  induction bs generalizing m a with
  | nil =>
    have : ¬ (a ≤ b ∧ b < a + ([] : List Byte).length) := by simp
    simp only [Memory.writeBytes, this, if_false]
  | cons x bs ih =>
    simp only [Memory.writeBytes, ih, List.length_cons]
    by_cases h1 : a = b
    · subst h1
      have h2 : ¬ (a + 1 ≤ a ∧ a < a + 1 + bs.length) := by omega
      have h3 : a ≤ a ∧ a < a + (bs.length + 1) := by omega
      simp only [h2, if_false, h3, and_self, if_true, Memory.read_write, Nat.sub_self]
      rfl
    · by_cases h2 : a + 1 ≤ b ∧ b < a + 1 + bs.length
      · have h3 : a ≤ b ∧ b < a + (bs.length + 1) := by omega
        have h4 : b - a = (b - (a + 1)) + 1 := by omega
        simp only [h2, and_self, if_true, h3, h4, List.getD_cons_succ]
      · have h3 : ¬ (a ≤ b ∧ b < a + (bs.length + 1)) := by omega
        simp only [h2, h3, if_false, Memory.read_write, h1]

end Sys2Proof.Machine
end

