-- ==== Sys2Proof/Laws/Fields.lean ====
section
/-!
SUPPORT. Laws of register words and fields: a write shows in its own field and in no other, and an unwritten register keeps its
word.
-/
namespace Sys2Proof.Machine
open Sys2Proof

theorem State.reg_setReg (s : State) (o p : Nat) (w : Word) : (s.setReg o w).reg p = if o = p then w else s.reg p :=
  Tbl.get_put resetReg s.regs o p w

@[simp] theorem State.reg_setReg_same (s : State) (o : Nat) (w : Word) : (s.setReg o w).reg o = w := by simp [State.reg_setReg]

theorem State.reg_setReg_ne (s : State) (o p : Nat) (w : Word) (h : o ≠ p) : (s.setReg o w).reg p = s.reg p := by
  simp [State.reg_setReg, h]

/-- A register word depends on the register table alone. -/
theorem State.reg_congr {s t : State} (h : s.regs = t.regs) (o : Nat) : s.reg o = t.reg o := by simp [State.reg, h]

/-- So does a field. -/
theorem State.fld_congr {s t : State} (h : s.regs = t.regs) (f : Fld) : s.fld f = t.fld f := by simp [State.fld, State.reg, h]

-- Bits ----------------------------------------------------------------------------------------------------------

theorem putBits_eq (v lo w x : Nat) :
    putBits v lo w x = v % 2 ^ lo + 2 ^ lo * (x % 2 ^ w + 2 ^ w * (v / 2 ^ lo / 2 ^ w)) := by
  unfold putBits bitsOf
  rw [Nat.shiftRight_eq_div_pow]
  have h1 : v = v % 2 ^ lo + 2 ^ lo * (v / 2 ^ lo) := (Nat.mod_add_div v (2 ^ lo)).symm
  have h2 : v / 2 ^ lo = v / 2 ^ lo % 2 ^ w + 2 ^ w * (v / 2 ^ lo / 2 ^ w) := (Nat.mod_add_div _ _).symm
  generalize v % 2 ^ lo = a at *
  generalize v / 2 ^ lo / 2 ^ w = c at *
  generalize v / 2 ^ lo % 2 ^ w = b at *
  generalize v / 2 ^ lo = q at *
  subst h2
  rw [h1]
  generalize 2 ^ lo = L
  generalize 2 ^ w = W
  have e : a + L * (b + W * c) - b * L = a + L * (W * c) := by
    have : L * (b + W * c) = b * L + L * (W * c) := by ring
    omega
  rw [e]; ring

theorem bitsOf_putBits_same (v lo w x : Nat) : bitsOf (putBits v lo w x) lo w = x % 2 ^ w := by
  rw [putBits_eq, bitsOf, Nat.shiftRight_eq_div_pow]
  have hL : 0 < 2 ^ lo := Nat.two_pow_pos lo
  rw [Nat.add_mul_div_left _ _ hL, Nat.div_eq_of_lt (Nat.mod_lt v hL), Nat.zero_add, Nat.add_mul_mod_self_left, Nat.mod_mod]

theorem bitsOf_putBits_above (v lo w x lo' w' : Nat) (h : lo + w ≤ lo') : bitsOf (putBits v lo w x) lo' w' = bitsOf v lo' w' := by
  have key : putBits v lo w x / 2 ^ (lo + w) = v / 2 ^ (lo + w) := by
    rw [putBits_eq, pow_add, ← Nat.div_div_eq_div_mul, ← Nat.div_div_eq_div_mul]
    have hL : 0 < 2 ^ lo := Nat.two_pow_pos lo
    have hW : 0 < 2 ^ w := Nat.two_pow_pos w
    rw [Nat.add_mul_div_left _ _ hL, Nat.div_eq_of_lt (Nat.mod_lt v hL), Nat.zero_add, Nat.add_mul_div_left _ _ hW,
      Nat.div_eq_of_lt (Nat.mod_lt x hW), Nat.zero_add]
  unfold bitsOf
  rw [Nat.shiftRight_eq_div_pow, Nat.shiftRight_eq_div_pow]
  have e : lo' = lo + w + (lo' - (lo + w)) := by omega
  rw [e, pow_add, ← Nat.div_div_eq_div_mul, key, Nat.div_div_eq_div_mul]

theorem bitsOf_mod (v k lo w : Nat) (h : lo + w ≤ k) : bitsOf (v % 2 ^ k) lo w = bitsOf v lo w := by
  unfold bitsOf
  apply Nat.eq_of_testBit_eq
  intro i
  simp only [Nat.testBit_mod_two_pow, Nat.testBit_shiftRight]
  by_cases hi : i < w
  · have : lo + i < k := by omega
    simp [hi, this]
  · simp [hi]

theorem bitsOf_putBits_below (v lo w x lo' w' : Nat) (h : lo' + w' ≤ lo) : bitsOf (putBits v lo w x) lo' w' = bitsOf v lo' w' := by
  rw [← bitsOf_mod (putBits v lo w x) lo lo' w' h, ← bitsOf_mod v lo lo' w' h, putBits_eq, Nat.add_mul_mod_self_left, Nat.mod_mod]

-- Fields --------------------------------------------------------------------------------------------------------

/-- A field written reads back as the value, truncated to its width. -/
theorem State.fld_setFld_same (s : State) (f : Fld) (v : Nat) (h : f.lo + f.width ≤ 32) : (s.setFld f v).fld f = v % 2 ^ f.width := by
  unfold State.setFld State.fld
  rw [State.reg_setReg_same, BitVec.toNat_ofNat, bitsOf_mod _ _ _ _ h, bitsOf_putBits_same]

/-- A field of another register keeps its value. -/
theorem State.fld_setReg_ne (s : State) (o : Nat) (w : Word) (g : Fld) (h : o ≠ g.reg) : (s.setReg o w).fld g = s.fld g := by
  unfold State.fld; rw [State.reg_setReg_ne _ _ _ _ h]

theorem State.fld_setFld_ne (s : State) (f g : Fld) (v : Nat) (h : f.reg ≠ g.reg) : (s.setFld f v).fld g = s.fld g :=
  State.fld_setReg_ne s _ _ g h

/-- A field elsewhere in the same register keeps its value. -/
theorem State.fld_setFld_disjoint (s : State) (f g : Fld) (v : Nat) (hr : f.reg = g.reg) (hg : g.lo + g.width ≤ 32)
    (h : f.lo + f.width ≤ g.lo ∨ g.lo + g.width ≤ f.lo) : (s.setFld f v).fld g = s.fld g := by
  unfold State.setFld State.fld
  rw [hr, State.reg_setReg_same, BitVec.toNat_ofNat, bitsOf_mod _ _ _ _ hg]
  cases h with
  | inl h => exact bitsOf_putBits_above _ _ _ _ _ _ h
  | inr h => exact bitsOf_putBits_below _ _ _ _ _ _ h

theorem State.fld_setFld_apart (s : State) (f g : Fld) (v : Nat) (h : f.apart g = true) : (s.setFld f v).fld g = s.fld g := by
  simp only [Fld.apart, decide_eq_true_eq] at h
  by_cases hr : f.reg = g.reg
  · cases h with
    | inl h => exact absurd hr h
    | inr h => exact State.fld_setFld_disjoint s f g v hr h.1 h.2
  · exact State.fld_setFld_ne s f g v hr

theorem State.flag_setFlag_same (s : State) (f : Fld) (b : Bool) (h : f.lo + 1 ≤ 32) (hw : f.width = 1) :
    (s.setFlag f b).flag f = b := by
  unfold State.flag State.setFlag
  rw [State.fld_setFld_same s f _ (by omega), hw]
  cases b <;> simp

theorem State.fld_setFlag_apart (s : State) (f g : Fld) (b : Bool) (h : f.apart g = true) : (s.setFlag f b).fld g = s.fld g :=
  State.fld_setFld_apart s f g _ h

theorem State.flag_setFld_apart (s : State) (f g : Fld) (v : Nat) (h : f.apart g = true) : (s.setFld f v).flag g = s.flag g := by
  unfold State.flag; rw [State.fld_setFld_apart s f g v h]

theorem State.flag_setFlag_apart (s : State) (f g : Fld) (b : Bool) (h : f.apart g = true) : (s.setFlag f b).flag g = s.flag g :=
  State.flag_setFld_apart s f g _ h

-- Lanes ---------------------------------------------------------------------------------------------------------

theorem State.lane_setLane (s : State) (n k : Nat) (l : Lane) : (s.setLane n l).lane k = if n = k then l else s.lane k :=
  Tbl.get_put _ s.lanes n k l

@[simp] theorem State.lane_updLane_same (s : State) (n : Nat) (f : Lane → Lane) : (s.updLane n f).lane n = f (s.lane n) := by
  simp [State.updLane, State.lane_setLane]

theorem State.lane_updLane_ne (s : State) (n k : Nat) (f : Lane → Lane) (h : n ≠ k) : (s.updLane n f).lane k = s.lane k := by
  simp [State.updLane, State.lane_setLane, h]

@[simp] theorem State.lane_setReg (s : State) (o : Nat) (w : Word) (n : Nat) : (s.setReg o w).lane n = s.lane n := rfl
@[simp] theorem State.lane_setFld (s : State) (f : Fld) (v n : Nat) : (s.setFld f v).lane n = s.lane n := rfl
@[simp] theorem State.reg_updLane (s : State) (n : Nat) (f : Lane → Lane) (o : Nat) : (s.updLane n f).reg o = s.reg o := rfl
@[simp] theorem State.fld_updLane (s : State) (n : Nat) (f : Lane → Lane) (g : Fld) : (s.updLane n f).fld g = s.fld g := rfl

-- What a master read --------------------------------------------------------------------------------------------

@[simp] theorem State.rdataOf_setRdata (s : State) (m : Master) (v : Word) : (s.setRdata m v).rdataOf m = v := by
  simp [State.rdataOf, State.setRdata]

end Sys2Proof.Machine
end

