-- ==== Sys2Proof/Laws/Parts.lean ====
section
/-!
SUPPORT. What an update of one part leaves of what is read of the other parts, one lemma per update and reading; and what an update of
one lane, core or candidate leaves of the others.
-/
namespace Sys2Proof.Machine
open Sys2Proof

-- updHif

@[simp] theorem State.reg_updHif (s : State) (f : Hif → Hif) (x : Nat) : (s.updHif f).reg x = s.reg x := rfl
@[simp] theorem State.fld_updHif (s : State) (f : Hif → Hif) (x : Fld) : (s.updHif f).fld x = s.fld x := rfl
@[simp] theorem State.fldI_updHif (s : State) (f : Hif → Hif) (x : Fld) : (s.updHif f).fldI x = s.fldI x := rfl
@[simp] theorem State.flag_updHif (s : State) (f : Hif → Hif) (x : Fld) : (s.updHif f).flag x = s.flag x := rfl
@[simp] theorem State.lane_updHif (s : State) (f : Hif → Hif) (x : Nat) : (s.updHif f).lane x = s.lane x := rfl
@[simp] theorem State.testLane_updHif (s : State) (f : Hif → Hif) (x : Nat) : (s.updHif f).testLane x = s.testLane x := rfl
@[simp] theorem State.core_updHif (s : State) (f : Hif → Hif) (x : Nat) : (s.updHif f).core x = s.core x := rfl
@[simp] theorem State.cand_updHif (s : State) (f : Hif → Hif) (x : Nat) : (s.updHif f).cand x = s.cand x := rfl
@[simp] theorem State.wit_updHif (s : State) (f : Hif → Hif) (x : Nat) : (s.updHif f).wit x = s.wit x := rfl
@[simp] theorem State.keyOpen_updHif (s : State) (f : Hif → Hif) (x : KeyBlock) : (s.updHif f).keyOpen x = s.keyOpen x := rfl

-- updGctl

@[simp] theorem State.reg_updGctl (s : State) (f : Gctl → Gctl) (x : Nat) : (s.updGctl f).reg x = s.reg x := rfl
@[simp] theorem State.fld_updGctl (s : State) (f : Gctl → Gctl) (x : Fld) : (s.updGctl f).fld x = s.fld x := rfl
@[simp] theorem State.fldI_updGctl (s : State) (f : Gctl → Gctl) (x : Fld) : (s.updGctl f).fldI x = s.fldI x := rfl
@[simp] theorem State.flag_updGctl (s : State) (f : Gctl → Gctl) (x : Fld) : (s.updGctl f).flag x = s.flag x := rfl
@[simp] theorem State.lane_updGctl (s : State) (f : Gctl → Gctl) (x : Nat) : (s.updGctl f).lane x = s.lane x := rfl
@[simp] theorem State.testLane_updGctl (s : State) (f : Gctl → Gctl) (x : Nat) : (s.updGctl f).testLane x = s.testLane x := rfl
@[simp] theorem State.core_updGctl (s : State) (f : Gctl → Gctl) (x : Nat) : (s.updGctl f).core x = s.core x := rfl
@[simp] theorem State.cand_updGctl (s : State) (f : Gctl → Gctl) (x : Nat) : (s.updGctl f).cand x = s.cand x := rfl
@[simp] theorem State.wit_updGctl (s : State) (f : Gctl → Gctl) (x : Nat) : (s.updGctl f).wit x = s.wit x := rfl
@[simp] theorem State.cqHeldOf_updGctl (s : State) (f : Gctl → Gctl) (x : Nat) : (s.updGctl f).cqHeldOf x = s.cqHeldOf x := rfl

-- updSsw

@[simp] theorem State.reg_updSsw (s : State) (f : Ssw → Ssw) (x : Nat) : (s.updSsw f).reg x = s.reg x := rfl
@[simp] theorem State.fld_updSsw (s : State) (f : Ssw → Ssw) (x : Fld) : (s.updSsw f).fld x = s.fld x := rfl
@[simp] theorem State.fldI_updSsw (s : State) (f : Ssw → Ssw) (x : Fld) : (s.updSsw f).fldI x = s.fldI x := rfl
@[simp] theorem State.flag_updSsw (s : State) (f : Ssw → Ssw) (x : Fld) : (s.updSsw f).flag x = s.flag x := rfl
@[simp] theorem State.lane_updSsw (s : State) (f : Ssw → Ssw) (x : Nat) : (s.updSsw f).lane x = s.lane x := rfl
@[simp] theorem State.testLane_updSsw (s : State) (f : Ssw → Ssw) (x : Nat) : (s.updSsw f).testLane x = s.testLane x := rfl
@[simp] theorem State.core_updSsw (s : State) (f : Ssw → Ssw) (x : Nat) : (s.updSsw f).core x = s.core x := rfl
@[simp] theorem State.cand_updSsw (s : State) (f : Ssw → Ssw) (x : Nat) : (s.updSsw f).cand x = s.cand x := rfl
@[simp] theorem State.wit_updSsw (s : State) (f : Ssw → Ssw) (x : Nat) : (s.updSsw f).wit x = s.wit x := rfl
@[simp] theorem State.cqHeldOf_updSsw (s : State) (f : Ssw → Ssw) (x : Nat) : (s.updSsw f).cqHeldOf x = s.cqHeldOf x := rfl
@[simp] theorem State.keyOpen_updSsw (s : State) (f : Ssw → Ssw) (x : KeyBlock) : (s.updSsw f).keyOpen x = s.keyOpen x := rfl

-- updCirc

@[simp] theorem State.reg_updCirc (s : State) (f : Circ → Circ) (x : Nat) : (s.updCirc f).reg x = s.reg x := rfl
@[simp] theorem State.fld_updCirc (s : State) (f : Circ → Circ) (x : Fld) : (s.updCirc f).fld x = s.fld x := rfl
@[simp] theorem State.fldI_updCirc (s : State) (f : Circ → Circ) (x : Fld) : (s.updCirc f).fldI x = s.fldI x := rfl
@[simp] theorem State.flag_updCirc (s : State) (f : Circ → Circ) (x : Fld) : (s.updCirc f).flag x = s.flag x := rfl
@[simp] theorem State.lane_updCirc (s : State) (f : Circ → Circ) (x : Nat) : (s.updCirc f).lane x = s.lane x := rfl
@[simp] theorem State.testLane_updCirc (s : State) (f : Circ → Circ) (x : Nat) : (s.updCirc f).testLane x = s.testLane x := rfl
@[simp] theorem State.core_updCirc (s : State) (f : Circ → Circ) (x : Nat) : (s.updCirc f).core x = s.core x := rfl
@[simp] theorem State.cand_updCirc (s : State) (f : Circ → Circ) (x : Nat) : (s.updCirc f).cand x = s.cand x := rfl
@[simp] theorem State.wit_updCirc (s : State) (f : Circ → Circ) (x : Nat) : (s.updCirc f).wit x = s.wit x := rfl
@[simp] theorem State.cqHeldOf_updCirc (s : State) (f : Circ → Circ) (x : Nat) : (s.updCirc f).cqHeldOf x = s.cqHeldOf x := rfl
@[simp] theorem State.keyOpen_updCirc (s : State) (f : Circ → Circ) (x : KeyBlock) : (s.updCirc f).keyOpen x = s.keyOpen x := rfl

-- updMss

@[simp] theorem State.reg_updMss (s : State) (f : Mss → Mss) (x : Nat) : (s.updMss f).reg x = s.reg x := rfl
@[simp] theorem State.fld_updMss (s : State) (f : Mss → Mss) (x : Fld) : (s.updMss f).fld x = s.fld x := rfl
@[simp] theorem State.fldI_updMss (s : State) (f : Mss → Mss) (x : Fld) : (s.updMss f).fldI x = s.fldI x := rfl
@[simp] theorem State.flag_updMss (s : State) (f : Mss → Mss) (x : Fld) : (s.updMss f).flag x = s.flag x := rfl
@[simp] theorem State.lane_updMss (s : State) (f : Mss → Mss) (x : Nat) : (s.updMss f).lane x = s.lane x := rfl
@[simp] theorem State.testLane_updMss (s : State) (f : Mss → Mss) (x : Nat) : (s.updMss f).testLane x = s.testLane x := rfl
@[simp] theorem State.cand_updMss (s : State) (f : Mss → Mss) (x : Nat) : (s.updMss f).cand x = s.cand x := rfl
@[simp] theorem State.wit_updMss (s : State) (f : Mss → Mss) (x : Nat) : (s.updMss f).wit x = s.wit x := rfl
@[simp] theorem State.cqHeldOf_updMss (s : State) (f : Mss → Mss) (x : Nat) : (s.updMss f).cqHeldOf x = s.cqHeldOf x := rfl
@[simp] theorem State.keyOpen_updMss (s : State) (f : Mss → Mss) (x : KeyBlock) : (s.updMss f).keyOpen x = s.keyOpen x := rfl

-- updPair

@[simp] theorem State.reg_updPair (s : State) (f : Pair → Pair) (x : Nat) : (s.updPair f).reg x = s.reg x := rfl
@[simp] theorem State.fld_updPair (s : State) (f : Pair → Pair) (x : Fld) : (s.updPair f).fld x = s.fld x := rfl
@[simp] theorem State.fldI_updPair (s : State) (f : Pair → Pair) (x : Fld) : (s.updPair f).fldI x = s.fldI x := rfl
@[simp] theorem State.flag_updPair (s : State) (f : Pair → Pair) (x : Fld) : (s.updPair f).flag x = s.flag x := rfl
@[simp] theorem State.lane_updPair (s : State) (f : Pair → Pair) (x : Nat) : (s.updPair f).lane x = s.lane x := rfl
@[simp] theorem State.testLane_updPair (s : State) (f : Pair → Pair) (x : Nat) : (s.updPair f).testLane x = s.testLane x := rfl
@[simp] theorem State.core_updPair (s : State) (f : Pair → Pair) (x : Nat) : (s.updPair f).core x = s.core x := rfl
@[simp] theorem State.cand_updPair (s : State) (f : Pair → Pair) (x : Nat) : (s.updPair f).cand x = s.cand x := rfl
@[simp] theorem State.cqHeldOf_updPair (s : State) (f : Pair → Pair) (x : Nat) : (s.updPair f).cqHeldOf x = s.cqHeldOf x := rfl
@[simp] theorem State.keyOpen_updPair (s : State) (f : Pair → Pair) (x : KeyBlock) : (s.updPair f).keyOpen x = s.keyOpen x := rfl

-- updTime

@[simp] theorem State.reg_updTime (s : State) (f : Time → Time) (x : Nat) : (s.updTime f).reg x = s.reg x := rfl
@[simp] theorem State.fld_updTime (s : State) (f : Time → Time) (x : Fld) : (s.updTime f).fld x = s.fld x := rfl
@[simp] theorem State.fldI_updTime (s : State) (f : Time → Time) (x : Fld) : (s.updTime f).fldI x = s.fldI x := rfl
@[simp] theorem State.flag_updTime (s : State) (f : Time → Time) (x : Fld) : (s.updTime f).flag x = s.flag x := rfl
@[simp] theorem State.lane_updTime (s : State) (f : Time → Time) (x : Nat) : (s.updTime f).lane x = s.lane x := rfl
@[simp] theorem State.testLane_updTime (s : State) (f : Time → Time) (x : Nat) : (s.updTime f).testLane x = s.testLane x := rfl
@[simp] theorem State.core_updTime (s : State) (f : Time → Time) (x : Nat) : (s.updTime f).core x = s.core x := rfl
@[simp] theorem State.cand_updTime (s : State) (f : Time → Time) (x : Nat) : (s.updTime f).cand x = s.cand x := rfl
@[simp] theorem State.wit_updTime (s : State) (f : Time → Time) (x : Nat) : (s.updTime f).wit x = s.wit x := rfl
@[simp] theorem State.cqHeldOf_updTime (s : State) (f : Time → Time) (x : Nat) : (s.updTime f).cqHeldOf x = s.cqHeldOf x := rfl
@[simp] theorem State.keyOpen_updTime (s : State) (f : Time → Time) (x : KeyBlock) : (s.updTime f).keyOpen x = s.keyOpen x := rfl

-- updRef

@[simp] theorem State.reg_updRef (s : State) (f : Ref → Ref) (x : Nat) : (s.updRef f).reg x = s.reg x := rfl
@[simp] theorem State.fld_updRef (s : State) (f : Ref → Ref) (x : Fld) : (s.updRef f).fld x = s.fld x := rfl
@[simp] theorem State.fldI_updRef (s : State) (f : Ref → Ref) (x : Fld) : (s.updRef f).fldI x = s.fldI x := rfl
@[simp] theorem State.flag_updRef (s : State) (f : Ref → Ref) (x : Fld) : (s.updRef f).flag x = s.flag x := rfl
@[simp] theorem State.lane_updRef (s : State) (f : Ref → Ref) (x : Nat) : (s.updRef f).lane x = s.lane x := rfl
@[simp] theorem State.testLane_updRef (s : State) (f : Ref → Ref) (x : Nat) : (s.updRef f).testLane x = s.testLane x := rfl
@[simp] theorem State.core_updRef (s : State) (f : Ref → Ref) (x : Nat) : (s.updRef f).core x = s.core x := rfl
@[simp] theorem State.wit_updRef (s : State) (f : Ref → Ref) (x : Nat) : (s.updRef f).wit x = s.wit x := rfl
@[simp] theorem State.cqHeldOf_updRef (s : State) (f : Ref → Ref) (x : Nat) : (s.updRef f).cqHeldOf x = s.cqHeldOf x := rfl
@[simp] theorem State.keyOpen_updRef (s : State) (f : Ref → Ref) (x : KeyBlock) : (s.updRef f).keyOpen x = s.keyOpen x := rfl

-- updI3c

@[simp] theorem State.reg_updI3c (s : State) (f : I3c → I3c) (x : Nat) : (s.updI3c f).reg x = s.reg x := rfl
@[simp] theorem State.fld_updI3c (s : State) (f : I3c → I3c) (x : Fld) : (s.updI3c f).fld x = s.fld x := rfl
@[simp] theorem State.fldI_updI3c (s : State) (f : I3c → I3c) (x : Fld) : (s.updI3c f).fldI x = s.fldI x := rfl
@[simp] theorem State.flag_updI3c (s : State) (f : I3c → I3c) (x : Fld) : (s.updI3c f).flag x = s.flag x := rfl
@[simp] theorem State.lane_updI3c (s : State) (f : I3c → I3c) (x : Nat) : (s.updI3c f).lane x = s.lane x := rfl
@[simp] theorem State.testLane_updI3c (s : State) (f : I3c → I3c) (x : Nat) : (s.updI3c f).testLane x = s.testLane x := rfl
@[simp] theorem State.core_updI3c (s : State) (f : I3c → I3c) (x : Nat) : (s.updI3c f).core x = s.core x := rfl
@[simp] theorem State.cand_updI3c (s : State) (f : I3c → I3c) (x : Nat) : (s.updI3c f).cand x = s.cand x := rfl
@[simp] theorem State.wit_updI3c (s : State) (f : I3c → I3c) (x : Nat) : (s.updI3c f).wit x = s.wit x := rfl
@[simp] theorem State.cqHeldOf_updI3c (s : State) (f : I3c → I3c) (x : Nat) : (s.updI3c f).cqHeldOf x = s.cqHeldOf x := rfl
@[simp] theorem State.keyOpen_updI3c (s : State) (f : I3c → I3c) (x : KeyBlock) : (s.updI3c f).keyOpen x = s.keyOpen x := rfl

-- updTest

@[simp] theorem State.reg_updTest (s : State) (k : Nat) (f : TestLane → TestLane) (x : Nat) : (s.updTest k f).reg x = s.reg x := rfl
@[simp] theorem State.fld_updTest (s : State) (k : Nat) (f : TestLane → TestLane) (x : Fld) : (s.updTest k f).fld x = s.fld x := rfl
@[simp] theorem State.fldI_updTest (s : State) (k : Nat) (f : TestLane → TestLane) (x : Fld) : (s.updTest k f).fldI x = s.fldI x := rfl
@[simp] theorem State.flag_updTest (s : State) (k : Nat) (f : TestLane → TestLane) (x : Fld) : (s.updTest k f).flag x = s.flag x := rfl
@[simp] theorem State.lane_updTest (s : State) (k : Nat) (f : TestLane → TestLane) (x : Nat) : (s.updTest k f).lane x = s.lane x := rfl
@[simp] theorem State.core_updTest (s : State) (k : Nat) (f : TestLane → TestLane) (x : Nat) : (s.updTest k f).core x = s.core x := rfl
@[simp] theorem State.cand_updTest (s : State) (k : Nat) (f : TestLane → TestLane) (x : Nat) : (s.updTest k f).cand x = s.cand x := rfl
@[simp] theorem State.wit_updTest (s : State) (k : Nat) (f : TestLane → TestLane) (x : Nat) : (s.updTest k f).wit x = s.wit x := rfl
@[simp] theorem State.cqHeldOf_updTest (s : State) (k : Nat) (f : TestLane → TestLane) (x : Nat) : (s.updTest k f).cqHeldOf x = s.cqHeldOf x := rfl
@[simp] theorem State.keyOpen_updTest (s : State) (k : Nat) (f : TestLane → TestLane) (x : KeyBlock) : (s.updTest k f).keyOpen x = s.keyOpen x := rfl

-- updCore

@[simp] theorem State.reg_updCore (s : State) (k : Nat) (f : CoreSt → CoreSt) (x : Nat) : (s.updCore k f).reg x = s.reg x := rfl
@[simp] theorem State.fld_updCore (s : State) (k : Nat) (f : CoreSt → CoreSt) (x : Fld) : (s.updCore k f).fld x = s.fld x := rfl
@[simp] theorem State.fldI_updCore (s : State) (k : Nat) (f : CoreSt → CoreSt) (x : Fld) : (s.updCore k f).fldI x = s.fldI x := rfl
@[simp] theorem State.flag_updCore (s : State) (k : Nat) (f : CoreSt → CoreSt) (x : Fld) : (s.updCore k f).flag x = s.flag x := rfl
@[simp] theorem State.lane_updCore (s : State) (k : Nat) (f : CoreSt → CoreSt) (x : Nat) : (s.updCore k f).lane x = s.lane x := rfl
@[simp] theorem State.testLane_updCore (s : State) (k : Nat) (f : CoreSt → CoreSt) (x : Nat) : (s.updCore k f).testLane x = s.testLane x := rfl
@[simp] theorem State.cand_updCore (s : State) (k : Nat) (f : CoreSt → CoreSt) (x : Nat) : (s.updCore k f).cand x = s.cand x := rfl
@[simp] theorem State.wit_updCore (s : State) (k : Nat) (f : CoreSt → CoreSt) (x : Nat) : (s.updCore k f).wit x = s.wit x := rfl
@[simp] theorem State.cqHeldOf_updCore (s : State) (k : Nat) (f : CoreSt → CoreSt) (x : Nat) : (s.updCore k f).cqHeldOf x = s.cqHeldOf x := rfl
@[simp] theorem State.keyOpen_updCore (s : State) (k : Nat) (f : CoreSt → CoreSt) (x : KeyBlock) : (s.updCore k f).keyOpen x = s.keyOpen x := rfl

-- updCand

@[simp] theorem State.reg_updCand (s : State) (k : Nat) (f : Cand → Cand) (x : Nat) : (s.updCand k f).reg x = s.reg x := rfl
@[simp] theorem State.fld_updCand (s : State) (k : Nat) (f : Cand → Cand) (x : Fld) : (s.updCand k f).fld x = s.fld x := rfl
@[simp] theorem State.fldI_updCand (s : State) (k : Nat) (f : Cand → Cand) (x : Fld) : (s.updCand k f).fldI x = s.fldI x := rfl
@[simp] theorem State.flag_updCand (s : State) (k : Nat) (f : Cand → Cand) (x : Fld) : (s.updCand k f).flag x = s.flag x := rfl
@[simp] theorem State.lane_updCand (s : State) (k : Nat) (f : Cand → Cand) (x : Nat) : (s.updCand k f).lane x = s.lane x := rfl
@[simp] theorem State.testLane_updCand (s : State) (k : Nat) (f : Cand → Cand) (x : Nat) : (s.updCand k f).testLane x = s.testLane x := rfl
@[simp] theorem State.core_updCand (s : State) (k : Nat) (f : Cand → Cand) (x : Nat) : (s.updCand k f).core x = s.core x := rfl
@[simp] theorem State.wit_updCand (s : State) (k : Nat) (f : Cand → Cand) (x : Nat) : (s.updCand k f).wit x = s.wit x := rfl
@[simp] theorem State.cqHeldOf_updCand (s : State) (k : Nat) (f : Cand → Cand) (x : Nat) : (s.updCand k f).cqHeldOf x = s.cqHeldOf x := rfl
@[simp] theorem State.keyOpen_updCand (s : State) (k : Nat) (f : Cand → Cand) (x : KeyBlock) : (s.updCand k f).keyOpen x = s.keyOpen x := rfl

-- updLane

@[simp] theorem State.fldI_updLane (s : State) (k : Nat) (f : Lane → Lane) (x : Fld) : (s.updLane k f).fldI x = s.fldI x := rfl
@[simp] theorem State.flag_updLane (s : State) (k : Nat) (f : Lane → Lane) (x : Fld) : (s.updLane k f).flag x = s.flag x := rfl
@[simp] theorem State.testLane_updLane (s : State) (k : Nat) (f : Lane → Lane) (x : Nat) : (s.updLane k f).testLane x = s.testLane x := rfl
@[simp] theorem State.core_updLane (s : State) (k : Nat) (f : Lane → Lane) (x : Nat) : (s.updLane k f).core x = s.core x := rfl
@[simp] theorem State.cand_updLane (s : State) (k : Nat) (f : Lane → Lane) (x : Nat) : (s.updLane k f).cand x = s.cand x := rfl
@[simp] theorem State.wit_updLane (s : State) (k : Nat) (f : Lane → Lane) (x : Nat) : (s.updLane k f).wit x = s.wit x := rfl
@[simp] theorem State.cqHeldOf_updLane (s : State) (k : Nat) (f : Lane → Lane) (x : Nat) : (s.updLane k f).cqHeldOf x = s.cqHeldOf x := rfl
@[simp] theorem State.keyOpen_updLane (s : State) (k : Nat) (f : Lane → Lane) (x : KeyBlock) : (s.updLane k f).keyOpen x = s.keyOpen x := rfl

-- setRdata

@[simp] theorem State.reg_setRdata (s : State) (m : Master) (v : Word) (x : Nat) : (s.setRdata m v).reg x = s.reg x := rfl
@[simp] theorem State.fld_setRdata (s : State) (m : Master) (v : Word) (x : Fld) : (s.setRdata m v).fld x = s.fld x := rfl
@[simp] theorem State.fldI_setRdata (s : State) (m : Master) (v : Word) (x : Fld) : (s.setRdata m v).fldI x = s.fldI x := rfl
@[simp] theorem State.flag_setRdata (s : State) (m : Master) (v : Word) (x : Fld) : (s.setRdata m v).flag x = s.flag x := rfl
@[simp] theorem State.lane_setRdata (s : State) (m : Master) (v : Word) (x : Nat) : (s.setRdata m v).lane x = s.lane x := rfl
@[simp] theorem State.testLane_setRdata (s : State) (m : Master) (v : Word) (x : Nat) : (s.setRdata m v).testLane x = s.testLane x := rfl
@[simp] theorem State.core_setRdata (s : State) (m : Master) (v : Word) (x : Nat) : (s.setRdata m v).core x = s.core x := rfl
@[simp] theorem State.cand_setRdata (s : State) (m : Master) (v : Word) (x : Nat) : (s.setRdata m v).cand x = s.cand x := rfl
@[simp] theorem State.wit_setRdata (s : State) (m : Master) (v : Word) (x : Nat) : (s.setRdata m v).wit x = s.wit x := rfl
@[simp] theorem State.cqHeldOf_setRdata (s : State) (m : Master) (v : Word) (x : Nat) : (s.setRdata m v).cqHeldOf x = s.cqHeldOf x := rfl
@[simp] theorem State.keyOpen_setRdata (s : State) (m : Master) (v : Word) (x : KeyBlock) : (s.setRdata m v).keyOpen x = s.keyOpen x := rfl

-- setKey

@[simp] theorem State.reg_setKey (s : State) (b : KeyBlock) (v : Bool) (x : Nat) : (s.setKey b v).reg x = s.reg x := rfl
@[simp] theorem State.fld_setKey (s : State) (b : KeyBlock) (v : Bool) (x : Fld) : (s.setKey b v).fld x = s.fld x := rfl
@[simp] theorem State.fldI_setKey (s : State) (b : KeyBlock) (v : Bool) (x : Fld) : (s.setKey b v).fldI x = s.fldI x := rfl
@[simp] theorem State.flag_setKey (s : State) (b : KeyBlock) (v : Bool) (x : Fld) : (s.setKey b v).flag x = s.flag x := rfl
@[simp] theorem State.lane_setKey (s : State) (b : KeyBlock) (v : Bool) (x : Nat) : (s.setKey b v).lane x = s.lane x := rfl
@[simp] theorem State.testLane_setKey (s : State) (b : KeyBlock) (v : Bool) (x : Nat) : (s.setKey b v).testLane x = s.testLane x := rfl
@[simp] theorem State.core_setKey (s : State) (b : KeyBlock) (v : Bool) (x : Nat) : (s.setKey b v).core x = s.core x := rfl
@[simp] theorem State.cand_setKey (s : State) (b : KeyBlock) (v : Bool) (x : Nat) : (s.setKey b v).cand x = s.cand x := rfl
@[simp] theorem State.wit_setKey (s : State) (b : KeyBlock) (v : Bool) (x : Nat) : (s.setKey b v).wit x = s.wit x := rfl
@[simp] theorem State.cqHeldOf_setKey (s : State) (b : KeyBlock) (v : Bool) (x : Nat) : (s.setKey b v).cqHeldOf x = s.cqHeldOf x := rfl

-- setFld

@[simp] theorem State.testLane_setFld (s : State) (f : Fld) (v : Nat) (x : Nat) : (s.setFld f v).testLane x = s.testLane x := rfl
@[simp] theorem State.core_setFld (s : State) (f : Fld) (v : Nat) (x : Nat) : (s.setFld f v).core x = s.core x := rfl
@[simp] theorem State.cand_setFld (s : State) (f : Fld) (v : Nat) (x : Nat) : (s.setFld f v).cand x = s.cand x := rfl
@[simp] theorem State.wit_setFld (s : State) (f : Fld) (v : Nat) (x : Nat) : (s.setFld f v).wit x = s.wit x := rfl
@[simp] theorem State.cqHeldOf_setFld (s : State) (f : Fld) (v : Nat) (x : Nat) : (s.setFld f v).cqHeldOf x = s.cqHeldOf x := rfl
@[simp] theorem State.keyOpen_setFld (s : State) (f : Fld) (v : Nat) (x : KeyBlock) : (s.setFld f v).keyOpen x = s.keyOpen x := rfl

-- setFlag

@[simp] theorem State.lane_setFlag (s : State) (f : Fld) (v : Bool) (x : Nat) : (s.setFlag f v).lane x = s.lane x := rfl
@[simp] theorem State.testLane_setFlag (s : State) (f : Fld) (v : Bool) (x : Nat) : (s.setFlag f v).testLane x = s.testLane x := rfl
@[simp] theorem State.core_setFlag (s : State) (f : Fld) (v : Bool) (x : Nat) : (s.setFlag f v).core x = s.core x := rfl
@[simp] theorem State.cand_setFlag (s : State) (f : Fld) (v : Bool) (x : Nat) : (s.setFlag f v).cand x = s.cand x := rfl
@[simp] theorem State.wit_setFlag (s : State) (f : Fld) (v : Bool) (x : Nat) : (s.setFlag f v).wit x = s.wit x := rfl
@[simp] theorem State.cqHeldOf_setFlag (s : State) (f : Fld) (v : Bool) (x : Nat) : (s.setFlag f v).cqHeldOf x = s.cqHeldOf x := rfl
@[simp] theorem State.keyOpen_setFlag (s : State) (f : Fld) (v : Bool) (x : KeyBlock) : (s.setFlag f v).keyOpen x = s.keyOpen x := rfl

-- setReg

@[simp] theorem State.testLane_setReg (s : State) (o : Nat) (w : Word) (x : Nat) : (s.setReg o w).testLane x = s.testLane x := rfl
@[simp] theorem State.core_setReg (s : State) (o : Nat) (w : Word) (x : Nat) : (s.setReg o w).core x = s.core x := rfl
@[simp] theorem State.cand_setReg (s : State) (o : Nat) (w : Word) (x : Nat) : (s.setReg o w).cand x = s.cand x := rfl
@[simp] theorem State.wit_setReg (s : State) (o : Nat) (w : Word) (x : Nat) : (s.setReg o w).wit x = s.wit x := rfl
@[simp] theorem State.cqHeldOf_setReg (s : State) (o : Nat) (w : Word) (x : Nat) : (s.setReg o w).cqHeldOf x = s.cqHeldOf x := rfl
@[simp] theorem State.keyOpen_setReg (s : State) (o : Nat) (w : Word) (x : KeyBlock) : (s.setReg o w).keyOpen x = s.keyOpen x := rfl

-- One of many

@[simp] theorem State.testLane_updTest_same (s : State) (k : Nat) (f : TestLane → TestLane) : (s.updTest k f).testLane k = f (s.testLane k) :=
  Tbl.get_put_same _ _ _ _

theorem State.testLane_updTest_ne (s : State) (k j : Nat) (f : TestLane → TestLane) (h : k ≠ j) : (s.updTest k f).testLane j = s.testLane j :=
  Tbl.get_put_ne _ _ _ _ _ h

@[simp] theorem State.core_updCore_same (s : State) (k : Nat) (f : CoreSt → CoreSt) : (s.updCore k f).core k = f (s.core k) :=
  Tbl.get_put_same _ _ _ _

theorem State.core_updCore_ne (s : State) (k j : Nat) (f : CoreSt → CoreSt) (h : k ≠ j) : (s.updCore k f).core j = s.core j :=
  Tbl.get_put_ne _ _ _ _ _ h

@[simp] theorem State.cand_updCand_same (s : State) (k : Nat) (f : Cand → Cand) : (s.updCand k f).cand k = f (s.cand k) :=
  Tbl.get_put_same _ _ _ _

theorem State.cand_updCand_ne (s : State) (k j : Nat) (f : Cand → Cand) (h : k ≠ j) : (s.updCand k f).cand j = s.cand j :=
  Tbl.get_put_ne _ _ _ _ _ h

end Sys2Proof.Machine
end

