-- ==== Sys2Proof/Laws/Frames.lean ====
section
/-!
SUPPORT. Frames: what chains of writes leave alone (`OnlyFields`, `OnlyLane`), what the write keys change, and what starting a host
command and moving its object come to when nothing stands in the way (`Runs`, `DirectBuffer`).
-/
namespace Sys2Proof.Machine
open Sys2Proof

-- Chains of field writes -----------------------------------------------------------------------------------------

theorem OnlyFields.refl (l : List Fld) (s : State) : OnlyFields l s s := ⟨rfl, fun _ _ => rfl⟩

/-- One more write of a listed field. -/
theorem OnlyFields.setFld {l : List Fld} {s t : State} (h : OnlyFields l s t) (f : Fld) (v : Nat) (hf : f ∈ l) :
    OnlyFields l s (t.setFld f v) := by
  refine ⟨?_, fun g hg => ?_⟩
  · conv_lhs => rw [State.setFld, State.setReg, h.1]
    rfl
  · rw [State.fld_setFld_apart _ _ _ _ (by simp only [List.all_eq_true] at hg; exact hg f hf), h.2 g hg]

theorem OnlyFields.setFlag {l : List Fld} {s t : State} (h : OnlyFields l s t) (f : Fld) (b : Bool) (hf : f ∈ l) :
    OnlyFields l s (t.setFlag f b) := h.setFld f _ hf

theorem OnlyLane.refl (n : Nat) (l : List Fld) (s : State) : OnlyLane n l s s := ⟨rfl, fun _ _ => rfl, fun _ _ => rfl⟩

theorem OnlyLane.setFld {n : Nat} {l : List Fld} {s t : State} (h : OnlyLane n l s t) (f : Fld) (v : Nat) (hf : f ∈ l) :
    OnlyLane n l s (t.setFld f v) := by
  refine ⟨?_, fun m hm => h.2.1 m hm, fun g hg => ?_⟩
  · conv_lhs => rw [State.setFld, State.setReg, h.1]
    rfl
  · rw [State.fld_setFld_apart _ _ _ _ (by simp only [List.all_eq_true] at hg; exact hg f hf), h.2.2 g hg]

theorem OnlyLane.setFlag {n : Nat} {l : List Fld} {s t : State} (h : OnlyLane n l s t) (f : Fld) (b : Bool) (hf : f ∈ l) :
    OnlyLane n l s (t.setFlag f b) := h.setFld f _ hf

/-- One more update of the lane's own data. -/
theorem OnlyLane.updLane {n : Nat} {l : List Fld} {s t : State} (h : OnlyLane n l s t) (f : Lane → Lane) :
    OnlyLane n l s (t.updLane n f) := by
  refine ⟨?_, fun m hm => ?_, fun g hg => h.2.2 g hg⟩
  · conv_lhs => rw [State.updLane, State.setLane, h.1]
    rfl
  · rw [State.lane_updLane_ne _ _ _ _ (Ne.symm hm)]; exact h.2.1 m hm

-- Conditions ------------------------------------------------------------------------------------------------------

@[simp] theorem State.when_true (s : State) (f : State → State) : s.when true f = f s := rfl
@[simp] theorem State.when_false (s : State) (f : State → State) : s.when false f = s := rfl

-- Write keys --------------------------------------------------------------------------------------------------------

@[simp] theorem State.keyOpen_setKey_same (s : State) (b : KeyBlock) (v : Bool) : (s.setKey b v).keyOpen b = v := by cases b <;> rfl

theorem State.keyOpen_setKey_ne (s : State) (b c : KeyBlock) (v : Bool) (h : c ≠ b) : (s.setKey b v).keyOpen c = s.keyOpen c := by
  cases b <;> cases c <;> first | rfl | exact absurd rfl h

-- Host commands -----------------------------------------------------------------------------------------------------

/-- Starting a command changes its entry, and, where the mate is told, what waits for acknowledgement. -/
theorem State.begun_eq (s : State) (h : Word) (e : Handle) :
    s.begun h e = { s with regs := (s.begun h e).regs, hif := (s.begun h e).hif, pair := (s.begun h e).pair } := by
  unfold State.begun State.when State.sendHandle State.sendRecord
  split
  · dsimp only
    split
    · split <;> rfl
    · rfl
  · rfl

theorem State.begun_fld (s : State) (h : Word) (e : Handle) (g : Fld) (hg : F.PAIR_CONT_STAT_OUTSTANDING.apart g = true) :
    (s.begun h e).fld g = s.fld g := by
  unfold State.begun State.when State.sendHandle State.sendRecord
  split
  · dsimp only
    split
    · split
      · rfl
      · exact State.fld_setFld_apart _ _ _ _ hg
    · rfl
  · rfl

theorem State.begun_flag (s : State) (h : Word) (e : Handle) (g : Fld) (hg : F.PAIR_CONT_STAT_OUTSTANDING.apart g = true) :
    (s.begun h e).flag g = s.flag g := by unfold State.flag; rw [State.begun_fld _ _ _ _ hg]

@[simp] theorem State.begun_gctl (s : State) (h : Word) (e : Handle) : (s.begun h e).gctl = s.gctl := by rw [State.begun_eq]
@[simp] theorem State.begun_rdata (s : State) (h : Word) (e : Handle) : (s.begun h e).rdata = s.rdata := by rw [State.begun_eq]
@[simp] theorem State.begun_tai (s : State) (h : Word) (e : Handle) : (s.begun h e).tai = s.tai := by rw [State.begun_eq]
@[simp] theorem State.begun_reelSeq (s : State) (h : Word) (e : Handle) : (s.begun h e).reelSeq = s.reelSeq := by rw [State.begun_eq]
@[simp] theorem State.begun_lanes (s : State) (h : Word) (e : Handle) : (s.begun h e).lanes = s.lanes := by rw [State.begun_eq]
@[simp] theorem State.begun_evq (s : State) (h : Word) (e : Handle) : (s.begun h e).evq = s.evq := by rw [State.begun_eq]
@[simp] theorem State.begun_log (s : State) (h : Word) (e : Handle) : (s.begun h e).log = s.log := by rw [State.begun_eq]
@[simp] theorem State.begun_logNext (s : State) (h : Word) (e : Handle) : (s.begun h e).logNext = s.logNext := by rw [State.begun_eq]
@[simp] theorem State.begun_ssw (s : State) (h : Word) (e : Handle) : (s.begun h e).ssw = s.ssw := by rw [State.begun_eq]
@[simp] theorem State.begun_circ (s : State) (h : Word) (e : Handle) : (s.begun h e).circ = s.circ := by rw [State.begun_eq]
@[simp] theorem State.begun_time (s : State) (h : Word) (e : Handle) : (s.begun h e).time = s.time := by rw [State.begun_eq]
@[simp] theorem State.begun_ref (s : State) (h : Word) (e : Handle) : (s.begun h e).ref = s.ref := by rw [State.begun_eq]
@[simp] theorem State.begun_mss (s : State) (h : Word) (e : Handle) : (s.begun h e).mss = s.mss := by rw [State.begun_eq]
@[simp] theorem State.begun_i3c (s : State) (h : Word) (e : Handle) : (s.begun h e).i3c = s.i3c := by rw [State.begun_eq]
@[simp] theorem State.begun_test (s : State) (h : Word) (e : Handle) : (s.begun h e).test = s.test := by rw [State.begun_eq]
@[simp] theorem State.begun_free (s : State) (h : Word) (e : Handle) : (s.begun h e).free = s.free := by rw [State.begun_eq]
@[simp] theorem State.begun_pending (s : State) (h : Word) (e : Handle) : (s.begun h e).pending = s.pending := by rw [State.begun_eq]
@[simp] theorem State.begun_lane (s : State) (h : Word) (e : Handle) (n : Nat) : (s.begun h e).lane n = s.lane n := by
  unfold State.lane; rw [State.begun_lanes]

theorem Runs.handle {s : State} {o : Nat} {h : Word} {e : Handle} {lanes : List Nat} (hr : Runs s o h e lanes) :
    e.handle = h.toNat := by
  have := List.find?_some hr.entry
  simpa using this

/-- A command that may start runs its body on the state in which it has been marked running. -/
theorem State.run_of_runs {s : State} {o : Nat} {h : Word} {e : Handle} {lanes : List Nat} (hr : Runs s o h e lanes)
    (body : Handle → State → State) : s.run o h.toNat body lanes = body e (s.begun h e) := by
  have ha : (s.begun h e).pairRefusal e = 0 := hr.allowed
  unfold State.run
  rw [hr.entry]
  simp only [hr.opcode, hr.free, ne_eq, not_true_eq_false, Bool.not_true, Bool.false_eq_true, or_self, if_false]
  change (if (s.begun h e).pairRefusal e ≠ 0 then _ else body e (s.begun h e)) = _
  rw [if_neg (by simp [ha])]

/-- With one buffer large enough the object is read at once and the body has it. -/
theorem State.receive_direct {e : Handle} {size : Nat} (hd : DirectBuffer e size) (s : State) (sg : List (Nat × Nat))
    (obj : List Byte) (body : List Byte → State → State) :
    s.receive e size sg obj body = body (bytesAt obj 0 size) (s.objectIn e) := by
  have hm : ∀ s : State, s.isMailbox (ringOf e.handle) = false := fun s => by simp [State.isMailbox, hd.ring]
  have h1 : ¬ e.bufLen < min size e.bufLen := by omega
  have h2 : ¬ e.bufLen < size := by have := hd.room; omega
  simp only [State.receive, State.hostObject, State.objectIn, hd.plain, hd.start, Handle.goodLen, Handle.bufferLen, hm,
    Bool.false_and, Bool.false_eq_true, if_false, if_true, Nat.sub_zero, h1, h2, List.nil_append]

/-- With one buffer large enough the object is written there at once. -/
theorem State.deliver_direct {e : Handle} {obj : List Byte} (hd : DirectBuffer e obj.length) (s : State) (sg : List (Nat × Nat))
    (body : State → State) : s.deliver e sg obj body = body (s.objectOut e obj) := by
  have hm : s.isMailbox (ringOf e.handle) = false := by simp [State.isMailbox, hd.ring]
  have h2 : ¬ e.bufLen < obj.length := by have := hd.room; omega
  simp only [State.deliver, State.objectOut, State.scatter, hd.plain, hd.start, Handle.goodLen, Handle.bufferLen, hm,
    Bool.false_and, Bool.false_eq_true, if_false, Nat.sub_zero, h2, ne_eq, not_true_eq_false, false_and, List.drop_zero,
    List.take_of_length_le hd.room]

end Sys2Proof.Machine
end

