-- ==== Sys2Proof/Laws/Keeps.lean ====
section
/-!
SUPPORT. What every operation of the machine keeps: the queue of commands, the invariant, the fused owner key hash, and the order of
the free values. `Keeps s0 s` says that `s` has come from `s0` so; each operation has one lemma `_keeps`.
-/
namespace Sys2Proof.Machine
open Sys2Proof

/-- What no command may undo between `s0` and `s`. -/
structure Keeps (s0 s : State) : Prop where
  pending : s.pending = s0.pending
  inv : s0.Inv → s.Inv
  free : s0.free ≤ s.free
  owner : s0.mss.ownerHash ≠ [] → s.mss.ownerHash = s0.mss.ownerHash

theorem Keeps.refl (s : State) : Keeps s s := ⟨rfl, id, Nat.le_refl _, fun _ => rfl⟩

/-- What is kept twice over is kept. -/
theorem Keeps.trans {a b c : State} (h : Keeps a b) (k : Keeps b c) : Keeps a c :=
  ⟨k.pending.trans h.pending, fun h0 => k.inv (h.inv h0), Nat.le_trans h.free k.free,
    fun h0 => (k.owner (by rw [h.owner h0]; exact h0)).trans (h.owner h0)⟩

/-- A next state that keeps what must be kept; a fault or refusal keeps nothing to say. -/
def OutKeeps (s0 : State) (o : Host.Outcome State Fault Refusal) : Prop := ∀ t, o = .next t → Keeps s0 t

theorem OutKeeps.next {s0 t : State} (h : Keeps s0 t) : OutKeeps s0 (.next t) := fun _ e => by cases e; exact h

theorem Keeps.ite {s0 a b : State} {c : Prop} [Decidable c] (ha : Keeps s0 a) (hb : Keeps s0 b) : Keeps s0 (if c then a else b) := by
  split <;> assumption

theorem OutKeeps.ite {s0 : State} {a b : Host.Outcome State Fault Refusal} {c : Prop} [Decidable c] (ha : OutKeeps s0 a)
    (hb : OutKeeps s0 b) : OutKeeps s0 (if c then a else b) := by
  split <;> assumption

theorem Keeps.foldl {α : Type} {s0 s : State} {f : State → α → State} {l : List α} (hf : ∀ s a, Keeps s0 s → Keeps s0 (f s a))
    (h : Keeps s0 s) : Keeps s0 (l.foldl f s) := by
  induction l generalizing s with
  | nil => exact h
  | cons a l ih => exact ih (hf s a h)

/-- What a named intermediate state keeps may be used for the rest. -/
theorem Keeps.cut {s0 b : State} (a : State) (ha : Keeps s0 a) (hb : Keeps s0 a → Keeps s0 b) : Keeps s0 b := hb ha

theorem OutKeeps.cut {s0 : State} {o : Host.Outcome State Fault Refusal} (a : State) (ha : Keeps s0 a)
    (hb : Keeps s0 a → OutKeeps s0 o) : OutKeeps s0 o := hb ha

/-- A state that differs only in parts of which `Keeps` says nothing. -/
theorem Keeps.of_eq {s0 s t : State} (h : Keeps s0 s) (h1 : t.pending = s.pending) (h2 : t.regs = s.regs) (h3 : t.hif.hostMem = s.hif.hostMem)
    (h4 : t.mss.sram = s.mss.sram) (h5 : t.mss.scratch = s.mss.scratch) (h6 : t.evq = s.evq) (h7 : t.log = s.log)
    (h8 : t.mirror = s.mirror) (h9 : t.time.tsq = s.time.tsq) (h10 : t.free = s.free) (h11 : t.mss.ownerHash = s.mss.ownerHash) :
    Keeps s0 t := by
  refine ⟨h1 ▸ h.pending, fun h0 => ?_, h10 ▸ h.free, fun h0 => h11 ▸ h.owner h0⟩
  have hi := h.inv h0
  unfold State.Inv State.canonical State.bounded at *
  rw [h2, h3, h4, h5, h6, h7, h8, h9]
  exact hi

/-- The same for a record update written out: only parts of which `Keeps` says nothing differ. -/
theorem Keeps.mk_keeps {s0 s : State} (h : Keeps s0 s) {gctl : Gctl} {rdata : Tbl Word} {latches : List Latch} {tai reelSeq : Nat}
    {lanes : Tbl Lane} {evDropped logNext : Nat} {stormEdges : Tbl (List Nat)} {hif : Hif} {ssw : Ssw} {circ : Circ} {pair : Pair}
    {time : Time} {ref : Ref} {mss : Mss} {i3c : I3c} {test : Tbl TestLane} {jtag : Jtag} (h1 : hif.hostMem = s.hif.hostMem)
    (h2 : mss.sram = s.mss.sram) (h3 : mss.scratch = s.mss.scratch) (h4 : time.tsq = s.time.tsq)
    (h5 : mss.ownerHash = s.mss.ownerHash) :
    Keeps s0 (State.mk s.regs gctl rdata latches tai reelSeq lanes s.evq evDropped s.log logNext s.mirror stormEdges hif ssw circ
      pair time ref mss i3c test jtag s.free s.pending) :=
  Keeps.of_eq h rfl rfl h1 h2 h3 rfl rfl rfl h4 rfl h5

theorem State.inv_iff (s : State) : s.Inv ↔ (Tbl.wf resetReg s.regs = true ∧ s.hif.hostMem.wf = true ∧ s.mss.sram.wf = true
    ∧ s.mss.scratch.wf = true) ∧ s.evq.length ≤ 1024 ∧ s.log.length ≤ 16384 ∧ s.mirror.length ≤ 16384 ∧ s.time.tsq.length ≤ 64 := by
  simp [State.Inv, State.canonical, State.bounded, and_assoc]

theorem State.setReg_keeps {s0 s : State} (h : Keeps s0 s) (o : Nat) (w : Word) : Keeps s0 (s.setReg o w) := by
  refine ⟨h.pending, fun h0 => ?_, h.free, h.owner⟩
  have hi := h.inv h0
  rw [State.inv_iff] at *
  exact ⟨⟨Tbl.wf_put _ _ _ _ hi.1.1, hi.1.2⟩, hi.2⟩

theorem State.updHif_keeps {s0 s : State} (h : Keeps s0 s) (f : Hif → Hif) (hf : (f s.hif).hostMem = s.hif.hostMem) :
    Keeps s0 (s.updHif f) := Keeps.of_eq h rfl rfl hf rfl rfl rfl rfl rfl rfl rfl rfl

theorem State.updMss_keeps {s0 s : State} (h : Keeps s0 s) (f : Mss → Mss) (h1 : (f s.mss).sram = s.mss.sram)
    (h2 : (f s.mss).scratch = s.mss.scratch) (h3 : (f s.mss).ownerHash = s.mss.ownerHash) : Keeps s0 (s.updMss f) :=
  Keeps.of_eq h rfl rfl rfl h1 h2 rfl rfl rfl rfl rfl h3

theorem State.updTime_keeps {s0 s : State} (h : Keeps s0 s) (f : Time → Time) (hf : (f s.time).tsq = s.time.tsq) :
    Keeps s0 (s.updTime f) := Keeps.of_eq h rfl rfl rfl rfl rfl rfl rfl rfl hf rfl rfl

theorem State.when_keeps {s0 s : State} (h : Keeps s0 s) (b : Bool) (f : State → State) (hf : ∀ s, Keeps s0 s → Keeps s0 (f s)) :
    Keeps s0 (s.when b f) := by
  unfold State.when; split
  · exact hf s h
  · exact h

theorem State.forEach_keeps {α : Type} {s0 s : State} (h : Keeps s0 s) (l : List α) (f : State → α → State)
    (hf : ∀ s a, Keeps s0 s → Keeps s0 (f s a)) : Keeps s0 (s.forEach l f) := Keeps.foldl hf h

theorem State.fresh_keeps {s0 s : State} (h : Keeps s0 s) (w : Nat) : Keeps s0 (s.fresh w).2 := by
  refine ⟨h.pending, fun h0 => ?_, Nat.le_succ_of_le h.free, h.owner⟩
  have hi := h.inv h0
  rw [State.inv_iff] at *
  exact hi

theorem State.hostWrite_keeps {s0 s : State} (h : Keeps s0 s) (a : Nat) (bs : List Byte) : Keeps s0 (s.hostWrite a bs) := by
  unfold State.hostWrite
  split
  · exact h
  · refine ⟨h.pending, fun h0 => ?_, h.free, h.owner⟩
    have hi := h.inv h0
    rw [State.inv_iff] at *
    exact ⟨⟨hi.1.1, Memory.wf_writeBytes _ _ _ hi.1.2.1, hi.1.2.2⟩, hi.2⟩

/-- A state that differs in bounded or canonical parts, each of which stays so. -/
theorem Keeps.of_parts {s0 s t : State} (h : Keeps s0 s) (h1 : t.pending = s.pending)
    (h2 : Tbl.wf resetReg s.regs = true → Tbl.wf resetReg t.regs = true)
    (h3 : s.hif.hostMem.wf = true → t.hif.hostMem.wf = true)
    (h4 : s.mss.sram.wf = true → t.mss.sram.wf = true) (h5 : s.mss.scratch.wf = true → t.mss.scratch.wf = true)
    (h6 : s.evq.length ≤ 1024 → t.evq.length ≤ 1024) (h7 : s.log.length ≤ 16384 → s.mirror.length ≤ 16384 → t.log.length ≤ 16384)
    (h8 : s.log.length ≤ 16384 → s.mirror.length ≤ 16384 → t.mirror.length ≤ 16384)
    (h9 : s.time.tsq.length ≤ 64 → t.time.tsq.length ≤ 64) (h10 : s.free ≤ t.free)
    (h11 : s.mss.ownerHash ≠ [] → t.mss.ownerHash = s.mss.ownerHash) : Keeps s0 t := by
  refine Keeps.trans h ⟨h1, fun hi => ?_, h10, h11⟩
  rw [State.inv_iff] at *
  obtain ⟨⟨a, b, c, d⟩, e, f, g, i⟩ := hi
  exact ⟨⟨h2 a, h3 b, h4 c, h5 d⟩, h6 e, h7 f g, h8 f g, h9 i⟩

theorem State.updMss_parts {s0 s : State} (h : Keeps s0 s) (f : Mss → Mss) (h1 : s.mss.sram.wf = true → (f s.mss).sram.wf = true)
    (h2 : s.mss.scratch.wf = true → (f s.mss).scratch.wf = true)
    (h3 : s.mss.ownerHash ≠ [] → (f s.mss).ownerHash = s.mss.ownerHash) : Keeps s0 (s.updMss f) :=
  Keeps.of_parts h rfl id id h1 h2 id (fun a _ => a) (fun _ a => a) id (Nat.le_refl _) h3

theorem State.updTime_parts {s0 s : State} (h : Keeps s0 s) (f : Time → Time)
    (h1 : s.time.tsq.length ≤ 64 → (f s.time).tsq.length ≤ 64) : Keeps s0 (s.updTime f) :=
  Keeps.of_parts h rfl id id id id id (fun a _ => a) (fun _ a => a) h1 (Nat.le_refl _) fun _ => rfl

end Sys2Proof.Machine
end

