-- ==== Sys2Proof/Laws/KeepsOps.lean ====
section
/-!
SUPPORT. That the operations and meanings of shared operations, events, defects and the loupe keep what must be kept (`Keeps`), one lemma each.
-/
namespace Sys2Proof.Machine
open Sys2Proof

set_option linter.all false

theorem State.setFld_keeps {s0 s : State} (h : Keeps s0 s) (f : Fld) (v : Nat) : Keeps s0 (State.setFld s f v) := by
  unfold State.setFld
  repeat' first
    | with_reducible first
        | intro _ | assumption | apply State.setReg_keeps | rfl
    | with_reducible apply Keeps.mk_keeps

theorem State.setFldI_keeps {s0 s : State} (h : Keeps s0 s) (f : Fld) (v : Int) : Keeps s0 (State.setFldI s f v) := by
  unfold State.setFldI
  repeat' first
    | with_reducible first
        | intro _ | assumption | apply State.setFld_keeps | rfl
    | with_reducible apply Keeps.mk_keeps

theorem State.setFlag_keeps {s0 s : State} (h : Keeps s0 s) (f : Fld) (b : Bool) : Keeps s0 (State.setFlag s f b) := by
  unfold State.setFlag
  repeat' first
    | with_reducible first
        | intro _ | assumption | apply State.setFld_keeps | rfl
    | with_reducible apply Keeps.mk_keeps

theorem State.incFld_keeps {s0 s : State} (h : Keeps s0 s) (f : Fld) (k : optParam Nat 1) : Keeps s0 (State.incFld s f k) := by
  unfold State.incFld
  repeat' first
    | with_reducible first
        | intro _ | assumption | apply State.setFld_keeps | rfl
    | with_reducible apply Keeps.mk_keeps

theorem State.setLane_keeps {s0 s : State} (h : Keeps s0 s) (n : Nat) (l : Lane) : Keeps s0 (State.setLane s n l) := by
  unfold State.setLane
  repeat' first
    | with_reducible first
        | intro _ | assumption | rfl
    | with_reducible apply Keeps.mk_keeps

theorem State.updLane_keeps {s0 s : State} (h : Keeps s0 s) (n : Nat) (f : Lane → Lane) : Keeps s0 (State.updLane s n f) := by
  unfold State.updLane
  repeat' first
    | with_reducible first
        | intro _ | assumption | apply State.setLane_keeps | rfl
    | with_reducible apply Keeps.mk_keeps

theorem State.updGctl_keeps {s0 s : State} (h : Keeps s0 s) (f : Gctl → Gctl) : Keeps s0 (State.updGctl s f) := by
  unfold State.updGctl
  repeat' first
    | with_reducible first
        | intro _ | assumption | rfl
    | with_reducible apply Keeps.mk_keeps

theorem State.latch_keeps {s0 s : State} (h : Keeps s0 s) (m : Master) (l : List (Nat × Word)) : Keeps s0 (State.latch s m l)
    := by
  unfold State.latch
  repeat' first
    | with_reducible first
        | intro _ | assumption | apply Keeps.foldl | rfl
        | (extract_lets +onlyGivenNames -underBinder x; first | refine Keeps.cut x ?_ ?_ | skip)
    | with_reducible apply Keeps.mk_keeps

theorem State.setRdata_keeps {s0 s : State} (h : Keeps s0 s) (m : Master) (v : Word) : Keeps s0 (State.setRdata s m v) := by
  unfold State.setRdata
  repeat' first
    | with_reducible first
        | intro _ | assumption | rfl
    | with_reducible apply Keeps.mk_keeps

theorem State.writeStatusPage_keeps {s0 s : State} (h : Keeps s0 s) : Keeps s0 (State.writeStatusPage s) := by
  unfold State.writeStatusPage
  repeat' first
    | with_reducible first
        | intro _ | assumption | apply State.updHif_keeps | apply State.hostWrite_keeps | apply Keeps.ite
        | rfl
        | (extract_lets +onlyGivenNames -underBinder x; first | refine Keeps.cut x ?_ ?_ | skip)
    | split
    | with_reducible apply Keeps.mk_keeps

theorem State.msix_keeps {s0 s : State} (h : Keeps s0 s) (v : Nat) : Keeps s0 (State.msix s v) := by
  unfold State.msix
  repeat' first
    | with_reducible first
        | intro _ | assumption | apply State.setFld_keeps | apply State.updHif_keeps | apply Keeps.ite | rfl
        | (extract_lets +onlyGivenNames -underBinder x; first | refine Keeps.cut x ?_ ?_ | skip)
    | split
    | with_reducible apply Keeps.mk_keeps

theorem State.icDelivered_keeps {s0 s : State} (h : Keeps s0 s) (n : Nat) : Keeps s0 (State.icDelivered s n) := by
  unfold State.icDelivered
  repeat' first
    | with_reducible first
        | intro _ | assumption | apply State.when_keeps | apply State.setFlag_keeps | rfl
    | with_reducible apply Keeps.mk_keeps

theorem State.icTryMsix_keeps {s0 s : State} (h : Keeps s0 s) (n : Nat) : Keeps s0 (State.icTryMsix s n) := by
  unfold State.icTryMsix
  repeat' first
    | with_reducible first
        | intro _ | assumption | apply State.icDelivered_keeps | apply State.msix_keeps | apply Keeps.ite
        | rfl
        | (extract_lets +onlyGivenNames -underBinder x; first | refine Keeps.cut x ?_ ?_ | skip)
    | split
    | with_reducible apply Keeps.mk_keeps

theorem State.updCore_keeps {s0 s : State} (h : Keeps s0 s) (c : Nat) (f : CoreSt → CoreSt) : Keeps s0 (State.updCore s c f) := by
  unfold State.updCore
  repeat' first
    | with_reducible first
        | intro _ | assumption | rfl
    | with_reducible apply Keeps.mk_keeps

theorem State.icWake_keeps {s0 s : State} (h : Keeps s0 s) (n : Nat) : Keeps s0 (State.icWake s n) := by
  unfold State.icWake
  repeat' first
    | with_reducible first
        | intro _ | assumption | apply State.updCore_keeps | apply Keeps.ite | rfl
    | split
    | with_reducible apply Keeps.mk_keeps

theorem State.icSettle_keeps {s0 s : State} (h : Keeps s0 s) (n : Nat) : Keeps s0 (State.icSettle s n) := by
  unfold State.icSettle
  repeat' first
    | with_reducible first
        | intro _ | assumption | apply State.icWake_keeps | apply State.icTryMsix_keeps | rfl
    | with_reducible apply Keeps.mk_keeps

theorem State.icPend_keeps {s0 s : State} (h : Keeps s0 s) (n : Nat) : Keeps s0 (State.icPend s n) := by
  unfold State.icPend
  repeat' first
    | with_reducible first
        | intro _ | assumption | apply State.icSettle_keeps | apply State.setFlag_keeps | rfl
    | with_reducible apply Keeps.mk_keeps

theorem State.icRaise_keeps {s0 s : State} (h : Keeps s0 s) (n : Nat) : Keeps s0 (State.icRaise s n) := by
  unfold State.icRaise
  repeat' first
    | with_reducible first
        | intro _ | assumption | apply State.icPend_keeps | apply Keeps.ite | rfl
    | split
    | with_reducible apply Keeps.mk_keeps

theorem State.evRing_keeps {s0 s : State} (h : Keeps s0 s) (e : LogEntry) : Keeps s0 (State.evRing s e) := by
  unfold State.evRing
  repeat' first
    | with_reducible first
        | intro _ | assumption | apply State.setFlag_keeps | apply State.hostWrite_keeps
        | apply State.writeStatusPage_keeps | apply State.msix_keeps | apply State.updHif_keeps
        | apply Keeps.ite | rfl
        | (extract_lets +onlyGivenNames -underBinder x; first | refine Keeps.cut x ?_ ?_ | skip)
    | split
    | with_reducible apply Keeps.mk_keeps

theorem State.logWrite_keeps {s0 s : State} (h : Keeps s0 s) (e : LogEntry) : Keeps s0 (State.logWrite s e) := by
  unfold State.logWrite
  apply State.evRing_keeps
  refine Keeps.of_parts h rfl id id id id id (fun _ _ => ?_) (fun _ a => a) id (Nat.le_refl _) (fun _ => rfl)
  simp only [List.length_drop, List.length_append, List.length_singleton]; omega

theorem State.queueEvent_keeps {s0 s : State} (h : Keeps s0 s) (e : LogEntry) : Keeps s0 (State.queueEvent s e) := by
  unfold State.queueEvent
  split
  · apply State.icRaise_keeps
    refine Keeps.of_parts h rfl id id id id (fun _ => ?_) (fun a _ => a) (fun _ a => a) id (Nat.le_refl _) (fun _ => rfl)
    simp only [List.length_append, List.length_singleton]; omega
  · apply State.incFld_keeps
    exact Keeps.of_eq h rfl rfl rfl rfl rfl rfl rfl rfl rfl rfl rfl

theorem State.raiseIbi_keeps {s0 s : State} (h : Keeps s0 s) (b : Nat) : Keeps s0 (State.raiseIbi s b) := by
  unfold State.raiseIbi
  repeat' first
    | with_reducible first
        | intro _ | assumption | apply State.setFld_keeps | apply Keeps.ite | rfl
    | split
    | with_reducible apply Keeps.mk_keeps

theorem State.alert_keeps {s0 s : State} (h : Keeps s0 s) (f : Fld) : Keeps s0 (State.alert s f) := by
  unfold State.alert
  repeat' first
    | with_reducible first
        | intro _ | assumption | apply State.when_keeps | apply State.setFlag_keeps
        | apply State.raiseIbi_keeps | rfl
    | with_reducible apply Keeps.mk_keeps

theorem State.alertFor_keeps {s0 s : State} (h : Keeps s0 s) (code : Nat) : Keeps s0 (State.alertFor s code) := by
  unfold State.alertFor
  repeat' first
    | with_reducible first
        | intro _ | assumption | apply State.alert_keeps | rfl
    | split
    | with_reducible apply Keeps.mk_keeps

theorem State.logEvent_keeps {s0 s : State} (h : Keeps s0 s) (code : Nat) (source : Nat) (data : List Byte) : Keeps s0
    (State.logEvent s code source data) := by
  unfold State.logEvent
  repeat' first
    | with_reducible first
        | intro _ | assumption | apply State.alertFor_keeps | apply State.logWrite_keeps
        | apply State.queueEvent_keeps | apply Keeps.ite | rfl
        | (extract_lets +onlyGivenNames -underBinder x; first | refine Keeps.cut x ?_ ?_ | skip)
    | split
    | with_reducible apply Keeps.mk_keeps

theorem State.drainQueue_keeps {s0 s : State} (h : Keeps s0 s) : Keeps s0 (State.drainQueue s) := by
  have k : Keeps s0 (s.evq.foldl State.logWrite { s with evq := [] }) :=
    Keeps.foldl (fun s e hs => State.logWrite_keeps hs e)
      (Keeps.of_parts h rfl id id id id (fun _ => Nat.zero_le _) (fun a _ => a) (fun _ a => a) id (Nat.le_refl _) (fun _ => rfl))
  unfold State.drainQueue
  dsimp only
  split
  · exact k
  · apply State.logEvent_keeps
    exact Keeps.of_eq k rfl rfl rfl rfl rfl rfl rfl rfl rfl rfl rfl

theorem State.icEdge_keeps {s0 s : State} (h : Keeps s0 s) (n : Nat) : Keeps s0 (State.icEdge s n) := by
  unfold State.icEdge
  repeat' first
    | with_reducible first
        | intro _ | assumption | apply State.setFlag_keeps | apply State.logEvent_keeps
        | apply State.incFld_keeps | apply State.icPend_keeps | apply Keeps.ite | rfl
        | (extract_lets +onlyGivenNames -underBinder x; first | refine Keeps.cut x ?_ ?_ | skip)
    | split
    | with_reducible apply Keeps.mk_keeps

theorem State.cqWrite_keeps {s0 s : State} (h : Keeps s0 s) (k : Nat) (c : Completion) : Keeps s0 (State.cqWrite s k c) := by
  unfold State.cqWrite
  dsimp only
  repeat' first
    | with_reducible first
        | assumption | apply State.hostWrite_keeps | apply State.writeStatusPage_keeps
        | apply State.setFld_keeps | apply State.msix_keeps | apply Keeps.ite | rfl | intro _
    | split
    | with_reducible apply Keeps.mk_keeps

theorem State.setHeld_keeps {s0 s : State} (h : Keeps s0 s) (k : Nat) (l : List Completion) : Keeps s0 (State.setHeld s k l) := by
  unfold State.setHeld
  repeat' first
    | with_reducible first
        | intro _ | assumption | apply State.setFld_keeps | apply Keeps.ite | rfl
    | split
    | with_reducible apply Keeps.mk_keeps

theorem State.putCompletion_keeps {s0 s : State} (h : Keeps s0 s) (k : Nat) (c : Completion) : Keeps s0 (State.putCompletion s k
    c) := by
  unfold State.putCompletion
  repeat' first
    | with_reducible first
        | intro _ | assumption | apply State.cqWrite_keeps | apply State.setHeld_keeps | apply Keeps.ite | rfl
    | split
    | with_reducible apply Keeps.mk_keeps

theorem State.drainHeld_keeps {s0 s : State} (h : Keeps s0 s) (y0 : Nat) (y1 : Nat) : Keeps s0 (State.drainHeld y0 s y1) := by
  induction y0 generalizing s with
  | zero => exact h
  | succ n ih =>
    unfold State.drainHeld
    split
    · exact h
    · split
      · exact ih (State.cqWrite_keeps (State.setHeld_keeps h _ _) _ _)
      · exact h

theorem State.detect_keeps {s0 s : State} (h : Keeps s0 s) (c : FenceCause) : Keeps s0 (State.detect s c) := by
  unfold State.detect
  repeat' first
    | with_reducible first
        | intro _ | assumption | apply State.setFld_keeps | rfl
    | with_reducible apply Keeps.mk_keeps

theorem State.updCirc_keeps {s0 s : State} (h : Keeps s0 s) (f : Circ → Circ) : Keeps s0 (State.updCirc s f) := by
  unfold State.updCirc
  repeat' first
    | with_reducible first
        | intro _ | assumption | rfl
    | with_reducible apply Keeps.mk_keeps

theorem State.updSsw_keeps {s0 s : State} (h : Keeps s0 s) (f : Ssw → Ssw) : Keeps s0 (State.updSsw s f) := by
  unfold State.updSsw
  repeat' first
    | with_reducible first
        | intro _ | assumption | rfl
    | with_reducible apply Keeps.mk_keeps

theorem State.count_keeps {s0 s : State} (h : Keeps s0 s) (k : Nat) (y1 : optParam Nat 1) : Keeps s0 (State.count s k y1) := by
  unfold State.count
  repeat' first
    | with_reducible first
        | intro _ | assumption | apply State.updCirc_keeps | rfl
    | with_reducible apply Keeps.mk_keeps

theorem State.report_keeps {s0 s : State} (h : Keeps s0 s) (n : Nat) : Keeps s0 (State.report s n) := by
  unfold State.report
  repeat' first
    | with_reducible first
        | intro _ | assumption | apply State.setReg_keeps | apply State.when_keeps | apply State.setFld_keeps
        | apply State.logEvent_keeps | apply State.icRaise_keeps | apply Keeps.ite | apply Keeps.foldl | rfl
        | (extract_lets +onlyGivenNames -underBinder x; first | refine Keeps.cut x ?_ ?_ | skip)
    | split
    | with_reducible apply Keeps.mk_keeps

theorem State.noteBlanking_keeps {s0 s : State} (h : Keeps s0 s) (n : Nat) : Keeps s0 (State.noteBlanking s n) := by
  unfold State.noteBlanking
  repeat' first
    | with_reducible first
        | intro _ | assumption | apply State.count_keeps | apply State.updLane_keeps | apply Keeps.ite | rfl
    | split
    | with_reducible apply Keeps.mk_keeps

theorem State.setRaws_keeps {s0 s : State} (h : Keeps s0 s) (n : Nat) (l : List (Defect × Bool)) : Keeps s0 (State.setRaws s n l)
    := by
  unfold State.setRaws
  repeat' first
    | with_reducible first
        | intro _ | assumption | apply State.noteBlanking_keeps | apply State.setFld_keeps
        | apply State.report_keeps | apply Keeps.ite | apply Keeps.foldl | rfl
        | (extract_lets +onlyGivenNames -underBinder x; first | refine Keeps.cut x ?_ ?_ | skip)
    | split
    | with_reducible apply Keeps.mk_keeps

theorem State.refreshMateDelay_keeps {s0 s : State} (h : Keeps s0 s) : Keeps s0 (State.refreshMateDelay s) := by
  unfold State.refreshMateDelay
  repeat' first
    | with_reducible first
        | intro _ | assumption | apply State.setFld_keeps | apply State.logEvent_keeps | apply Keeps.ite
        | apply Keeps.foldl | rfl
        | (extract_lets +onlyGivenNames -underBinder x; first | refine Keeps.cut x ?_ ?_ | skip)
    | split
    | with_reducible apply Keeps.mk_keeps

theorem State.restartMeans_keeps {s0 s : State} (h : Keeps s0 s) (n : Nat) : Keeps s0 (State.restartMeans s n) := by
  unfold State.restartMeans
  repeat' first
    | with_reducible first
        | intro _ | assumption | apply State.setFld_keeps | apply State.updLane_keeps
        | apply State.refreshMateDelay_keeps | apply Keeps.ite | rfl
        | (extract_lets +onlyGivenNames -underBinder x; first | refine Keeps.cut x ?_ ?_ | skip)
    | split
    | with_reducible apply Keeps.mk_keeps

theorem State.forgetSkew_keeps {s0 s : State} (h : Keeps s0 s) (n : Nat) : Keeps s0 (State.forgetSkew s n) := by
  unfold State.forgetSkew
  repeat' first
    | with_reducible first
        | intro _ | assumption | apply State.setFld_keeps | apply State.updLane_keeps | rfl
    | with_reducible apply Keeps.mk_keeps

theorem State.steerLost_keeps {s0 s : State} (h : Keeps s0 s) (n : Nat) : Keeps s0 (State.steerLost s n) := by
  unfold State.steerLost
  repeat' first
    | with_reducible first
        | intro _ | assumption | apply State.updLane_keeps | apply State.restartMeans_keeps
        | apply State.forgetSkew_keeps | apply State.setFld_keeps | apply Keeps.ite | rfl
        | (extract_lets +onlyGivenNames -underBinder x; first | refine Keeps.cut x ?_ ?_ | skip)
    | split
    | with_reducible apply Keeps.mk_keeps

theorem State.loseToHunt_keeps {s0 s : State} (h : Keeps s0 s) (n : Nat) (kind : Nat) (more : List (Defect × Bool)) : Keeps s0
    (State.loseToHunt s n kind more) := by
  unfold State.loseToHunt
  repeat' first
    | with_reducible first
        | intro _ | assumption | apply State.steerLost_keeps | apply State.updLane_keeps
        | apply State.setFld_keeps | apply State.incFld_keeps | apply State.setRaws_keeps | apply Keeps.ite
        | rfl
        | (extract_lets +onlyGivenNames -underBinder x; first | refine Keeps.cut x ?_ ?_ | skip)
    | split
    | with_reducible apply Keeps.mk_keeps

theorem State.loseReel_keeps {s0 s : State} (h : Keeps s0 s) (n : Nat) : Keeps s0 (State.loseReel s n) := by
  unfold State.loseReel
  repeat' first
    | with_reducible first
        | intro _ | assumption | apply State.steerLost_keeps | apply State.updLane_keeps
        | apply State.setFld_keeps | apply State.setRaws_keeps | rfl
        | (extract_lets +onlyGivenNames -underBinder x; first | refine Keeps.cut x ?_ ?_ | skip)
    | with_reducible apply Keeps.mk_keeps

end Sys2Proof.Machine
end

