-- ==== Sys2Proof/Laws/KeepsLanes.lean ====
section
/-!
SUPPORT. That the operations and meanings of lanes, alignment and CMC keep what must be kept (`Keeps`), one lemma each.
-/
namespace Sys2Proof.Machine
open Sys2Proof

set_option linter.all false

theorem State.loadTaps_keeps {s0 s : State} (h : Keeps s0 s) (n : Nat) (t : TapSet) : Keeps s0 (State.loadTaps s n t) := by
  unfold State.loadTaps
  repeat' first
    | with_reducible first
        | intro _ | assumption | apply State.setFld_keeps | apply State.setFldI_keeps
        | apply State.updLane_keeps | apply Keeps.foldl | rfl
        | (extract_lets +onlyGivenNames -underBinder x; first | refine Keeps.cut x ?_ ?_ | skip)
    | with_reducible apply Keeps.mk_keeps

theorem State.copyToSeed_keeps {s0 s : State} (h : Keeps s0 s) (n : Nat) : Keeps s0 (State.copyToSeed s n) := by
  unfold State.copyToSeed
  repeat' first
    | with_reducible first
        | intro _ | assumption | apply State.updLane_keeps | apply State.setFld_keeps
        | apply State.setFlag_keeps | apply State.setFldI_keeps | apply Keeps.ite | rfl
        | (extract_lets +onlyGivenNames -underBinder x; first | refine Keeps.cut x ?_ ?_ | skip)
    | split
    | with_reducible apply Keeps.mk_keeps

theorem State.lmsWindow_keeps {s0 s : State} (h : Keeps s0 s) (n : Nat) (w : LmsWindow) : Keeps s0 (State.lmsWindow s n w) := by
  unfold State.lmsWindow
  repeat' first
    | with_reducible first
        | intro _ | assumption | apply State.setFldI_keeps | apply Keeps.ite | apply Keeps.foldl | rfl
        | (extract_lets +onlyGivenNames -underBinder x; first | refine Keeps.cut x ?_ ?_ | skip)
    | split
    | with_reducible apply Keeps.mk_keeps

theorem State.holdTaps_keeps {s0 s : State} (h : Keeps s0 s) (n : Nat) (sinceSnapNs : Nat) : Keeps s0 (State.holdTaps s n
    sinceSnapNs) := by
  unfold State.holdTaps
  repeat' first
    | with_reducible first
        | intro _ | assumption | apply State.updLane_keeps | apply State.setFlag_keeps
        | apply State.loadTaps_keeps | apply Keeps.ite | rfl
        | (extract_lets +onlyGivenNames -underBinder x; first | refine Keeps.cut x ?_ ?_ | skip)
    | split
    | with_reducible apply Keeps.mk_keeps

theorem State.refreshLaneState_keeps {s0 s : State} (h : Keeps s0 s) (n : Nat) : Keeps s0 (State.refreshLaneState s n) := by
  unfold State.refreshLaneState
  repeat' first
    | with_reducible first
        | intro _ | assumption | apply State.setFld_keeps | apply Keeps.ite | rfl
        | (extract_lets +onlyGivenNames -underBinder x; first | refine Keeps.cut x ?_ ?_ | skip)
    | split
    | with_reducible apply Keeps.mk_keeps

theorem State.rxPowerDown_keeps {s0 s : State} (h : Keeps s0 s) (n : Nat) (target : Nat) : Keeps s0 (State.rxPowerDown s n
    target) := by
  unfold State.rxPowerDown
  repeat' first
    | with_reducible first
        | intro _ | assumption | apply State.setFld_keeps | apply State.setFlag_keeps
        | apply State.setReg_keeps | rfl
        | (extract_lets +onlyGivenNames -underBinder x; first | refine Keeps.cut x ?_ ?_ | skip)
    | with_reducible apply Keeps.mk_keeps

theorem State.startReceiver_keeps {s0 s : State} (h : Keeps s0 s) (n : Nat) (target : Nat) (set : TapSet) (mode : Nat) : Keeps s0
    (State.startReceiver s n target set mode) := by
  unfold State.startReceiver
  repeat' first
    | with_reducible first
        | intro _ | assumption | apply State.setFld_keeps | apply State.updLane_keeps
        | apply State.loseToHunt_keeps | rfl
        | (extract_lets +onlyGivenNames -underBinder x; first | refine Keeps.cut x ?_ ?_ | skip)
    | with_reducible apply Keeps.mk_keeps

theorem State.resumeTaps_keeps {s0 s : State} (h : Keeps s0 s) (n : Nat) : Keeps s0 (State.resumeTaps s n) := by
  unfold State.resumeTaps
  repeat' first
    | with_reducible first
        | intro _ | assumption | apply State.setFlag_keeps | apply State.updLane_keeps
        | apply State.loadTaps_keeps | apply State.startReceiver_keeps | apply Keeps.ite | rfl
    | split
    | with_reducible apply Keeps.mk_keeps

theorem State.txRequest_keeps {s0 s : State} (h : Keeps s0 s) (n : Nat) (target : Nat) : Keeps s0 (State.txRequest s n target)
    := by
  unfold State.txRequest
  repeat' first
    | with_reducible first
        | intro _ | assumption | apply State.updLane_keeps | apply State.setFld_keeps | apply Keeps.ite | rfl
        | (extract_lets +onlyGivenNames -underBinder x; first | refine Keeps.cut x ?_ ?_ | skip)
    | split
    | with_reducible apply Keeps.mk_keeps

theorem State.rxRequest_keeps {s0 s : State} (h : Keeps s0 s) (n : Nat) (target : Nat) : Keeps s0 (State.rxRequest s n target)
    := by
  unfold State.rxRequest
  repeat' first
    | with_reducible first
        | intro _ | assumption | apply State.updLane_keeps | apply State.setFld_keeps
        | apply State.loseToHunt_keeps | apply State.holdTaps_keeps | apply State.startReceiver_keeps
        | apply State.copyToSeed_keeps | apply Keeps.ite | rfl
        | (extract_lets +onlyGivenNames -underBinder x; first | refine Keeps.cut x ?_ ?_ | skip)
    | split
    | with_reducible apply Keeps.mk_keeps

theorem State.laneAct_keeps {s0 s : State} (h : Keeps s0 s) (n : Nat) : Keeps s0 (State.laneAct s n) := by
  unfold State.laneAct
  repeat' first
    | with_reducible first
        | intro _ | assumption | apply State.updLane_keeps | apply State.refreshLaneState_keeps
        | apply State.rxRequest_keeps | apply State.txRequest_keeps | apply Keeps.ite | rfl
        | (extract_lets +onlyGivenNames -underBinder x; first | refine Keeps.cut x ?_ ?_ | skip)
    | split
    | with_reducible apply Keeps.mk_keeps

theorem State.transitionEnd_keeps {s0 s : State} (h : Keeps s0 s) (n : Nat) : Keeps s0 (State.transitionEnd s n) := by
  unfold State.transitionEnd
  repeat' first
    | with_reducible first
        | intro _ | assumption | apply State.refreshLaneState_keeps | apply State.laneAct_keeps
        | apply State.setFlag_keeps | apply State.updLane_keeps | apply Keeps.ite | rfl
    | split
    | with_reducible apply Keeps.mk_keeps

theorem State.writeLaneCtl_keeps {s0 s : State} (h : Keeps s0 s) (n : Nat) (v : Word) : Keeps s0 (State.writeLaneCtl s n v) := by
  unfold State.writeLaneCtl
  repeat' first
    | with_reducible first
        | intro _ | assumption | apply State.setFlag_keeps | apply State.setReg_keeps
        | apply State.refreshLaneState_keeps | apply State.laneAct_keeps | apply Keeps.ite | rfl
        | (extract_lets +onlyGivenNames -underBinder x; first | refine Keeps.cut x ?_ ?_ | skip)
    | split
    | with_reducible apply Keeps.mk_keeps

theorem State.txStopNow_keeps {s0 s : State} (h : Keeps s0 s) (n : Nat) : Keeps s0 (State.txStopNow s n) := by
  unfold State.txStopNow
  repeat' first
    | with_reducible first
        | intro _ | assumption | apply State.transitionEnd_keeps | apply State.setFld_keeps
        | apply State.refreshLaneState_keeps | apply State.txRequest_keeps | apply Keeps.ite | rfl
        | (extract_lets +onlyGivenNames -underBinder x; first | refine Keeps.cut x ?_ ?_ | skip)
    | split
    | with_reducible apply Keeps.mk_keeps

theorem execSignalLoss_keeps {s0 s : State} (h : Keeps s0 s) (n : LaneNo) (mv : Nat) (sinceSnapNs : Nat) : OutKeeps s0
    (execSignalLoss n mv sinceSnapNs s) := by
  unfold execSignalLoss
  repeat' first
    | with_reducible first
        | intro _ | assumption | apply State.holdTaps_keeps | apply State.updLane_keeps
        | apply State.when_keeps | apply State.setFld_keeps | apply Keeps.ite | apply OutKeeps.ite
        | apply OutKeeps.next | rfl
        | (extract_lets +onlyGivenNames -underBinder x; first | refine Keeps.cut x ?_ ?_ | refine OutKeeps.cut x ?_ ?_ | skip)
    | split
    | with_reducible apply Keeps.mk_keeps

theorem execSignalReturn_keeps {s0 s : State} (h : Keeps s0 s) (n : LaneNo) (mv : Nat) : OutKeeps s0 (execSignalReturn n mv s)
    := by
  unfold execSignalReturn
  repeat' first
    | with_reducible first
        | intro _ | assumption | apply State.updLane_keeps | apply State.resumeTaps_keeps | apply Keeps.ite
        | apply OutKeeps.ite | apply OutKeeps.next | rfl
        | (extract_lets +onlyGivenNames -underBinder x; first | refine Keeps.cut x ?_ ?_ | refine OutKeeps.cut x ?_ ?_ | skip)
    | split
    | with_reducible apply Keeps.mk_keeps

theorem execLos_keeps {s0 s : State} (h : Keeps s0 s) (n : LaneNo) (mv : Nat) : OutKeeps s0 (execLos n mv s) := by
  unfold execLos
  repeat' first
    | with_reducible first
        | intro _ | assumption | apply State.setFlag_keeps | apply State.setFld_keeps
        | apply State.loseToHunt_keeps | apply Keeps.ite | apply OutKeeps.ite | apply OutKeeps.next | rfl
        | (extract_lets +onlyGivenNames -underBinder x; first | refine Keeps.cut x ?_ ?_ | refine OutKeeps.cut x ?_ ?_ | skip)
    | split
    | with_reducible apply Keeps.mk_keeps

theorem execLosClear_keeps {s0 s : State} (h : Keeps s0 s) (n : LaneNo) (mv : Nat) : OutKeeps s0 (execLosClear n mv s) := by
  unfold execLosClear
  repeat' first
    | with_reducible first
        | intro _ | assumption | apply State.setFlag_keeps | apply State.updLane_keeps
        | apply State.when_keeps | apply State.setFld_keeps | apply State.setRaws_keeps | apply Keeps.ite
        | apply OutKeeps.ite | apply OutKeeps.next | rfl
        | (extract_lets +onlyGivenNames -underBinder x; first | refine Keeps.cut x ?_ ?_ | refine OutKeeps.cut x ?_ ?_ | skip)
    | split
    | with_reducible apply Keeps.mk_keeps

theorem execLol_keeps {s0 s : State} (h : Keeps s0 s) (n : LaneNo) (ppm : Int) (badPhase : Nat) (samples : Nat) : OutKeeps s0
    (execLol n ppm badPhase samples s) := by
  unfold execLol
  repeat' first
    | with_reducible first
        | intro _ | assumption | apply State.setFlag_keeps | apply State.loseToHunt_keeps
        | apply State.setFld_keeps | apply Keeps.ite | apply OutKeeps.ite | apply OutKeeps.next | rfl
        | (extract_lets +onlyGivenNames -underBinder x; first | refine Keeps.cut x ?_ ?_ | refine OutKeeps.cut x ?_ ?_ | skip)
    | split
    | with_reducible apply Keeps.mk_keeps

theorem execLolClear_keeps {s0 s : State} (h : Keeps s0 s) (n : LaneNo) (ppm : Int) (badPhase : Nat) (samples : Nat) : OutKeeps
    s0 (execLolClear n ppm badPhase samples s) := by
  unfold execLolClear
  repeat' first
    | with_reducible first
        | intro _ | assumption | apply State.setRaws_keeps | apply State.updLane_keeps
        | apply State.setFlag_keeps | apply Keeps.ite | apply OutKeeps.ite | apply OutKeeps.next | rfl
        | (extract_lets +onlyGivenNames -underBinder x; first | refine Keeps.cut x ?_ ?_ | refine OutKeeps.cut x ?_ ?_ | skip)
    | split
    | with_reducible apply Keeps.mk_keeps

theorem execFastConvergeEnd_keeps {s0 s : State} (h : Keeps s0 s) (n : LaneNo) : OutKeeps s0 (execFastConvergeEnd n s) := by
  unfold execFastConvergeEnd
  repeat' first
    | with_reducible first
        | intro _ | assumption | apply State.setFlag_keeps | apply OutKeeps.next | rfl
    | with_reducible apply Keeps.mk_keeps

theorem execFreeze_keeps {s0 s : State} (h : Keeps s0 s) (n : LaneNo) (w : RichWindow) : OutKeeps s0 (execFreeze n w s) := by
  unfold execFreeze
  repeat' first
    | with_reducible first
        | intro _ | assumption | apply State.setFlag_keeps | apply Keeps.ite | apply OutKeeps.ite
        | apply OutKeeps.next | rfl
        | (extract_lets +onlyGivenNames -underBinder x; first | refine Keeps.cut x ?_ ?_ | refine OutKeeps.cut x ?_ ?_ | skip)
    | split
    | with_reducible apply Keeps.mk_keeps

theorem execFreezeEnd_keeps {s0 s : State} (h : Keeps s0 s) (n : LaneNo) (w : RichWindow) : OutKeeps s0 (execFreezeEnd n w s)
    := by
  unfold execFreezeEnd
  repeat' first
    | with_reducible first
        | intro _ | assumption | apply State.setFlag_keeps | apply Keeps.ite | apply OutKeeps.ite
        | apply OutKeeps.next | rfl
        | (extract_lets +onlyGivenNames -underBinder x; first | refine Keeps.cut x ?_ ?_ | refine OutKeeps.cut x ?_ ?_ | skip)
    | split
    | with_reducible apply Keeps.mk_keeps

theorem execTapSnapshot_keeps {s0 s : State} (h : Keeps s0 s) (n : LaneNo) (w : RichWindow) (lms : List LmsWindow) : OutKeeps s0
    (execTapSnapshot n w lms s) := by
  unfold execTapSnapshot
  repeat' first
    | with_reducible first
        | intro _ | assumption | apply State.setFlag_keeps | apply State.lmsWindow_keeps
        | apply State.updLane_keeps | apply Keeps.ite | apply OutKeeps.ite | apply OutKeeps.next
        | apply Keeps.foldl | rfl
        | (extract_lets +onlyGivenNames -underBinder x; first | refine Keeps.cut x ?_ ?_ | refine OutKeeps.cut x ?_ ?_ | skip)
    | split
    | with_reducible apply Keeps.mk_keeps

theorem execLaneFofs_keeps {s0 s : State} (h : Keeps s0 s) (n : LaneNo) (mean : Int) (lolSeen : Bool) : OutKeeps s0 (execLaneFofs
    n mean lolSeen s) := by
  unfold execLaneFofs
  repeat' first
    | with_reducible first
        | intro _ | assumption | apply State.updLane_keeps | apply State.setFld_keeps
        | apply State.setFldI_keeps | apply State.logEvent_keeps | apply State.setFlag_keeps | apply Keeps.ite
        | apply OutKeeps.ite | apply OutKeeps.next | rfl
        | (extract_lets +onlyGivenNames -underBinder x; first | refine Keeps.cut x ?_ ?_ | refine OutKeeps.cut x ?_ ?_ | skip)
    | split
    | with_reducible apply Keeps.mk_keeps

theorem execLaneCtlWrite_keeps {s0 s : State} (h : Keeps s0 s) (n : LaneNo) (v : Word) : OutKeeps s0 (execLaneCtlWrite n v s)
    := by
  unfold execLaneCtlWrite
  repeat' first
    | with_reducible first
        | intro _ | assumption | apply State.writeLaneCtl_keeps | apply OutKeeps.next | rfl
    | with_reducible apply Keeps.mk_keeps

theorem execTransmitterStop_keeps {s0 s : State} (h : Keeps s0 s) (n : LaneNo) : OutKeeps s0 (execTransmitterStop n s) := by
  unfold execTransmitterStop
  repeat' first
    | with_reducible first
        | intro _ | assumption | apply State.txStopNow_keeps | apply OutKeeps.next | rfl
    | with_reducible apply Keeps.mk_keeps

theorem State.ffeNow_keeps {s0 s : State} (h : Keeps s0 s) (n : Nat) : Keeps s0 (State.ffeNow s n) := by
  unfold State.ffeNow
  repeat' first
    | with_reducible first
        | intro _ | assumption | apply State.updLane_keeps | apply Keeps.ite | rfl
    | split
    | with_reducible apply Keeps.mk_keeps

theorem execTransmitterStart_keeps {s0 s : State} (h : Keeps s0 s) (n : LaneNo) : OutKeeps s0 (execTransmitterStart n s) := by
  unfold execTransmitterStart
  repeat' first
    | with_reducible first
        | intro _ | assumption | apply State.transitionEnd_keeps | apply State.ffeNow_keeps
        | apply State.setFld_keeps | apply Keeps.ite | apply OutKeeps.ite | apply OutKeeps.next | rfl
        | (extract_lets +onlyGivenNames -underBinder x; first | refine Keeps.cut x ?_ ?_ | refine OutKeeps.cut x ?_ ?_ | skip)
    | split
    | with_reducible apply Keeps.mk_keeps

theorem execReceiverStopDone_keeps {s0 s : State} (h : Keeps s0 s) (n : LaneNo) : OutKeeps s0 (execReceiverStopDone n s) := by
  unfold execReceiverStopDone
  repeat' first
    | with_reducible first
        | intro _ | assumption | apply State.transitionEnd_keeps | apply State.rxPowerDown_keeps
        | apply State.copyToSeed_keeps | apply Keeps.ite | apply OutKeeps.ite | apply OutKeeps.next | rfl
        | (extract_lets +onlyGivenNames -underBinder x; first | refine Keeps.cut x ?_ ?_ | refine OutKeeps.cut x ?_ ?_ | skip)
    | split
    | with_reducible apply Keeps.mk_keeps

theorem execReceiverStart_keeps {s0 s : State} (h : Keeps s0 s) (n : LaneNo) (t : Trained) : OutKeeps s0 (execReceiverStart n t
    s) := by
  unfold execReceiverStart
  repeat' first
    | with_reducible first
        | intro _ | assumption | apply State.loadTaps_keeps | apply State.setFlag_keeps
        | apply State.setFld_keeps | apply State.updLane_keeps | apply State.loseToHunt_keeps
        | apply State.transitionEnd_keeps | apply Keeps.ite | apply OutKeeps.ite | apply OutKeeps.next | rfl
        | (extract_lets +onlyGivenNames -underBinder x; first | refine Keeps.cut x ?_ ?_ | refine OutKeeps.cut x ?_ ?_ | skip)
    | split
    | with_reducible apply Keeps.mk_keeps

theorem State.writeTxFfe_keeps {s0 s : State} (h : Keeps s0 s) (n : Nat) (v : Word) : Keeps s0 (State.writeTxFfe s n v) := by
  unfold State.writeTxFfe
  repeat' first
    | with_reducible first
        | intro _ | assumption | apply State.ffeNow_keeps | apply State.setReg_keeps
        | apply State.logEvent_keeps | apply State.setFlag_keeps | apply Keeps.ite | rfl
        | (extract_lets +onlyGivenNames -underBinder x; first | refine Keeps.cut x ?_ ?_ | skip)
    | split
    | with_reducible apply Keeps.mk_keeps

theorem execLaneTxFfeWrite_keeps {s0 s : State} (h : Keeps s0 s) (n : LaneNo) (v : Word) : OutKeeps s0 (execLaneTxFfeWrite n v s)
    := by
  unfold execLaneTxFfeWrite
  repeat' first
    | with_reducible first
        | intro _ | assumption | apply State.writeTxFfe_keeps | apply OutKeeps.next | rfl
    | with_reducible apply Keeps.mk_keeps

theorem State.writeTapLoad_keeps {s0 s : State} (h : Keeps s0 s) (n : Nat) (v : Word) : Keeps s0 (State.writeTapLoad s n v) := by
  unfold State.writeTapLoad
  repeat' first
    | with_reducible first
        | intro _ | assumption | apply State.updLane_keeps | apply State.setFlag_keeps
        | apply State.setFldI_keeps | apply State.setFld_keeps | apply Keeps.ite | rfl
        | (extract_lets +onlyGivenNames -underBinder x; first | refine Keeps.cut x ?_ ?_ | skip)
    | split
    | with_reducible apply Keeps.mk_keeps

theorem execLaneTapLoad_keeps {s0 s : State} (h : Keeps s0 s) (n : LaneNo) (v : Word) : OutKeeps s0 (execLaneTapLoad n v s) := by
  unfold execLaneTapLoad
  repeat' first
    | with_reducible first
        | intro _ | assumption | apply State.writeTapLoad_keeps | apply OutKeeps.next | rfl
    | with_reducible apply Keeps.mk_keeps

theorem State.setCandidates_keeps {s0 s : State} (h : Keeps s0 s) (n : Nat) (l : List Candidate) : Keeps s0 (State.setCandidates
    s n l) := by
  unfold State.setCandidates
  repeat' first
    | with_reducible first
        | intro _ | assumption | apply State.setFld_keeps | apply State.updLane_keeps | rfl
    | with_reducible apply Keeps.mk_keeps

theorem State.openCandidate_keeps {s0 s : State} (h : Keeps s0 s) (n : Nat) (hh : Nat) (offset : Nat) : Keeps s0
    (State.openCandidate s n hh offset) := by
  unfold State.openCandidate
  repeat' first
    | with_reducible first
        | intro _ | assumption | apply State.incFld_keeps | apply State.setCandidates_keeps | apply Keeps.ite
        | rfl
        | (extract_lets +onlyGivenNames -underBinder x; first | refine Keeps.cut x ?_ ?_ | skip)
    | split
    | with_reducible apply Keeps.mk_keeps

theorem State.huntHeader_keeps {s0 s : State} (h : Keeps s0 s) (n : Nat) (hh : Nat) (offset : Nat) : Keeps s0 (State.huntHeader s
    n hh offset) := by
  unfold State.huntHeader
  repeat' first
    | with_reducible first
        | intro _ | assumption | apply State.openCandidate_keeps | apply State.setCandidates_keeps
        | apply State.updLane_keeps | apply State.setFld_keeps | apply Keeps.ite | rfl
        | (extract_lets +onlyGivenNames -underBinder x; first | refine Keeps.cut x ?_ ?_ | skip)
    | split
    | with_reducible apply Keeps.mk_keeps

theorem State.countBlock_keeps {s0 s : State} (h : Keeps s0 s) (n : Nat) (d : Decoded) : Keeps s0 (State.countBlock s n d) := by
  unfold State.countBlock
  repeat' first
    | with_reducible first
        | intro _ | assumption | apply State.when_keeps | apply State.count_keeps | apply State.updLane_keeps
        | apply State.setRaws_keeps | apply Keeps.ite | rfl
        | (extract_lets +onlyGivenNames -underBinder x; first | refine Keeps.cut x ?_ ?_ | skip)
    | split
    | with_reducible apply Keeps.mk_keeps

theorem execBlockDecode_keeps {s0 s : State} (h : Keeps s0 s) (n : LaneNo) (line : RawBlock) (prev : Fin 4) : OutKeeps s0
    (execBlockDecode n line prev s) := by
  unfold execBlockDecode
  repeat' first
    | with_reducible first
        | intro _ | assumption | apply State.updLane_keeps | apply State.countBlock_keeps | apply Keeps.ite
        | apply OutKeeps.ite | apply OutKeeps.next | rfl
        | (extract_lets +onlyGivenNames -underBinder x; first | refine Keeps.cut x ?_ ?_ | refine OutKeeps.cut x ?_ ?_ | skip)
    | split
    | with_reducible apply Keeps.mk_keeps

theorem execBlockHeader_keeps {s0 s : State} (h : Keeps s0 s) (n : LaneNo) (hdr : BitVec 80) (prev : Fin 4) (offset : Fin 17920)
    : OutKeeps s0 (execBlockHeader n hdr prev offset s) := by
  unfold execBlockHeader
  repeat' first
    | with_reducible first
        | intro _ | assumption | apply State.huntHeader_keeps | apply State.updLane_keeps
        | apply State.when_keeps | apply State.count_keeps | apply State.loseToHunt_keeps | apply Keeps.ite
        | apply OutKeeps.ite | apply OutKeeps.next | rfl
        | (extract_lets +onlyGivenNames -underBinder x; first | refine Keeps.cut x ?_ ?_ | refine OutKeeps.cut x ?_ ?_ | skip)
    | split
    | with_reducible apply Keeps.mk_keeps

theorem State.enterReelSync_keeps {s0 s : State} (h : Keeps s0 s) (n : Nat) (seq : Nat) : Keeps s0 (State.enterReelSync s n seq)
    := by
  unfold State.enterReelSync
  repeat' first
    | with_reducible first
        | intro _ | assumption | apply State.updLane_keeps | apply State.setFld_keeps
        | apply State.setRaws_keeps | rfl
        | (extract_lets +onlyGivenNames -underBinder x; first | refine Keeps.cut x ?_ ?_ | skip)
    | with_reducible apply Keeps.mk_keeps

theorem State.goodControl_keeps {s0 s : State} (h : Keeps s0 s) (n : Nat) (seq : Nat) (flags : Nat) : Keeps s0 (State.goodControl
    s n seq flags) := by
  unfold State.goodControl
  repeat' first
    | with_reducible first
        | intro _ | assumption | apply State.updLane_keeps | apply State.setFld_keeps
        | apply State.setRaws_keeps | apply Keeps.ite | rfl
        | (extract_lets +onlyGivenNames -underBinder x; first | refine Keeps.cut x ?_ ?_ | skip)
    | split
    | with_reducible apply Keeps.mk_keeps

theorem State.issueSteer_keeps {s0 s : State} (h : Keeps s0 s) (n : Nat) : Keeps s0 (State.issueSteer s n) := by
  unfold State.issueSteer
  repeat' first
    | with_reducible first
        | intro _ | assumption | apply State.updLane_keeps | apply State.setFldI_keeps
        | apply State.setFld_keeps | apply Keeps.ite | rfl
        | (extract_lets +onlyGivenNames -underBinder x; first | refine Keeps.cut x ?_ ?_ | skip)
    | split
    | with_reducible apply Keeps.mk_keeps

theorem State.steerControl_keeps {s0 s : State} (h : Keeps s0 s) (n : Nat) (cap : Bool) (ack : Nat) : Keeps s0
    (State.steerControl s n cap ack) := by
  unfold State.steerControl
  repeat' first
    | with_reducible first
        | intro _ | assumption | apply State.setFld_keeps | apply State.updLane_keeps | apply State.when_keeps
        | apply State.issueSteer_keeps | apply Keeps.ite | rfl
        | (extract_lets +onlyGivenNames -underBinder x; first | refine Keeps.cut x ?_ ?_ | skip)
    | split
    | with_reducible apply Keeps.mk_keeps

theorem State.noteArrival_keeps {s0 s : State} (h : Keeps s0 s) (n : Nat) (seq : Nat) (arrival : Nat) (good : Bool) : Keeps s0
    (State.noteArrival s n seq arrival good) := by
  unfold State.noteArrival
  dsimp only
  repeat' first
    | with_reducible first
        | assumption | apply State.updLane_keeps | apply Keeps.ite | rfl | intro _
    | split
    | with_reducible apply Keeps.mk_keeps

theorem execReelControl_keeps {s0 s : State} (h : Keeps s0 s) (n : LaneNo) (arrival : BitVec 72) : OutKeeps s0 (execReelControl n
    arrival s) := by
  unfold execReelControl
  repeat' first
    | with_reducible first
        | intro _ | assumption | apply State.updLane_keeps | apply State.noteArrival_keeps
        | apply State.when_keeps | apply State.count_keeps | apply State.setFld_keeps
        | apply State.enterReelSync_keeps | apply State.loseReel_keeps | apply State.goodControl_keeps
        | apply State.steerControl_keeps | apply Keeps.ite | apply OutKeeps.ite | apply OutKeeps.next | rfl
        | (extract_lets +onlyGivenNames -underBinder x; first | refine Keeps.cut x ?_ ?_ | refine OutKeeps.cut x ?_ ?_ | skip)
    | split
    | with_reducible apply Keeps.mk_keeps

theorem execReelSyncTimeout_keeps {s0 s : State} (h : Keeps s0 s) (n : LaneNo) : OutKeeps s0 (execReelSyncTimeout n s) := by
  unfold execReelSyncTimeout
  repeat' first
    | with_reducible first
        | intro _ | assumption | apply State.setFlag_keeps | apply State.updLane_keeps
        | apply State.loseToHunt_keeps | apply Keeps.ite | apply OutKeeps.ite | apply OutKeeps.next | rfl
        | (extract_lets +onlyGivenNames -underBinder x; first | refine Keeps.cut x ?_ ?_ | refine OutKeeps.cut x ?_ ?_ | skip)
    | split
    | with_reducible apply Keeps.mk_keeps

theorem execBarExpiry_keeps {s0 s : State} (h : Keeps s0 s) (n : LaneNo) : OutKeeps s0 (execBarExpiry n s) := by
  unfold execBarExpiry
  repeat' first
    | with_reducible first
        | intro _ | assumption | apply State.setFlag_keeps | apply State.updLane_keeps | apply OutKeeps.next
        | rfl
        | (extract_lets +onlyGivenNames -underBinder x; first | refine Keeps.cut x ?_ ?_ | refine OutKeeps.cut x ?_ ?_ | skip)
    | with_reducible apply Keeps.mk_keeps

theorem execDefectWindowEnd_keeps {s0 s : State} (h : Keeps s0 s) (n : LaneNo) : OutKeeps s0 (execDefectWindowEnd n s) := by
  unfold execDefectWindowEnd
  repeat' first
    | with_reducible first
        | intro _ | assumption | apply State.updLane_keeps | apply State.setRaws_keeps | apply Keeps.ite
        | apply OutKeeps.ite | apply OutKeeps.next | rfl
        | (extract_lets +onlyGivenNames -underBinder x; first | refine Keeps.cut x ?_ ?_ | refine OutKeeps.cut x ?_ ?_ | skip)
    | split
    | with_reducible apply Keeps.mk_keeps

theorem State.assemblyBoundary_keeps {s0 s : State} (h : Keeps s0 s) (n : Nat) : Keeps s0 (State.assemblyBoundary s n) := by
  unfold State.assemblyBoundary
  repeat' first
    | with_reducible first
        | intro _ | assumption | apply State.updLane_keeps | apply Keeps.ite | rfl
        | (extract_lets +onlyGivenNames -underBinder x; first | refine Keeps.cut x ?_ ?_ | skip)
    | split
    | with_reducible apply Keeps.mk_keeps

theorem State.traceComplete_keeps {s0 s : State} (h : Keeps s0 s) (n : Nat) (t : List Byte) : Keeps s0 (State.traceComplete s n
    t) := by
  unfold State.traceComplete
  repeat' first
    | with_reducible first
        | intro _ | assumption | apply State.setReg_keeps | apply State.updLane_keeps
        | apply State.setRaws_keeps | apply Keeps.ite | apply Keeps.foldl | rfl
        | (extract_lets +onlyGivenNames -underBinder x; first | refine Keeps.cut x ?_ ?_ | skip)
    | split
    | with_reducible apply Keeps.mk_keeps

theorem State.traceSegment_keeps {s0 s : State} (h : Keeps s0 s) (n : Nat) (seq : Nat) (oh : Option (List Byte)) : Keeps s0
    (State.traceSegment s n seq oh) := by
  unfold State.traceSegment
  dsimp only
  repeat' first
    | with_reducible first
        | assumption | apply State.assemblyBoundary_keeps | apply State.updLane_keeps
        | apply State.traceComplete_keeps | apply Keeps.ite | rfl | intro _
    | split
    | with_reducible apply Keeps.mk_keeps

theorem State.farReport_keeps {s0 s : State} (h : Keeps s0 s) (n : Nat) (oh : Option (List Byte)) : Keeps s0 (State.farReport s n
    oh) := by
  unfold State.farReport
  repeat' first
    | with_reducible first
        | intro _ | assumption | apply State.updLane_keeps | apply State.count_keeps | apply Keeps.ite | rfl
        | (extract_lets +onlyGivenNames -underBinder x; first | refine Keeps.cut x ?_ ?_ | skip)
    | split
    | with_reducible apply Keeps.mk_keeps

theorem execDefectReport_keeps {s0 s : State} (h : Keeps s0 s) (n : LaneNo) : OutKeeps s0 (execDefectReport n s) := by
  unfold execDefectReport
  repeat' first
    | with_reducible first
        | intro _ | assumption | apply State.updLane_keeps | apply State.traceSegment_keeps
        | apply State.farReport_keeps | apply Keeps.ite | apply OutKeeps.ite | apply OutKeeps.next | rfl
        | (extract_lets +onlyGivenNames -underBinder x; first | refine Keeps.cut x ?_ ?_ | refine OutKeeps.cut x ?_ ?_ | skip)
    | split
    | with_reducible apply Keeps.mk_keeps

theorem State.writeTimCtl_keeps {s0 s : State} (h : Keeps s0 s) (n : Nat) (v : Word) : Keeps s0 (State.writeTimCtl s n v) := by
  unfold State.writeTimCtl
  repeat' first
    | with_reducible first
        | intro _ | assumption | apply State.setFld_keeps | apply State.setRaws_keeps
        | apply State.updLane_keeps | apply Keeps.ite | rfl
        | (extract_lets +onlyGivenNames -underBinder x; first | refine Keeps.cut x ?_ ?_ | skip)
    | split
    | with_reducible apply Keeps.mk_keeps

theorem execLaneTimCtlWrite_keeps {s0 s : State} (h : Keeps s0 s) (n : LaneNo) (v : Word) : OutKeeps s0 (execLaneTimCtlWrite n v
    s) := by
  unfold execLaneTimCtlWrite
  repeat' first
    | with_reducible first
        | intro _ | assumption | apply State.writeTimCtl_keeps | apply OutKeeps.next | rfl
    | with_reducible apply Keeps.mk_keeps

theorem State.writeThreshold_keeps {s0 s : State} (h : Keeps s0 s) (n : Nat) (off : Nat) (v : Word) : Keeps s0
    (State.writeThreshold s n off v) := by
  unfold State.writeThreshold
  repeat' first
    | with_reducible first
        | intro _ | assumption | apply State.setReg_keeps | apply State.updLane_keeps | apply Keeps.ite | rfl
    | split
    | with_reducible apply Keeps.mk_keeps

theorem execLaneThresholdWrite_keeps {s0 s : State} (h : Keeps s0 s) (n : LaneNo) (off : BitVec 12) (v : Word) : OutKeeps s0
    (execLaneThresholdWrite n off v s) := by
  unfold execLaneThresholdWrite
  repeat' first
    | with_reducible first
        | intro _ | assumption | apply State.writeThreshold_keeps | apply OutKeeps.next | rfl
    | with_reducible apply Keeps.mk_keeps

theorem execArrivalMean_keeps {s0 s : State} (h : Keeps s0 s) (n : LaneNo) : OutKeeps s0 (execArrivalMean n s) := by
  unfold execArrivalMean
  dsimp only
  repeat' first
    | with_reducible first
        | assumption | apply State.setFldI_keeps | apply State.updLane_keeps | apply State.setFld_keeps
        | apply State.issueSteer_keeps | apply Keeps.ite | apply OutKeeps.ite | apply OutKeeps.next
        | apply Keeps.foldl | rfl | intro _
    | split
    | with_reducible apply Keeps.mk_keeps

theorem execSteerRequest_keeps {s0 s : State} (h : Keeps s0 s) (n : LaneNo) : OutKeeps s0 (execSteerRequest n s) := by
  unfold execSteerRequest
  repeat' first
    | with_reducible first
        | intro _ | assumption | apply State.issueSteer_keeps | apply Keeps.ite | apply OutKeeps.ite
        | apply OutKeeps.next | rfl
        | (extract_lets +onlyGivenNames -underBinder x; first | refine Keeps.cut x ?_ ?_ | refine OutKeeps.cut x ?_ ?_ | skip)
    | split
    | with_reducible apply Keeps.mk_keeps

theorem execSteerFailed_keeps {s0 s : State} (h : Keeps s0 s) (n : LaneNo) : OutKeeps s0 (execSteerFailed n s) := by
  unfold execSteerFailed
  repeat' first
    | with_reducible first
        | intro _ | assumption | apply State.setFld_keeps | apply State.updLane_keeps
        | apply State.logEvent_keeps | apply Keeps.ite | apply OutKeeps.ite | apply OutKeeps.next | rfl
        | (extract_lets +onlyGivenNames -underBinder x; first | refine Keeps.cut x ?_ ?_ | refine OutKeeps.cut x ?_ ?_ | skip)
    | split
    | with_reducible apply Keeps.mk_keeps

theorem State.updCmc_keeps {s0 s : State} (h : Keeps s0 s) (n : Nat) (f : Cmc → Cmc) : Keeps s0 (State.updCmc s n f) := by
  unfold State.updCmc
  repeat' first
    | with_reducible first
        | intro _ | assumption | apply State.updLane_keeps | rfl
    | with_reducible apply Keeps.mk_keeps

theorem State.closeCmcBuffer_keeps {s0 s : State} (h : Keeps s0 s) : Keeps s0 (State.closeCmcBuffer s) := by
  unfold State.closeCmcBuffer
  repeat' first
    | with_reducible first
        | intro _ | assumption | apply State.hostWrite_keeps | apply State.updHif_keeps
        | apply State.msix_keeps | apply State.writeStatusPage_keeps | apply Keeps.ite | rfl
        | (extract_lets +onlyGivenNames -underBinder x; first | refine Keeps.cut x ?_ ?_ | skip)
    | split
    | with_reducible apply Keeps.mk_keeps

theorem State.dropCmc_keeps {s0 s : State} (h : Keeps s0 s) (lane : Nat) : Keeps s0 (State.dropCmc s lane) := by
  unfold State.dropCmc
  repeat' first
    | with_reducible first
        | intro _ | assumption | apply State.logEvent_keeps | apply State.setFlag_keeps
        | apply State.count_keeps | rfl
    | with_reducible apply Keeps.mk_keeps

theorem State.deliverCmc_keeps {s0 s : State} (h : Keeps s0 s) (lane : Nat) (r : CmcRecord) : Keeps s0 (State.deliverCmc s lane
    r) := by
  unfold State.deliverCmc
  dsimp only
  repeat' first
    | with_reducible first
        | assumption | apply State.closeCmcBuffer_keeps | apply State.updHif_keeps
        | apply State.hostWrite_keeps | apply State.dropCmc_keeps | apply Keeps.ite | rfl | intro _
    | split
    | with_reducible apply Keeps.mk_keeps

theorem State.cmcComplete_keeps {s0 s : State} (h : Keeps s0 s) (n : Nat) (bytes : List Byte) : Keeps s0 (State.cmcComplete s n
    bytes) := by
  unfold State.cmcComplete
  repeat' first
    | with_reducible first
        | intro _ | assumption | apply State.deliverCmc_keeps | apply State.count_keeps
        | apply State.updCmc_keeps | apply Keeps.ite | apply Keeps.foldl | rfl
        | (extract_lets +onlyGivenNames -underBinder x; first | refine Keeps.cut x ?_ ?_ | skip)
    | split
    | with_reducible apply Keeps.mk_keeps

theorem State.cmcDesync_keeps {s0 s : State} (h : Keeps s0 s) (n : Nat) (counted : Bool) (lost : optParam (Option Nat) none) :
    Keeps s0 (State.cmcDesync s n counted lost) := by
  unfold State.cmcDesync
  repeat' first
    | with_reducible first
        | intro _ | assumption | apply State.updCmc_keeps | apply State.when_keeps | apply State.count_keeps
        | rfl
    | with_reducible apply Keeps.mk_keeps

theorem State.cmcLostSlice_keeps {s0 s : State} (h : Keeps s0 s) (n : Nat) : Keeps s0 (State.cmcLostSlice s n) := by
  unfold State.cmcLostSlice
  repeat' first
    | with_reducible first
        | intro _ | assumption | apply State.cmcDesync_keeps | apply State.updCmc_keeps | apply Keeps.ite
        | rfl
        | (extract_lets +onlyGivenNames -underBinder x; first | refine Keeps.cut x ?_ ?_ | skip)
    | split
    | with_reducible apply Keeps.mk_keeps

theorem State.cmcTail_keeps {s0 s : State} (h : Keeps s0 s) (n : Nat) (p : Nat) : Keeps s0 (State.cmcTail s n p) := by
  unfold State.cmcTail
  repeat' first
    | with_reducible first
        | intro _ | assumption | apply State.updCmc_keeps | apply State.when_keeps | apply State.count_keeps
        | apply Keeps.ite | rfl
        | (extract_lets +onlyGivenNames -underBinder x; first | refine Keeps.cut x ?_ ?_ | skip)
    | split
    | with_reducible apply Keeps.mk_keeps

theorem State.cmcByte_keeps {s0 s : State} (h : Keeps s0 s) (n : Nat) (b : Byte) : Keeps s0 (State.cmcByte s n b) := by
  unfold State.cmcByte
  repeat' first
    | with_reducible first
        | intro _ | assumption | apply State.cmcDesync_keeps | apply State.updCmc_keeps
        | apply State.cmcComplete_keeps | apply Keeps.ite | rfl
        | (extract_lets +onlyGivenNames -underBinder x; first | refine Keeps.cut x ?_ ?_ | skip)
    | split
    | with_reducible apply Keeps.mk_keeps

theorem State.cmcSlice_keeps {s0 s : State} (h : Keeps s0 s) (n : Nat) (slice : List Byte) : Keeps s0 (State.cmcSlice s n slice)
    := by
  unfold State.cmcSlice
  repeat' first
    | with_reducible first
        | intro _ | assumption | apply State.cmcDesync_keeps | apply State.cmcByte_keeps
        | apply State.cmcTail_keeps | apply State.updCmc_keeps | apply Keeps.ite | apply Keeps.foldl | rfl
        | (extract_lets +onlyGivenNames -underBinder x; first | refine Keeps.cut x ?_ ?_ | skip)
    | split
    | with_reducible apply Keeps.mk_keeps

theorem execCmcSlice_keeps {s0 s : State} (h : Keeps s0 s) (n : LaneNo) : OutKeeps s0 (execCmcSlice n s) := by
  unfold execCmcSlice
  repeat' first
    | with_reducible first
        | intro _ | assumption | apply State.updLane_keeps | apply State.cmcLostSlice_keeps
        | apply State.cmcSlice_keeps | apply Keeps.ite | apply OutKeeps.ite | apply OutKeeps.next | rfl
        | (extract_lets +onlyGivenNames -underBinder x; first | refine Keeps.cut x ?_ ?_ | refine OutKeeps.cut x ?_ ?_ | skip)
    | split
    | with_reducible apply Keeps.mk_keeps

theorem execCmcBufferHold_keeps {s0 s : State} (h : Keeps s0 s) : OutKeeps s0 (execCmcBufferHold s) := by
  unfold execCmcBufferHold
  repeat' first
    | with_reducible first
        | intro _ | assumption | apply State.closeCmcBuffer_keeps | apply Keeps.ite | apply OutKeeps.ite
        | apply OutKeeps.next | rfl
    | split
    | with_reducible apply Keeps.mk_keeps

theorem State.cmcApplyNext_keeps {s0 s : State} (h : Keeps s0 s) (n : Nat) : Keeps s0 (State.cmcApplyNext s n) := by
  unfold State.cmcApplyNext
  repeat' first
    | with_reducible first
        | intro _ | assumption | apply State.when_keeps | apply State.count_keeps | apply State.updCmc_keeps
        | apply Keeps.ite | rfl
        | (extract_lets +onlyGivenNames -underBinder x; first | refine Keeps.cut x ?_ ?_ | skip)
    | split
    | with_reducible apply Keeps.mk_keeps

end Sys2Proof.Machine
end

