-- ==== Sys2Proof/Laws/KeepsSwitch.lean ====
section
/-!
SUPPORT. That the operations and meanings of page sets, data path, handles, splices, colourist and circuits keep what must be kept (`Keeps`), one lemma each.
-/
namespace Sys2Proof.Machine
open Sys2Proof

set_option linter.all false

theorem State.setActive_keeps {s0 s : State} (h : Keeps s0 s) (p : PageSet) : Keeps s0 (State.setActive s p) := by
  unfold State.setActive
  repeat' first
    | with_reducible first
        | intro _ | assumption | apply State.updSsw_keeps | apply Keeps.ite | rfl
    | split
    | with_reducible apply Keeps.mk_keeps

theorem State.setStandby_keeps {s0 s : State} (h : Keeps s0 s) (p : PageSet) : Keeps s0 (State.setStandby s p) := by
  unfold State.setStandby
  repeat' first
    | with_reducible first
        | intro _ | assumption | apply State.updSsw_keeps | apply Keeps.ite | rfl
    | split
    | with_reducible apply Keeps.mk_keeps

theorem State.setSby_keeps {s0 s : State} (h : Keeps s0 s) (v : Nat) : Keeps s0 (State.setSby s v) := by
  unfold State.setSby
  repeat' first
    | with_reducible first
        | intro _ | assumption | apply State.setFld_keeps | rfl
    | with_reducible apply Keeps.mk_keeps

theorem State.refreshFacets_keeps {s0 s : State} (h : Keeps s0 s) : Keeps s0 (State.refreshFacets s) := by
  unfold State.refreshFacets
  repeat' first
    | with_reducible first
        | intro _ | assumption | apply State.setFld_keeps | rfl
        | (extract_lets +onlyGivenNames -underBinder x; first | refine Keeps.cut x ?_ ?_ | skip)
    | with_reducible apply Keeps.mk_keeps

theorem State.setFacet_keeps {s0 s : State} (h : Keeps s0 s) (f : Nat) (st : Nat) (colour : Nat) : Keeps s0 (State.setFacet s f
    st colour) := by
  unfold State.setFacet
  repeat' first
    | with_reducible first
        | intro _ | assumption | apply State.refreshFacets_keeps | apply State.setFld_keeps
        | apply State.icEdge_keeps | apply Keeps.ite | rfl
        | (extract_lets +onlyGivenNames -underBinder x; first | refine Keeps.cut x ?_ ?_ | skip)
    | split
    | with_reducible apply Keeps.mk_keeps

theorem State.failFacet_keeps {s0 s : State} (h : Keeps s0 s) (f : Nat) : Keeps s0 (State.failFacet s f) := by
  unfold State.failFacet
  repeat' first
    | with_reducible first
        | intro _ | assumption | apply State.logEvent_keeps | apply State.setFacet_keeps | apply Keeps.ite
        | rfl
        | (extract_lets +onlyGivenNames -underBinder x; first | refine Keeps.cut x ?_ ?_ | skip)
    | split
    | with_reducible apply Keeps.mk_keeps

theorem State.writeImage_keeps {s0 s : State} (h : Keeps s0 s) : Keeps s0 (State.writeImage s) := by
  unfold State.writeImage
  repeat' first
    | with_reducible first
        | intro _ | assumption | rfl
        | (extract_lets +onlyGivenNames -underBinder x; first | refine Keeps.cut x ?_ ?_ | skip)
    | with_reducible apply Keeps.mk_keeps

theorem State.releaseReel_keeps {s0 s : State} (h : Keeps s0 s) (n : Nat) (q : Nat) : Keeps s0 (State.releaseReel s n q) := by
  unfold State.releaseReel
  repeat' first
    | with_reducible first
        | intro _ | assumption | apply State.when_keeps | apply State.count_keeps | apply State.updLane_keeps
        | apply Keeps.ite | rfl
        | (extract_lets +onlyGivenNames -underBinder x; first | refine Keeps.cut x ?_ ?_ | skip)
    | split
    | with_reducible apply Keeps.mk_keeps

theorem State.reanchor_keeps {s0 s : State} (h : Keeps s0 s) (p : LanePair) : Keeps s0 (State.reanchor s p).1 := by
  unfold State.reanchor
  dsimp only
  repeat' first
    | with_reducible first
        | assumption | apply State.when_keeps | apply State.count_keeps | apply State.incFld_keeps
        | apply State.logEvent_keeps | apply Keeps.ite | apply Keeps.foldl | rfl | intro _
    | split
    | with_reducible apply Keeps.mk_keeps

theorem State.reanchor_keeps_eq {s0 s : State} (h : Keeps s0 s) (p : LanePair) {t : State} {r : _} (e : (State.reanchor s p) = (t, r)) : Keeps s0 t := by
  have k := State.reanchor_keeps h p
  rw [e] at k; exact k

theorem State.setPair_keeps {s0 s : State} (h : Keeps s0 s) (p : LanePair) : Keeps s0 (State.setPair s p) := by
  unfold State.setPair
  repeat' first
    | with_reducible first
        | intro _ | assumption | apply State.updCirc_keeps | apply Keeps.ite | rfl
    | split
    | with_reducible apply Keeps.mk_keeps

theorem State.showPair_keeps {s0 s : State} (h : Keeps s0 s) (p : LanePair) : Keeps s0 (State.showPair s p) := by
  unfold State.showPair
  repeat' first
    | with_reducible first
        | intro _ | assumption | apply State.setFlag_keeps | apply State.setFld_keeps
        | apply State.logEvent_keeps | apply Keeps.ite | rfl
        | (extract_lets +onlyGivenNames -underBinder x; first | refine Keeps.cut x ?_ ?_ | skip)
    | split
    | with_reducible apply Keeps.mk_keeps

theorem State.stepPair_keeps {s0 s : State} (h : Keeps s0 s) (p : LanePair) : Keeps s0 (State.stepPair s p) := by
  unfold State.stepPair
  repeat' first
    | with_reducible first
        | intro _ | assumption | exact State.reanchor_keeps_eq ‹_› ‹_› | apply State.reanchor_keeps
        | apply State.showPair_keeps | apply State.setPair_keeps | apply Keeps.ite | rfl
        | (extract_lets +onlyGivenNames -underBinder x; first | refine Keeps.cut x ?_ ?_ | skip)
    | split
    | with_reducible apply Keeps.mk_keeps

theorem State.showPool_keeps {s0 s : State} (h : Keeps s0 s) : Keeps s0 (State.showPool s) := by
  unfold State.showPool
  repeat' first
    | with_reducible first
        | intro _ | assumption | apply State.setFld_keeps | apply State.setFlag_keeps | apply Keeps.foldl
        | rfl
        | (extract_lets +onlyGivenNames -underBinder x; first | refine Keeps.cut x ?_ ?_ | skip)
    | with_reducible apply Keeps.mk_keeps

theorem State.fillPool_keeps {s0 s : State} (h : Keeps s0 s) : Keeps s0 (State.fillPool s) := by
  unfold State.fillPool
  repeat' first
    | with_reducible first
        | intro _ | assumption | apply State.showPool_keeps | apply State.updCirc_keeps | rfl
        | (extract_lets +onlyGivenNames -underBinder x; first | refine Keeps.cut x ?_ ?_ | skip)
    | with_reducible apply Keeps.mk_keeps

theorem State.countRescued_keeps {s0 s : State} (h : Keeps s0 s) (n : Nat) : Keeps s0 (State.countRescued s n) := by
  unfold State.countRescued
  repeat' first
    | with_reducible first
        | intro _ | assumption | apply State.when_keeps | apply State.updLane_keeps | rfl
    | with_reducible apply Keeps.mk_keeps

theorem State.countMerge_keeps {s0 s : State} (h : Keeps s0 s) (i : Nat) (e : MergeEntry) : Keeps s0 (State.countMerge s i e)
    := by
  unfold State.countMerge
  repeat' first
    | with_reducible first
        | intro _ | assumption | apply State.count_keeps | apply State.when_keeps
        | apply State.countRescued_keeps | apply Keeps.ite | rfl
        | (extract_lets +onlyGivenNames -underBinder x; first | refine Keeps.cut x ?_ ?_ | skip)
    | split
    | with_reducible apply Keeps.mk_keeps

theorem State.countBadGrains_keeps {s0 s : State} (h : Keeps s0 s) : Keeps s0 (State.countBadGrains s) := by
  unfold State.countBadGrains
  repeat' first
    | with_reducible first
        | intro _ | assumption | apply State.count_keeps | apply Keeps.ite | apply Keeps.foldl | rfl
    | split
    | with_reducible apply Keeps.mk_keeps

theorem State.connRefresh_keeps {s0 s : State} (h : Keeps s0 s) (set : Nat) (index : Nat) (flags : Nat) : Keeps s0
    (State.connRefresh s set index flags) := by
  unfold State.connRefresh
  repeat' first
    | with_reducible first
        | intro _ | assumption | apply State.logEvent_keeps | apply State.incFld_keeps | rfl
    | with_reducible apply Keeps.mk_keeps

theorem State.noteRefresh_keeps {s0 s : State} (h : Keeps s0 s) (k : MemKind) (set : Nat) (index : Nat) : Keeps s0
    (State.noteRefresh s k set index) := by
  unfold State.noteRefresh
  repeat' first
    | with_reducible first
        | intro _ | assumption | apply State.updSsw_keeps | apply State.when_keeps | apply State.updGctl_keeps
        | apply State.detect_keeps | apply Keeps.ite | rfl
        | (extract_lets +onlyGivenNames -underBinder x; first | refine Keeps.cut x ?_ ?_ | skip)
    | split
    | with_reducible apply Keeps.mk_keeps

theorem State.rewriteConn_keeps {s0 s : State} (h : Keeps s0 s) (set : Nat) (index : Nat) : Keeps s0 (State.rewriteConn s set
    index) := by
  unfold State.rewriteConn
  repeat' first
    | with_reducible first
        | intro _ | assumption | apply State.setActive_keeps | apply Keeps.ite | rfl
    | split
    | with_reducible apply Keeps.mk_keeps

theorem State.facetError_keeps {s0 s : State} (h : Keeps s0 s) (f : Nat) (ce : Nat) (ue : Nat) : Keeps s0 (State.facetError s f
    ce ue) := by
  unfold State.facetError
  repeat' first
    | with_reducible first
        | intro _ | assumption | apply State.updSsw_keeps | rfl
        | (extract_lets +onlyGivenNames -underBinder x; first | refine Keeps.cut x ?_ ?_ | skip)
    | with_reducible apply Keeps.mk_keeps

theorem State.memError_keeps {s0 s : State} (h : Keeps s0 s) (e : MemError) : Keeps s0 (State.memError s e) := by
  unfold State.memError
  repeat' first
    | with_reducible first
        | intro _ | assumption | apply State.facetError_keeps | apply State.noteRefresh_keeps
        | apply State.incFld_keeps | apply State.updSsw_keeps | apply State.connRefresh_keeps
        | apply State.when_keeps | apply State.rewriteConn_keeps | apply State.logEvent_keeps
        | apply State.setActive_keeps | apply Keeps.ite | rfl
        | (extract_lets +onlyGivenNames -underBinder x; first | refine Keeps.cut x ?_ ?_ | skip)
    | split
    | with_reducible apply Keeps.mk_keeps

theorem State.writeSlots_keeps {s0 s : State} (h : Keeps s0 s) (q : Nat) (badWords : List Nat) : Keeps s0 (State.writeSlots s q
    badWords) := by
  unfold State.writeSlots
  repeat' first
    | with_reducible first
        | intro _ | assumption | apply State.updSsw_keeps | apply Keeps.ite | apply Keeps.foldl | rfl
        | (extract_lets +onlyGivenNames -underBinder x; first | refine Keeps.cut x ?_ ?_ | skip)
    | split
    | with_reducible apply Keeps.mk_keeps

theorem State.seamCounts_keeps {s0 s : State} (h : Keeps s0 s) (bad : List Nat) (badOut : List Nat) : Keeps s0 (State.seamCounts
    s bad badOut) := by
  unfold State.seamCounts
  repeat' first
    | with_reducible first
        | intro _ | assumption | apply State.setFld_keeps | rfl
        | (extract_lets +onlyGivenNames -underBinder x; first | refine Keeps.cut x ?_ ?_ | skip)
    | split
    | with_reducible apply Keeps.mk_keeps

theorem State.fdiEvent_keeps {s0 s : State} (h : Keeps s0 s) (c : Nat) (e : CircEntry) (into : Bool) (q : Nat) : Keeps s0
    (State.fdiEvent s c e into q) := by
  unfold State.fdiEvent
  repeat' first
    | with_reducible first
        | intro _ | assumption | apply State.logEvent_keeps | apply Keeps.ite | rfl
    | split
    | with_reducible apply Keeps.mk_keeps

theorem State.circuitReel_keeps {s0 s : State} (h : Keeps s0 s) (c : Nat) (e : CircEntry) (sent : List (Grain × Bool)) (q : Nat)
    : Keeps s0 (State.circuitReel s c e sent q) := by
  unfold State.circuitReel
  repeat' first
    | with_reducible first
        | intro _ | assumption | apply State.updCirc_keeps | apply State.when_keeps | apply State.count_keeps
        | apply State.fdiEvent_keeps | apply Keeps.ite | rfl
        | (extract_lets +onlyGivenNames -underBinder x; first | refine Keeps.cut x ?_ ?_ | skip)
    | split
    | with_reducible apply Keeps.mk_keeps

theorem State.circuitsReel_keeps {s0 s : State} (h : Keeps s0 s) (q : Nat) (sent : List (Nat × Nat × Grain × Bool)) : Keeps s0
    (State.circuitsReel s q sent) := by
  unfold State.circuitsReel
  repeat' first
    | with_reducible first
        | intro _ | assumption | apply State.circuitReel_keeps | apply State.setFld_keeps | apply Keeps.foldl
        | rfl
        | (extract_lets +onlyGivenNames -underBinder x; first | refine Keeps.cut x ?_ ?_ | skip)
    | with_reducible apply Keeps.mk_keeps

theorem State.coreReel_keeps {s0 s : State} (h : Keeps s0 s) (errors : List MemError) : Keeps s0 (State.coreReel s errors) := by
  unfold State.coreReel
  repeat' first
    | with_reducible first
        | intro _ | assumption | apply State.setFld_keeps | apply State.releaseReel_keeps
        | apply State.stepPair_keeps | apply State.countBadGrains_keeps | apply State.countMerge_keeps
        | apply State.writeSlots_keeps | apply State.memError_keeps | apply State.updSsw_keeps
        | apply State.when_keeps | apply State.seamCounts_keeps | apply State.fillPool_keeps
        | apply State.circuitsReel_keeps | apply Keeps.ite | apply Keeps.foldl | rfl
        | (extract_lets +onlyGivenNames -underBinder x; first | refine Keeps.cut x ?_ ?_ | skip)
    | split
    | with_reducible apply Keeps.mk_keeps

theorem execCoreReelStart_keeps {s0 s : State} (h : Keeps s0 s) (errors : List MemError) : OutKeeps s0 (execCoreReelStart errors
    s) := by
  unfold execCoreReelStart
  repeat' first
    | with_reducible first
        | intro _ | assumption | apply State.coreReel_keeps | apply OutKeeps.next | rfl
    | with_reducible apply Keeps.mk_keeps

theorem execReelSlip_keeps {s0 s : State} (h : Keeps s0 s) (n : LaneNo) (fast : Bool) : OutKeeps s0 (execReelSlip n fast s) := by
  unfold execReelSlip
  repeat' first
    | with_reducible first
        | intro _ | assumption | apply State.updLane_keeps | apply State.logEvent_keeps
        | apply State.count_keeps | apply Keeps.ite | apply OutKeeps.ite | apply OutKeeps.next | rfl
        | (extract_lets +onlyGivenNames -underBinder x; first | refine Keeps.cut x ?_ ?_ | refine OutKeeps.cut x ?_ ?_ | skip)
    | split
    | with_reducible apply Keeps.mk_keeps

theorem State.updPair_keeps {s0 s : State} (h : Keeps s0 s) (f : Pair → Pair) : Keeps s0 (State.updPair s f) := by
  unfold State.updPair
  repeat' first
    | with_reducible first
        | intro _ | assumption | rfl
    | with_reducible apply Keeps.mk_keeps

theorem State.seeClaim_keeps {s0 s : State} (h : Keeps s0 s) (c : Nat) : Keeps s0 (State.seeClaim s c) := by
  unfold State.seeClaim
  repeat' first
    | with_reducible first
        | intro _ | assumption | apply State.updPair_keeps | rfl
    | with_reducible apply Keeps.mk_keeps

theorem State.refreshIsolated_keeps {s0 s : State} (h : Keeps s0 s) : Keeps s0 (State.refreshIsolated s) := by
  unfold State.refreshIsolated
  repeat' first
    | with_reducible first
        | intro _ | assumption | apply State.logEvent_keeps | apply State.when_keeps
        | apply State.setFlag_keeps | apply State.alert_keeps | apply Keeps.ite | rfl
        | (extract_lets +onlyGivenNames -underBinder x; first | refine Keeps.cut x ?_ ?_ | skip)
    | split
    | with_reducible apply Keeps.mk_keeps

theorem State.setRole_keeps {s0 s : State} (h : Keeps s0 s) (r : Nat) : Keeps s0 (State.setRole s r) := by
  unfold State.setRole
  repeat' first
    | with_reducible first
        | intro _ | assumption | apply State.refreshIsolated_keeps | apply State.setFld_keeps
        | apply State.icEdge_keeps | apply Keeps.ite | rfl
        | (extract_lets +onlyGivenNames -underBinder x; first | refine Keeps.cut x ?_ ?_ | skip)
    | split
    | with_reducible apply Keeps.mk_keeps

theorem State.showOutstanding_keeps {s0 s : State} (h : Keeps s0 s) : Keeps s0 (State.showOutstanding s) := by
  unfold State.showOutstanding
  repeat' first
    | with_reducible first
        | intro _ | assumption | apply State.setFld_keeps | rfl
    | with_reducible apply Keeps.mk_keeps

theorem State.sendRecord_keeps {s0 s : State} (h : Keeps s0 s) (kind : Nat) (applyReel : Nat) (body : List Byte) : Keeps s0
    (State.sendRecord s kind applyReel body) := by
  unfold State.sendRecord
  repeat' first
    | with_reducible first
        | intro _ | assumption | apply State.showOutstanding_keeps | apply State.updPair_keeps
        | apply Keeps.ite | rfl
        | (extract_lets +onlyGivenNames -underBinder x; first | refine Keeps.cut x ?_ ?_ | skip)
    | split
    | with_reducible apply Keeps.mk_keeps

theorem State.advanceStream_keeps {s0 s : State} (h : Keeps s0 s) : Keeps s0 (State.advanceStream s) := by
  unfold State.advanceStream
  repeat' first
    | with_reducible first
        | intro _ | assumption | apply State.updPair_keeps | apply Keeps.ite | rfl
        | (extract_lets +onlyGivenNames -underBinder x; first | refine Keeps.cut x ?_ ?_ | skip)
    | split
    | with_reducible apply Keeps.mk_keeps

theorem State.updHandle_keeps {s0 s : State} (h : Keeps s0 s) (hh : Nat) (f : Handle → Handle) : Keeps s0 (State.updHandle s hh
    f) := by
  unfold State.updHandle
  repeat' first
    | with_reducible first
        | intro _ | assumption | apply State.updHif_keeps | apply Keeps.ite | rfl
    | split
    | with_reducible apply Keeps.mk_keeps

theorem State.showOpen_keeps {s0 s : State} (h : Keeps s0 s) : Keeps s0 (State.showOpen s) := by
  unfold State.showOpen
  repeat' first
    | with_reducible first
        | intro _ | assumption | apply State.setFld_keeps | apply Keeps.foldl | rfl
        | (extract_lets +onlyGivenNames -underBinder x; first | refine Keeps.cut x ?_ ?_ | skip)
    | with_reducible apply Keeps.mk_keeps

theorem State.mbxPlace_keeps {s0 s : State} (h : Keeps s0 s) : Keeps s0 (State.mbxPlace s) := by
  unfold State.mbxPlace
  repeat' first
    | with_reducible first
        | intro _ | assumption | apply State.setReg_keeps | apply State.updHif_keeps
        | apply State.raiseIbi_keeps | apply State.alert_keeps | apply State.setFlag_keeps | apply Keeps.ite
        | apply Keeps.foldl | rfl
        | (extract_lets +onlyGivenNames -underBinder x; first | refine Keeps.cut x ?_ ?_ | skip)
    | split
    | with_reducible apply Keeps.mk_keeps

theorem State.mbxSend_keeps {s0 s : State} (h : Keeps s0 s) (c : Completion) : Keeps s0 (State.mbxSend s c) := by
  unfold State.mbxSend
  repeat' first
    | with_reducible first
        | intro _ | assumption | apply State.mbxPlace_keeps | apply State.updHif_keeps | apply Keeps.ite | rfl
    | split
    | with_reducible apply Keeps.mk_keeps

theorem State.sendCompletion_keeps {s0 s : State} (h : Keeps s0 s) (c : Completion) : Keeps s0 (State.sendCompletion s c) := by
  unfold State.sendCompletion
  repeat' first
    | with_reducible first
        | intro _ | assumption | apply State.mbxSend_keeps | apply State.putCompletion_keeps | apply Keeps.ite
        | rfl
        | (extract_lets +onlyGivenNames -underBinder x; first | refine Keeps.cut x ?_ ?_ | skip)
    | split
    | with_reducible apply Keeps.mk_keeps

theorem State.orphanDone_keeps {s0 s : State} (h : Keeps s0 s) (c : Completion) : Keeps s0 (State.orphanDone s c) := by
  unfold State.orphanDone
  repeat' first
    | with_reducible first
        | intro _ | assumption | apply State.logEvent_keeps | apply State.updHif_keeps | apply Keeps.ite | rfl
    | split
    | with_reducible apply Keeps.mk_keeps

theorem State.sendHandle_keeps {s0 s : State} (h : Keeps s0 s) (e : Handle) (st : Nat) (status : Nat) (reel : Nat) : Keeps s0
    (State.sendHandle s e st status reel) := by
  unfold State.sendHandle
  repeat' first
    | with_reducible first
        | intro _ | assumption | apply State.sendRecord_keeps | apply Keeps.ite | rfl
        | (extract_lets +onlyGivenNames -underBinder x; first | refine Keeps.cut x ?_ ?_ | skip)
    | split
    | with_reducible apply Keeps.mk_keeps

theorem State.flushFirst_keeps {s0 s : State} (h : Keeps s0 s) (y0 : Nat) (y1 : Nat) : Keeps s0 (State.flushFirst y0 s y1) := by
  induction y0 generalizing s with
  | zero => exact h
  | succ n ih =>
    unfold State.flushFirst
    split
    · exact h
    · split
      · exact ih (State.sendCompletion_keeps (State.updHif_keeps h _ rfl) _)
      · split
        · exact h
        · exact ih (State.sendCompletion_keeps (State.sendHandle_keeps (State.updHandle_keeps h _ _) _ _ _ _) _)

theorem State.flushRing_keeps {s0 s : State} (h : Keeps s0 s) (n : Nat) : Keeps s0 (State.flushRing s n) := by
  unfold State.flushRing
  repeat' first
    | with_reducible first
        | assumption | apply State.flushFirst_keeps | rfl | intro _
    | with_reducible apply Keeps.mk_keeps

theorem State.endOne_keeps {s0 s : State} (h : Keeps s0 s) (c : Completion) : Keeps s0 (State.endOne s c) := by
  unfold State.endOne
  repeat' first
    | with_reducible first
        | intro _ | assumption | apply State.sendHandle_keeps | apply State.updHif_keeps
        | apply State.orphanDone_keeps | apply State.sendCompletion_keeps | apply State.updHandle_keeps
        | apply Keeps.ite | rfl
        | (extract_lets +onlyGivenNames -underBinder x; first | refine Keeps.cut x ?_ ?_ | skip)
    | split
    | with_reducible apply Keeps.mk_keeps

theorem State.endCascade_keeps {s0 s : State} (h : Keeps s0 s) (y0 : Nat) (y1 : Completion) : Keeps s0 (State.endCascade y0 s y1)
    := by
  induction y0 generalizing s y1 with
  | zero => exact State.endOne_keeps h _
  | succ n ih =>
    unfold State.endCascade
    dsimp only
    split
    · exact State.endOne_keeps h _
    · exact Keeps.foldl (fun _ _ k => ih k _) (State.endOne_keeps h _)

theorem State.complete_keeps {s0 s : State} (h : Keeps s0 s) (c : Completion) : Keeps s0 (State.complete s c) := by
  unfold State.complete
  repeat' first
    | with_reducible first
        | intro _ | assumption | apply State.showOpen_keeps | apply State.flushRing_keeps
        | apply State.endCascade_keeps | apply Keeps.ite | rfl
    | split
    | with_reducible apply Keeps.mk_keeps

theorem State.finish_keeps {s0 s : State} (h : Keeps s0 s) (hh : Nat) (outcome : Nat) (status : Nat) (result : Nat) : Keeps s0
    (State.finish s hh outcome status result) := by
  unfold State.finish
  repeat' first
    | with_reducible first
        | intro _ | assumption | apply State.complete_keeps | rfl
    | with_reducible apply Keeps.mk_keeps

theorem State.fail_keeps {s0 s : State} (h : Keeps s0 s) (hh : Nat) (status : Nat) (result : Nat) : Keeps s0 (State.fail s hh
    status result) := by
  unfold State.fail
  repeat' first
    | with_reducible first
        | intro _ | assumption | apply State.finish_keeps | apply Keeps.ite | rfl
        | (extract_lets +onlyGivenNames -underBinder x; first | refine Keeps.cut x ?_ ?_ | skip)
    | split
    | with_reducible apply Keeps.mk_keeps

theorem State.faultEnd_keeps {s0 s : State} (h : Keeps s0 s) (hh : Nat) (fault : Nat) (offset : Nat) : Keeps s0 (State.faultEnd s
    hh fault offset) := by
  unfold State.faultEnd
  repeat' first
    | with_reducible first
        | intro _ | assumption | apply State.complete_keeps | apply Keeps.ite | rfl
        | (extract_lets +onlyGivenNames -underBinder x; first | refine Keeps.cut x ?_ ?_ | skip)
    | split
    | with_reducible apply Keeps.mk_keeps

theorem State.finishAcked_keeps {s0 s : State} (h : Keeps s0 s) (hh : Nat) (outcome : Nat) (status : Nat) (result : Nat) : Keeps
    s0 (State.finishAcked s hh outcome status result) := by
  unfold State.finishAcked
  repeat' first
    | with_reducible first
        | intro _ | assumption | apply State.updHandle_keeps | apply State.finish_keeps | apply Keeps.ite
        | rfl
    | split
    | with_reducible apply Keeps.mk_keeps

theorem State.releaseHeld_keeps {s0 s : State} (h : Keeps s0 s) (upTo : Option Nat) : Keeps s0 (State.releaseHeld s upTo) := by
  unfold State.releaseHeld
  repeat' first
    | with_reducible first
        | intro _ | assumption | apply State.complete_keeps | apply Keeps.foldl | rfl
    | split
    | with_reducible apply Keeps.mk_keeps

theorem State.run_keeps {s0 s : State} (h : Keeps s0 s) (o : Nat) (hh : Nat) (body : Handle → State → State) (h_body : ∀ x0 x1,
    Keeps s0 x1 → Keeps s0 (body x0 x1)) (cmcLanes : optParam (List Nat) []) : Keeps s0 (State.run s o hh body cmcLanes) := by
  unfold State.run
  repeat' first
    | with_reducible first
        | intro _ | assumption | apply h_body | apply State.updHandle_keeps | apply State.when_keeps
        | apply State.sendHandle_keeps | apply State.fail_keeps | apply Keeps.ite | rfl
        | (extract_lets +onlyGivenNames -underBinder x; first | refine Keeps.cut x ?_ ?_ | skip)
    | split
    | with_reducible apply Keeps.mk_keeps

theorem State.mbxUnit_keeps {s0 s : State} (h : Keeps s0 s) : Keeps s0 (State.mbxUnit s) := by
  unfold State.mbxUnit
  repeat' first
    | with_reducible first
        | intro _ | assumption | apply State.setFld_keeps | apply State.setReg_keeps
        | apply State.raiseIbi_keeps | apply Keeps.ite | apply Keeps.foldl | rfl
        | (extract_lets +onlyGivenNames -underBinder x; first | refine Keeps.cut x ?_ ?_ | skip)
    | split
    | with_reducible apply Keeps.mk_keeps

theorem State.mbxStart_keeps {s0 s : State} (h : Keeps s0 s) (hh : Nat) (out : Bool) (total : Nat) (data : List Byte) : Keeps s0
    (State.mbxStart s hh out total data) := by
  unfold State.mbxStart
  repeat' first
    | with_reducible first
        | intro _ | assumption | apply State.mbxUnit_keeps | rfl
    | with_reducible apply Keeps.mk_keeps

theorem State.dmaDone_keeps {s0 s : State} (h : Keeps s0 s) (hh : Nat) : Keeps s0 (State.dmaDone s hh) := by
  unfold State.dmaDone
  repeat' first
    | with_reducible first
        | intro _ | assumption | apply State.icEdge_keeps | apply Keeps.ite | rfl
    | split
    | with_reducible apply Keeps.mk_keeps

theorem State.receive_keeps {s0 s : State} (h : Keeps s0 s) (e : Handle) (size : Nat) (sg : List (Nat × Nat)) (obj : List Byte)
    (body : List Byte → State → State) (h_body : ∀ x0 x1, Keeps s0 x1 → Keeps s0 (body x0 x1)) : Keeps s0 (State.receive s e size
    sg obj body) := by
  unfold State.receive
  dsimp only
  repeat' first
    | with_reducible first
        | assumption | apply h_body | apply State.fail_keeps | apply State.mbxStart_keeps
        | apply State.updHif_keeps | apply State.dmaDone_keeps | apply State.faultEnd_keeps
        | apply State.incFld_keeps | apply Keeps.ite | rfl | intro _
    | split
    | with_reducible apply Keeps.mk_keeps

theorem State.scatter_keeps {s0 s : State} (h : Keeps s0 s) (y0 : List (Nat × Nat)) (y1 : List Byte) : Keeps s0 (State.scatter s
    y0 y1) := by
  induction y0 generalizing s y1 with
  | nil => exact h
  | cons a l ih => exact ih (State.hostWrite_keeps h _ _) _

theorem State.deliver_keeps {s0 s : State} (h : Keeps s0 s) (e : Handle) (sg : List (Nat × Nat)) (obj : List Byte) (body : State
    → State) (h_body : ∀ x0, Keeps s0 x0 → Keeps s0 (body x0)) : Keeps s0 (State.deliver s e sg obj body) := by
  unfold State.deliver
  repeat' first
    | with_reducible first
        | intro _ | assumption | apply h_body | apply State.fail_keeps | apply State.mbxStart_keeps
        | apply State.dmaDone_keeps | apply State.scatter_keeps | apply State.faultEnd_keeps
        | apply State.incFld_keeps | apply Keeps.ite | rfl
        | (extract_lets +onlyGivenNames -underBinder x; first | refine Keeps.cut x ?_ ?_ | skip)
    | split
    | with_reducible apply Keeps.mk_keeps

theorem State.setKey_keeps {s0 s : State} (h : Keeps s0 s) (b : KeyBlock) (v : Bool) : Keeps s0 (State.setKey s b v) := by
  unfold State.setKey
  repeat' first
    | with_reducible first
        | intro _ | assumption | apply State.updGctl_keeps | rfl
    | split
    | with_reducible apply Keeps.mk_keeps

theorem State.writeKey_keeps {s0 s : State} (h : Keeps s0 s) (b : KeyBlock) (v : Word) : Keeps s0 (State.writeKey s b v) := by
  unfold State.writeKey
  repeat' first
    | with_reducible first
        | intro _ | assumption | apply State.setKey_keeps | rfl
    | with_reducible apply Keeps.mk_keeps

theorem execKeyWrite_keeps {s0 s : State} (h : Keeps s0 s) (b : KeyBlock) (v : Word) : OutKeeps s0 (execKeyWrite b v s) := by
  unfold execKeyWrite
  repeat' first
    | with_reducible first
        | intro _ | assumption | apply State.writeKey_keeps | apply OutKeeps.next | rfl
    | with_reducible apply Keeps.mk_keeps

theorem execKeyTimeout_keeps {s0 s : State} (h : Keeps s0 s) (b : KeyBlock) : OutKeeps s0 (execKeyTimeout b s) := by
  unfold execKeyTimeout
  repeat' first
    | with_reducible first
        | intro _ | assumption | apply State.setKey_keeps | apply OutKeeps.next | rfl
    | with_reducible apply Keeps.mk_keeps

theorem State.wkWrite_keeps {s0 s : State} (h : Keeps s0 s) (b : KeyBlock) (matters : Bool) (act : State → State) (h_act : ∀ x0,
    Keeps s0 x0 → Keeps s0 (act x0)) : Keeps s0 (State.wkWrite s b matters act) := by
  unfold State.wkWrite
  repeat' first
    | with_reducible first
        | intro _ | assumption | apply h_act | apply State.setKey_keeps | apply State.logEvent_keeps
        | apply Keeps.ite | rfl
    | split
    | with_reducible apply Keeps.mk_keeps

theorem State.armPairs_keeps {s0 s : State} (h : Keeps s0 s) : Keeps s0 (State.armPairs s) := by
  unfold State.armPairs
  repeat' first
    | with_reducible first
        | intro _ | assumption | apply State.updCirc_keeps | apply State.showPool_keeps | apply Keeps.foldl
        | rfl
        | (extract_lets +onlyGivenNames -underBinder x; first | refine Keeps.cut x ?_ ?_ | skip)
    | with_reducible apply Keeps.mk_keeps

theorem State.dropPairs_keeps {s0 s : State} (h : Keeps s0 s) : Keeps s0 (State.dropPairs s) := by
  unfold State.dropPairs
  repeat' first
    | with_reducible first
        | intro _ | assumption | apply State.setFlag_keeps | apply State.showPool_keeps
        | apply State.updCirc_keeps | apply Keeps.ite | apply Keeps.foldl | rfl
        | (extract_lets +onlyGivenNames -underBinder x; first | refine Keeps.cut x ?_ ?_ | skip)
    | split
    | with_reducible apply Keeps.mk_keeps

theorem State.spliceResult_keeps {s0 s : State} (h : Keeps s0 s) (v : Nat) : Keeps s0 (State.spliceResult s v) := by
  unfold State.spliceResult
  repeat' first
    | with_reducible first
        | intro _ | assumption | apply State.setFld_keeps | rfl
    | with_reducible apply Keeps.mk_keeps

theorem State.armSplice_keeps {s0 s : State} (h : Keeps s0 s) : Keeps s0 (State.armSplice s) := by
  unfold State.armSplice
  repeat' first
    | with_reducible first
        | intro _ | assumption | apply State.spliceResult_keeps | apply State.armPairs_keeps
        | apply State.setFld_keeps | apply State.setSby_keeps | apply Keeps.ite | rfl
    | split
    | with_reducible apply Keeps.mk_keeps

theorem State.cancelSplice_keeps {s0 s : State} (h : Keeps s0 s) : Keeps s0 (State.cancelSplice s) := by
  unfold State.cancelSplice
  repeat' first
    | with_reducible first
        | intro _ | assumption | apply State.spliceResult_keeps | apply State.dropPairs_keeps
        | apply State.setFld_keeps | apply State.setSby_keeps | apply State.finish_keeps
        | apply State.updSsw_keeps | apply Keeps.ite | rfl
        | (extract_lets +onlyGivenNames -underBinder x; first | refine Keeps.cut x ?_ ?_ | skip)
    | split
    | with_reducible apply Keeps.mk_keeps

theorem State.writeSpliceCtl_keeps {s0 s : State} (h : Keeps s0 s) (v : Word) : Keeps s0 (State.writeSpliceCtl s v) := by
  unfold State.writeSpliceCtl
  repeat' first
    | with_reducible first
        | intro _ | assumption | apply State.wkWrite_keeps | apply State.cancelSplice_keeps
        | apply State.armSplice_keeps | apply Keeps.ite | rfl
    | split
    | with_reducible apply Keeps.mk_keeps

theorem State.writeSpliceAt_keeps {s0 s : State} (h : Keeps s0 s) (v : Word) : Keeps s0 (State.writeSpliceAt s v) := by
  unfold State.writeSpliceAt
  repeat' first
    | with_reducible first
        | intro _ | assumption | apply State.wkWrite_keeps | apply State.setReg_keeps | apply Keeps.ite | rfl
    | split
    | with_reducible apply Keeps.mk_keeps

theorem execSpliceArm_keeps {s0 s : State} (h : Keeps s0 s) : OutKeeps s0 (execSpliceArm s) := by
  unfold execSpliceArm
  repeat' first
    | with_reducible first
        | intro _ | assumption | apply State.writeSpliceCtl_keeps | apply OutKeeps.next | rfl
    | with_reducible apply Keeps.mk_keeps

theorem execSpliceCtlCancel_keeps {s0 s : State} (h : Keeps s0 s) : OutKeeps s0 (execSpliceCtlCancel s) := by
  unfold execSpliceCtlCancel
  repeat' first
    | with_reducible first
        | intro _ | assumption | apply State.writeSpliceCtl_keeps | apply OutKeeps.next | rfl
    | with_reducible apply Keeps.mk_keeps

theorem State.armAt_keeps {s0 s : State} (h : Keeps s0 s) (r : Nat) : Keeps s0 (State.armAt s r) := by
  unfold State.armAt
  repeat' first
    | with_reducible first
        | intro _ | assumption | apply State.armSplice_keeps | apply State.setFld_keeps | rfl
    | with_reducible apply Keeps.mk_keeps

theorem State.startResync_keeps {s0 s : State} (h : Keeps s0 s) (st : Nat) : Keeps s0 (State.startResync s st) := by
  unfold State.startResync
  repeat' first
    | with_reducible first
        | intro _ | assumption | apply State.updSsw_keeps | apply State.setFlag_keeps
        | apply State.setSby_keeps | rfl
    | with_reducible apply Keeps.mk_keeps

theorem State.endResync_keeps {s0 s : State} (h : Keeps s0 s) : Keeps s0 (State.endResync s) := by
  unfold State.endResync
  repeat' first
    | with_reducible first
        | intro _ | assumption | apply State.updSsw_keeps | apply State.setFlag_keeps | rfl
    | with_reducible apply Keeps.mk_keeps

theorem State.setDirty_keeps {s0 s : State} (h : Keeps s0 s) (ws : List (MemKind × Nat)) : Keeps s0 (State.setDirty s ws) := by
  unfold State.setDirty
  repeat' first
    | with_reducible first
        | intro _ | assumption | apply State.setFld_keeps | apply State.updSsw_keeps | rfl
    | with_reducible apply Keeps.mk_keeps

theorem State.collide_keeps {s0 s : State} (h : Keeps s0 s) (ws : List (MemKind × Nat)) : Keeps s0 (State.collide s ws) := by
  unfold State.collide
  repeat' first
    | with_reducible first
        | intro _ | assumption | apply State.setDirty_keeps | apply State.incFld_keeps | apply Keeps.ite | rfl
    | split
    | with_reducible apply Keeps.mk_keeps

theorem State.judgeFacets_keeps {s0 s : State} (h : Keeps s0 s) : Keeps s0 (State.judgeFacets s) := by
  unfold State.judgeFacets
  repeat' first
    | with_reducible first
        | intro _ | assumption | apply State.detect_keeps | apply Keeps.ite | rfl
    | split
    | with_reducible apply Keeps.mk_keeps

theorem State.makeUnusable_keeps {s0 s : State} (h : Keeps s0 s) (f : Nat) (toFailed : Bool) : Keeps s0 (State.makeUnusable s f
    toFailed) := by
  unfold State.makeUnusable
  repeat' first
    | with_reducible first
        | intro _ | assumption | apply State.judgeFacets_keeps | apply State.failFacet_keeps
        | apply State.setFacet_keeps | apply Keeps.ite | rfl
    | split
    | with_reducible apply Keeps.mk_keeps

theorem State.writeBinding_keeps {s0 s : State} (h : Keeps s0 s) (f : Nat) : Keeps s0 (State.writeBinding s f) := by
  unfold State.writeBinding
  repeat' first
    | with_reducible first
        | intro _ | assumption | apply State.updSsw_keeps | apply State.setStandby_keeps | apply Keeps.ite
        | rfl
    | split
    | with_reducible apply Keeps.mk_keeps

theorem State.placeBinding_keeps {s0 s : State} (h : Keeps s0 s) (f : Nat) : Keeps s0 (State.placeBinding s f) := by
  unfold State.placeBinding
  repeat' first
    | with_reducible first
        | intro _ | assumption | apply State.writeBinding_keeps | apply State.updSsw_keeps | apply Keeps.ite
        | rfl
    | split
    | with_reducible apply Keeps.mk_keeps

theorem State.retire_keeps {s0 s : State} (h : Keeps s0 s) (f : Nat) (toFailed : Bool) : Keeps s0 (State.retire s f toFailed)
    := by
  unfold State.retire
  repeat' first
    | with_reducible first
        | intro _ | assumption | apply State.makeUnusable_keeps | apply State.setFacet_keeps
        | apply State.updSsw_keeps | apply State.placeBinding_keeps | rfl
        | (extract_lets +onlyGivenNames -underBinder x; first | refine Keeps.cut x ?_ ?_ | skip)
    | split
    | with_reducible apply Keeps.mk_keeps

theorem State.giveUpRepair_keeps {s0 s : State} (h : Keeps s0 s) : Keeps s0 (State.giveUpRepair s) := by
  unfold State.giveUpRepair
  repeat' first
    | with_reducible first
        | intro _ | assumption | apply State.cancelSplice_keeps | apply State.setFlag_keeps
        | apply State.setSby_keeps | apply State.setStandby_keeps | apply State.updSsw_keeps | apply Keeps.ite
        | rfl
        | (extract_lets +onlyGivenNames -underBinder x; first | refine Keeps.cut x ?_ ?_ | skip)
    | split
    | with_reducible apply Keeps.mk_keeps

theorem State.remake_keeps {s0 s : State} (h : Keeps s0 s) (f : Nat) : Keeps s0 (State.remake s f) := by
  unfold State.remake
  repeat' first
    | with_reducible first
        | intro _ | assumption | apply State.giveUpRepair_keeps | apply State.placeBinding_keeps
        | apply Keeps.ite | rfl
    | split
    | with_reducible apply Keeps.mk_keeps

theorem State.leaveReservation_keeps {s0 s : State} (h : Keeps s0 s) (r : Retire) (f : Nat) (toFailed : Bool) : Keeps s0
    (State.leaveReservation s r f toFailed) := by
  unfold State.leaveReservation
  dsimp only
  repeat' first
    | with_reducible first
        | assumption | apply State.retire_keeps | apply State.failFacet_keeps | apply State.setFacet_keeps
        | apply State.updSsw_keeps | apply State.giveUpRepair_keeps | apply State.setStandby_keeps
        | apply State.makeUnusable_keeps | apply State.remake_keeps | apply Keeps.ite | rfl | intro _
    | split
    | with_reducible apply Keeps.mk_keeps

theorem State.barFacet_keeps {s0 s : State} (h : Keeps s0 s) (f : Nat) : Keeps s0 (State.barFacet s f) := by
  unfold State.barFacet
  repeat' first
    | with_reducible first
        | intro _ | assumption | apply State.leaveReservation_keeps | apply State.makeUnusable_keeps
        | apply State.setStandby_keeps | apply State.setActive_keeps | apply State.failFacet_keeps
        | apply State.setFacet_keeps | apply State.retire_keeps | apply State.updSsw_keeps
        | apply State.judgeFacets_keeps | apply Keeps.ite | rfl
        | (extract_lets +onlyGivenNames -underBinder x; first | refine Keeps.cut x ?_ ?_ | skip)
    | split
    | with_reducible apply Keeps.mk_keeps

theorem State.writeFacetBar_keeps {s0 s : State} (h : Keeps s0 s) (v : Word) : Keeps s0 (State.writeFacetBar s v) := by
  unfold State.writeFacetBar
  repeat' first
    | with_reducible first
        | intro _ | assumption | apply State.wkWrite_keeps | apply State.barFacet_keeps
        | apply State.setFld_keeps | apply Keeps.ite | rfl
        | (extract_lets +onlyGivenNames -underBinder x; first | refine Keeps.cut x ?_ ?_ | skip)
    | split
    | with_reducible apply Keeps.mk_keeps

theorem execSswFacetBar_keeps {s0 s : State} (h : Keeps s0 s) (f : BitVec 9) : OutKeeps s0 (execSswFacetBar f s) := by
  unfold execSswFacetBar
  repeat' first
    | with_reducible first
        | intro _ | assumption | apply State.writeFacetBar_keeps | apply OutKeeps.next | rfl
    | with_reducible apply Keeps.mk_keeps

theorem State.endRetires_keeps {s0 s : State} (h : Keeps s0 s) : Keeps s0 (State.endRetires s) := by
  unfold State.endRetires
  dsimp only
  repeat' first
    | with_reducible first
        | assumption | apply State.updSsw_keeps | apply State.failFacet_keeps | apply State.setFacet_keeps
        | apply State.finish_keeps | apply State.judgeFacets_keeps | apply Keeps.ite | apply Keeps.foldl | rfl
        | intro _
    | split
    | with_reducible apply Keeps.mk_keeps

theorem execFacetErrorWindow_keeps {s0 s : State} (h : Keeps s0 s) : OutKeeps s0 (execFacetErrorWindow s) := by
  unfold execFacetErrorWindow
  repeat' first
    | with_reducible first
        | intro _ | assumption | apply State.updSsw_keeps | apply State.setFld_keeps
        | apply State.logEvent_keeps | apply State.retire_keeps | apply Keeps.ite | apply OutKeeps.ite
        | apply OutKeeps.next | apply Keeps.foldl | rfl
        | (extract_lets +onlyGivenNames -underBinder x; first | refine Keeps.cut x ?_ ?_ | refine OutKeeps.cut x ?_ ?_ | skip)
    | split
    | with_reducible apply Keeps.mk_keeps

theorem State.retireDue_keeps {s0 s : State} (h : Keeps s0 s) : Keeps s0 (State.retireDue s) := by
  unfold State.retireDue
  repeat' first
    | with_reducible first
        | intro _ | assumption | apply State.retire_keeps | apply State.updSsw_keeps | apply Keeps.ite
        | apply Keeps.foldl | rfl
        | (extract_lets +onlyGivenNames -underBinder x; first | refine Keeps.cut x ?_ ?_ | skip)
    | split
    | with_reducible apply Keeps.mk_keeps

theorem execFacetTestPass_keeps {s0 s : State} (h : Keeps s0 s) (f : Fin 272) (failed : Bool) : OutKeeps s0 (execFacetTestPass f
    failed s) := by
  unfold execFacetTestPass
  repeat' first
    | with_reducible first
        | intro _ | assumption | apply State.judgeFacets_keeps | apply State.failFacet_keeps | apply Keeps.ite
        | apply OutKeeps.ite | apply OutKeeps.next | rfl
        | (extract_lets +onlyGivenNames -underBinder x; first | refine Keeps.cut x ?_ ?_ | refine OutKeeps.cut x ?_ ?_ | skip)
    | split
    | with_reducible apply Keeps.mk_keeps

theorem execFacetReinstatable_keeps {s0 s : State} (h : Keeps s0 s) (f : Fin 272) : OutKeeps s0 (execFacetReinstatable f s) := by
  unfold execFacetReinstatable
  repeat' first
    | with_reducible first
        | intro _ | assumption | apply State.logEvent_keeps | apply State.setFacet_keeps | apply Keeps.ite
        | apply OutKeeps.ite | apply OutKeeps.next | rfl
    | split
    | with_reducible apply Keeps.mk_keeps

theorem State.bindColours_keeps {s0 s : State} (h : Keeps s0 s) (passed : List Nat) : Keeps s0 (State.bindColours s passed) := by
  unfold State.bindColours
  repeat' first
    | with_reducible first
        | intro _ | assumption | apply State.setStandby_keeps | apply State.setActive_keeps
        | apply State.setFld_keeps | apply Keeps.foldl | rfl
        | (extract_lets +onlyGivenNames -underBinder x; first | refine Keeps.cut x ?_ ?_ | skip)
    | with_reducible apply Keeps.mk_keeps

theorem execStartupFacetTest_keeps {s0 s : State} (h : Keeps s0 s) (failed : List (Fin 272)) : OutKeeps s0 (execStartupFacetTest
    failed s) := by
  unfold execStartupFacetTest
  repeat' first
    | with_reducible first
        | intro _ | assumption | apply State.bindColours_keeps | apply State.refreshFacets_keeps
        | apply State.setFld_keeps | apply State.logEvent_keeps | apply State.icEdge_keeps
        | apply State.judgeFacets_keeps | apply Keeps.ite | apply OutKeeps.ite | apply OutKeeps.next
        | apply Keeps.foldl | rfl
        | (extract_lets +onlyGivenNames -underBinder x; first | refine Keeps.cut x ?_ ?_ | refine OutKeeps.cut x ?_ ?_ | skip)
    | split
    | with_reducible apply Keeps.mk_keeps

theorem State.showResult_keeps {s0 s : State} (h : Keeps s0 s) (r : JobResult) : Keeps s0 (State.showResult s r) := by
  unfold State.showResult
  repeat' first
    | with_reducible first
        | intro _ | assumption | apply State.setFld_keeps | rfl
    | with_reducible apply Keeps.mk_keeps

theorem State.failJob_keeps {s0 s : State} (h : Keeps s0 s) (hh : Nat) (r : JobResult) : Keeps s0 (State.failJob s hh r) := by
  unfold State.failJob
  repeat' first
    | with_reducible first
        | intro _ | assumption | apply State.finish_keeps | apply State.showResult_keeps | rfl
    | with_reducible apply Keeps.mk_keeps

theorem State.startJobs_keeps {s0 s : State} (h : Keeps s0 s) : Keeps s0 (State.startJobs s) := by
  unfold State.startJobs
  repeat' first
    | with_reducible first
        | intro _ | assumption | apply State.setFld_keeps | apply State.setFlag_keeps
        | apply State.setSby_keeps | apply State.updSsw_keeps | apply State.endResync_keeps
        | apply State.failJob_keeps | apply Keeps.ite | apply Keeps.foldl | rfl
        | (extract_lets +onlyGivenNames -underBinder x; first | refine Keeps.cut x ?_ ?_ | skip)
    | split
    | with_reducible apply Keeps.mk_keeps

theorem execCompileStart_keeps {s0 s : State} (h : Keeps s0 s) : OutKeeps s0 (execCompileStart s) := by
  unfold execCompileStart
  repeat' first
    | with_reducible first
        | intro _ | assumption | apply State.startJobs_keeps | apply OutKeeps.next | rfl
    | with_reducible apply Keeps.mk_keeps

theorem State.requestJob_keeps {s0 s : State} (h : Keeps s0 s) (hh : Nat) (increment : Bool) (take : Nat) (base : Nat) (records :
    List Byte) (section_ : List Byte) : Keeps s0 (State.requestJob s hh increment take base records section_) := by
  unfold State.requestJob
  repeat' first
    | with_reducible first
        | intro _ | assumption | apply State.failJob_keeps | apply State.fail_keeps | apply State.updSsw_keeps
        | apply State.startJobs_keeps | apply State.setFld_keeps | apply Keeps.ite | rfl
        | (extract_lets +onlyGivenNames -underBinder x; first | refine Keeps.cut x ?_ ?_ | skip)
    | split
    | with_reducible apply Keeps.mk_keeps

theorem State.sendImage_keeps {s0 s : State} (h : Keeps s0 s) (take : Nat) (purpose : Nat) (image : List Byte) : Keeps s0
    (State.sendImage s take purpose image) := by
  unfold State.sendImage
  repeat' first
    | with_reducible first
        | intro _ | assumption | apply State.sendRecord_keeps | apply Keeps.foldl | rfl
    | with_reducible apply Keeps.mk_keeps

theorem State.sendDelta_keeps {s0 s : State} (h : Keeps s0 s) (p : PageSet) (base : PageSet) (section_ : List Byte) : Keeps s0
    (State.sendDelta s p base section_) := by
  unfold State.sendDelta
  repeat' first
    | with_reducible first
        | intro _ | assumption | apply State.sendRecord_keeps | rfl
        | (extract_lets +onlyGivenNames -underBinder x; first | refine Keeps.cut x ?_ ?_ | skip)
    | split
    | with_reducible apply Keeps.mk_keeps

theorem State.compiled_keeps {s0 s : State} (h : Keeps s0 s) (j : Job) (p : PageSet) : Keeps s0 (State.compiled s j p) := by
  unfold State.compiled
  repeat' first
    | with_reducible first
        | intro _ | assumption | apply State.updPair_keeps | apply State.updHandle_keeps
        | apply State.sendDelta_keeps | apply State.sendImage_keeps | apply State.finish_keeps
        | apply Keeps.ite | rfl
        | (extract_lets +onlyGivenNames -underBinder x; first | refine Keeps.cut x ?_ ?_ | skip)
    | split
    | with_reducible apply Keeps.mk_keeps

theorem execCompileDone_keeps {s0 s : State} (h : Keeps s0 s) (time : Nat) (collided : List (MemKind × Nat)) : OutKeeps s0
    (execCompileDone time collided s) := by
  unfold execCompileDone
  repeat' first
    | with_reducible first
        | intro _ | assumption | apply State.setFld_keeps | apply State.updSsw_keeps
        | apply State.icEdge_keeps | apply State.showResult_keeps | apply State.collide_keeps
        | apply State.failJob_keeps | apply State.startResync_keeps | apply State.writeImage_keeps
        | apply State.setSby_keeps | apply State.setStandby_keeps | apply State.writeBinding_keeps
        | apply State.compiled_keeps | apply Keeps.ite | apply OutKeeps.ite | apply OutKeeps.next
        | apply Keeps.foldl | rfl
        | (extract_lets +onlyGivenNames -underBinder x; first | refine Keeps.cut x ?_ ?_ | refine OutKeeps.cut x ?_ ?_ | skip)
    | split
    | with_reducible apply Keeps.mk_keeps

theorem State.armRepair_keeps {s0 s : State} (h : Keeps s0 s) : Keeps s0 (State.armRepair s) := by
  unfold State.armRepair
  repeat' first
    | with_reducible first
        | intro _ | assumption | apply State.armAt_keeps | apply Keeps.ite | rfl
    | split
    | with_reducible apply Keeps.mk_keeps

theorem execRepairPassDone_keeps {s0 s : State} (h : Keeps s0 s) (time : Nat) : OutKeeps s0 (execRepairPassDone time s) := by
  unfold execRepairPassDone
  repeat' first
    | with_reducible first
        | intro _ | assumption | apply State.setFlag_keeps | apply State.updSsw_keeps
        | apply State.writeImage_keeps | apply State.setSby_keeps | apply State.setStandby_keeps
        | apply State.writeBinding_keeps | apply State.setFld_keeps | apply State.showResult_keeps
        | apply State.armRepair_keeps | apply State.icEdge_keeps | apply Keeps.ite | apply OutKeeps.ite
        | apply OutKeeps.next | apply Keeps.foldl | rfl
        | (extract_lets +onlyGivenNames -underBinder x; first | refine Keeps.cut x ?_ ?_ | refine OutKeeps.cut x ?_ ?_ | skip)
    | split
    | with_reducible apply Keeps.mk_keeps

theorem State.stopCompile_keeps {s0 s : State} (h : Keeps s0 s) : Keeps s0 (State.stopCompile s) := by
  unfold State.stopCompile
  repeat' first
    | with_reducible first
        | intro _ | assumption | apply State.setFld_keeps | apply State.startResync_keeps
        | apply State.updSsw_keeps | apply State.setFlag_keeps | apply Keeps.ite | rfl
    | split
    | with_reducible apply Keeps.mk_keeps

theorem State.resyncDone_keeps {s0 s : State} (h : Keeps s0 s) (uncorrectable : List (MemKind × Nat)) : Keeps s0
    (State.resyncDone s uncorrectable) := by
  unfold State.resyncDone
  repeat' first
    | with_reducible first
        | intro _ | assumption | apply State.connRefresh_keeps | apply State.writeImage_keeps
        | apply State.setStandby_keeps | apply State.icEdge_keeps | apply State.setDirty_keeps
        | apply State.endResync_keeps | apply State.setSby_keeps | apply Keeps.ite | apply Keeps.foldl | rfl
        | (extract_lets +onlyGivenNames -underBinder x; first | refine Keeps.cut x ?_ ?_ | skip)
    | split
    | with_reducible apply Keeps.mk_keeps

theorem State.notePresent_keeps {s0 s : State} (h : Keeps s0 s) : Keeps s0 (State.notePresent s) := by
  unfold State.notePresent
  repeat' first
    | with_reducible first
        | intro _ | assumption | apply State.updCirc_keeps | rfl
        | (extract_lets +onlyGivenNames -underBinder x; first | refine Keeps.cut x ?_ ?_ | skip)
    | with_reducible apply Keeps.mk_keeps

theorem State.writeCircuit_keeps {s0 s : State} (h : Keeps s0 s) (y0 : CircChange) : Keeps s0 (State.writeCircuit s y0) := by
  unfold State.writeCircuit
  repeat' first
    | with_reducible first
        | intro _ | assumption | apply State.setActive_keeps | apply State.setStandby_keeps
        | apply State.updCirc_keeps | apply Keeps.ite | rfl
        | (extract_lets +onlyGivenNames -underBinder x; first | refine Keeps.cut x ?_ ?_ | skip)
    | split
    | with_reducible apply Keeps.mk_keeps

theorem State.applyChange_keeps {s0 s : State} (h : Keeps s0 s) (y0 : CircChange) : Keeps s0 (State.applyChange s y0) := by
  unfold State.applyChange
  dsimp only
  repeat' first
    | with_reducible first
        | assumption | apply State.writeCircuit_keeps | apply State.updHandle_keeps
        | apply State.complete_keeps | apply Keeps.ite | rfl | intro _
    | split
    | with_reducible apply Keeps.mk_keeps

theorem State.sendChange_keeps {s0 s : State} (h : Keeps s0 s) (handle : Nat) (reel : Nat) (params : List Byte) : Keeps s0
    (State.sendChange s handle reel params) := by
  unfold State.sendChange
  repeat' first
    | with_reducible first
        | intro _ | assumption | apply State.sendRecord_keeps | apply State.updHandle_keeps | apply Keeps.ite
        | rfl
    | split
    | with_reducible apply Keeps.mk_keeps

theorem State.restartChanges_keeps {s0 s : State} (h : Keeps s0 s) : Keeps s0 (State.restartChanges s) := by
  unfold State.restartChanges
  repeat' first
    | with_reducible first
        | intro _ | assumption | apply State.updCirc_keeps | apply State.sendChange_keeps | apply Keeps.ite
        | apply Keeps.foldl | rfl
        | (extract_lets +onlyGivenNames -underBinder x; first | refine Keeps.cut x ?_ ?_ | skip)
    | split
    | with_reducible apply Keeps.mk_keeps

theorem execEffectReel_keeps {s0 s : State} (h : Keeps s0 s) : OutKeeps s0 (execEffectReel s) := by
  unfold execEffectReel
  repeat' first
    | with_reducible first
        | intro _ | assumption | apply State.updCirc_keeps | apply State.restartChanges_keeps
        | apply State.applyChange_keeps | apply Keeps.ite | apply OutKeeps.ite | apply OutKeeps.next
        | apply Keeps.foldl | rfl
        | (extract_lets +onlyGivenNames -underBinder x; first | refine Keeps.cut x ?_ ?_ | refine OutKeeps.cut x ?_ ?_ | skip)
    | split
    | with_reducible apply Keeps.mk_keeps

theorem execCircSet_keeps {s0 s : State} (h : Keeps s0 s) (hh : Word) : OutKeeps s0 (execCircSet hh s) := by
  unfold execCircSet
  repeat' first
    | with_reducible first
        | intro _ | assumption | apply State.run_keeps | apply State.fail_keeps | apply State.sendChange_keeps
        | apply State.sendHandle_keeps | apply State.updCirc_keeps | apply Keeps.ite | apply OutKeeps.ite
        | apply OutKeeps.next | rfl
        | (extract_lets +onlyGivenNames -underBinder x; first | refine Keeps.cut x ?_ ?_ | refine OutKeeps.cut x ?_ ?_ | skip)
    | split
    | with_reducible apply Keeps.mk_keeps

theorem execMergeReanchor_keeps {s0 s : State} (h : Keeps s0 s) (hh : Word) : OutKeeps s0 (execMergeReanchor hh s) := by
  unfold execMergeReanchor
  repeat' first
    | with_reducible first
        | intro _ | assumption | exact State.reanchor_keeps_eq ‹_› ‹_› | apply State.run_keeps
        | apply State.fail_keeps | apply State.reanchor_keeps | apply State.finish_keeps
        | apply State.setPair_keeps | apply Keeps.ite | apply OutKeeps.ite | apply OutKeeps.next | rfl
        | (extract_lets +onlyGivenNames -underBinder x; first | refine Keeps.cut x ?_ ?_ | refine OutKeeps.cut x ?_ ?_ | skip)
    | split
    | with_reducible apply Keeps.mk_keeps

theorem State.requestCapture_keeps {s0 s : State} (h : Keeps s0 s) (flags : Nat) (hh : Nat) : Keeps s0 (State.requestCapture s
    flags hh) := by
  unfold State.requestCapture
  repeat' first
    | with_reducible first
        | intro _ | assumption | apply State.updCirc_keeps | apply State.logEvent_keeps
        | apply State.setFlag_keeps | apply Keeps.ite | rfl
    | split
    | with_reducible apply Keeps.mk_keeps

theorem State.swapBanks_keeps {s0 s : State} (h : Keeps s0 s) (flags : Nat) (hh : Nat) : Keeps s0 (State.swapBanks s flags hh)
    := by
  unfold State.swapBanks
  repeat' first
    | with_reducible first
        | intro _ | assumption | apply State.updCirc_keeps | apply State.notePresent_keeps
        | apply State.setFld_keeps | apply Keeps.ite | rfl
        | (extract_lets +onlyGivenNames -underBinder x; first | refine Keeps.cut x ?_ ?_ | skip)
    | split
    | with_reducible apply Keeps.mk_keeps

theorem execDailiesBoundary_keeps {s0 s : State} (h : Keeps s0 s) : OutKeeps s0 (execDailiesBoundary s) := by
  unfold execDailiesBoundary
  repeat' first
    | with_reducible first
        | intro _ | assumption | apply State.swapBanks_keeps | apply OutKeeps.next | rfl
    | split
    | with_reducible apply Keeps.mk_keeps

theorem execPeriodicCapture_keeps {s0 s : State} (h : Keeps s0 s) : OutKeeps s0 (execPeriodicCapture s) := by
  unfold execPeriodicCapture
  repeat' first
    | with_reducible first
        | intro _ | assumption | apply State.requestCapture_keeps | apply Keeps.ite | apply OutKeeps.ite
        | apply OutKeeps.next | rfl
    | split
    | with_reducible apply Keeps.mk_keeps

theorem execDeferredCapture_keeps {s0 s : State} (h : Keeps s0 s) : OutKeeps s0 (execDeferredCapture s) := by
  unfold execDeferredCapture
  repeat' first
    | with_reducible first
        | intro _ | assumption | apply State.setFlag_keeps | apply State.updCirc_keeps
        | apply State.swapBanks_keeps | apply Keeps.ite | apply OutKeeps.ite | apply OutKeeps.next | rfl
        | (extract_lets +onlyGivenNames -underBinder x; first | refine Keeps.cut x ?_ ?_ | refine OutKeeps.cut x ?_ ?_ | skip)
    | split
    | with_reducible apply Keeps.mk_keeps

theorem State.releaseRecord_keeps {s0 s : State} (h : Keeps s0 s) : Keeps s0 (State.releaseRecord s) := by
  unfold State.releaseRecord
  repeat' first
    | with_reducible first
        | intro _ | assumption | apply State.setFld_keeps | rfl
    | with_reducible apply Keeps.mk_keeps

theorem State.deliverRecord_keeps {s0 s : State} (h : Keeps s0 s) (hh : Nat) : Keeps s0 (State.deliverRecord s hh) := by
  unfold State.deliverRecord
  repeat' first
    | with_reducible first
        | intro _ | assumption | apply State.deliver_keeps | apply State.finish_keeps
        | apply State.releaseRecord_keeps | rfl
    | split
    | with_reducible apply Keeps.mk_keeps

theorem State.deliverCapture_keeps {s0 s : State} (h : Keeps s0 s) : Keeps s0 (State.deliverCapture s) := by
  unfold State.deliverCapture
  repeat' first
    | with_reducible first
        | intro _ | assumption | apply State.deliverRecord_keeps | apply State.updCirc_keeps | apply Keeps.ite
        | rfl
        | (extract_lets +onlyGivenNames -underBinder x; first | refine Keeps.cut x ?_ ?_ | skip)
    | split
    | with_reducible apply Keeps.mk_keeps

theorem execCaptureCopyDone_keeps {s0 s : State} (h : Keeps s0 s) : OutKeeps s0 (execCaptureCopyDone s) := by
  unfold execCaptureCopyDone
  repeat' first
    | with_reducible first
        | intro _ | assumption | apply State.updCirc_keeps | apply State.setFld_keeps
        | apply State.deliverCapture_keeps | apply State.icRaise_keeps | apply Keeps.ite | apply OutKeeps.ite
        | apply OutKeeps.next | rfl
        | (extract_lets +onlyGivenNames -underBinder x; first | refine Keeps.cut x ?_ ?_ | refine OutKeeps.cut x ?_ ?_ | skip)
    | split
    | with_reducible apply Keeps.mk_keeps

theorem State.writeRelease_keeps {s0 s : State} (h : Keeps s0 s) : Keeps s0 (State.writeRelease s) := by
  unfold State.writeRelease
  repeat' first
    | with_reducible first
        | intro _ | assumption | apply State.releaseRecord_keeps | apply Keeps.ite | rfl
    | split
    | with_reducible apply Keeps.mk_keeps

theorem execRelease_keeps {s0 s : State} (h : Keeps s0 s) : OutKeeps s0 (execRelease s) := by
  unfold execRelease
  repeat' first
    | with_reducible first
        | intro _ | assumption | apply State.writeRelease_keeps | apply OutKeeps.next | rfl
    | with_reducible apply Keeps.mk_keeps

theorem execDailies_keeps {s0 s : State} (h : Keeps s0 s) (hh : Word) (sg : List (Nat × Nat)) : OutKeeps s0 (execDailies hh sg s)
    := by
  unfold execDailies
  repeat' first
    | with_reducible first
        | intro _ | assumption | apply State.run_keeps | apply State.updHandle_keeps
        | apply State.deliverRecord_keeps | apply State.requestCapture_keeps | apply State.fail_keeps
        | apply Keeps.ite | apply OutKeeps.ite | apply OutKeeps.next | rfl
        | (extract_lets +onlyGivenNames -underBinder x; first | refine Keeps.cut x ?_ ?_ | refine OutKeeps.cut x ?_ ?_ | skip)
    | split
    | with_reducible apply Keeps.mk_keeps

end Sys2Proof.Machine
end

