-- ==== Sys2Proof/Laws/KeepsRef.lean ====
section
/-!
SUPPORT. That the operations and meanings of references and the loop keep what must be kept (`Keeps`), one lemma each.
-/
namespace Sys2Proof.Machine
open Sys2Proof

set_option linter.all false

theorem State.updRef_keeps {s0 s : State} (h : Keeps s0 s) (f : Ref → Ref) : Keeps s0 (State.updRef s f) := by
  unfold State.updRef
  repeat' first
    | with_reducible first
        | intro _ | assumption | rfl
    | with_reducible apply Keeps.mk_keeps

theorem State.updCand_keeps {s0 s : State} (h : Keeps s0 s) (n : Nat) (f : Cand → Cand) : Keeps s0 (State.updCand s n f) := by
  unfold State.updCand
  repeat' first
    | with_reducible first
        | intro _ | assumption | apply State.updRef_keeps | rfl
    | with_reducible apply Keeps.mk_keeps

theorem State.setCandState_keeps {s0 s : State} (h : Keeps s0 s) (n : Nat) (v : Nat) : Keeps s0 (State.setCandState s n v) := by
  unfold State.setCandState
  repeat' first
    | with_reducible first
        | intro _ | assumption | apply State.setFld_keeps | apply State.icEdge_keeps | apply Keeps.ite | rfl
        | (extract_lets +onlyGivenNames -underBinder x; first | refine Keeps.cut x ?_ ?_ | skip)
    | split
    | with_reducible apply Keeps.mk_keeps

theorem State.clearWindow_keeps {s0 s : State} (h : Keeps s0 s) (n : Nat) : Keeps s0 (State.clearWindow s n) := by
  unfold State.clearWindow
  repeat' first
    | with_reducible first
        | intro _ | assumption | apply State.updCand_keeps | apply State.setFlag_keeps
        | apply State.setFld_keeps | rfl
        | (extract_lets +onlyGivenNames -underBinder x; first | refine Keeps.cut x ?_ ?_ | skip)
    | with_reducible apply Keeps.mk_keeps

theorem State.startQualifying_keeps {s0 s : State} (h : Keeps s0 s) (n : Nat) : Keeps s0 (State.startQualifying s n) := by
  unfold State.startQualifying
  repeat' first
    | with_reducible first
        | intro _ | assumption | apply State.updCand_keeps | apply State.setCandState_keeps
        | apply State.clearWindow_keeps | apply State.setFld_keeps | rfl
        | (extract_lets +onlyGivenNames -underBinder x; first | refine Keeps.cut x ?_ ?_ | skip)
    | with_reducible apply Keeps.mk_keeps

theorem State.disqualify_keeps {s0 s : State} (h : Keeps s0 s) (n : Nat) (cause : Nat) : Keeps s0 (State.disqualify s n cause)
    := by
  unfold State.disqualify
  repeat' first
    | with_reducible first
        | intro _ | assumption | apply State.updCand_keeps | apply State.setFld_keeps
        | apply State.setCandState_keeps | rfl
        | (extract_lets +onlyGivenNames -underBinder x; first | refine Keeps.cut x ?_ ?_ | skip)
    | with_reducible apply Keeps.mk_keeps

theorem State.showOffset_keeps {s0 s : State} (h : Keeps s0 s) (n : Nat) (o : Int) : Keeps s0 (State.showOffset s n o) := by
  unfold State.showOffset
  repeat' first
    | with_reducible first
        | intro _ | assumption | apply State.updCand_keeps | apply State.setFldI_keeps | rfl
    | with_reducible apply Keeps.mk_keeps

theorem State.noOffset_keeps {s0 s : State} (h : Keeps s0 s) (n : Nat) : Keeps s0 (State.noOffset s n) := by
  unfold State.noOffset
  repeat' first
    | with_reducible first
        | intro _ | assumption | apply State.updCand_keeps | apply State.setFld_keeps | rfl
    | with_reducible apply Keeps.mk_keeps

theorem State.refreshTime_keeps {s0 s : State} (h : Keeps s0 s) : Keeps s0 (State.refreshTime s) := by
  unfold State.refreshTime
  repeat' first
    | with_reducible first
        | intro _ | assumption | apply State.setFlag_keeps | apply Keeps.ite | rfl
        | (extract_lets +onlyGivenNames -underBinder x; first | refine Keeps.cut x ?_ ?_ | skip)
    | split
    | with_reducible apply Keeps.mk_keeps

theorem State.refreshHold_keeps {s0 s : State} (h : Keeps s0 s) : Keeps s0 (State.refreshHold s) := by
  unfold State.refreshHold
  dsimp only
  repeat' first
    | with_reducible first
        | assumption | apply State.setFldI_keeps | apply State.setFlag_keeps | apply State.logEvent_keeps
        | apply Keeps.ite | rfl | intro _
    | split
    | with_reducible apply Keeps.mk_keeps

theorem State.showBuild_keeps {s0 s : State} (h : Keeps s0 s) : Keeps s0 (State.showBuild s) := by
  unfold State.showBuild
  repeat' first
    | with_reducible first
        | intro _ | assumption | apply State.setFldI_keeps | rfl
    | with_reducible apply Keeps.mk_keeps

theorem State.setBuild_keeps {s0 s : State} (h : Keeps s0 s) (b : Int) (res : Int) : Keeps s0 (State.setBuild s b res) := by
  unfold State.setBuild
  repeat' first
    | with_reducible first
        | intro _ | assumption | apply State.showBuild_keeps | apply State.updRef_keeps | rfl
    | with_reducible apply Keeps.mk_keeps

theorem State.showSelected_keeps {s0 s : State} (h : Keeps s0 s) (n : Nat) : Keeps s0 (State.showSelected s n) := by
  unfold State.showSelected
  repeat' first
    | with_reducible first
        | intro _ | assumption | apply State.setFlag_keeps | apply State.setFld_keeps | apply Keeps.foldl
        | rfl
        | (extract_lets +onlyGivenNames -underBinder x; first | refine Keeps.cut x ?_ ?_ | skip)
    | with_reducible apply Keeps.mk_keeps

theorem State.enterHoldover_keeps {s0 s : State} (h : Keeps s0 s) : Keeps s0 (State.enterHoldover s) := by
  unfold State.enterHoldover
  repeat' first
    | with_reducible first
        | intro _ | assumption | apply State.setBuild_keeps | apply State.showSelected_keeps
        | apply State.updRef_keeps | apply State.setFlag_keeps | apply State.setFld_keeps
        | apply State.when_keeps | apply State.alert_keeps | apply State.refreshTime_keeps
        | apply State.refreshHold_keeps | apply Keeps.ite | rfl
        | (extract_lets +onlyGivenNames -underBinder x; first | refine Keeps.cut x ?_ ?_ | skip)
    | split
    | with_reducible apply Keeps.mk_keeps

theorem State.selectWith_keeps {s0 s : State} (h : Keeps s0 s) (n : Nat) (b : Int) : Keeps s0 (State.selectWith s n b) := by
  unfold State.selectWith
  repeat' first
    | with_reducible first
        | intro _ | assumption | apply State.setBuild_keeps | apply State.showSelected_keeps
        | apply State.setFld_keeps | apply State.setFlag_keeps | apply State.refreshTime_keeps
        | apply Keeps.ite | rfl
        | (extract_lets +onlyGivenNames -underBinder x; first | refine Keeps.cut x ?_ ?_ | skip)
    | split
    | with_reducible apply Keeps.mk_keeps

theorem State.selectCand_keeps {s0 s : State} (h : Keeps s0 s) (n : Nat) : Keeps s0 (State.selectCand s n) := by
  unfold State.selectCand
  repeat' first
    | with_reducible first
        | intro _ | assumption | apply State.selectWith_keeps | rfl
    | with_reducible apply Keeps.mk_keeps

theorem State.changeSelection_keeps {s0 s : State} (h : Keeps s0 s) : Keeps s0 (State.changeSelection s) := by
  unfold State.changeSelection
  repeat' first
    | with_reducible first
        | intro _ | assumption | apply State.enterHoldover_keeps | apply State.setFlag_keeps
        | apply State.selectCand_keeps | apply Keeps.ite | rfl
    | split
    | with_reducible apply Keeps.mk_keeps

theorem execSelectionChange_keeps {s0 s : State} (h : Keeps s0 s) : OutKeeps s0 (execSelectionChange s) := by
  unfold execSelectionChange
  repeat' first
    | with_reducible first
        | intro _ | assumption | apply State.changeSelection_keeps | apply Keeps.ite | apply OutKeeps.ite
        | apply OutKeeps.next | rfl
    | split
    | with_reducible apply Keeps.mk_keeps

theorem State.cand7On_keeps {s0 s : State} (h : Keeps s0 s) : Keeps s0 (State.cand7On s) := by
  unfold State.cand7On
  repeat' first
    | with_reducible first
        | intro _ | assumption | apply State.updCand_keeps | apply State.startQualifying_keeps
        | apply Keeps.ite | rfl
    | split
    | with_reducible apply Keeps.mk_keeps

theorem State.takeCand7_keeps {s0 s : State} (h : Keeps s0 s) (buildOut : Bool) : Keeps s0 (State.takeCand7 s buildOut) := by
  unfold State.takeCand7
  repeat' first
    | with_reducible first
        | intro _ | assumption | apply State.cand7On_keeps | apply State.selectCand_keeps
        | apply State.selectWith_keeps | apply Keeps.ite | rfl
        | (extract_lets +onlyGivenNames -underBinder x; first | refine Keeps.cut x ?_ ?_ | skip)
    | split
    | with_reducible apply Keeps.mk_keeps

theorem State.leaveCand7_keeps {s0 s : State} (h : Keeps s0 s) : Keeps s0 (State.leaveCand7 s) := by
  unfold State.leaveCand7
  repeat' first
    | with_reducible first
        | intro _ | assumption | apply State.noOffset_keeps | apply State.setCandState_keeps
        | apply State.clearWindow_keeps | apply State.selectCand_keeps | apply State.enterHoldover_keeps
        | apply Keeps.ite | rfl
        | (extract_lets +onlyGivenNames -underBinder x; first | refine Keeps.cut x ?_ ?_ | skip)
    | split
    | with_reducible apply Keeps.mk_keeps

theorem State.phaseSample_keeps {s0 s : State} (h : Keeps s0 s) (n : Nat) (p : Int) : Keeps s0 (State.phaseSample s n p) := by
  unfold State.phaseSample
  repeat' first
    | with_reducible first
        | intro _ | assumption | apply State.updCand_keeps | apply State.clearWindow_keeps
        | apply State.logEvent_keeps | apply State.setFld_keeps | apply State.showBuild_keeps
        | apply State.updRef_keeps | apply Keeps.ite | rfl
        | (extract_lets +onlyGivenNames -underBinder x; first | refine Keeps.cut x ?_ ?_ | skip)
    | split
    | with_reducible apply Keeps.mk_keeps

theorem State.offsetSample_keeps {s0 s : State} (h : Keeps s0 s) (n : Nat) (o : Int) : Keeps s0 (State.offsetSample s n o) := by
  unfold State.offsetSample
  repeat' first
    | with_reducible first
        | intro _ | assumption | apply State.updCand_keeps | apply State.phaseSample_keeps
        | apply State.showOffset_keeps | apply Keeps.ite | rfl
        | (extract_lets +onlyGivenNames -underBinder x; first | refine Keeps.cut x ?_ ?_ | skip)
    | split
    | with_reducible apply Keeps.mk_keeps

theorem State.writePtpSample_keeps {s0 s : State} (h : Keeps s0 s) (v : Word) : Keeps s0 (State.writePtpSample s v) := by
  unfold State.writePtpSample
  repeat' first
    | with_reducible first
        | intro _ | assumption | apply State.offsetSample_keeps | rfl
    | with_reducible apply Keeps.mk_keeps

theorem execRefPtpSample_keeps {s0 s : State} (h : Keeps s0 s) (v : Word) : OutKeeps s0 (execRefPtpSample v s) := by
  unfold execRefPtpSample
  repeat' first
    | with_reducible first
        | intro _ | assumption | apply State.writePtpSample_keeps | apply OutKeeps.next | rfl
    | with_reducible apply Keeps.mk_keeps

theorem State.pulseSample_keeps {s0 s : State} (h : Keeps s0 s) (n : Nat) (stamp : Int) : Keeps s0 (State.pulseSample s n stamp)
    := by
  unfold State.pulseSample
  repeat' first
    | with_reducible first
        | intro _ | assumption | apply State.showOffset_keeps | apply State.phaseSample_keeps
        | apply Keeps.ite | rfl
        | (extract_lets +onlyGivenNames -underBinder x; first | refine Keeps.cut x ?_ ?_ | skip)
    | split
    | with_reducible apply Keeps.mk_keeps

theorem execPpsIn_keeps {s0 s : State} (h : Keeps s0 s) (b : Bool) (captured : BitVec 72) (highNs : Nat) : OutKeeps s0 (execPpsIn
    b captured highNs s) := by
  unfold execPpsIn
  repeat' first
    | with_reducible first
        | intro _ | assumption | apply State.updCand_keeps | apply State.icEdge_keeps
        | apply State.pulseSample_keeps | apply State.disqualify_keeps | apply Keeps.ite | apply OutKeeps.ite
        | apply OutKeeps.next | rfl
        | (extract_lets +onlyGivenNames -underBinder x; first | refine Keeps.cut x ?_ ?_ | refine OutKeeps.cut x ?_ ?_ | skip)
    | split
    | with_reducible apply Keeps.mk_keeps

theorem execTodMessage_keeps {s0 s : State} (h : Keeps s0 s) (b : Bool) (delayUs : Nat) (second : Option Nat) : OutKeeps s0
    (execTodMessage b delayUs second s) := by
  unfold execTodMessage
  dsimp only
  repeat' first
    | with_reducible first
        | assumption | apply State.icEdge_keeps | apply State.updCand_keeps | apply State.showOffset_keeps
        | apply Keeps.ite | apply OutKeeps.ite | apply OutKeeps.next | rfl | intro _
    | split
    | with_reducible apply Keeps.mk_keeps

theorem execCandidateLost_keeps {s0 s : State} (h : Keeps s0 s) (n : Fin 8) : OutKeeps s0 (execCandidateLost n s) := by
  unfold execCandidateLost
  repeat' first
    | with_reducible first
        | intro _ | assumption | apply State.updRef_keeps | apply State.clearWindow_keeps
        | apply State.setFld_keeps | apply State.setCandState_keeps | apply State.noOffset_keeps
        | apply Keeps.ite | apply OutKeeps.ite | apply OutKeeps.next | rfl
        | (extract_lets +onlyGivenNames -underBinder x; first | refine Keeps.cut x ?_ ?_ | refine OutKeeps.cut x ?_ ?_ | skip)
    | split
    | with_reducible apply Keeps.mk_keeps

theorem execCandidateReturn_keeps {s0 s : State} (h : Keeps s0 s) (n : Fin 8) (offset : Int) : OutKeeps s0 (execCandidateReturn n
    offset s) := by
  unfold execCandidateReturn
  repeat' first
    | with_reducible first
        | intro _ | assumption | apply State.setFld_keeps | apply State.setCandState_keeps
        | apply State.startQualifying_keeps | apply State.selectWith_keeps | apply State.showOffset_keeps
        | apply State.updRef_keeps | apply State.logEvent_keeps | apply State.incFld_keeps | apply Keeps.ite
        | apply OutKeeps.ite | apply OutKeeps.next | rfl
        | (extract_lets +onlyGivenNames -underBinder x; first | refine Keeps.cut x ?_ ?_ | refine OutKeeps.cut x ?_ ?_ | skip)
    | split
    | with_reducible apply Keeps.mk_keeps

theorem execWtrExpiry_keeps {s0 s : State} (h : Keeps s0 s) (n : Fin 8) : OutKeeps s0 (execWtrExpiry n s) := by
  unfold execWtrExpiry
  repeat' first
    | with_reducible first
        | intro _ | assumption | apply State.setCandState_keeps | apply Keeps.ite | apply OutKeeps.ite
        | apply OutKeeps.next | rfl
        | (extract_lets +onlyGivenNames -underBinder x; first | refine Keeps.cut x ?_ ?_ | refine OutKeeps.cut x ?_ ?_ | skip)
    | split
    | with_reducible apply Keeps.mk_keeps

theorem State.fitWindow_keeps {s0 s : State} (h : Keeps s0 s) (n : Nat) : Keeps s0 (State.fitWindow s n) := by
  unfold State.fitWindow
  repeat' first
    | with_reducible first
        | intro _ | assumption | apply State.updCand_keeps | apply State.setFlag_keeps
        | apply State.setFldI_keeps | apply State.setFld_keeps | apply Keeps.ite | rfl
        | (extract_lets +onlyGivenNames -underBinder x; first | refine Keeps.cut x ?_ ?_ | skip)
    | split
    | with_reducible apply Keeps.mk_keeps

theorem State.judgeDrift_keeps {s0 s : State} (h : Keeps s0 s) : Keeps s0 (State.judgeDrift s) := by
  unfold State.judgeDrift
  repeat' first
    | with_reducible first
        | intro _ | assumption | apply State.logEvent_keeps | apply State.updRef_keeps
        | apply State.setFlag_keeps | apply Keeps.ite | rfl
        | (extract_lets +onlyGivenNames -underBinder x; first | refine Keeps.cut x ?_ ?_ | skip)
    | split
    | with_reducible apply Keeps.mk_keeps

theorem State.qualify_keeps {s0 s : State} (h : Keeps s0 s) (n : Nat) : Keeps s0 (State.qualify s n) := by
  unfold State.qualify
  repeat' first
    | with_reducible first
        | intro _ | assumption | apply State.setFld_keeps | apply State.setCandState_keeps
        | apply State.updCand_keeps | apply Keeps.ite | rfl
        | (extract_lets +onlyGivenNames -underBinder x; first | refine Keeps.cut x ?_ ?_ | skip)
    | split
    | with_reducible apply Keeps.mk_keeps

theorem State.judge_keeps {s0 s : State} (h : Keeps s0 s) (maj : Option (Int × List Nat)) (n : Nat) : Keeps s0 (State.judge s maj
    n) := by
  unfold State.judge
  repeat' first
    | with_reducible first
        | intro _ | assumption | apply State.updCand_keeps | apply State.setFlag_keeps
        | apply State.when_keeps | apply State.logEvent_keeps | apply State.startQualifying_keeps
        | apply State.disqualify_keeps | apply State.setFld_keeps | apply State.qualify_keeps
        | apply Keeps.ite | rfl
        | (extract_lets +onlyGivenNames -underBinder x; first | refine Keeps.cut x ?_ ?_ | skip)
    | split
    | with_reducible apply Keeps.mk_keeps

theorem State.keepHoldover_keeps {s0 s : State} (h : Keeps s0 s) : Keeps s0 (State.keepHoldover s) := by
  unfold State.keepHoldover
  repeat' first
    | with_reducible first
        | intro _ | assumption | apply Keeps.ite | rfl
        | (extract_lets +onlyGivenNames -underBinder x; first | refine Keeps.cut x ?_ ?_ | skip)
    | split
    | with_reducible apply Keeps.mk_keeps

theorem execCandidateEvaluation_keeps {s0 s : State} (h : Keeps s0 s) : OutKeeps s0 (execCandidateEvaluation s) := by
  unfold execCandidateEvaluation
  repeat' first
    | with_reducible first
        | intro _ | assumption | apply State.updRef_keeps | apply State.fitWindow_keeps
        | apply State.refreshHold_keeps | apply State.incFld_keeps | apply State.keepHoldover_keeps
        | apply State.setFlag_keeps | apply State.judgeDrift_keeps | apply State.judge_keeps
        | apply State.updCand_keeps | apply State.changeSelection_keeps | apply Keeps.ite | apply OutKeeps.ite
        | apply OutKeeps.next | apply Keeps.foldl | rfl
        | (extract_lets +onlyGivenNames -underBinder x; first | refine Keeps.cut x ?_ ?_ | refine OutKeeps.cut x ?_ ?_ | skip)
    | split
    | with_reducible apply Keeps.mk_keeps

theorem execHistorySample_keeps {s0 s : State} (h : Keeps s0 s) : OutKeeps s0 (execHistorySample s) := by
  unfold execHistorySample
  repeat' first
    | with_reducible first
        | intro _ | assumption | apply State.updRef_keeps | apply State.refreshHold_keeps | apply Keeps.ite
        | apply OutKeeps.ite | apply OutKeeps.next | rfl
        | (extract_lets +onlyGivenNames -underBinder x; first | refine Keeps.cut x ?_ ?_ | refine OutKeeps.cut x ?_ ?_ | skip)
    | split
    | with_reducible apply Keeps.mk_keeps

theorem execHoldoverExpired_keeps {s0 s : State} (h : Keeps s0 s) : OutKeeps s0 (execHoldoverExpired s) := by
  unfold execHoldoverExpired
  repeat' first
    | with_reducible first
        | intro _ | assumption | apply State.logEvent_keeps | apply State.refreshTime_keeps
        | apply State.setFld_keeps | apply State.setFlag_keeps | apply Keeps.ite | apply OutKeeps.ite
        | apply OutKeeps.next | rfl
        | (extract_lets +onlyGivenNames -underBinder x; first | refine Keeps.cut x ?_ ?_ | refine OutKeeps.cut x ?_ ?_ | skip)
    | split
    | with_reducible apply Keeps.mk_keeps

theorem State.setFreq_keeps {s0 s : State} (h : Keeps s0 s) (f : Int) : Keeps s0 (State.setFreq s f) := by
  unfold State.setFreq
  repeat' first
    | with_reducible first
        | intro _ | assumption | apply State.setFldI_keeps | apply State.setFld_keeps | rfl
        | (extract_lets +onlyGivenNames -underBinder x; first | refine Keeps.cut x ?_ ?_ | skip)
    | with_reducible apply Keeps.mk_keeps

theorem State.loopTarget_keeps {s0 s : State} (h : Keeps s0 s) : Keeps s0 (State.loopTarget s).2 := by
  unfold State.loopTarget
  dsimp only
  repeat' first
    | with_reducible first
        | assumption | exact State.fresh_keeps_eq ‹_› ‹_› | apply State.fresh_keeps | apply Keeps.ite | rfl
        | intro _
    | split
    | with_reducible apply Keeps.mk_keeps

theorem State.loopTarget_keeps_eq {s0 s : State} (h : Keeps s0 s) {t : State} {r : _} (e : (State.loopTarget s) = (r, t)) : Keeps s0 t := by
  have k := State.loopTarget_keeps h 
  rw [e] at k; exact k

theorem execDpllUpdate_keeps {s0 s : State} (h : Keeps s0 s) (freqA : Option Int) (freqB : Option Int) : OutKeeps s0
    (execDpllUpdate freqA freqB s) := by
  unfold execDpllUpdate
  dsimp only
  repeat' first
    | with_reducible first
        | assumption | exact State.loopTarget_keeps_eq ‹_› ‹_› | apply State.phaseSample_keeps
        | apply State.enterHoldover_keeps | apply State.showBuild_keeps | apply State.updRef_keeps
        | apply State.loopTarget_keeps | apply State.setFreq_keeps | apply Keeps.ite | apply OutKeeps.ite
        | apply OutKeeps.next | rfl | intro _
    | split
    | with_reducible apply Keeps.mk_keeps

theorem execDissolveEnd_keeps {s0 s : State} (h : Keeps s0 s) : OutKeeps s0 (execDissolveEnd s) := by
  unfold execDissolveEnd
  repeat' first
    | with_reducible first
        | intro _ | assumption | apply State.refreshTime_keeps | apply State.setFld_keeps | apply Keeps.ite
        | apply OutKeeps.ite | apply OutKeeps.next | rfl
    | split
    | with_reducible apply Keeps.mk_keeps

theorem State.writeCandCtl_keeps {s0 s : State} (h : Keeps s0 s) (n : Nat) (v : Word) : Keeps s0 (State.writeCandCtl s n v) := by
  unfold State.writeCandCtl
  repeat' first
    | with_reducible first
        | intro _ | assumption | apply State.setFld_keeps | apply State.logEvent_keeps
        | apply State.noOffset_keeps | apply State.setCandState_keeps | apply State.clearWindow_keeps
        | apply State.updCand_keeps | apply State.startQualifying_keeps | apply Keeps.ite | rfl
        | (extract_lets +onlyGivenNames -underBinder x; first | refine Keeps.cut x ?_ ?_ | skip)
    | split
    | with_reducible apply Keeps.mk_keeps

theorem execRefCandnCtlWrite_keeps {s0 s : State} (h : Keeps s0 s) (n : Fin 8) (v : Word) : OutKeeps s0 (execRefCandnCtlWrite n v
    s) := by
  unfold execRefCandnCtlWrite
  repeat' first
    | with_reducible first
        | intro _ | assumption | apply State.writeCandCtl_keeps | apply OutKeeps.next | rfl
    | with_reducible apply Keeps.mk_keeps

theorem execRefForce_keeps {s0 s : State} (h : Keeps s0 s) (hh : Word) : OutKeeps s0 (execRefForce hh s) := by
  unfold execRefForce
  repeat' first
    | with_reducible first
        | intro _ | assumption | apply State.run_keeps | apply State.setFlag_keeps | apply State.setFld_keeps
        | apply State.finish_keeps | apply Keeps.ite | apply OutKeeps.ite | apply OutKeeps.next | rfl
        | (extract_lets +onlyGivenNames -underBinder x; first | refine Keeps.cut x ?_ ?_ | refine OutKeeps.cut x ?_ ?_ | skip)
    | split
    | with_reducible apply Keeps.mk_keeps

theorem execRefSeed_keeps {s0 s : State} (h : Keeps s0 s) (hh : Word) (sg : List (Nat × Nat)) (obj : List Byte) : OutKeeps s0
    (execRefSeed hh sg obj s) := by
  unfold execRefSeed
  repeat' first
    | with_reducible first
        | intro _ | assumption | apply State.run_keeps | apply State.receive_keeps | apply State.fail_keeps
        | apply State.finish_keeps | apply State.refreshHold_keeps | apply State.updRef_keeps
        | apply OutKeeps.next | rfl
    | split
    | with_reducible apply Keeps.mk_keeps

end Sys2Proof.Machine
end

