-- ==== Sys2Proof/Laws/KeepsPair.lean ====
section
/-!
SUPPORT. That the operations and meanings of the pair and the timebase keep what must be kept (`Keeps`), one lemma each.
-/
namespace Sys2Proof.Machine
open Sys2Proof

set_option linter.all false

theorem State.sendAck_keeps {s0 s : State} (h : Keeps s0 s) (nack : Bool) : Keeps s0 (State.sendAck s nack) := by
  unfold State.sendAck
  repeat' first
    | with_reducible first
        | intro _ | assumption | apply State.updPair_keeps | apply State.sendRecord_keeps | apply Keeps.ite
        | rfl
    | split
    | with_reducible apply Keeps.mk_keeps

theorem State.discard_keeps {s0 s : State} (h : Keeps s0 s) : Keeps s0 (State.discard s) := by
  unfold State.discard
  repeat' first
    | with_reducible first
        | intro _ | assumption | apply State.sendAck_keeps | apply State.incFld_keeps | rfl
    | with_reducible apply Keeps.mk_keeps

theorem State.counted_keeps {s0 s : State} (h : Keeps s0 s) (act : State → State) (h_act : ∀ x0, Keeps s0 x0 → Keeps s0 (act x0))
    : Keeps s0 (State.counted s act) := by
  unfold State.counted
  repeat' first
    | with_reducible first
        | intro _ | assumption | apply h_act | apply State.updPair_keeps | apply State.sendAck_keeps
        | apply Keeps.ite | rfl
        | (extract_lets +onlyGivenNames -underBinder x; first | refine Keeps.cut x ?_ ?_ | skip)
    | split
    | with_reducible apply Keeps.mk_keeps

theorem State.holdRecord_keeps {s0 s : State} (h : Keeps s0 s) (reel : Nat) (kind : Nat) (body : List Byte) : Keeps s0
    (State.holdRecord s reel kind body) := by
  unfold State.holdRecord
  repeat' first
    | with_reducible first
        | intro _ | assumption | apply State.updPair_keeps | apply State.icRaise_keeps
        | apply State.when_keeps | apply State.logEvent_keeps | apply Keeps.ite | rfl
        | (extract_lets +onlyGivenNames -underBinder x; first | refine Keeps.cut x ?_ ?_ | skip)
    | split
    | with_reducible apply Keeps.mk_keeps

theorem State.accept_keeps {s0 s : State} (h : Keeps s0 s) (kind : Nat) (w : Wire) (act : List Byte → State → State) (h_act : ∀
    x0 x1, Keeps s0 x1 → Keeps s0 (act x0 x1)) : Keeps s0 (State.accept s kind w act) := by
  unfold State.accept
  repeat' first
    | with_reducible first
        | intro _ | assumption | apply h_act | apply State.discard_keeps | apply State.counted_keeps
        | apply State.holdRecord_keeps | apply Keeps.ite | rfl
        | (extract_lets +onlyGivenNames -underBinder x; first | refine Keeps.cut x ?_ ?_ | skip)
    | split
    | with_reducible apply Keeps.mk_keeps

theorem State.handoverLost_keeps {s0 s : State} (h : Keeps s0 s) : Keeps s0 (State.handoverLost s) := by
  unfold State.handoverLost
  repeat' first
    | with_reducible first
        | intro _ | assumption | apply State.fail_keeps | apply State.updPair_keeps
        | apply State.setFlag_keeps | apply Keeps.ite | rfl
        | (extract_lets +onlyGivenNames -underBinder x; first | refine Keeps.cut x ?_ ?_ | skip)
    | split
    | with_reducible apply Keeps.mk_keeps

theorem State.dropHandover_keeps {s0 s : State} (h : Keeps s0 s) : Keeps s0 (State.dropHandover s) := by
  unfold State.dropHandover
  repeat' first
    | with_reducible first
        | intro _ | assumption | apply State.fail_keeps | apply State.updPair_keeps
        | apply State.setFlag_keeps | apply Keeps.ite | rfl
        | (extract_lets +onlyGivenNames -underBinder x; first | refine Keeps.cut x ?_ ?_ | skip)
    | split
    | with_reducible apply Keeps.mk_keeps

theorem State.settle_keeps {s0 s : State} (h : Keeps s0 s) : Keeps s0 (State.settle s) := by
  unfold State.settle
  repeat' first
    | with_reducible first
        | intro _ | assumption | apply State.refreshIsolated_keeps | apply State.releaseHeld_keeps
        | apply Keeps.ite | rfl
        | (extract_lets +onlyGivenNames -underBinder x; first | refine Keeps.cut x ?_ ?_ | skip)
    | split
    | with_reducible apply Keeps.mk_keeps

theorem State.closeSession_keeps {s0 s : State} (h : Keeps s0 s) : Keeps s0 (State.closeSession s) := by
  unfold State.closeSession
  repeat' first
    | with_reducible first
        | intro _ | assumption | apply State.updPair_keeps | apply State.setFld_keeps
        | apply State.settle_keeps | apply State.handoverLost_keeps | apply State.releaseHeld_keeps
        | apply State.showOutstanding_keeps | rfl
        | (extract_lets +onlyGivenNames -underBinder x; first | refine Keeps.cut x ?_ ?_ | skip)
    | with_reducible apply Keeps.mk_keeps

theorem State.restartTx_keeps {s0 s : State} (h : Keeps s0 s) : Keeps s0 (State.restartTx s) := by
  unfold State.restartTx
  repeat' first
    | with_reducible first
        | intro _ | assumption | apply State.refreshLaneState_keeps | apply State.txRequest_keeps
        | apply State.updLane_keeps | apply Keeps.ite | apply Keeps.foldl | rfl
    | split
    | with_reducible apply Keeps.mk_keeps

theorem State.dropImage_keeps {s0 s : State} (h : Keeps s0 s) : Keeps s0 (State.dropImage s) := by
  unfold State.dropImage
  repeat' first
    | with_reducible first
        | intro _ | assumption | apply State.updPair_keeps | rfl
    | with_reducible apply Keeps.mk_keeps

theorem State.dropReceiving_keeps {s0 s : State} (h : Keeps s0 s) : Keeps s0 (State.dropReceiving s) := by
  unfold State.dropReceiving
  repeat' first
    | with_reducible first
        | intro _ | assumption | apply State.startResync_keeps | apply State.dropImage_keeps | apply Keeps.ite
        | rfl
    | split
    | with_reducible apply Keeps.mk_keeps

theorem State.joinFail_keeps {s0 s : State} (h : Keeps s0 s) (status : Nat) : Keeps s0 (State.joinFail s status) := by
  unfold State.joinFail
  repeat' first
    | with_reducible first
        | intro _ | assumption | apply State.closeSession_keeps | apply State.updPair_keeps
        | apply State.logEvent_keeps | apply State.cancelSplice_keeps | apply State.dropReceiving_keeps
        | apply State.setFlag_keeps | apply State.restartTx_keeps | apply State.leaveCand7_keeps
        | apply State.setRole_keeps | apply State.fail_keeps | apply Keeps.ite | rfl
        | (extract_lets +onlyGivenNames -underBinder x; first | refine Keeps.cut x ?_ ?_ | skip)
    | split
    | with_reducible apply Keeps.mk_keeps

theorem State.fenceSelf_keeps {s0 s : State} (h : Keeps s0 s) : Keeps s0 (State.fenceSelf s) := by
  unfold State.fenceSelf
  repeat' first
    | with_reducible first
        | intro _ | assumption | apply State.detect_keeps | rfl
    | with_reducible apply Keeps.mk_keeps

theorem State.sendEject_keeps {s0 s : State} (h : Keeps s0 s) (reason : Nat) : Keeps s0 (State.sendEject s reason) := by
  unfold State.sendEject
  repeat' first
    | with_reducible first
        | intro _ | assumption | apply State.sendRecord_keeps | rfl
    | with_reducible apply Keeps.mk_keeps

theorem State.sessionBack_keeps {s0 s : State} (h : Keeps s0 s) : Keeps s0 (State.sessionBack s) := by
  unfold State.sessionBack
  repeat' first
    | with_reducible first
        | intro _ | assumption | apply State.settle_keeps | apply State.setFld_keeps
        | apply State.sendEject_keeps | apply Keeps.ite | rfl
        | (extract_lets +onlyGivenNames -underBinder x; first | refine Keeps.cut x ?_ ?_ | skip)
    | split
    | with_reducible apply Keeps.mk_keeps

theorem State.onAck_keeps {s0 s : State} (h : Keeps s0 s) (body : List Byte) : Keeps s0 (State.onAck s body) := by
  unfold State.onAck
  repeat' first
    | with_reducible first
        | intro _ | assumption | apply State.showOutstanding_keeps | apply State.updPair_keeps
        | apply State.sessionBack_keeps | apply State.releaseHeld_keeps | apply State.incFld_keeps
        | apply Keeps.ite | rfl
        | (extract_lets +onlyGivenNames -underBinder x; first | refine Keeps.cut x ?_ ?_ | skip)
    | split
    | with_reducible apply Keeps.mk_keeps

theorem execRetransmit_keeps {s0 s : State} (h : Keeps s0 s) : OutKeeps s0 (execRetransmit s) := by
  unfold execRetransmit
  repeat' first
    | with_reducible first
        | intro _ | assumption | apply State.incFld_keeps | apply State.updPair_keeps | apply Keeps.ite
        | apply OutKeeps.ite | apply OutKeeps.next | rfl
    | split
    | with_reducible apply Keeps.mk_keeps

theorem execAckInterval_keeps {s0 s : State} (h : Keeps s0 s) : OutKeeps s0 (execAckInterval s) := by
  unfold execAckInterval
  repeat' first
    | with_reducible first
        | intro _ | assumption | apply State.sendAck_keeps | apply Keeps.ite | apply OutKeeps.ite
        | apply OutKeeps.next | rfl
    | split
    | with_reducible apply Keeps.mk_keeps

theorem execContStalled_keeps {s0 s : State} (h : Keeps s0 s) : OutKeeps s0 (execContStalled s) := by
  unfold execContStalled
  repeat' first
    | with_reducible first
        | intro _ | assumption | apply State.settle_keeps | apply State.handoverLost_keeps
        | apply State.logEvent_keeps | apply State.setFld_keeps | apply Keeps.ite | apply OutKeeps.ite
        | apply OutKeeps.next | rfl
    | split
    | with_reducible apply Keeps.mk_keeps

theorem State.refreshWitness_keeps {s0 s : State} (h : Keeps s0 s) : Keeps s0 (State.refreshWitness s) := by
  unfold State.refreshWitness
  repeat' first
    | with_reducible first
        | intro _ | assumption | apply State.updPair_keeps | apply State.setFld_keeps
        | apply State.setFlag_keeps | rfl
        | (extract_lets +onlyGivenNames -underBinder x; first | refine Keeps.cut x ?_ ?_ | skip)
    | with_reducible apply Keeps.mk_keeps

theorem State.endOrder_keeps {s0 s : State} (h : Keeps s0 s) (o : Order) (status : Nat) : Keeps s0 (State.endOrder s o status)
    := by
  unfold State.endOrder
  repeat' first
    | with_reducible first
        | intro _ | assumption | apply State.finish_keeps | apply State.fail_keeps | apply State.updPair_keeps
        | apply Keeps.foldl | rfl
    | with_reducible apply Keeps.mk_keeps

theorem State.armUnacked_keeps {s0 s : State} (h : Keeps s0 s) : Keeps s0 (State.armUnacked s) := by
  unfold State.armUnacked
  repeat' first
    | with_reducible first
        | intro _ | assumption | apply State.armAt_keeps | apply State.updPair_keeps
        | apply State.updSsw_keeps | apply State.fail_keeps | apply State.endOrder_keeps | apply Keeps.ite
        | apply Keeps.foldl | rfl
        | (extract_lets +onlyGivenNames -underBinder x; first | refine Keeps.cut x ?_ ?_ | skip)
    | split
    | with_reducible apply Keeps.mk_keeps

theorem State.refreshFenced_keeps {s0 s : State} (h : Keeps s0 s) : Keeps s0 (State.refreshFenced s) := by
  unfold State.refreshFenced
  repeat' first
    | with_reducible first
        | intro _ | assumption | apply State.setFlag_keeps | apply State.joinFail_keeps
        | apply State.closeSession_keeps | apply State.armUnacked_keeps | apply Keeps.ite | rfl
        | (extract_lets +onlyGivenNames -underBinder x; first | refine Keeps.cut x ?_ ?_ | skip)
    | split
    | with_reducible apply Keeps.mk_keeps

theorem State.refreshEvidence_keeps {s0 s : State} (h : Keeps s0 s) : Keeps s0 (State.refreshEvidence s) := by
  unfold State.refreshEvidence
  repeat' first
    | with_reducible first
        | intro _ | assumption | apply State.updPair_keeps | apply State.setFlag_keeps
        | apply State.setFld_keeps | apply State.settle_keeps | apply State.refreshFenced_keeps
        | apply State.refreshWitness_keeps | apply Keeps.ite | rfl
        | (extract_lets +onlyGivenNames -underBinder x; first | refine Keeps.cut x ?_ ?_ | skip)
    | split
    | with_reducible apply Keeps.mk_keeps

theorem State.noteTakeId_keeps {s0 s : State} (h : Keeps s0 s) (n : Nat) (take : Nat) : Keeps s0 (State.noteTakeId s n take) := by
  unfold State.noteTakeId
  repeat' first
    | with_reducible first
        | intro _ | assumption | apply State.setFlag_keeps | apply State.updPair_keeps | apply Keeps.ite | rfl
    | split
    | with_reducible apply Keeps.mk_keeps

theorem State.mateWords_keeps {s0 s : State} (h : Keeps s0 s) (n : Nat) (oh : List Byte) : Keeps s0 (State.mateWords s n oh) := by
  unfold State.mateWords
  repeat' first
    | with_reducible first
        | intro _ | assumption | apply State.updPair_keeps | apply State.seeClaim_keeps
        | apply State.setFld_keeps | apply State.noteTakeId_keeps | apply Keeps.ite | rfl
        | (extract_lets +onlyGivenNames -underBinder x; first | refine Keeps.cut x ?_ ?_ | skip)
    | split
    | with_reducible apply Keeps.mk_keeps

theorem State.witnessWords_keeps {s0 s : State} (h : Keeps s0 s) (n : Nat) (oh : List Byte) : Keeps s0 (State.witnessWords s n
    oh) := by
  unfold State.witnessWords
  repeat' first
    | with_reducible first
        | intro _ | assumption | apply State.updPair_keeps | apply State.seeClaim_keeps | apply Keeps.ite
        | rfl
        | (extract_lets +onlyGivenNames -underBinder x; first | refine Keeps.cut x ?_ ?_ | skip)
    | split
    | with_reducible apply Keeps.mk_keeps

theorem execClaimAndWitnessWords_keeps {s0 s : State} (h : Keeps s0 s) (n : LaneNo) : OutKeeps s0 (execClaimAndWitnessWords n s)
    := by
  unfold execClaimAndWitnessWords
  repeat' first
    | with_reducible first
        | intro _ | assumption | apply State.updLane_keeps | apply State.updPair_keeps
        | apply State.mateWords_keeps | apply State.witnessWords_keeps | apply State.refreshEvidence_keeps
        | apply Keeps.ite | apply OutKeeps.ite | apply OutKeeps.next | rfl
        | (extract_lets +onlyGivenNames -underBinder x; first | refine Keeps.cut x ?_ ?_ | refine OutKeeps.cut x ?_ ?_ | skip)
    | split
    | with_reducible apply Keeps.mk_keeps

theorem execPairProve_keeps {s0 s : State} (h : Keeps s0 s) : OutKeeps s0 (execPairProve s) := by
  unfold execPairProve
  repeat' first
    | with_reducible first
        | intro _ | assumption | apply State.setFld_keeps | apply State.updLane_keeps | apply OutKeeps.next
        | apply Keeps.foldl | rfl
        | (extract_lets +onlyGivenNames -underBinder x; first | refine Keeps.cut x ?_ ?_ | refine OutKeeps.cut x ?_ ?_ | skip)
    | with_reducible apply Keeps.mk_keeps

theorem State.orderAcked_keeps {s0 s : State} (h : Keeps s0 s) : Keeps s0 (State.orderAcked s) := by
  unfold State.orderAcked
  dsimp only
  repeat' first
    | with_reducible first
        | assumption | apply State.setFld_keeps | apply State.armUnacked_keeps | apply State.sendHandle_keeps
        | apply Keeps.ite | rfl | intro _
    | split
    | with_reducible apply Keeps.mk_keeps

theorem execHeartbeatFrame_keeps {s0 s : State} (h : Keeps s0 s) (f : BitVec 64) : OutKeeps s0 (execHeartbeatFrame f s) := by
  unfold execHeartbeatFrame
  repeat' first
    | with_reducible first
        | intro _ | assumption | apply State.updPair_keeps | apply State.setFlag_keeps
        | apply State.setFld_keeps | apply State.seeClaim_keeps | apply State.orderAcked_keeps
        | apply State.refreshEvidence_keeps | apply State.when_keeps | apply State.incFld_keeps
        | apply Keeps.ite | apply OutKeeps.ite | apply OutKeeps.next | rfl
        | (extract_lets +onlyGivenNames -underBinder x; first | refine Keeps.cut x ?_ ?_ | refine OutKeeps.cut x ?_ ?_ | skip)
    | split
    | with_reducible apply Keeps.mk_keeps

theorem State.heartbeatAbsent_keeps {s0 s : State} (h : Keeps s0 s) : Keeps s0 (State.heartbeatAbsent s) := by
  unfold State.heartbeatAbsent
  repeat' first
    | with_reducible first
        | intro _ | assumption | apply State.updPair_keeps | apply State.refreshEvidence_keeps
        | apply State.setFlag_keeps | apply Keeps.ite | rfl
        | (extract_lets +onlyGivenNames -underBinder x; first | refine Keeps.cut x ?_ ?_ | skip)
    | split
    | with_reducible apply Keeps.mk_keeps

theorem execHeartbeatAbsent_keeps {s0 s : State} (h : Keeps s0 s) : OutKeeps s0 (execHeartbeatAbsent s) := by
  unfold execHeartbeatAbsent
  repeat' first
    | with_reducible first
        | intro _ | assumption | apply State.heartbeatAbsent_keeps | apply OutKeeps.next | rfl
    | with_reducible apply Keeps.mk_keeps

theorem State.lanePathDelay_keeps {s0 s : State} (h : Keeps s0 s) (snr : List (BitVec 10)) (n : Nat) : Keeps s0
    (State.lanePathDelay s snr n) := by
  unfold State.lanePathDelay
  repeat' first
    | with_reducible first
        | intro _ | assumption | apply State.setFld_keeps | apply State.updLane_keeps | apply Keeps.ite | rfl
        | (extract_lets +onlyGivenNames -underBinder x; first | refine Keeps.cut x ?_ ?_ | skip)
    | split
    | with_reducible apply Keeps.mk_keeps

theorem execPathDelayUpdate_keeps {s0 s : State} (h : Keeps s0 s) (snr : List (BitVec 10)) : OutKeeps s0 (execPathDelayUpdate snr
    s) := by
  unfold execPathDelayUpdate
  repeat' first
    | with_reducible first
        | intro _ | assumption | apply State.lanePathDelay_keeps | apply OutKeeps.next | apply Keeps.foldl
        | rfl
    | with_reducible apply Keeps.mk_keeps

theorem State.noteGood_keeps {s0 s : State} (h : Keeps s0 s) (n : Nat) : Keeps s0 (State.noteGood s n) := by
  unfold State.noteGood
  dsimp only
  repeat' first
    | with_reducible first
        | assumption | apply State.updLane_keeps | apply Keeps.ite | apply Keeps.foldl | rfl | intro _
    | split
    | with_reducible apply Keeps.mk_keeps

theorem State.showAsymEst_keeps {s0 s : State} (h : Keeps s0 s) (n : Nat) : Keeps s0 (State.showAsymEst s n) := by
  unfold State.showAsymEst
  repeat' first
    | with_reducible first
        | intro _ | assumption | apply State.setFldI_keeps | apply State.setFld_keeps | rfl
        | (extract_lets +onlyGivenNames -underBinder x; first | refine Keeps.cut x ?_ ?_ | skip)
    | split
    | with_reducible apply Keeps.mk_keeps

theorem State.showMeans_keeps {s0 s : State} (h : Keeps s0 s) (n : Nat) : Keeps s0 (State.showMeans s n) := by
  unfold State.showMeans
  repeat' first
    | with_reducible first
        | intro _ | assumption | apply State.setFld_keeps | apply State.setFldI_keeps
        | apply State.refreshMateDelay_keeps | apply State.showAsymEst_keeps | apply State.noteGood_keeps
        | apply Keeps.ite | rfl
        | (extract_lets +onlyGivenNames -underBinder x; first | refine Keeps.cut x ?_ ?_ | skip)
    | split
    | with_reducible apply Keeps.mk_keeps

theorem State.feedCands_keeps {s0 s : State} (h : Keeps s0 s) (n : Nat) (ofs : Int) (traceable : Bool) : Keeps s0
    (State.feedCands s n ofs traceable) := by
  unfold State.feedCands
  repeat' first
    | with_reducible first
        | intro _ | assumption | apply State.updCand_keeps | apply State.offsetSample_keeps | apply Keeps.ite
        | apply Keeps.foldl | rfl
        | (extract_lets +onlyGivenNames -underBinder x; first | refine Keeps.cut x ?_ ?_ | skip)
    | split
    | with_reducible apply Keeps.mk_keeps

theorem State.takeExchange_keeps {s0 s : State} (h : Keeps s0 s) (n : Nat) (delay : Int) (ofs : Int) (traceable : Bool) : Keeps
    s0 (State.takeExchange s n delay ofs traceable) := by
  unfold State.takeExchange
  repeat' first
    | with_reducible first
        | intro _ | assumption | apply State.incFld_keeps | apply State.updLane_keeps
        | apply State.logEvent_keeps | apply State.restartMeans_keeps | apply State.feedCands_keeps
        | apply State.showMeans_keeps | apply Keeps.ite | rfl
        | (extract_lets +onlyGivenNames -underBinder x; first | refine Keeps.cut x ?_ ?_ | skip)
    | split
    | with_reducible apply Keeps.mk_keeps

theorem execTimingWords_keeps {s0 s : State} (h : Keeps s0 s) (n : LaneNo) : OutKeeps s0 (execTimingWords n s) := by
  unfold execTimingWords
  dsimp only
  repeat' first
    | with_reducible first
        | assumption | apply State.updLane_keeps | apply State.incFld_keeps | apply State.restartMeans_keeps
        | apply State.setFlag_keeps | apply State.setFld_keeps | apply State.takeExchange_keeps
        | apply Keeps.ite | apply OutKeeps.ite | apply OutKeeps.next | rfl | intro _
    | split
    | with_reducible apply Keeps.mk_keeps

theorem State.makeSuspect_keeps {s0 s : State} (h : Keeps s0 s) (n : Nat) : Keeps s0 (State.makeSuspect s n) := by
  unfold State.makeSuspect
  repeat' first
    | with_reducible first
        | intro _ | assumption | apply State.showAsymEst_keeps | apply State.updLane_keeps
        | apply State.disqualify_keeps | apply Keeps.ite | apply Keeps.foldl | rfl
        | (extract_lets +onlyGivenNames -underBinder x; first | refine Keeps.cut x ?_ ?_ | skip)
    | split
    | with_reducible apply Keeps.mk_keeps

theorem execAsymSuspect_keeps {s0 s : State} (h : Keeps s0 s) (n : LaneNo) (mate : Bool) : OutKeeps s0 (execAsymSuspect n mate s)
    := by
  unfold execAsymSuspect
  repeat' first
    | with_reducible first
        | intro _ | assumption | apply State.makeSuspect_keeps | apply State.setFlag_keeps
        | apply State.logEvent_keeps | apply Keeps.ite | apply OutKeeps.ite | apply OutKeeps.next | rfl
        | (extract_lets +onlyGivenNames -underBinder x; first | refine Keeps.cut x ?_ ?_ | refine OutKeeps.cut x ?_ ?_ | skip)
    | split
    | with_reducible apply Keeps.mk_keeps

theorem State.clearSuspect_keeps {s0 s : State} (h : Keeps s0 s) (n : Nat) : Keeps s0 (State.clearSuspect s n) := by
  unfold State.clearSuspect
  repeat' first
    | with_reducible first
        | intro _ | assumption | apply State.updLane_keeps | apply State.setFlag_keeps
        | apply State.logEvent_keeps | apply State.showAsymEst_keeps | rfl
        | (extract_lets +onlyGivenNames -underBinder x; first | refine Keeps.cut x ?_ ?_ | skip)
    | with_reducible apply Keeps.mk_keeps

theorem execAsymClear_keeps {s0 s : State} (h : Keeps s0 s) (n : LaneNo) : OutKeeps s0 (execAsymClear n s) := by
  unfold execAsymClear
  repeat' first
    | with_reducible first
        | intro _ | assumption | apply State.clearSuspect_keeps | apply Keeps.ite | apply OutKeeps.ite
        | apply OutKeeps.next | rfl
        | (extract_lets +onlyGivenNames -underBinder x; first | refine Keeps.cut x ?_ ?_ | refine OutKeeps.cut x ?_ ?_ | skip)
    | split
    | with_reducible apply Keeps.mk_keeps

theorem State.writeSuspectClr_keeps {s0 s : State} (h : Keeps s0 s) (n : Nat) : Keeps s0 (State.writeSuspectClr s n) := by
  unfold State.writeSuspectClr
  repeat' first
    | with_reducible first
        | intro _ | assumption | apply State.clearSuspect_keeps | apply Keeps.ite | rfl
    | split
    | with_reducible apply Keeps.mk_keeps

theorem execSuspectClr_keeps {s0 s : State} (h : Keeps s0 s) (n : LaneNo) : OutKeeps s0 (execSuspectClr n s) := by
  unfold execSuspectClr
  repeat' first
    | with_reducible first
        | intro _ | assumption | apply State.writeSuspectClr_keeps | apply OutKeeps.next | rfl
    | with_reducible apply Keeps.mk_keeps

theorem State.writeTtAsym_keeps {s0 s : State} (h : Keeps s0 s) (n : Nat) (v : Word) : Keeps s0 (State.writeTtAsym s n v) := by
  unfold State.writeTtAsym
  repeat' first
    | with_reducible first
        | intro _ | assumption | apply State.updLane_keeps | apply State.setReg_keeps
        | apply State.showAsymEst_keeps | apply State.setFld_keeps | rfl
        | (extract_lets +onlyGivenNames -underBinder x; first | refine Keeps.cut x ?_ ?_ | skip)
    | with_reducible apply Keeps.mk_keeps

theorem execLaneTtAsymWrite_keeps {s0 s : State} (h : Keeps s0 s) (n : LaneNo) (v : Word) : OutKeeps s0 (execLaneTtAsymWrite n v
    s) := by
  unfold execLaneTtAsymWrite
  repeat' first
    | with_reducible first
        | intro _ | assumption | apply State.writeTtAsym_keeps | apply OutKeeps.next | rfl
    | with_reducible apply Keeps.mk_keeps

theorem State.sendAlign_keeps {s0 s : State} (h : Keeps s0 s) (seq : Nat) (tai : Nat) : Keeps s0 (State.sendAlign s seq tai) := by
  unfold State.sendAlign
  repeat' first
    | with_reducible first
        | intro _ | assumption | apply State.sendRecord_keeps | apply Keeps.ite | rfl
    | split
    | with_reducible apply Keeps.mk_keeps

theorem State.scheduleStep_keeps {s0 s : State} (h : Keeps s0 s) (ns : Int) (reel : Nat) : Keeps s0 (State.scheduleStep s ns
    reel) := by
  unfold State.scheduleStep
  repeat' first
    | with_reducible first
        | intro _ | assumption | apply State.setFld_keeps | apply State.setFlag_keeps
        | apply State.setReg_keeps | rfl
        | (extract_lets +onlyGivenNames -underBinder x; first | refine Keeps.cut x ?_ ?_ | skip)
    | with_reducible apply Keeps.mk_keeps

theorem execStepConfirm_keeps {s0 s : State} (h : Keeps s0 s) : OutKeeps s0 (execStepConfirm s) := by
  unfold execStepConfirm
  repeat' first
    | with_reducible first
        | intro _ | assumption | apply State.updTime_keeps | apply State.scheduleStep_keeps
        | apply State.sendAlign_keeps | apply State.logEvent_keeps | apply State.disqualify_keeps
        | apply State.changeSelection_keeps | apply State.enterHoldover_keeps | apply Keeps.ite
        | apply OutKeeps.ite | apply OutKeeps.next | rfl
        | (extract_lets +onlyGivenNames -underBinder x; first | refine Keeps.cut x ?_ ?_ | refine OutKeeps.cut x ?_ ?_ | skip)
    | split
    | with_reducible apply Keeps.mk_keeps

theorem execTimeStep_keeps {s0 s : State} (h : Keeps s0 s) : OutKeeps s0 (execTimeStep s) := by
  unfold execTimeStep
  repeat' first
    | with_reducible first
        | intro _ | assumption | apply State.updRef_keeps | apply State.setFld_keeps
        | apply State.setFlag_keeps | apply State.setReg_keeps | apply State.setBuild_keeps
        | apply State.updTime_keeps | apply State.refreshTime_keeps | apply State.logEvent_keeps
        | apply Keeps.ite | apply OutKeeps.ite | apply OutKeeps.next | rfl
        | (extract_lets +onlyGivenNames -underBinder x; first | refine Keeps.cut x ?_ ?_ | refine OutKeeps.cut x ?_ ?_ | skip)
    | split
    | with_reducible apply Keeps.mk_keeps

theorem execTimeDiscEnd_keeps {s0 s : State} (h : Keeps s0 s) : OutKeeps s0 (execTimeDiscEnd s) := by
  unfold execTimeDiscEnd
  repeat' first
    | with_reducible first
        | intro _ | assumption | apply State.setFlag_keeps | apply Keeps.ite | apply OutKeeps.ite
        | apply OutKeeps.next | rfl
    | split
    | with_reducible apply Keeps.mk_keeps

theorem State.readAnchor_keeps {s0 s : State} (h : Keeps s0 s) (m : Master) (elapsed : Nat) : Keeps s0 (State.readAnchor s m
    elapsed) := by
  unfold State.readAnchor
  repeat' first
    | with_reducible first
        | intro _ | assumption | apply State.setRdata_keeps | apply State.latch_keeps | rfl
        | (extract_lets +onlyGivenNames -underBinder x; first | refine Keeps.cut x ?_ ?_ | skip)
    | with_reducible apply Keeps.mk_keeps

theorem execTimeAnchorRead_keeps {s0 s : State} (h : Keeps s0 s) (m : Master) (elapsed : Fin 655360) : OutKeeps s0
    (execTimeAnchorRead m elapsed s) := by
  unfold execTimeAnchorRead
  repeat' first
    | with_reducible first
        | intro _ | assumption | apply State.readAnchor_keeps | apply OutKeeps.next | rfl
    | with_reducible apply Keeps.mk_keeps

theorem State.stepPps_keeps {s0 s : State} (h : Keeps s0 s) (k : Nat) : Keeps s0 (State.stepPps s k) := by
  unfold State.stepPps
  repeat' first
    | with_reducible first
        | intro _ | assumption | apply State.updTime_keeps | apply Keeps.ite | rfl
        | (extract_lets +onlyGivenNames -underBinder x; first | refine Keeps.cut x ?_ ?_ | skip)
    | split
    | with_reducible apply Keeps.mk_keeps

theorem State.stepOutputs_keeps {s0 s : State} (h : Keeps s0 s) : Keeps s0 (State.stepOutputs s) := by
  unfold State.stepOutputs
  repeat' first
    | with_reducible first
        | intro _ | assumption | apply State.stepPps_keeps | apply State.updTime_keeps | apply Keeps.foldl
        | rfl
        | (extract_lets +onlyGivenNames -underBinder x; first | refine Keeps.cut x ?_ ?_ | skip)
    | with_reducible apply Keeps.mk_keeps

theorem execTimingPortFrame_keeps {s0 s : State} (h : Keeps s0 s) (frame : List Byte) (captured : BitVec 72) : OutKeeps s0
    (execTimingPortFrame frame captured s) := by
  unfold execTimingPortFrame
  repeat' first
    | with_reducible first
        | intro _ | assumption | apply State.incFld_keeps | apply State.icRaise_keeps
        | apply State.updTime_keeps | apply Keeps.ite | apply OutKeeps.ite | apply OutKeeps.next | rfl
        | (extract_lets +onlyGivenNames -underBinder x; first | refine Keeps.cut x ?_ ?_ | refine OutKeeps.cut x ?_ ?_ | skip)
    | split
    | with_reducible apply Keeps.mk_keeps

theorem State.showTsq_keeps {s0 s : State} (h : Keeps s0 s) : Keeps s0 (State.showTsq s) := by
  unfold State.showTsq
  repeat' first
    | with_reducible first
        | intro _ | assumption | apply State.setFld_keeps | rfl
    | with_reducible apply Keeps.mk_keeps

theorem State.pushTsq_keeps {s0 s : State} (h : Keeps s0 s) (e : TsqEntry) : Keeps s0 (State.pushTsq s e) := by
  unfold State.pushTsq
  split
  · apply State.icRaise_keeps
    apply State.showTsq_keeps
    apply State.updTime_parts h
    intro _
    simp only [List.length_append, List.length_singleton]; omega
  · have k := State.updTime_keeps (State.incFld_keeps h F.TIME_TSQ_OVERFLOW_COUNT) (fun t => { t with tsqDropped := true }) rfl
    extract_lets s1
    split
    · exact k
    · apply State.logEvent_keeps
      exact k

theorem execTransmitRequest_keeps {s0 s : State} (h : Keeps s0 s) (r : TransmitRequest) : OutKeeps s0 (execTransmitRequest r s)
    := by
  unfold execTransmitRequest
  repeat' first
    | with_reducible first
        | intro _ | assumption | apply State.updTime_keeps | apply State.pushTsq_keeps | apply Keeps.ite
        | apply OutKeeps.ite | apply OutKeeps.next | rfl
        | (extract_lets +onlyGivenNames -underBinder x; first | refine Keeps.cut x ?_ ?_ | refine OutKeeps.cut x ?_ ?_ | skip)
    | split
    | with_reducible apply Keeps.mk_keeps

theorem State.popTsq_keeps {s0 s : State} (h : Keeps s0 s) (m : Master) : Keeps s0 (State.popTsq s m) := by
  unfold State.popTsq
  split
  · exact State.setRdata_keeps h _ _
  · rename_i e rest he
    apply State.setRdata_keeps
    apply State.latch_keeps
    apply State.showTsq_keeps
    apply State.updTime_parts h
    intro a
    rw [he] at a; exact Nat.le_of_succ_le a

theorem execTimeTsqPop_keeps {s0 s : State} (h : Keeps s0 s) (m : Master) : OutKeeps s0 (execTimeTsqPop m s) := by
  unfold execTimeTsqPop
  repeat' first
    | with_reducible first
        | intro _ | assumption | apply State.popTsq_keeps | apply OutKeeps.next | rfl
    | with_reducible apply Keeps.mk_keeps

theorem execTimingPortBlockLock_keeps {s0 s : State} (h : Keeps s0 s) (lock : Bool) (fault : Bool) : OutKeeps s0
    (execTimingPortBlockLock lock fault s) := by
  unfold execTimingPortBlockLock
  repeat' first
    | with_reducible first
        | intro _ | assumption | apply State.setFlag_keeps | apply OutKeeps.next | rfl
    | with_reducible apply Keeps.mk_keeps

theorem State.sendPrepared_keeps {s0 s : State} (h : Keeps s0 s) (take : Nat) (result : Nat) (digest : List Byte) : Keeps s0
    (State.sendPrepared s take result digest) := by
  unfold State.sendPrepared
  repeat' first
    | with_reducible first
        | intro _ | assumption | apply State.sendRecord_keeps | rfl
    | with_reducible apply Keeps.mk_keeps

theorem State.openImage_keeps {s0 s : State} (h : Keeps s0 s) : Keeps s0 (State.openImage s) := by
  unfold State.openImage
  repeat' first
    | with_reducible first
        | intro _ | assumption | apply State.updPair_keeps | apply State.setFld_keeps
        | apply State.endResync_keeps | apply State.setSby_keeps | rfl
        | (extract_lets +onlyGivenNames -underBinder x; first | refine Keeps.cut x ?_ ?_ | skip)
    | with_reducible apply Keeps.mk_keeps

theorem State.beginImage_keeps {s0 s : State} (h : Keeps s0 s) (take : Nat) (purpose : Nat) : Keeps s0 (State.beginImage s take
    purpose) := by
  unfold State.beginImage
  repeat' first
    | with_reducible first
        | intro _ | assumption | apply State.updPair_keeps | apply State.startResync_keeps
        | apply State.dropImage_keeps | apply State.openImage_keeps | apply Keeps.ite | rfl
        | (extract_lets +onlyGivenNames -underBinder x; first | refine Keeps.cut x ?_ ?_ | skip)
    | split
    | with_reducible apply Keeps.mk_keeps

theorem State.admitWaiting_keeps {s0 s : State} (h : Keeps s0 s) : Keeps s0 (State.admitWaiting s) := by
  unfold State.admitWaiting
  repeat' first
    | with_reducible first
        | intro _ | assumption | apply State.openImage_keeps | apply Keeps.ite | rfl
    | split
    | with_reducible apply Keeps.mk_keeps

theorem State.addPiece_keeps {s0 s : State} (h : Keeps s0 s) (piece : List Byte) : Keeps s0 (State.addPiece s piece) := by
  unfold State.addPiece
  repeat' first
    | with_reducible first
        | intro _ | assumption | apply State.updPair_keeps | rfl
    | with_reducible apply Keeps.mk_keeps

theorem State.stopTx_keeps {s0 s : State} (h : Keeps s0 s) : Keeps s0 (State.stopTx s) := by
  unfold State.stopTx
  repeat' first
    | with_reducible first
        | intro _ | assumption | apply State.refreshLaneState_keeps | apply State.txRequest_keeps
        | apply Keeps.ite | apply Keeps.foldl | rfl
    | split
    | with_reducible apply Keeps.mk_keeps

theorem State.placeImage_keeps {s0 s : State} (h : Keeps s0 s) : Keeps s0 (State.placeImage s) := by
  unfold State.placeImage
  dsimp only
  repeat' first
    | with_reducible first
        | assumption | apply State.admitWaiting_keeps | apply State.sendPrepared_keeps
        | apply State.dropReceiving_keeps | apply State.setDirty_keeps | apply State.setFld_keeps
        | apply State.writeImage_keeps | apply State.setSby_keeps | apply State.setStandby_keeps
        | apply State.writeBinding_keeps | apply State.dropImage_keeps | apply State.updPair_keeps
        | apply State.armAt_keeps | apply State.takeCand7_keeps | apply State.stopTx_keeps | apply Keeps.ite
        | apply Keeps.foldl | rfl | intro _
    | split
    | with_reducible apply Keeps.mk_keeps

theorem State.endImage_keeps {s0 s : State} (h : Keeps s0 s) : Keeps s0 (State.endImage s) := by
  unfold State.endImage
  repeat' first
    | with_reducible first
        | intro _ | assumption | apply State.placeImage_keeps | apply State.updPair_keeps | rfl
    | with_reducible apply Keeps.mk_keeps

theorem State.onTakeImage_keeps {s0 s : State} (h : Keeps s0 s) (body : List Byte) : Keeps s0 (State.onTakeImage s body) := by
  unfold State.onTakeImage
  repeat' first
    | with_reducible first
        | intro _ | assumption | apply State.beginImage_keeps | apply State.addPiece_keeps
        | apply State.endImage_keeps | apply Keeps.ite | rfl
        | (extract_lets +onlyGivenNames -underBinder x; first | refine Keeps.cut x ?_ ?_ | skip)
    | split
    | with_reducible apply Keeps.mk_keeps

theorem State.onTakeDelta_keeps {s0 s : State} (h : Keeps s0 s) (body : List Byte) : Keeps s0 (State.onTakeDelta s body) := by
  unfold State.onTakeDelta
  repeat' first
    | with_reducible first
        | intro _ | assumption | apply State.sendPrepared_keeps | apply State.endImage_keeps
        | apply State.addPiece_keeps | apply State.beginImage_keeps | apply Keeps.ite | rfl
        | (extract_lets +onlyGivenNames -underBinder x; first | refine Keeps.cut x ?_ ?_ | skip)
    | split
    | with_reducible apply Keeps.mk_keeps

theorem State.onPrepared_keeps {s0 s : State} (h : Keeps s0 s) (body : List Byte) : Keeps s0 (State.onPrepared s body) := by
  unfold State.onPrepared
  repeat' first
    | with_reducible first
        | intro _ | assumption | apply State.updHandle_keeps | apply State.updPair_keeps
        | apply State.fail_keeps | apply State.sendHandle_keeps | apply State.finish_keeps | apply Keeps.ite
        | rfl
        | (extract_lets +onlyGivenNames -underBinder x; first | refine Keeps.cut x ?_ ?_ | skip)
    | split
    | with_reducible apply Keeps.mk_keeps

theorem execPrepareTimeout_keeps {s0 s : State} (h : Keeps s0 s) : OutKeeps s0 (execPrepareTimeout s) := by
  unfold execPrepareTimeout
  dsimp only
  repeat' first
    | with_reducible first
        | assumption | apply State.updPair_keeps | apply State.fail_keeps | apply Keeps.ite
        | apply OutKeeps.ite | apply OutKeeps.next | rfl | intro _
    | split
    | with_reducible apply Keeps.mk_keeps

theorem State.sendOrderAck_keeps {s0 s : State} (h : Keeps s0 s) (take : Nat) (reel : Nat) (tag : Nat) (result : Nat) : Keeps s0
    (State.sendOrderAck s take reel tag result) := by
  unfold State.sendOrderAck
  repeat' first
    | with_reducible first
        | intro _ | assumption | apply State.sendRecord_keeps | rfl
    | with_reducible apply Keeps.mk_keeps

theorem State.onOrder_keeps {s0 s : State} (h : Keeps s0 s) (body : List Byte) : Keeps s0 (State.onOrder s body) := by
  unfold State.onOrder
  repeat' first
    | with_reducible first
        | intro _ | assumption | apply State.armAt_keeps | apply State.setFld_keeps
        | apply State.sendOrderAck_keeps | apply State.updPair_keeps | apply Keeps.ite | rfl
        | (extract_lets +onlyGivenNames -underBinder x; first | refine Keeps.cut x ?_ ?_ | skip)
    | split
    | with_reducible apply Keeps.mk_keeps

theorem State.onOrderAck_keeps {s0 s : State} (h : Keeps s0 s) (body : List Byte) : Keeps s0 (State.onOrderAck s body) := by
  unfold State.onOrderAck
  repeat' first
    | with_reducible first
        | intro _ | assumption | apply State.orderAcked_keeps | apply State.endOrder_keeps
        | apply State.setFld_keeps | apply Keeps.ite | rfl
        | (extract_lets +onlyGivenNames -underBinder x; first | refine Keeps.cut x ?_ ?_ | skip)
    | split
    | with_reducible apply Keeps.mk_keeps

theorem State.sendDiscard_keeps {s0 s : State} (h : Keeps s0 s) (take : Nat) : Keeps s0 (State.sendDiscard s take) := by
  unfold State.sendDiscard
  repeat' first
    | with_reducible first
        | intro _ | assumption | apply State.sendRecord_keeps | rfl
    | with_reducible apply Keeps.mk_keeps

theorem execOrderTimeout_keeps {s0 s : State} (h : Keeps s0 s) : OutKeeps s0 (execOrderTimeout s) := by
  unfold execOrderTimeout
  repeat' first
    | with_reducible first
        | intro _ | assumption | apply State.setFld_keeps | apply State.endOrder_keeps
        | apply State.sendDiscard_keeps | apply Keeps.ite | apply OutKeeps.ite | apply OutKeeps.next | rfl
        | (extract_lets +onlyGivenNames -underBinder x; first | refine Keeps.cut x ?_ ?_ | refine OutKeeps.cut x ?_ ?_ | skip)
    | split
    | with_reducible apply Keeps.mk_keeps

theorem State.onDiscard_keeps {s0 s : State} (h : Keeps s0 s) (body : List Byte) : Keeps s0 (State.onDiscard s body) := by
  unfold State.onDiscard
  repeat' first
    | with_reducible first
        | intro _ | assumption | apply State.updPair_keeps | apply State.startResync_keeps
        | apply State.dropReceiving_keeps | apply Keeps.ite | rfl
        | (extract_lets +onlyGivenNames -underBinder x; first | refine Keeps.cut x ?_ ?_ | skip)
    | split
    | with_reducible apply Keeps.mk_keeps

theorem State.onJournal_keeps {s0 s : State} (h : Keeps s0 s) (body : List Byte) : Keeps s0 (State.onJournal s body) := by
  unfold State.onJournal
  repeat' first
    | with_reducible first
        | intro _ | assumption | apply State.applyChange_keeps | apply State.updCirc_keeps | apply Keeps.ite
        | rfl
        | (extract_lets +onlyGivenNames -underBinder x; first | refine Keeps.cut x ?_ ?_ | skip)
    | split
    | with_reducible apply Keeps.mk_keeps

theorem State.onTimeAlign_keeps {s0 s : State} (h : Keeps s0 s) (body : List Byte) : Keeps s0 (State.onTimeAlign s body) := by
  unfold State.onTimeAlign
  repeat' first
    | with_reducible first
        | intro _ | assumption | apply State.updTime_keeps | apply State.updPair_keeps
        | apply State.refreshTime_keeps | apply State.scheduleStep_keeps | apply State.fenceSelf_keeps
        | apply State.logEvent_keeps | apply Keeps.ite | apply Keeps.foldl | rfl
        | (extract_lets +onlyGivenNames -underBinder x; first | refine Keeps.cut x ?_ ?_ | skip)
    | split
    | with_reducible apply Keeps.mk_keeps

theorem State.onHandle_keeps {s0 s : State} (h : Keeps s0 s) (body : List Byte) : Keeps s0 (State.onHandle s body) := by
  unfold State.onHandle
  repeat' first
    | with_reducible first
        | intro _ | assumption | apply State.updPair_keeps | apply Keeps.ite | rfl
        | (extract_lets +onlyGivenNames -underBinder x; first | refine Keeps.cut x ?_ ?_ | skip)
    | split
    | with_reducible apply Keeps.mk_keeps

theorem State.showDigest_keeps {s0 s : State} (h : Keeps s0 s) (ok : Bool) (take : Nat) (reel : Nat) : Keeps s0 (State.showDigest
    s ok take reel) := by
  unfold State.showDigest
  repeat' first
    | with_reducible first
        | intro _ | assumption | apply State.setFld_keeps | apply State.setFlag_keeps
        | apply State.logEvent_keeps | apply State.incFld_keeps | apply Keeps.ite | rfl
        | (extract_lets +onlyGivenNames -underBinder x; first | refine Keeps.cut x ?_ ?_ | skip)
    | split
    | with_reducible apply Keeps.mk_keeps

theorem State.sendResyncReq_keeps {s0 s : State} (h : Keeps s0 s) (reason : Nat) : Keeps s0 (State.sendResyncReq s reason) := by
  unfold State.sendResyncReq
  repeat' first
    | with_reducible first
        | intro _ | assumption | apply State.sendRecord_keeps | rfl
    | with_reducible apply Keeps.mk_keeps

theorem State.onDigest_keeps {s0 s : State} (h : Keeps s0 s) (body : List Byte) : Keeps s0 (State.onDigest s body) := by
  unfold State.onDigest
  repeat' first
    | with_reducible first
        | intro _ | assumption | apply State.showDigest_keeps | apply State.sendRecord_keeps
        | apply State.joinFail_keeps | apply State.updPair_keeps | apply State.fenceSelf_keeps
        | apply State.sendResyncReq_keeps | apply Keeps.ite | apply Keeps.foldl | rfl
        | (extract_lets +onlyGivenNames -underBinder x; first | refine Keeps.cut x ?_ ?_ | skip)
    | split
    | with_reducible apply Keeps.mk_keeps

theorem State.joinDone_keeps {s0 s : State} (h : Keeps s0 s) : Keeps s0 (State.joinDone s) := by
  unfold State.joinDone
  repeat' first
    | with_reducible first
        | intro _ | assumption | apply State.setRole_keeps | apply State.updPair_keeps | rfl
    | with_reducible apply Keeps.mk_keeps

theorem State.onDigestResult_keeps {s0 s : State} (h : Keeps s0 s) (body : List Byte) : Keeps s0 (State.onDigestResult s body)
    := by
  unfold State.onDigestResult
  repeat' first
    | with_reducible first
        | intro _ | assumption | apply State.showDigest_keeps | apply State.joinDone_keeps
        | apply State.joinFail_keeps | apply Keeps.ite | rfl
        | (extract_lets +onlyGivenNames -underBinder x; first | refine Keeps.cut x ?_ ?_ | skip)
    | split
    | with_reducible apply Keeps.mk_keeps

theorem State.sendDigest_keeps {s0 s : State} (h : Keeps s0 s) : Keeps s0 (State.sendDigest s) := by
  unfold State.sendDigest
  repeat' first
    | with_reducible first
        | intro _ | assumption | apply State.updPair_keeps | apply State.sendRecord_keeps | apply Keeps.ite
        | rfl
        | (extract_lets +onlyGivenNames -underBinder x; first | refine Keeps.cut x ?_ ?_ | skip)
    | split
    | with_reducible apply Keeps.mk_keeps

theorem execPairDigest_keeps {s0 s : State} (h : Keeps s0 s) : OutKeeps s0 (execPairDigest s) := by
  unfold execPairDigest
  repeat' first
    | with_reducible first
        | intro _ | assumption | apply State.sendDigest_keeps | apply Keeps.ite | apply OutKeeps.ite
        | apply OutKeeps.next | rfl
    | split
    | with_reducible apply Keeps.mk_keeps

theorem State.onResyncReq_keeps {s0 s : State} (h : Keeps s0 s) : Keeps s0 (State.onResyncReq s) := by
  unfold State.onResyncReq
  repeat' first
    | with_reducible first
        | intro _ | assumption | apply State.sendImage_keeps | apply Keeps.ite | rfl
    | split
    | with_reducible apply Keeps.mk_keeps

theorem execTakeSplit_keeps {s0 s : State} (h : Keeps s0 s) (n : LaneNo) : OutKeeps s0 (execTakeSplit n s) := by
  unfold execTakeSplit
  repeat' first
    | with_reducible first
        | intro _ | assumption | apply State.sendResyncReq_keeps | apply State.logEvent_keeps
        | apply State.setFlag_keeps | apply Keeps.ite | apply OutKeeps.ite | apply OutKeeps.next | rfl
    | split
    | with_reducible apply Keeps.mk_keeps

theorem State.deriveSession_keeps {s0 s : State} (h : Keeps s0 s) : Keeps s0 (State.deriveSession s) := by
  unfold State.deriveSession
  repeat' first
    | with_reducible first
        | intro _ | assumption | apply State.updPair_keeps | apply Keeps.ite | rfl
        | (extract_lets +onlyGivenNames -underBinder x; first | refine Keeps.cut x ?_ ?_ | skip)
    | split
    | with_reducible apply Keeps.mk_keeps

theorem State.drawNonce_keeps {s0 s : State} (h : Keeps s0 s) : Keeps s0 (State.drawNonce s) := by
  unfold State.drawNonce
  repeat' first
    | with_reducible first
        | intro _ | assumption | exact State.fresh_keeps_eq ‹_› ‹_› | apply State.fresh_keeps
        | apply State.updPair_keeps | rfl
        | (extract_lets +onlyGivenNames -underBinder x; first | refine Keeps.cut x ?_ ?_ | skip)
    | with_reducible apply Keeps.mk_keeps

theorem State.sendProof_keeps {s0 s : State} (h : Keeps s0 s) : Keeps s0 (State.sendProof s) := by
  unfold State.sendProof
  repeat' first
    | with_reducible first
        | intro _ | assumption | apply State.sendRecord_keeps | apply Keeps.ite | rfl
        | (extract_lets +onlyGivenNames -underBinder x; first | refine Keeps.cut x ?_ ?_ | skip)
    | split
    | with_reducible apply Keeps.mk_keeps

theorem execPairJoin_keeps {s0 s : State} (h : Keeps s0 s) (hh : Word) : OutKeeps s0 (execPairJoin hh s) := by
  unfold execPairJoin
  repeat' first
    | with_reducible first
        | intro _ | assumption | apply State.run_keeps | apply State.fail_keeps | apply State.setFlag_keeps
        | apply State.setFld_keeps | apply State.setRole_keeps | apply State.closeSession_keeps
        | apply State.cand7On_keeps | apply State.drawNonce_keeps | apply State.updPair_keeps
        | apply Keeps.ite | apply OutKeeps.ite | apply OutKeeps.next | rfl
        | (extract_lets +onlyGivenNames -underBinder x; first | refine Keeps.cut x ?_ ?_ | refine OutKeeps.cut x ?_ ?_ | skip)
    | split
    | with_reducible apply Keeps.mk_keeps

theorem State.refuseJoin_keeps {s0 s : State} (h : Keeps s0 s) (status : Nat) : Keeps s0 (State.refuseJoin s status) := by
  unfold State.refuseJoin
  repeat' first
    | with_reducible first
        | intro _ | assumption | apply State.sendEject_keeps | apply State.updPair_keeps
        | apply State.closeSession_keeps | apply State.logEvent_keeps | rfl
        | (extract_lets +onlyGivenNames -underBinder x; first | refine Keeps.cut x ?_ ?_ | skip)
    | with_reducible apply Keeps.mk_keeps

theorem State.answerHello_keeps {s0 s : State} (h : Keeps s0 s) (idBad : Bool) (clash : Bool) : Keeps s0 (State.answerHello s
    idBad clash) := by
  unfold State.answerHello
  repeat' first
    | with_reducible first
        | intro _ | assumption | apply State.deriveSession_keeps | apply State.drawNonce_keeps
        | apply State.setFld_keeps | apply State.when_keeps | apply State.logEvent_keeps
        | apply State.refuseJoin_keeps | apply State.sendProof_keeps | apply State.updPair_keeps
        | apply Keeps.ite | rfl
        | (extract_lets +onlyGivenNames -underBinder x; first | refine Keeps.cut x ?_ ?_ | skip)
    | split
    | with_reducible apply Keeps.mk_keeps

theorem execAuthHello_keeps {s0 s : State} (h : Keeps s0 s) (w : Wire) : OutKeeps s0 (execAuthHello w s) := by
  unfold execAuthHello
  repeat' first
    | with_reducible first
        | intro _ | assumption | apply State.discard_keeps | apply State.joinFail_keeps
        | apply State.sendProof_keeps | apply State.deriveSession_keeps | apply State.updPair_keeps
        | apply State.answerHello_keeps | apply Keeps.ite | apply OutKeeps.ite | apply OutKeeps.next | rfl
        | (extract_lets +onlyGivenNames -underBinder x; first | refine Keeps.cut x ?_ ?_ | refine OutKeeps.cut x ?_ ?_ | skip)
    | split
    | with_reducible apply Keeps.mk_keeps

theorem State.startSnapshot_keeps {s0 s : State} (h : Keeps s0 s) : Keeps s0 (State.startSnapshot s) := by
  unfold State.startSnapshot
  repeat' first
    | with_reducible first
        | intro _ | assumption | exact State.fresh_keeps_eq ‹_› ‹_› | apply State.updPair_keeps
        | apply State.fresh_keeps | apply State.sendRecord_keeps | apply Keeps.ite | apply Keeps.foldl | rfl
        | (extract_lets +onlyGivenNames -underBinder x; first | refine Keeps.cut x ?_ ?_ | skip)
    | split
    | with_reducible apply Keeps.mk_keeps

theorem State.authFailed_keeps {s0 s : State} (h : Keeps s0 s) : Keeps s0 (State.authFailed s) := by
  unfold State.authFailed
  repeat' first
    | with_reducible first
        | intro _ | assumption | apply State.incFld_keeps | apply State.joinFail_keeps
        | apply State.updPair_keeps | apply State.logEvent_keeps | apply Keeps.ite | rfl
        | (extract_lets +onlyGivenNames -underBinder x; first | refine Keeps.cut x ?_ ?_ | skip)
    | split
    | with_reducible apply Keeps.mk_keeps

theorem execAuthProof_keeps {s0 s : State} (h : Keeps s0 s) (w : Wire) : OutKeeps s0 (execAuthProof w s) := by
  unfold execAuthProof
  repeat' first
    | with_reducible first
        | intro _ | assumption | apply State.discard_keeps | apply State.authFailed_keeps
        | apply State.counted_keeps | apply State.settle_keeps | apply State.setFld_keeps
        | apply State.updPair_keeps | apply State.sendEject_keeps | apply State.startSnapshot_keeps
        | apply Keeps.ite | apply OutKeeps.ite | apply OutKeeps.next | rfl
        | (extract_lets +onlyGivenNames -underBinder x; first | refine Keeps.cut x ?_ ?_ | refine OutKeeps.cut x ?_ ?_ | skip)
    | split
    | with_reducible apply Keeps.mk_keeps

theorem State.onSnapBegin_keeps {s0 s : State} (h : Keeps s0 s) (body : List Byte) : Keeps s0 (State.onSnapBegin s body) := by
  unfold State.onSnapBegin
  repeat' first
    | with_reducible first
        | intro _ | assumption | apply State.beginImage_keeps | apply State.updPair_keeps | apply Keeps.ite
        | rfl
    | split
    | with_reducible apply Keeps.mk_keeps

theorem State.onSnapData_keeps {s0 s : State} (h : Keeps s0 s) (body : List Byte) : Keeps s0 (State.onSnapData s body) := by
  unfold State.onSnapData
  repeat' first
    | with_reducible first
        | intro _ | assumption | apply State.addPiece_keeps | apply Keeps.ite | rfl
    | split
    | with_reducible apply Keeps.mk_keeps

theorem State.onSnapEnd_keeps {s0 s : State} (h : Keeps s0 s) (body : List Byte) : Keeps s0 (State.onSnapEnd s body) := by
  unfold State.onSnapEnd
  repeat' first
    | with_reducible first
        | intro _ | assumption | apply State.endImage_keeps | apply State.joinFail_keeps | apply Keeps.ite
        | rfl
    | split
    | with_reducible apply Keeps.mk_keeps

theorem State.onJoinReady_keeps {s0 s : State} (h : Keeps s0 s) : Keeps s0 (State.onJoinReady s) := by
  unfold State.onJoinReady
  repeat' first
    | with_reducible first
        | intro _ | assumption | apply State.sendDigest_keeps | apply State.updPair_keeps | apply Keeps.ite
        | rfl
    | split
    | with_reducible apply Keeps.mk_keeps

theorem State.onEject_keeps {s0 s : State} (h : Keeps s0 s) (body : List Byte) : Keeps s0 (State.onEject s body) := by
  unfold State.onEject
  repeat' first
    | with_reducible first
        | intro _ | assumption | apply State.joinFail_keeps | apply State.fenceSelf_keeps | apply Keeps.ite
        | rfl
        | (extract_lets +onlyGivenNames -underBinder x; first | refine Keeps.cut x ?_ ?_ | skip)
    | split
    | with_reducible apply Keeps.mk_keeps

theorem execJoinTimeout_keeps {s0 s : State} (h : Keeps s0 s) : OutKeeps s0 (execJoinTimeout s) := by
  unfold execJoinTimeout
  repeat' first
    | with_reducible first
        | intro _ | assumption | apply State.joinFail_keeps | apply OutKeeps.next | rfl
    | with_reducible apply Keeps.mk_keeps

theorem execJoinLockoutEnd_keeps {s0 s : State} (h : Keeps s0 s) : OutKeeps s0 (execJoinLockoutEnd s) := by
  unfold execJoinLockoutEnd
  repeat' first
    | with_reducible first
        | intro _ | assumption | apply State.updPair_keeps | apply OutKeeps.next | rfl
    | with_reducible apply Keeps.mk_keeps

theorem State.joinBoundary_keeps {s0 s : State} (h : Keeps s0 s) : Keeps s0 (State.joinBoundary s) := by
  unfold State.joinBoundary
  repeat' first
    | with_reducible first
        | intro _ | assumption | apply State.startSnapshot_keeps | apply State.stopTx_keeps
        | apply State.setFld_keeps | apply State.armAt_keeps | apply State.updPair_keeps
        | apply State.sendRecord_keeps | apply Keeps.ite | rfl
        | (extract_lets +onlyGivenNames -underBinder x; first | refine Keeps.cut x ?_ ?_ | skip)
    | split
    | with_reducible apply Keeps.mk_keeps

theorem State.acceptHandover_keeps {s0 s : State} (h : Keeps s0 s) (hh : Nat) : Keeps s0 (State.acceptHandover s hh) := by
  unfold State.acceptHandover
  repeat' first
    | with_reducible first
        | intro _ | assumption | apply State.updPair_keeps | apply State.setFlag_keeps | rfl
    | with_reducible apply Keeps.mk_keeps

theorem State.noteExhausted_keeps {s0 s : State} (h : Keeps s0 s) (status : Nat) : Keeps s0 (State.noteExhausted s status) := by
  unfold State.noteExhausted
  repeat' first
    | with_reducible first
        | intro _ | assumption | apply State.when_keeps | apply State.logEvent_keeps | rfl
    | with_reducible apply Keeps.mk_keeps

theorem execPairHandover_keeps {s0 s : State} (h : Keeps s0 s) (hh : Word) : OutKeeps s0 (execPairHandover hh s) := by
  unfold execPairHandover
  repeat' first
    | with_reducible first
        | intro _ | assumption | apply State.run_keeps | apply State.fail_keeps | apply State.updPair_keeps
        | apply State.setFlag_keeps | apply State.sendRecord_keeps | apply State.noteExhausted_keeps
        | apply State.acceptHandover_keeps | apply Keeps.ite | apply OutKeeps.ite | apply OutKeeps.next | rfl
        | (extract_lets +onlyGivenNames -underBinder x; first | refine Keeps.cut x ?_ ?_ | refine OutKeeps.cut x ?_ ?_ | skip)
    | split
    | with_reducible apply Keeps.mk_keeps

theorem State.onHandoverReq_keeps {s0 s : State} (h : Keeps s0 s) (body : List Byte) : Keeps s0 (State.onHandoverReq s body) := by
  unfold State.onHandoverReq
  repeat' first
    | with_reducible first
        | intro _ | assumption | apply State.sendRecord_keeps | apply State.noteExhausted_keeps
        | apply State.acceptHandover_keeps | apply Keeps.ite | rfl
        | (extract_lets +onlyGivenNames -underBinder x; first | refine Keeps.cut x ?_ ?_ | skip)
    | split
    | with_reducible apply Keeps.mk_keeps

theorem State.onHandoverRefuse_keeps {s0 s : State} (h : Keeps s0 s) (body : List Byte) : Keeps s0 (State.onHandoverRefuse s
    body) := by
  unfold State.onHandoverRefuse
  repeat' first
    | with_reducible first
        | intro _ | assumption | apply State.fail_keeps | apply State.updPair_keeps
        | apply State.setFlag_keeps | apply Keeps.ite | rfl
    | split
    | with_reducible apply Keeps.mk_keeps

theorem State.endHandover_keeps {s0 s : State} (h : Keeps s0 s) (status : Nat) : Keeps s0 (State.endHandover s status) := by
  unfold State.endHandover
  repeat' first
    | with_reducible first
        | intro _ | assumption | apply State.setFlag_keeps | apply State.finish_keeps
        | apply State.updPair_keeps | rfl
        | (extract_lets +onlyGivenNames -underBinder x; first | refine Keeps.cut x ?_ ?_ | skip)
    | with_reducible apply Keeps.mk_keeps

theorem State.onHandoverAck_keeps {s0 s : State} (h : Keeps s0 s) : Keeps s0 (State.onHandoverAck s) := by
  unfold State.onHandoverAck
  repeat' first
    | with_reducible first
        | intro _ | assumption | apply State.endHandover_keeps | apply Keeps.ite | rfl
    | split
    | with_reducible apply Keeps.mk_keeps

theorem execAckLate_keeps {s0 s : State} (h : Keeps s0 s) : OutKeeps s0 (execAckLate s) := by
  unfold execAckLate
  repeat' first
    | with_reducible first
        | intro _ | assumption | apply State.endHandover_keeps | apply Keeps.ite | apply OutKeeps.ite
        | apply OutKeeps.next | rfl
    | split
    | with_reducible apply Keeps.mk_keeps

theorem execPairSolo_keeps {s0 s : State} (h : Keeps s0 s) (hh : Word) : OutKeeps s0 (execPairSolo hh s) := by
  unfold execPairSolo
  repeat' first
    | with_reducible first
        | intro _ | assumption | apply State.run_keeps | apply State.fail_keeps | apply State.updPair_keeps
        | apply State.noteExhausted_keeps | apply Keeps.ite | apply OutKeeps.ite | apply OutKeeps.next | rfl
    | split
    | with_reducible apply Keeps.mk_keeps

theorem State.leaveFence_keeps {s0 s : State} (h : Keeps s0 s) : Keeps s0 (State.leaveFence s) := by
  unfold State.leaveFence
  repeat' first
    | with_reducible first
        | intro _ | assumption | apply State.updSsw_keeps | apply State.setFlag_keeps
        | apply State.setReg_keeps | apply State.logEvent_keeps | apply State.updGctl_keeps | rfl
        | (extract_lets +onlyGivenNames -underBinder x; first | refine Keeps.cut x ?_ ?_ | skip)
    | with_reducible apply Keeps.mk_keeps

theorem State.setPorts_keeps {s0 s : State} (h : Keeps s0 s) (colourist : Bool) (continuity : Bool) : Keeps s0 (State.setPorts s
    colourist continuity) := by
  unfold State.setPorts
  repeat' first
    | with_reducible first
        | intro _ | assumption | apply State.setFlag_keeps | rfl
    | with_reducible apply Keeps.mk_keeps

theorem State.dropChange_keeps {s0 s : State} (h : Keeps s0 s) (c : PairChange) : Keeps s0 (State.dropChange s c) := by
  unfold State.dropChange
  repeat' first
    | with_reducible first
        | intro _ | assumption | apply State.updPair_keeps | apply State.joinFail_keeps
        | apply State.fail_keeps | apply Keeps.ite | rfl
        | (extract_lets +onlyGivenNames -underBinder x; first | refine Keeps.cut x ?_ ?_ | skip)
    | split
    | with_reducible apply Keeps.mk_keeps

theorem State.applyPairChange_keeps {s0 s : State} (h : Keeps s0 s) : Keeps s0 (State.applyPairChange s) := by
  unfold State.applyPairChange
  repeat' first
    | with_reducible first
        | intro _ | assumption | apply State.dropChange_keeps | apply State.setFld_keeps
        | apply State.updPair_keeps | apply State.leaveFence_keeps | apply State.setRole_keeps
        | apply State.releaseHeld_keeps | apply State.armUnacked_keeps | apply State.dropReceiving_keeps
        | apply State.setPorts_keeps | apply State.finish_keeps | apply State.leaveCand7_keeps
        | apply Keeps.ite | rfl
        | (extract_lets +onlyGivenNames -underBinder x; first | refine Keeps.cut x ?_ ?_ | skip)
    | split
    | with_reducible apply Keeps.mk_keeps

theorem State.finishYield_keeps {s0 s : State} (h : Keeps s0 s) : Keeps s0 (State.finishYield s) := by
  unfold State.finishYield
  repeat' first
    | with_reducible first
        | intro _ | assumption | apply State.sendRecord_keeps | apply State.setFlag_keeps
        | apply State.finish_keeps | apply State.updPair_keeps | apply Keeps.ite | rfl
        | (extract_lets +onlyGivenNames -underBinder x; first | refine Keeps.cut x ?_ ?_ | skip)
    | split
    | with_reducible apply Keeps.mk_keeps

theorem execYield_keeps {s0 s : State} (h : Keeps s0 s) : OutKeeps s0 (execYield s) := by
  unfold execYield
  repeat' first
    | with_reducible first
        | intro _ | assumption | apply State.setRole_keeps | apply State.setFld_keeps
        | apply State.takeCand7_keeps | apply State.setFlag_keeps | apply State.updPair_keeps
        | apply State.logEvent_keeps | apply State.finishYield_keeps | apply Keeps.ite | apply OutKeeps.ite
        | apply OutKeeps.next | rfl
        | (extract_lets +onlyGivenNames -underBinder x; first | refine Keeps.cut x ?_ ?_ | refine OutKeeps.cut x ?_ ?_ | skip)
    | split
    | with_reducible apply Keeps.mk_keeps

theorem State.postInherited_keeps {s0 s : State} (h : Keeps s0 s) (c : Completion) : Keeps s0 (State.postInherited s c) := by
  unfold State.postInherited
  repeat' first
    | with_reducible first
        | intro _ | assumption | apply State.mbxSend_keeps | apply State.putCompletion_keeps
        | apply State.logEvent_keeps | apply Keeps.ite | rfl
        | (extract_lets +onlyGivenNames -underBinder x; first | refine Keeps.cut x ?_ ?_ | skip)
    | split
    | with_reducible apply Keeps.mk_keeps

theorem State.inherit_keeps {s0 s : State} (h : Keeps s0 s) : Keeps s0 (State.inherit s) := by
  unfold State.inherit
  repeat' first
    | with_reducible first
        | intro _ | assumption | apply State.updPair_keeps | apply State.postInherited_keeps
        | apply Keeps.foldl | rfl
        | (extract_lets +onlyGivenNames -underBinder x; first | refine Keeps.cut x ?_ ?_ | skip)
    | split
    | with_reducible apply Keeps.mk_keeps

theorem execTakeover_keeps {s0 s : State} (h : Keeps s0 s) : OutKeeps s0 (execTakeover s) := by
  unfold execTakeover
  repeat' first
    | with_reducible first
        | intro _ | assumption | apply State.logEvent_keeps | apply State.setRole_keeps
        | apply State.setFld_keeps | apply State.leaveCand7_keeps | apply State.dropReceiving_keeps
        | apply State.setPorts_keeps | apply State.updPair_keeps | apply State.inherit_keeps | apply Keeps.ite
        | apply OutKeeps.ite | apply OutKeeps.next | rfl
        | (extract_lets +onlyGivenNames -underBinder x; first | refine Keeps.cut x ?_ ?_ | refine OutKeeps.cut x ?_ ?_ | skip)
    | split
    | with_reducible apply Keeps.mk_keeps

theorem State.actRecord_keeps {s0 s : State} (h : Keeps s0 s) (kind : Nat) (body : List Byte) : Keeps s0 (State.actRecord s kind
    body) := by
  unfold State.actRecord
  repeat' first
    | with_reducible first
        | intro _ | assumption | apply State.onAck_keeps | apply State.onSnapBegin_keeps
        | apply State.onSnapData_keeps | apply State.onSnapEnd_keeps | apply State.onTakeImage_keeps
        | apply State.onTakeDelta_keeps | apply State.onPrepared_keeps | apply State.onOrder_keeps
        | apply State.onOrderAck_keeps | apply State.onDiscard_keeps | apply State.onJournal_keeps
        | apply State.onTimeAlign_keeps | apply State.onDigest_keeps | apply State.onDigestResult_keeps
        | apply State.onResyncReq_keeps | apply State.onHandle_keeps | apply State.onHandoverReq_keeps
        | apply State.onHandoverAck_keeps | apply State.onJoinReady_keeps | apply State.onEject_keeps
        | apply State.onHandoverRefuse_keeps | rfl
    | split
    | with_reducible apply Keeps.mk_keeps

theorem State.receiveRecord_keeps {s0 s : State} (h : Keeps s0 s) (kind : Nat) (w : Wire) : Keeps s0 (State.receiveRecord s kind
    w) := by
  unfold State.receiveRecord
  repeat' first
    | with_reducible first
        | intro _ | assumption | apply State.accept_keeps | apply State.actRecord_keeps | rfl
    | with_reducible apply Keeps.mk_keeps

theorem execAck_keeps {s0 s : State} (h : Keeps s0 s) (w : Wire) : OutKeeps s0 (execAck w s) := by
  unfold execAck
  repeat' first
    | with_reducible first
        | intro _ | assumption | apply State.receiveRecord_keeps | apply OutKeeps.next | rfl
    | with_reducible apply Keeps.mk_keeps

theorem execSnapBegin_keeps {s0 s : State} (h : Keeps s0 s) (w : Wire) : OutKeeps s0 (execSnapBegin w s) := by
  unfold execSnapBegin
  repeat' first
    | with_reducible first
        | intro _ | assumption | apply State.receiveRecord_keeps | apply OutKeeps.next | rfl
    | with_reducible apply Keeps.mk_keeps

theorem execSnapData_keeps {s0 s : State} (h : Keeps s0 s) (w : Wire) : OutKeeps s0 (execSnapData w s) := by
  unfold execSnapData
  repeat' first
    | with_reducible first
        | intro _ | assumption | apply State.receiveRecord_keeps | apply OutKeeps.next | rfl
    | with_reducible apply Keeps.mk_keeps

theorem execSnapEnd_keeps {s0 s : State} (h : Keeps s0 s) (w : Wire) : OutKeeps s0 (execSnapEnd w s) := by
  unfold execSnapEnd
  repeat' first
    | with_reducible first
        | intro _ | assumption | apply State.receiveRecord_keeps | apply OutKeeps.next | rfl
    | with_reducible apply Keeps.mk_keeps

theorem execTakeImage_keeps {s0 s : State} (h : Keeps s0 s) (w : Wire) : OutKeeps s0 (execTakeImage w s) := by
  unfold execTakeImage
  repeat' first
    | with_reducible first
        | intro _ | assumption | apply State.receiveRecord_keeps | apply OutKeeps.next | rfl
    | with_reducible apply Keeps.mk_keeps

theorem execTakeDelta_keeps {s0 s : State} (h : Keeps s0 s) (w : Wire) : OutKeeps s0 (execTakeDelta w s) := by
  unfold execTakeDelta
  repeat' first
    | with_reducible first
        | intro _ | assumption | apply State.receiveRecord_keeps | apply OutKeeps.next | rfl
    | with_reducible apply Keeps.mk_keeps

theorem execPrepared_keeps {s0 s : State} (h : Keeps s0 s) (w : Wire) : OutKeeps s0 (execPrepared w s) := by
  unfold execPrepared
  repeat' first
    | with_reducible first
        | intro _ | assumption | apply State.receiveRecord_keeps | apply OutKeeps.next | rfl
    | with_reducible apply Keeps.mk_keeps

theorem execOrder_keeps {s0 s : State} (h : Keeps s0 s) (w : Wire) : OutKeeps s0 (execOrder w s) := by
  unfold execOrder
  repeat' first
    | with_reducible first
        | intro _ | assumption | apply State.receiveRecord_keeps | apply OutKeeps.next | rfl
    | with_reducible apply Keeps.mk_keeps

theorem execOrderAck_keeps {s0 s : State} (h : Keeps s0 s) (w : Wire) : OutKeeps s0 (execOrderAck w s) := by
  unfold execOrderAck
  repeat' first
    | with_reducible first
        | intro _ | assumption | apply State.receiveRecord_keeps | apply OutKeeps.next | rfl
    | with_reducible apply Keeps.mk_keeps

theorem execTakeDiscardRecord_keeps {s0 s : State} (h : Keeps s0 s) (w : Wire) : OutKeeps s0 (execTakeDiscardRecord w s) := by
  unfold execTakeDiscardRecord
  repeat' first
    | with_reducible first
        | intro _ | assumption | apply State.receiveRecord_keeps | apply OutKeeps.next | rfl
    | with_reducible apply Keeps.mk_keeps

theorem execJournal_keeps {s0 s : State} (h : Keeps s0 s) (w : Wire) : OutKeeps s0 (execJournal w s) := by
  unfold execJournal
  repeat' first
    | with_reducible first
        | intro _ | assumption | apply State.receiveRecord_keeps | apply OutKeeps.next | rfl
    | with_reducible apply Keeps.mk_keeps

theorem execTimeAlign_keeps {s0 s : State} (h : Keeps s0 s) (w : Wire) : OutKeeps s0 (execTimeAlign w s) := by
  unfold execTimeAlign
  repeat' first
    | with_reducible first
        | intro _ | assumption | apply State.receiveRecord_keeps | apply OutKeeps.next | rfl
    | with_reducible apply Keeps.mk_keeps

theorem execDigest_keeps {s0 s : State} (h : Keeps s0 s) (w : Wire) : OutKeeps s0 (execDigest w s) := by
  unfold execDigest
  repeat' first
    | with_reducible first
        | intro _ | assumption | apply State.receiveRecord_keeps | apply OutKeeps.next | rfl
    | with_reducible apply Keeps.mk_keeps

theorem execDigestResult_keeps {s0 s : State} (h : Keeps s0 s) (w : Wire) : OutKeeps s0 (execDigestResult w s) := by
  unfold execDigestResult
  repeat' first
    | with_reducible first
        | intro _ | assumption | apply State.receiveRecord_keeps | apply OutKeeps.next | rfl
    | with_reducible apply Keeps.mk_keeps

theorem execResyncReq_keeps {s0 s : State} (h : Keeps s0 s) (w : Wire) : OutKeeps s0 (execResyncReq w s) := by
  unfold execResyncReq
  repeat' first
    | with_reducible first
        | intro _ | assumption | apply State.receiveRecord_keeps | apply OutKeeps.next | rfl
    | with_reducible apply Keeps.mk_keeps

theorem execHandle_keeps {s0 s : State} (h : Keeps s0 s) (w : Wire) : OutKeeps s0 (execHandle w s) := by
  unfold execHandle
  repeat' first
    | with_reducible first
        | intro _ | assumption | apply State.receiveRecord_keeps | apply OutKeeps.next | rfl
    | with_reducible apply Keeps.mk_keeps

theorem execHandoverReq_keeps {s0 s : State} (h : Keeps s0 s) (w : Wire) : OutKeeps s0 (execHandoverReq w s) := by
  unfold execHandoverReq
  repeat' first
    | with_reducible first
        | intro _ | assumption | apply State.receiveRecord_keeps | apply OutKeeps.next | rfl
    | with_reducible apply Keeps.mk_keeps

theorem execHandoverAck_keeps {s0 s : State} (h : Keeps s0 s) (w : Wire) : OutKeeps s0 (execHandoverAck w s) := by
  unfold execHandoverAck
  repeat' first
    | with_reducible first
        | intro _ | assumption | apply State.receiveRecord_keeps | apply OutKeeps.next | rfl
    | with_reducible apply Keeps.mk_keeps

theorem execJoinReady_keeps {s0 s : State} (h : Keeps s0 s) (w : Wire) : OutKeeps s0 (execJoinReady w s) := by
  unfold execJoinReady
  repeat' first
    | with_reducible first
        | intro _ | assumption | apply State.receiveRecord_keeps | apply OutKeeps.next | rfl
    | with_reducible apply Keeps.mk_keeps

theorem execEject_keeps {s0 s : State} (h : Keeps s0 s) (w : Wire) : OutKeeps s0 (execEject w s) := by
  unfold execEject
  repeat' first
    | with_reducible first
        | intro _ | assumption | apply State.receiveRecord_keeps | apply OutKeeps.next | rfl
    | with_reducible apply Keeps.mk_keeps

theorem execHandoverRefuse_keeps {s0 s : State} (h : Keeps s0 s) (w : Wire) : OutKeeps s0 (execHandoverRefuse w s) := by
  unfold execHandoverRefuse
  repeat' first
    | with_reducible first
        | intro _ | assumption | apply State.receiveRecord_keeps | apply OutKeeps.next | rfl
    | with_reducible apply Keeps.mk_keeps

theorem execJournalApply_keeps {s0 s : State} (h : Keeps s0 s) : OutKeeps s0 (execJournalApply s) := by
  unfold execJournalApply
  repeat' first
    | with_reducible first
        | intro _ | assumption | apply State.updPair_keeps | apply State.actRecord_keeps | apply Keeps.ite
        | apply OutKeeps.ite | apply OutKeeps.next | apply Keeps.foldl | rfl
        | (extract_lets +onlyGivenNames -underBinder x; first | refine Keeps.cut x ?_ ?_ | refine OutKeeps.cut x ?_ ?_ | skip)
    | split
    | with_reducible apply Keeps.mk_keeps

end Sys2Proof.Machine
end

