-- ==== Sys2Proof/Laws/KeepsCommands.lean ====
section
/-!
SUPPORT. That the operations and meanings of host commands, bus and interrupt controller keep what must be kept (`Keeps`), one lemma each.
-/
namespace Sys2Proof.Machine
open Sys2Proof

set_option linter.all false

theorem State.circuitLeaves_keeps {s0 s : State} (h : Keeps s0 s) (c : Nat) (e : CircEntry) (q : Nat) : Keeps s0
    (State.circuitLeaves s c e q) := by
  unfold State.circuitLeaves
  repeat' first
    | with_reducible first
        | intro _ | assumption | apply State.updCirc_keeps | apply State.fdiEvent_keeps | apply Keeps.ite
        | rfl
        | (extract_lets +onlyGivenNames -underBinder x; first | refine Keeps.cut x ?_ ?_ | skip)
    | split
    | with_reducible apply Keeps.mk_keeps

theorem State.unpairLane_keeps {s0 s : State} (h : Keeps s0 s) (n : Nat) : Keeps s0 (State.unpairLane s n) := by
  unfold State.unpairLane
  repeat' first
    | with_reducible first
        | intro _ | assumption | apply State.setFlag_keeps | apply State.setFld_keeps
        | apply State.forgetSkew_keeps | rfl
        | (extract_lets +onlyGivenNames -underBinder x; first | refine Keeps.cut x ?_ ?_ | skip)
    | with_reducible apply Keeps.mk_keeps

theorem State.splicePairs_keeps {s0 s : State} (h : Keeps s0 s) (incoming : PageSet) : Keeps s0 (State.splicePairs s incoming)
    := by
  unfold State.splicePairs
  repeat' first
    | with_reducible first
        | intro _ | assumption | apply State.updCirc_keeps | apply State.forgetSkew_keeps
        | apply State.unpairLane_keeps | apply State.logEvent_keeps | apply State.showPool_keeps
        | apply Keeps.foldl | rfl
        | (extract_lets +onlyGivenNames -underBinder x; first | refine Keeps.cut x ?_ ?_ | skip)
    | split
    | with_reducible apply Keeps.mk_keeps

theorem State.doSplice_keeps {s0 s : State} (h : Keeps s0 s) (q : Nat) : Keeps s0 (State.doSplice s q) := by
  unfold State.doSplice
  repeat' first
    | with_reducible first
        | intro _ | assumption | apply State.updCirc_keeps | apply State.splicePairs_keeps
        | apply State.circuitLeaves_keeps | apply State.setFlag_keeps | apply State.setFld_keeps
        | apply State.endResync_keeps | apply State.setSby_keeps | apply State.updPair_keeps
        | apply State.notePresent_keeps | apply Keeps.ite | apply Keeps.foldl | rfl
        | (extract_lets +onlyGivenNames -underBinder x; first | refine Keeps.cut x ?_ ?_ | skip)
    | split
    | with_reducible apply Keeps.mk_keeps

theorem State.skipSplice_keeps {s0 s : State} (h : Keeps s0 s) (q : Nat) : Keeps s0 (State.skipSplice s q) := by
  unfold State.skipSplice
  repeat' first
    | with_reducible first
        | intro _ | assumption | apply State.setFld_keeps | apply State.setSby_keeps
        | apply State.dropPairs_keeps | apply State.incFld_keeps | apply State.logEvent_keeps
        | apply State.updPair_keeps | apply State.updSsw_keeps | apply State.fail_keeps
        | apply State.postInherited_keeps | apply State.armRepair_keeps | apply Keeps.ite | rfl
        | (extract_lets +onlyGivenNames -underBinder x; first | refine Keeps.cut x ?_ ?_ | skip)
    | split
    | with_reducible apply Keeps.mk_keeps

theorem State.undoSplice_keeps {s0 s : State} (h : Keeps s0 s) (q : Nat) : Keeps s0 (State.undoSplice s q) := by
  unfold State.undoSplice
  repeat' first
    | with_reducible first
        | intro _ | assumption | apply State.setFlag_keeps | apply State.setFld_keeps
        | apply State.updCirc_keeps | apply State.skipSplice_keeps | apply State.updPair_keeps
        | apply Keeps.ite | rfl
        | (extract_lets +onlyGivenNames -underBinder x; first | refine Keeps.cut x ?_ ?_ | skip)
    | split
    | with_reducible apply Keeps.mk_keeps

theorem State.fenceAtSplice_keeps {s0 s : State} (h : Keeps s0 s) (q : Nat) : Keeps s0 (State.fenceAtSplice s q) := by
  unfold State.fenceAtSplice
  repeat' first
    | with_reducible first
        | intro _ | assumption | apply State.undoSplice_keeps | apply Keeps.ite | rfl
    | split
    | with_reducible apply Keeps.mk_keeps

theorem execSplice_keeps {s0 s : State} (h : Keeps s0 s) : OutKeeps s0 (execSplice s) := by
  unfold execSplice
  repeat' first
    | with_reducible first
        | intro _ | assumption | apply State.skipSplice_keeps | apply State.doSplice_keeps | apply Keeps.ite
        | apply OutKeeps.ite | apply OutKeeps.next | rfl
        | (extract_lets +onlyGivenNames -underBinder x; first | refine Keeps.cut x ?_ ?_ | refine OutKeeps.cut x ?_ ?_ | skip)
    | split
    | with_reducible apply Keeps.mk_keeps

theorem execSeamReelEnd_keeps {s0 s : State} (h : Keeps s0 s) : OutKeeps s0 (execSeamReelEnd s) := by
  unfold execSeamReelEnd
  repeat' first
    | with_reducible first
        | intro _ | assumption | apply State.endRetires_keeps | apply State.showPool_keeps
        | apply State.updCirc_keeps | apply State.icEdge_keeps | apply State.setFld_keeps
        | apply State.startResync_keeps | apply State.updPair_keeps | apply State.updSsw_keeps
        | apply State.finish_keeps | apply State.postInherited_keeps | apply State.restartTx_keeps
        | apply State.startSnapshot_keeps | apply Keeps.ite | apply OutKeeps.ite | apply OutKeeps.next | rfl
        | (extract_lets +onlyGivenNames -underBinder x; first | refine Keeps.cut x ?_ ?_ | refine OutKeeps.cut x ?_ ?_ | skip)
    | split
    | with_reducible apply Keeps.mk_keeps

theorem execResyncDone_keeps {s0 s : State} (h : Keeps s0 s) (uncorrectable : List (MemKind × Nat)) : OutKeeps s0 (execResyncDone
    uncorrectable s) := by
  unfold execResyncDone
  repeat' first
    | with_reducible first
        | intro _ | assumption | apply State.placeImage_keeps | apply State.resyncDone_keeps
        | apply OutKeeps.next | rfl
    | with_reducible apply Keeps.mk_keeps

theorem State.setCtx_keeps {s0 s : State} (h : Keeps s0 s) (hh : Nat) (ctx : Nat) : Keeps s0 (State.setCtx s hh ctx) := by
  unfold State.setCtx
  repeat' first
    | with_reducible first
        | intro _ | assumption | apply State.updHandle_keeps | rfl
    | with_reducible apply Keeps.mk_keeps

theorem execNop_keeps {s0 s : State} (h : Keeps s0 s) (hh : Word) : OutKeeps s0 (execNop hh s) := by
  unfold execNop
  repeat' first
    | with_reducible first
        | intro _ | assumption | apply State.run_keeps | apply State.finish_keeps | apply OutKeeps.next | rfl
    | with_reducible apply Keeps.mk_keeps

theorem State.tracePart_keeps {s0 s : State} (h : Keeps s0 s) (hh : Nat) (part : Nat) (q : Nat) : Keeps s0 (State.tracePart s hh
    part q) := by
  unfold State.tracePart
  repeat' first
    | with_reducible first
        | intro _ | assumption | apply State.setCtx_keeps | apply State.finish_keeps | apply Keeps.ite | rfl
        | (extract_lets +onlyGivenNames -underBinder x; first | refine Keeps.cut x ?_ ?_ | skip)
    | split
    | with_reducible apply Keeps.mk_keeps

theorem execLaneTrace_keeps {s0 s : State} (h : Keeps s0 s) (hh : Word) (sg : List (Nat × Nat)) (obj : List Byte) : OutKeeps s0
    (execLaneTrace hh sg obj s) := by
  unfold execLaneTrace
  repeat' first
    | with_reducible first
        | intro _ | assumption | apply State.run_keeps | apply State.receive_keeps | apply State.setCtx_keeps
        | apply State.updLane_keeps | apply State.setReg_keeps | apply State.tracePart_keeps | apply Keeps.ite
        | apply OutKeeps.ite | apply OutKeeps.next | apply Keeps.foldl | rfl
        | (extract_lets +onlyGivenNames -underBinder x; first | refine Keeps.cut x ?_ ?_ | refine OutKeeps.cut x ?_ ?_ | skip)
    | split
    | with_reducible apply Keeps.mk_keeps

theorem State.dissolveCourier_keeps {s0 s : State} (h : Keeps s0 s) (n : Nat) : Keeps s0 (State.dissolveCourier s n) := by
  unfold State.dissolveCourier
  repeat' first
    | with_reducible first
        | intro _ | assumption | apply State.updCmc_keeps | rfl
    | split
    | with_reducible apply Keeps.mk_keeps

theorem execLaneCmc_keeps {s0 s : State} (h : Keeps s0 s) (hh : Word) : OutKeeps s0 (execLaneCmc hh s) := by
  unfold execLaneCmc
  dsimp only
  repeat' first
    | with_reducible first
        | assumption | apply State.run_keeps | apply State.dissolveCourier_keeps | apply State.updCmc_keeps
        | apply OutKeeps.next | rfl | intro _
    | split
    | with_reducible apply Keeps.mk_keeps

theorem execTakeCompile_keeps {s0 s : State} (h : Keeps s0 s) (hh : Word) (sg : List (Nat × Nat)) (obj : List Byte) : OutKeeps s0
    (execTakeCompile hh sg obj s) := by
  unfold execTakeCompile
  repeat' first
    | with_reducible first
        | intro _ | assumption | apply State.run_keeps | apply State.receive_keeps
        | apply State.requestJob_keeps | apply OutKeeps.next | rfl
        | (extract_lets +onlyGivenNames -underBinder x; first | refine Keeps.cut x ?_ ?_ | refine OutKeeps.cut x ?_ ?_ | skip)
    | with_reducible apply Keeps.mk_keeps

theorem execTakeIncrement_keeps {s0 s : State} (h : Keeps s0 s) (hh : Word) (sg : List (Nat × Nat)) (obj : List Byte) : OutKeeps
    s0 (execTakeIncrement hh sg obj s) := by
  unfold execTakeIncrement
  repeat' first
    | with_reducible first
        | intro _ | assumption | apply State.run_keeps | apply State.receive_keeps
        | apply State.requestJob_keeps | apply OutKeeps.next | rfl
        | (extract_lets +onlyGivenNames -underBinder x; first | refine Keeps.cut x ?_ ?_ | refine OutKeeps.cut x ?_ ?_ | skip)
    | with_reducible apply Keeps.mk_keeps

theorem execTakeDiscard_keeps {s0 s : State} (h : Keeps s0 s) (hh : Word) : OutKeeps s0 (execTakeDiscard hh s) := by
  unfold execTakeDiscard
  repeat' first
    | with_reducible first
        | intro _ | assumption | apply State.run_keeps | apply State.fail_keeps | apply State.updPair_keeps
        | apply State.startResync_keeps | apply State.sendHandle_keeps | apply State.sendDiscard_keeps
        | apply State.finishAcked_keeps | apply Keeps.ite | apply OutKeeps.ite | apply OutKeeps.next | rfl
        | (extract_lets +onlyGivenNames -underBinder x; first | refine Keeps.cut x ?_ ?_ | refine OutKeeps.cut x ?_ ?_ | skip)
    | split
    | with_reducible apply Keeps.mk_keeps

theorem State.armHost_keeps {s0 s : State} (h : Keeps s0 s) (hh : Nat) (reel : Nat) : Keeps s0 (State.armHost s hh reel) := by
  unfold State.armHost
  repeat' first
    | with_reducible first
        | intro _ | assumption | apply State.armAt_keeps | apply State.updSsw_keeps | apply State.fail_keeps
        | apply Keeps.ite | rfl
        | (extract_lets +onlyGivenNames -underBinder x; first | refine Keeps.cut x ?_ ?_ | skip)
    | split
    | with_reducible apply Keeps.mk_keeps

theorem State.sendOrder_keeps {s0 s : State} (h : Keeps s0 s) (hh : Nat) (take : Nat) (reel : Nat) : Keeps s0 (State.sendOrder s
    hh take reel) := by
  unfold State.sendOrder
  repeat' first
    | with_reducible first
        | intro _ | assumption | apply State.updPair_keeps | apply State.setFld_keeps
        | apply State.sendRecord_keeps | apply Keeps.ite | rfl
        | (extract_lets +onlyGivenNames -underBinder x; first | refine Keeps.cut x ?_ ?_ | skip)
    | split
    | with_reducible apply Keeps.mk_keeps

theorem execTakeSplice_keeps {s0 s : State} (h : Keeps s0 s) (hh : Word) : OutKeeps s0 (execTakeSplice hh s) := by
  unfold execTakeSplice
  repeat' first
    | with_reducible first
        | intro _ | assumption | apply State.run_keeps | apply State.fail_keeps | apply State.armHost_keeps
        | apply State.sendOrder_keeps | apply Keeps.ite | apply OutKeeps.ite | apply OutKeeps.next | rfl
        | (extract_lets +onlyGivenNames -underBinder x; first | refine Keeps.cut x ?_ ?_ | refine OutKeeps.cut x ?_ ?_ | skip)
    | split
    | with_reducible apply Keeps.mk_keeps

theorem execSpliceCancel_keeps {s0 s : State} (h : Keeps s0 s) (hh : Word) : OutKeeps s0 (execSpliceCancel hh s) := by
  unfold execSpliceCancel
  repeat' first
    | with_reducible first
        | intro _ | assumption | apply State.run_keeps | apply State.fail_keeps | apply State.finish_keeps
        | apply State.updPair_keeps | apply State.cancelSplice_keeps | apply Keeps.ite | apply OutKeeps.ite
        | apply OutKeeps.next | rfl
        | (extract_lets +onlyGivenNames -underBinder x; first | refine Keeps.cut x ?_ ?_ | refine OutKeeps.cut x ?_ ?_ | skip)
    | split
    | with_reducible apply Keeps.mk_keeps

theorem execReportTake_keeps {s0 s : State} (h : Keeps s0 s) (hh : Word) (sg : List (Nat × Nat)) : OutKeeps s0 (execReportTake hh
    sg s) := by
  unfold execReportTake
  repeat' first
    | with_reducible first
        | intro _ | assumption | apply State.run_keeps | apply State.fail_keeps | apply State.deliver_keeps
        | apply State.finish_keeps | apply Keeps.ite | apply OutKeeps.ite | apply OutKeeps.next | rfl
        | (extract_lets +onlyGivenNames -underBinder x; first | refine Keeps.cut x ?_ ?_ | refine OutKeeps.cut x ?_ ?_ | skip)
    | split
    | with_reducible apply Keeps.mk_keeps

theorem execFence_keeps {s0 s : State} (h : Keeps s0 s) (hh : Word) : OutKeeps s0 (execFence hh s) := by
  unfold execFence
  repeat' first
    | with_reducible first
        | intro _ | assumption | apply State.run_keeps | apply State.detect_keeps | apply State.finish_keeps
        | apply Keeps.ite | apply OutKeeps.ite | apply OutKeeps.next | rfl
        | (extract_lets +onlyGivenNames -underBinder x; first | refine Keeps.cut x ?_ ?_ | refine OutKeeps.cut x ?_ ?_ | skip)
    | split
    | with_reducible apply Keeps.mk_keeps

theorem execCmcSend_keeps {s0 s : State} (h : Keeps s0 s) (hh : Word) (sg : List (Nat × Nat)) (obj : List Byte) : OutKeeps s0
    (execCmcSend hh sg obj s) := by
  unfold execCmcSend
  repeat' first
    | with_reducible first
        | intro _ | assumption | apply State.run_keeps | apply State.receive_keeps | apply State.fail_keeps
        | apply State.finish_keeps | apply State.updCmc_keeps | apply OutKeeps.next | apply Keeps.foldl | rfl
        | (extract_lets +onlyGivenNames -underBinder x; first | refine Keeps.cut x ?_ ?_ | refine OutKeeps.cut x ?_ ?_ | skip)
    | split
    | with_reducible apply Keeps.mk_keeps

theorem execLogRead_keeps {s0 s : State} (h : Keeps s0 s) (hh : Word) (sg : List (Nat × Nat)) : OutKeeps s0 (execLogRead hh sg s)
    := by
  unfold execLogRead
  repeat' first
    | with_reducible first
        | intro _ | assumption | apply State.run_keeps | apply State.fail_keeps | apply State.deliver_keeps
        | apply State.finish_keeps | apply Keeps.ite | apply OutKeeps.ite | apply OutKeeps.next | rfl
        | (extract_lets +onlyGivenNames -underBinder x; first | refine Keeps.cut x ?_ ?_ | refine OutKeeps.cut x ?_ ?_ | skip)
    | split
    | with_reducible apply Keeps.mk_keeps

theorem execFacetRetire_keeps {s0 s : State} (h : Keeps s0 s) (hh : Word) : OutKeeps s0 (execFacetRetire hh s) := by
  unfold execFacetRetire
  repeat' first
    | with_reducible first
        | intro _ | assumption | apply State.run_keeps | apply State.fail_keeps | apply State.retire_keeps
        | apply State.setCtx_keeps | apply State.finish_keeps | apply State.leaveReservation_keeps
        | apply Keeps.ite | apply OutKeeps.ite | apply OutKeeps.next | rfl
        | (extract_lets +onlyGivenNames -underBinder x; first | refine Keeps.cut x ?_ ?_ | refine OutKeeps.cut x ?_ ?_ | skip)
    | split
    | with_reducible apply Keeps.mk_keeps

theorem execFacetReinstate_keeps {s0 s : State} (h : Keeps s0 s) (hh : Word) : OutKeeps s0 (execFacetReinstate hh s) := by
  unfold execFacetReinstate
  repeat' first
    | with_reducible first
        | intro _ | assumption | apply State.run_keeps | apply State.fail_keeps | apply State.finish_keeps
        | apply State.setFacet_keeps | apply Keeps.ite | apply OutKeeps.ite | apply OutKeeps.next | rfl
        | (extract_lets +onlyGivenNames -underBinder x; first | refine Keeps.cut x ?_ ?_ | refine OutKeeps.cut x ?_ ?_ | skip)
    | split
    | with_reducible apply Keeps.mk_keeps

theorem execEyeHistogram_keeps {s0 s : State} (h : Keeps s0 s) (hh : Word) (sg : List (Nat × Nat)) (obj : List Byte) : OutKeeps
    s0 (execEyeHistogram hh sg obj s) := by
  unfold execEyeHistogram
  repeat' first
    | with_reducible first
        | intro _ | assumption | apply State.run_keeps | apply State.fail_keeps | apply State.deliver_keeps
        | apply State.finish_keeps | apply Keeps.ite | apply OutKeeps.ite | apply OutKeeps.next | rfl
    | split
    | with_reducible apply Keeps.mk_keeps

theorem State.denied_keeps {s0 s : State} (h : Keeps s0 s) (port : Nat) (addr : Nat) (cause : Nat) : Keeps s0 (State.denied s
    port addr cause) := by
  unfold State.denied
  repeat' first
    | with_reducible first
        | intro _ | assumption | apply State.setFld_keeps | apply State.incFld_keeps
        | apply State.icEdge_keeps | apply State.logEvent_keeps | apply State.setReg_keeps | rfl
        | (extract_lets +onlyGivenNames -underBinder x; first | refine Keeps.cut x ?_ ?_ | skip)
    | with_reducible apply Keeps.mk_keeps

theorem State.writeRefused_keeps {s0 s : State} (h : Keeps s0 s) (m : Master) (off : Nat) : Keeps s0 (State.writeRefused s m off)
    := by
  unfold State.writeRefused
  repeat' first
    | with_reducible first
        | intro _ | assumption | apply State.logEvent_keeps | rfl
    | with_reducible apply Keeps.mk_keeps

theorem State.orphans_keeps {s0 s : State} (h : Keeps s0 s) (masters : List Nat) (l : List Burst) : Keeps s0 (State.orphans s
    masters l) := by
  unfold State.orphans
  repeat' first
    | with_reducible first
        | intro _ | assumption | apply State.setReg_keeps | apply State.setFld_keeps
        | apply State.incFld_keeps | apply State.icEdge_keeps | apply State.logEvent_keeps | apply Keeps.foldl
        | rfl
        | (extract_lets +onlyGivenNames -underBinder x; first | refine Keeps.cut x ?_ ?_ | skip)
    | with_reducible apply Keeps.mk_keeps

theorem State.memErr_keeps {s0 s : State} (h : Keeps s0 s) (t : Target) (port : Nat) (e : Ecc) : Keeps s0 (State.memErr s t port
    e) := by
  unfold State.memErr
  repeat' first
    | with_reducible first
        | intro _ | assumption | apply State.incFld_keeps | apply State.icEdge_keeps
        | apply State.logEvent_keeps | apply State.setReg_keeps | rfl
        | (extract_lets +onlyGivenNames -underBinder x; first | refine Keeps.cut x ?_ ?_ | skip)
    | split
    | with_reducible apply Keeps.mk_keeps

theorem State.raiseExc_keeps {s0 s : State} (h : Keeps s0 s) (c : Nat) (cause : Nat) (tval : Nat) : Keeps s0 (State.raiseExc s c
    cause tval) := by
  unfold State.raiseExc
  repeat' first
    | with_reducible first
        | intro _ | assumption | apply State.updCore_keeps | rfl
    | with_reducible apply Keeps.mk_keeps

theorem State.armSource_keeps {s0 s : State} (h : Keeps s0 s) (n : Nat) : Keeps s0 (State.armSource s n) := by
  unfold State.armSource
  repeat' first
    | with_reducible first
        | intro _ | assumption | apply State.setFlag_keeps | apply State.icPend_keeps | apply Keeps.ite | rfl
        | (extract_lets +onlyGivenNames -underBinder x; first | refine Keeps.cut x ?_ ?_ | skip)
    | split
    | with_reducible apply Keeps.mk_keeps

theorem execArm_keeps {s0 s : State} (h : Keeps s0 s) (n : Fin 1280) : OutKeeps s0 (execArm n s) := by
  unfold execArm
  repeat' first
    | with_reducible first
        | intro _ | assumption | apply State.armSource_keeps | apply OutKeeps.next | rfl
    | with_reducible apply Keeps.mk_keeps

theorem State.writeIcSrc_keeps {s0 s : State} (h : Keeps s0 s) (n : Nat) (v : Word) : Keeps s0 (State.writeIcSrc s n v) := by
  unfold State.writeIcSrc
  repeat' first
    | with_reducible first
        | intro _ | assumption | apply State.setFld_keeps | apply State.when_keeps | apply State.setFlag_keeps
        | apply State.icSettle_keeps | apply State.armSource_keeps | rfl
        | (extract_lets +onlyGivenNames -underBinder x; first | refine Keeps.cut x ?_ ?_ | skip)
    | with_reducible apply Keeps.mk_keeps

theorem State.writeSwi_keeps {s0 s : State} (h : Keeps s0 s) (v : Word) : Keeps s0 (State.writeSwi s v) := by
  unfold State.writeSwi
  repeat' first
    | with_reducible first
        | intro _ | assumption | apply State.icEdge_keeps | apply Keeps.foldl | rfl
    | with_reducible apply Keeps.mk_keeps

theorem execIcSwiSet_keeps {s0 s : State} (h : Keeps s0 s) (v : Word) : OutKeeps s0 (execIcSwiSet v s) := by
  unfold execIcSwiSet
  repeat' first
    | with_reducible first
        | intro _ | assumption | apply State.writeSwi_keeps | apply OutKeeps.next | rfl
    | with_reducible apply Keeps.mk_keeps

theorem State.writeHostSet_keeps {s0 s : State} (h : Keeps s0 s) (v : Word) : Keeps s0 (State.writeHostSet s v) := by
  unfold State.writeHostSet
  repeat' first
    | with_reducible first
        | intro _ | assumption | apply State.icEdge_keeps | rfl
    | with_reducible apply Keeps.mk_keeps

theorem execIcHostSet_keeps {s0 s : State} (h : Keeps s0 s) (v : Word) : OutKeeps s0 (execIcHostSet v s) := by
  unfold execIcHostSet
  repeat' first
    | with_reducible first
        | intro _ | assumption | apply State.writeHostSet_keeps | apply OutKeeps.next | rfl
    | with_reducible apply Keeps.mk_keeps

theorem execStormEnd_keeps {s0 s : State} (h : Keeps s0 s) (n : Fin 1280) : OutKeeps s0 (execStormEnd n s) := by
  unfold execStormEnd
  repeat' first
    | with_reducible first
        | intro _ | assumption | apply State.icSettle_keeps | apply State.setFlag_keeps | apply Keeps.ite
        | apply OutKeeps.ite | apply OutKeeps.next | rfl
        | (extract_lets +onlyGivenNames -underBinder x; first | refine Keeps.cut x ?_ ?_ | refine OutKeeps.cut x ?_ ?_ | skip)
    | split
    | with_reducible apply Keeps.mk_keeps

theorem State.showService_keeps {s0 s : State} (h : Keeps s0 s) (c : Nat) : Keeps s0 (State.showService s c) := by
  unfold State.showService
  dsimp only
  repeat' first
    | with_reducible first
        | assumption | apply State.setFld_keeps | rfl | intro _
    | split
    | with_reducible apply Keeps.mk_keeps

theorem execVectorFetch_keeps {s0 s : State} (h : Keeps s0 s) (c : Fin 4) (r : CoreRegs) : OutKeeps s0 (execVectorFetch c r s)
    := by
  unfold execVectorFetch
  dsimp only
  repeat' first
    | with_reducible first
        | assumption | apply State.updCore_keeps | apply State.icDelivered_keeps | apply State.when_keeps
        | apply State.incFld_keeps | apply State.setFlag_keeps | apply State.showService_keeps
        | apply State.raiseExc_keeps | apply State.denied_keeps | apply Keeps.ite | apply OutKeeps.ite
        | apply OutKeeps.next | rfl | intro _
    | split
    | with_reducible apply Keeps.mk_keeps

theorem execTrapEntry_keeps {s0 s : State} (h : Keeps s0 s) (c : Fin 4) (r : CoreRegs) (cause : Word) (tval : Word) : OutKeeps s0
    (execTrapEntry c r cause tval s) := by
  unfold execTrapEntry
  repeat' first
    | with_reducible first
        | intro _ | assumption | apply State.updCore_keeps | apply OutKeeps.next | rfl
        | (extract_lets +onlyGivenNames -underBinder x; first | refine Keeps.cut x ?_ ?_ | refine OutKeeps.cut x ?_ ?_ | skip)
    | split
    | with_reducible apply Keeps.mk_keeps

theorem execMret_keeps {s0 s : State} (h : Keeps s0 s) (c : Fin 4) (r : CoreRegs) : OutKeeps s0 (execMret c r s) := by
  unfold execMret
  repeat' first
    | with_reducible first
        | intro _ | assumption | exact State.fresh_keeps_eq ‹_› ‹_› | apply State.updCore_keeps
        | apply State.raiseExc_keeps | apply State.fresh_keeps | apply State.showService_keeps
        | apply Keeps.ite | apply OutKeeps.ite | apply OutKeeps.next | rfl
        | (extract_lets +onlyGivenNames -underBinder x; first | refine Keeps.cut x ?_ ?_ | refine OutKeeps.cut x ?_ ?_ | skip)
    | split
    | with_reducible apply Keeps.mk_keeps

theorem execWfi_keeps {s0 s : State} (h : Keeps s0 s) (c : Fin 4) (r : CoreRegs) : OutKeeps s0 (execWfi c r s) := by
  unfold execWfi
  repeat' first
    | with_reducible first
        | intro _ | assumption | apply State.updCore_keeps | apply OutKeeps.next | rfl
        | (extract_lets +onlyGivenNames -underBinder x; first | refine Keeps.cut x ?_ ?_ | refine OutKeeps.cut x ?_ ?_ | skip)
    | with_reducible apply Keeps.mk_keeps

theorem State.resetCore_keeps {s0 s : State} (h : Keeps s0 s) (c : Nat) : Keeps s0 (State.resetCore s c) := by
  unfold State.resetCore
  repeat' first
    | with_reducible first
        | intro _ | assumption | apply State.updCore_keeps | apply State.armSource_keeps
        | apply State.showService_keeps | apply Keeps.ite | apply Keeps.foldl | rfl
        | (extract_lets +onlyGivenNames -underBinder x; first | refine Keeps.cut x ?_ ?_ | skip)
    | split
    | with_reducible apply Keeps.mk_keeps

theorem State.setCounter_keeps {s0 s : State} (h : Keeps s0 s) (c : Nat) (k : Nat) (v : Nat) : Keeps s0 (State.setCounter s c k
    v) := by
  unfold State.setCounter
  repeat' first
    | with_reducible first
        | intro _ | assumption | apply State.updCore_keeps | rfl
    | with_reducible apply Keeps.mk_keeps

theorem State.overflow_keeps {s0 s : State} (h : Keeps s0 s) (c : Nat) (k : Nat) : Keeps s0 (State.overflow s c k) := by
  unfold State.overflow
  repeat' first
    | with_reducible first
        | intro _ | assumption | apply State.setFlag_keeps | apply State.icRaise_keeps | apply Keeps.ite | rfl
        | (extract_lets +onlyGivenNames -underBinder x; first | refine Keeps.cut x ?_ ?_ | skip)
    | split
    | with_reducible apply Keeps.mk_keeps

theorem State.advance_keeps {s0 s : State} (h : Keeps s0 s) (c : Nat) (k : Nat) (adv : Nat) : Keeps s0 (State.advance s c k adv)
    := by
  unfold State.advance
  repeat' first
    | with_reducible first
        | intro _ | assumption | apply State.setCounter_keeps | apply State.overflow_keeps | apply Keeps.ite
        | rfl
        | (extract_lets +onlyGivenNames -underBinder x; first | refine Keeps.cut x ?_ ?_ | skip)
    | split
    | with_reducible apply Keeps.mk_keeps

theorem State.setShadow_keeps {s0 s : State} (h : Keeps s0 s) (c : Nat) (k : Nat) (v : Option Nat) : Keeps s0 (State.setShadow s
    c k v) := by
  unfold State.setShadow
  repeat' first
    | with_reducible first
        | intro _ | assumption | apply State.updCore_keeps | rfl
    | with_reducible apply Keeps.mk_keeps

theorem execCounterRead_keeps {s0 s : State} (h : Keeps s0 s) (c : Fin 4) (user : Bool) (k : Fin 9) (high : Bool) (adv : Nat) :
    OutKeeps s0 (execCounterRead c user k high adv s) := by
  unfold execCounterRead
  repeat' first
    | with_reducible first
        | intro _ | assumption | apply State.advance_keeps | apply State.raiseExc_keeps
        | apply State.setRdata_keeps | apply State.setShadow_keeps | apply Keeps.ite | apply OutKeeps.ite
        | apply OutKeeps.next | rfl
        | (extract_lets +onlyGivenNames -underBinder x; first | refine Keeps.cut x ?_ ?_ | refine OutKeeps.cut x ?_ ?_ | skip)
    | split
    | with_reducible apply Keeps.mk_keeps

theorem execCounterWrite_keeps {s0 s : State} (h : Keeps s0 s) (c : Fin 4) (user : Bool) (k : Fin 9) (part : CounterPart) (v :
    Word) (adv : Nat) : OutKeeps s0 (execCounterWrite c user k part v adv s) := by
  unfold execCounterWrite
  repeat' first
    | with_reducible first
        | intro _ | assumption | apply State.advance_keeps | apply State.raiseExc_keeps
        | apply State.setShadow_keeps | apply State.setCounter_keeps | apply State.updCore_keeps
        | apply State.icRaise_keeps | apply Keeps.ite | apply OutKeeps.ite | apply OutKeeps.next | rfl
        | (extract_lets +onlyGivenNames -underBinder x; first | refine Keeps.cut x ?_ ?_ | refine OutKeeps.cut x ?_ ?_ | skip)
    | split
    | with_reducible apply Keeps.mk_keeps

theorem execCounterOverflow_keeps {s0 s : State} (h : Keeps s0 s) (c : Fin 4) (k : Fin 9) : OutKeeps s0 (execCounterOverflow c k
    s) := by
  unfold execCounterOverflow
  repeat' first
    | with_reducible first
        | intro _ | assumption | apply State.overflow_keeps | apply State.setCounter_keeps | apply Keeps.ite
        | apply OutKeeps.ite | apply OutKeeps.next | rfl
        | (extract_lets +onlyGivenNames -underBinder x; first | refine Keeps.cut x ?_ ?_ | refine OutKeeps.cut x ?_ ?_ | skip)
    | split
    | with_reducible apply Keeps.mk_keeps

theorem State.showTags_keeps {s0 s : State} (h : Keeps s0 s) (c : Nat) : Keeps s0 (State.showTags s c) := by
  unfold State.showTags
  repeat' first
    | with_reducible first
        | intro _ | assumption | apply State.setFld_keeps | rfl
    | with_reducible apply Keeps.mk_keeps

theorem State.drawTag_keeps {s0 s : State} (h : Keeps s0 s) (c : Nat) : Keeps s0 (State.drawTag s c) := by
  unfold State.drawTag
  repeat' first
    | with_reducible first
        | intro _ | assumption | exact State.fresh_keeps_eq ‹_› ‹_› | apply State.fresh_keeps
        | apply State.updCore_keeps | rfl
        | (extract_lets +onlyGivenNames -underBinder x; first | refine Keeps.cut x ?_ ?_ | skip)
    | with_reducible apply Keeps.mk_keeps

theorem execTagSample_keeps {s0 s : State} (h : Keeps s0 s) (c : Fin 4) (pc : Word) (latency : Nat) (stall : Fin 8) (miss :
    BitVec 4) (user : Bool) (trapped : Bool) : OutKeeps s0 (execTagSample c pc latency stall miss user trapped s) := by
  unfold execTagSample
  repeat' first
    | with_reducible first
        | intro _ | assumption | apply State.drawTag_keeps | apply State.showTags_keeps
        | apply State.updCore_keeps | apply State.icRaise_keeps | apply State.incFld_keeps | apply Keeps.ite
        | apply OutKeeps.ite | apply OutKeeps.next | rfl
        | (extract_lets +onlyGivenNames -underBinder x; first | refine Keeps.cut x ?_ ?_ | refine OutKeeps.cut x ?_ ?_ | skip)
    | split
    | with_reducible apply Keeps.mk_keeps

theorem State.popTag_keeps {s0 s : State} (h : Keeps s0 s) (m : Master) (c : Nat) : Keeps s0 (State.popTag s m c).2 := by
  unfold State.popTag
  repeat' first
    | with_reducible first
        | intro _ | assumption | apply State.latch_keeps | apply State.showTags_keeps
        | apply State.updCore_keeps | rfl
    | split
    | with_reducible apply Keeps.mk_keeps

theorem State.popTag_keeps_eq {s0 s : State} (h : Keeps s0 s) (m : Master) (c : Nat) {t : State} {r : _} (e : (State.popTag s m c) = (r, t)) : Keeps s0 t := by
  have k := State.popTag_keeps h m c
  rw [e] at k; exact k

theorem execMssTagSampleRead_keeps {s0 s : State} (h : Keeps s0 s) (m : Master) (c : Fin 4) : OutKeeps s0 (execMssTagSampleRead m
    c s) := by
  unfold execMssTagSampleRead
  repeat' first
    | with_reducible first
        | intro _ | assumption | exact State.popTag_keeps_eq ‹_› ‹_› | apply State.popTag_keeps
        | apply State.setRdata_keeps | apply OutKeeps.next | rfl
        | (extract_lets +onlyGivenNames -underBinder x; first | refine Keeps.cut x ?_ ?_ | refine OutKeeps.cut x ?_ ?_ | skip)
    | with_reducible apply Keeps.mk_keeps

end Sys2Proof.Machine
end

