-- ==== Sys2Proof/Laws/KeepsMss.lean ====
section
/-!
SUPPORT. That the operations and meanings of management subsystem and security keep what must be kept (`Keeps`), one lemma each.
-/
namespace Sys2Proof.Machine
open Sys2Proof

set_option linter.all false

theorem State.mgmtRestart_keeps {s0 s : State} (h : Keeps s0 s) (cause : Nat) (bursts : List Burst) : Keeps s0 (State.mgmtRestart
    s cause bursts) := by
  unfold State.mgmtRestart
  repeat' first
    | with_reducible first
        | intro _ | assumption | apply State.orphans_keeps | apply State.setFld_keeps
        | apply State.incFld_keeps | apply State.setFlag_keeps | apply State.alert_keeps
        | apply State.setReg_keeps | apply State.resetCore_keeps | apply State.stopCompile_keeps
        | apply State.updMss_keeps | apply Keeps.ite | apply Keeps.foldl | rfl
        | (extract_lets +onlyGivenNames -underBinder x; first | refine Keeps.cut x ?_ ?_ | skip)
    | split
    | with_reducible apply Keeps.mk_keeps

theorem State.writeRestart_keeps {s0 s : State} (h : Keeps s0 s) (v : Word) (bursts : List Burst) : Keeps s0 (State.writeRestart
    s v bursts) := by
  unfold State.writeRestart
  repeat' first
    | with_reducible first
        | intro _ | assumption | apply State.wkWrite_keeps | apply State.mgmtRestart_keeps | apply Keeps.ite
        | rfl
    | split
    | with_reducible apply Keeps.mk_keeps

theorem execMssRestart_keeps {s0 s : State} (h : Keeps s0 s) (_m : Master) (v : Word) (bursts : List Burst) : OutKeeps s0
    (execMssRestart _m v bursts s) := by
  unfold execMssRestart
  repeat' first
    | with_reducible first
        | intro _ | assumption | apply State.writeRestart_keeps | apply OutKeeps.next | rfl
    | with_reducible apply Keeps.mk_keeps

theorem execCore0LeavesReset_keeps {s0 s : State} (h : Keeps s0 s) : OutKeeps s0 (execCore0LeavesReset s) := by
  unfold execCore0LeavesReset
  repeat' first
    | with_reducible first
        | intro _ | assumption | apply State.setFld_keeps | apply State.setFlag_keeps | apply Keeps.ite
        | apply OutKeeps.ite | apply OutKeeps.next | rfl
    | split
    | with_reducible apply Keeps.mk_keeps

theorem execAutoAge_keeps {s0 s : State} (h : Keeps s0 s) (bursts : List Burst) : OutKeeps s0 (execAutoAge bursts s) := by
  unfold execAutoAge
  repeat' first
    | with_reducible first
        | intro _ | assumption | apply State.mgmtRestart_keeps | apply State.updMss_keeps | apply Keeps.ite
        | apply OutKeeps.ite | apply OutKeeps.next | rfl
        | (extract_lets +onlyGivenNames -underBinder x; first | refine Keeps.cut x ?_ ?_ | refine OutKeeps.cut x ?_ ?_ | skip)
    | split
    | with_reducible apply Keeps.mk_keeps

theorem State.writeHold_keeps {s0 s : State} (h : Keeps s0 s) (m : Master) (v : Word) (bursts : List Burst) : Keeps s0
    (State.writeHold s m v bursts) := by
  unfold State.writeHold
  repeat' first
    | with_reducible first
        | intro _ | assumption | apply State.writeRefused_keeps | apply State.setFld_keeps
        | apply State.resetCore_keeps | apply State.setFlag_keeps | apply State.orphans_keeps
        | apply Keeps.ite | apply Keeps.foldl | rfl
        | (extract_lets +onlyGivenNames -underBinder x; first | refine Keeps.cut x ?_ ?_ | skip)
    | split
    | with_reducible apply Keeps.mk_keeps

theorem execHoldWrite_keeps {s0 s : State} (h : Keeps s0 s) (m : Master) (v : Word) (bursts : List Burst) : OutKeeps s0
    (execHoldWrite m v bursts s) := by
  unfold execHoldWrite
  repeat' first
    | with_reducible first
        | intro _ | assumption | apply State.writeHold_keeps | apply OutKeeps.next | rfl
    | with_reducible apply Keeps.mk_keeps

theorem State.writeRemap_keeps {s0 s : State} (h : Keeps s0 s) (m : Master) (v : Word) : Keeps s0 (State.writeRemap s m v) := by
  unfold State.writeRemap
  repeat' first
    | with_reducible first
        | intro _ | assumption | apply State.writeRefused_keeps | apply State.updMss_keeps
        | apply State.setFlag_keeps | apply Keeps.ite | rfl
    | split
    | with_reducible apply Keeps.mk_keeps

theorem execRemapWrite_keeps {s0 s : State} (h : Keeps s0 s) (m : Master) (v : Word) : OutKeeps s0 (execRemapWrite m v s) := by
  unfold execRemapWrite
  repeat' first
    | with_reducible first
        | intro _ | assumption | apply State.writeRemap_keeps | apply OutKeeps.next | rfl
    | with_reducible apply Keeps.mk_keeps

theorem State.readBoot_keeps {s0 s : State} (h : Keeps s0 s) : Keeps s0 (State.readBoot s) := by
  unfold State.readBoot
  repeat' first
    | with_reducible first
        | intro _ | assumption | apply State.setFlag_keeps | apply State.updCore_keeps | apply Keeps.ite
        | apply Keeps.foldl | rfl
        | (extract_lets +onlyGivenNames -underBinder x; first | refine Keeps.cut x ?_ ?_ | skip)
    | split
    | with_reducible apply Keeps.mk_keeps

theorem execRemapReadback_keeps {s0 s : State} (h : Keeps s0 s) (machine : Bool) : OutKeeps s0 (execRemapReadback machine s) := by
  unfold execRemapReadback
  repeat' first
    | with_reducible first
        | intro _ | assumption | apply State.readBoot_keeps | apply State.setRdata_keeps | apply OutKeeps.next
        | rfl
        | (extract_lets +onlyGivenNames -underBinder x; first | refine Keeps.cut x ?_ ?_ | refine OutKeeps.cut x ?_ ?_ | skip)
    | with_reducible apply Keeps.mk_keeps

theorem State.badWindow_keeps {s0 s : State} (h : Keeps s0 s) (w : Nat) : Keeps s0 (State.badWindow s w) := by
  unfold State.badWindow
  repeat' first
    | with_reducible first
        | intro _ | assumption | apply State.updMss_keeps | apply State.incFld_keeps
        | apply State.icEdge_keeps | apply State.logEvent_keeps | apply Keeps.ite | rfl
        | (extract_lets +onlyGivenNames -underBinder x; first | refine Keeps.cut x ?_ ?_ | skip)
    | split
    | with_reducible apply Keeps.mk_keeps

theorem execWindowBorrow_keeps {s0 s : State} (h : Keeps s0 s) (fault : Bool) : OutKeeps s0 (execWindowBorrow fault s) := by
  unfold execWindowBorrow
  repeat' first
    | with_reducible first
        | intro _ | assumption | apply State.updMss_keeps | apply State.setFld_keeps | apply State.when_keeps
        | apply State.badWindow_keeps | apply State.incFld_keeps | apply Keeps.ite | apply OutKeeps.ite
        | apply OutKeeps.next | rfl
        | (extract_lets +onlyGivenNames -underBinder x; first | refine Keeps.cut x ?_ ?_ | refine OutKeeps.cut x ?_ ?_ | skip)
    | split
    | with_reducible apply Keeps.mk_keeps

theorem State.writeMtest_keeps {s0 s : State} (h : Keeps s0 s) (v : Word) (bursts : List Burst) : Keeps s0 (State.writeMtest s v
    bursts) := by
  unfold State.writeMtest
  repeat' first
    | with_reducible first
        | intro _ | assumption | apply State.when_keeps | apply State.setFld_keeps | apply State.orphans_keeps
        | apply State.setFlag_keeps | rfl
        | (extract_lets +onlyGivenNames -underBinder x; first | refine Keeps.cut x ?_ ?_ | skip)
    | with_reducible apply Keeps.mk_keeps

theorem execMtestEnWrite_keeps {s0 s : State} (h : Keeps s0 s) (v : Word) (bursts : List Burst) : OutKeeps s0 (execMtestEnWrite v
    bursts s) := by
  unfold execMtestEnWrite
  repeat' first
    | with_reducible first
        | intro _ | assumption | apply State.writeMtest_keeps | apply OutKeeps.next | rfl
    | with_reducible apply Keeps.mk_keeps

theorem execSramStartupTest_keeps {s0 s : State} (h : Keeps s0 s) (bad : List (Fin 4096)) : OutKeeps s0 (execSramStartupTest bad
    s) := by
  unfold execSramStartupTest
  apply OutKeeps.next
  split
  · exact h
  · apply State.setFld_keeps
    apply State.setFlag_keeps
    apply State.updMss_parts
    · apply Keeps.foldl
      · intro s w hs; apply State.badWindow_keeps hs
      · exact h
    · exact fun _ => rfl
    · exact id
    · exact fun _ => rfl

theorem State.storeWord_keeps {s0 s : State} (h : Keeps s0 s) (c : Nat) (t : Target) (v : Nat) : Keeps s0 (State.storeWord s c t
    v) := by
  unfold State.storeWord
  apply Keeps.foldl
  · intro s k hs
    split
    · apply State.updCore_keeps hs
    · exact hs
  · cases t
    case sram off =>
      refine State.updMss_parts h _ (fun w => ?_) (fun w => ?_) fun _ => ?_ <;> dsimp only [Mss.storeSram] <;> split <;>
        first | rfl | assumption | exact Memory.wf_writeBytes _ _ _ w
    all_goals first
      | exact State.updMss_keeps h _ rfl rfl rfl
      | exact State.updMss_parts h _ id (Memory.wf_writeBytes _ _ _) fun _ => rfl

theorem State.atomic_keeps {s0 s : State} (h : Keeps s0 s) (c : Nat) (machine : Bool) (load : Bool) (a : Nat) (act : Target →
    State → State) (h_act : ∀ x0 x1, Keeps s0 x1 → Keeps s0 (act x0 x1)) : Keeps s0 (State.atomic s c machine load a act) := by
  unfold State.atomic
  repeat' first
    | with_reducible first
        | intro _ | assumption | apply h_act | apply State.raiseExc_keeps | apply State.denied_keeps
        | apply Keeps.ite | rfl
        | (extract_lets +onlyGivenNames -underBinder x; first | refine Keeps.cut x ?_ ?_ | skip)
    | split
    | with_reducible apply Keeps.mk_keeps

theorem State.checked_keeps {s0 s : State} (h : Keeps s0 s) (c : Nat) (a : Nat) (load : Bool) (t : Target) (ecc : Ecc) (act :
    State → State) (h_act : ∀ x0, Keeps s0 x0 → Keeps s0 (act x0)) : Keeps s0 (State.checked s c a load t ecc act) := by
  unfold State.checked
  repeat' first
    | with_reducible first
        | intro _ | assumption | apply h_act | apply State.memErr_keeps | apply State.raiseExc_keeps
        | apply Keeps.ite | rfl
        | (extract_lets +onlyGivenNames -underBinder x; first | refine Keeps.cut x ?_ ?_ | skip)
    | split
    | with_reducible apply Keeps.mk_keeps

theorem execLrW_keeps {s0 s : State} (h : Keeps s0 s) (c : Fin 4) (machine : Bool) (addr : Word) (ecc : Ecc) : OutKeeps s0
    (execLrW c machine addr ecc s) := by
  unfold execLrW
  repeat' first
    | with_reducible first
        | intro _ | assumption | apply State.atomic_keeps | apply State.checked_keeps
        | apply State.setRdata_keeps | apply State.updCore_keeps | apply OutKeeps.next | rfl
    | with_reducible apply Keeps.mk_keeps

theorem execScW_keeps {s0 s : State} (h : Keeps s0 s) (c : Fin 4) (machine : Bool) (addr : Word) (v : Word) : OutKeeps s0
    (execScW c machine addr v s) := by
  unfold execScW
  repeat' first
    | with_reducible first
        | intro _ | assumption | apply State.when_keeps | apply State.updCore_keeps | apply State.atomic_keeps
        | apply State.setRdata_keeps | apply State.storeWord_keeps | apply Keeps.ite | apply OutKeeps.ite
        | apply OutKeeps.next | rfl
        | (extract_lets +onlyGivenNames -underBinder x; first | refine Keeps.cut x ?_ ?_ | refine OutKeeps.cut x ?_ ?_ | skip)
    | split
    | with_reducible apply Keeps.mk_keeps

theorem execAmo_keeps {s0 s : State} (h : Keeps s0 s) (c : Fin 4) (machine : Bool) (op : AmoOp) (addr : Word) (v : Word) (ecc :
    Ecc) : OutKeeps s0 (execAmo c machine op addr v ecc s) := by
  unfold execAmo
  repeat' first
    | with_reducible first
        | intro _ | assumption | apply State.atomic_keeps | apply State.checked_keeps
        | apply State.setRdata_keeps | apply State.storeWord_keeps | apply OutKeeps.next | rfl
        | (extract_lets +onlyGivenNames -underBinder x; first | refine Keeps.cut x ?_ ?_ | refine OutKeeps.cut x ?_ ?_ | skip)
    | with_reducible apply Keeps.mk_keeps

theorem execFenceInstruction_keeps {s0 s : State} (h : Keeps s0 s) (_c : Fin 4) : OutKeeps s0 (execFenceInstruction _c s) := by
  unfold execFenceInstruction
  repeat' first
    | with_reducible first
        | intro _ | assumption | apply OutKeeps.next | rfl
    | with_reducible apply Keeps.mk_keeps

theorem execFenceI_keeps {s0 s : State} (h : Keeps s0 s) (c : Fin 4) : OutKeeps s0 (execFenceI c s) := by
  unfold execFenceI
  repeat' first
    | with_reducible first
        | intro _ | assumption | apply State.updCore_keeps | apply OutKeeps.next | rfl
    | with_reducible apply Keeps.mk_keeps

theorem State.secWrite_keeps {s0 s : State} (h : Keeps s0 s) (m : Master) (off : Nat) (matters : Bool) (act : State → State)
    (h_act : ∀ x0, Keeps s0 x0 → Keeps s0 (act x0)) : Keeps s0 (State.secWrite s m off matters act) := by
  unfold State.secWrite
  repeat' first
    | with_reducible first
        | intro _ | assumption | apply h_act | apply State.writeRefused_keeps | apply State.wkWrite_keeps
        | apply Keeps.ite | rfl
    | split
    | with_reducible apply Keeps.mk_keeps

theorem State.clearKeyload_keeps {s0 s : State} (h : Keeps s0 s) (keep : Nat) : Keeps s0 (State.clearKeyload s keep) := by
  unfold State.clearKeyload
  repeat' first
    | with_reducible first
        | intro _ | assumption | apply State.updMss_keeps | apply State.setReg_keeps | apply Keeps.ite
        | apply Keeps.foldl | rfl
    | split
    | with_reducible apply Keeps.mk_keeps

theorem State.zeroise_keeps {s0 s : State} (h : Keeps s0 s) : Keeps s0 (State.zeroise s) := by
  unfold State.zeroise
  split
  · exact h
  · extract_lets s1 s2
    have k : Keeps s0 s2 := by
      apply State.clearKeyload_keeps
      apply State.setFlag_keeps
      apply State.updMss_parts
      · apply State.setFlag_keeps h
      · exact id
      · exact fun _ => rfl
      · exact fun _ => rfl
    split
    · apply State.joinFail_keeps k
    · apply State.closeSession_keeps k

theorem State.writeZeroise_keeps {s0 s : State} (h : Keeps s0 s) (m : Master) (v : Word) : Keeps s0 (State.writeZeroise s m v)
    := by
  unfold State.writeZeroise
  repeat' first
    | with_reducible first
        | intro _ | assumption | apply State.when_keeps | apply State.setFlag_keeps
        | apply State.secWrite_keeps | apply State.zeroise_keeps | apply State.wkWrite_keeps | apply Keeps.ite
        | rfl
        | (extract_lets +onlyGivenNames -underBinder x; first | refine Keeps.cut x ?_ ?_ | skip)
    | split
    | with_reducible apply Keeps.mk_keeps

theorem execZeroiseReq_keeps {s0 s : State} (h : Keeps s0 s) (m : Master) (v : Word) : OutKeeps s0 (execZeroiseReq m v s) := by
  unfold execZeroiseReq
  repeat' first
    | with_reducible first
        | intro _ | assumption | apply State.writeZeroise_keeps | apply OutKeeps.next | rfl
    | with_reducible apply Keeps.mk_keeps

theorem execZeroisationEnd_keeps {s0 s : State} (h : Keeps s0 s) (ok : Bool) : OutKeeps s0 (execZeroisationEnd ok s) := by
  unfold execZeroisationEnd
  repeat' first
    | with_reducible first
        | intro _ | assumption | apply State.setFlag_keeps | apply State.logEvent_keeps
        | apply State.updMss_keeps | apply Keeps.ite | apply OutKeeps.ite | apply OutKeeps.next | rfl
        | (extract_lets +onlyGivenNames -underBinder x; first | refine Keeps.cut x ?_ ?_ | refine OutKeeps.cut x ?_ ?_ | skip)
    | split
    | with_reducible apply Keeps.mk_keeps

theorem State.tamper_keeps {s0 s : State} (h : Keeps s0 s) : Keeps s0 (State.tamper s) := by
  unfold State.tamper
  repeat' first
    | with_reducible first
        | intro _ | assumption | apply State.setFlag_keeps | apply State.updMss_keeps
        | apply State.icPend_keeps | apply State.detect_keeps | apply State.logEvent_keeps
        | apply State.zeroise_keeps | apply Keeps.ite | rfl
        | (extract_lets +onlyGivenNames -underBinder x; first | refine Keeps.cut x ?_ ?_ | skip)
    | split
    | with_reducible apply Keeps.mk_keeps

theorem execTamper_keeps {s0 s : State} (h : Keeps s0 s) : OutKeeps s0 (execTamper s) := by
  unfold execTamper
  repeat' first
    | with_reducible first
        | intro _ | assumption | apply State.tamper_keeps | apply OutKeeps.next | rfl
    | with_reducible apply Keeps.mk_keeps

theorem execVddIoRemoved_keeps {s0 s : State} (h : Keeps s0 s) : OutKeeps s0 (execVddIoRemoved s) := by
  unfold execVddIoRemoved
  repeat' first
    | with_reducible first
        | intro _ | assumption | apply State.setFlag_keeps | apply State.setFld_keeps
        | apply State.updMss_keeps | apply OutKeeps.next | rfl
        | (extract_lets +onlyGivenNames -underBinder x; first | refine Keeps.cut x ?_ ?_ | refine OutKeeps.cut x ?_ ?_ | skip)
    | with_reducible apply Keeps.mk_keeps

theorem State.writeLcCtl_keeps {s0 s : State} (h : Keeps s0 s) (m : Master) (v : Word) : Keeps s0 (State.writeLcCtl s m v) := by
  unfold State.writeLcCtl
  repeat' first
    | with_reducible first
        | intro _ | assumption | apply State.secWrite_keeps | apply State.setFld_keeps
        | apply State.updMss_keeps | apply Keeps.ite | rfl
        | (extract_lets +onlyGivenNames -underBinder x; first | refine Keeps.cut x ?_ ?_ | skip)
    | split
    | with_reducible apply Keeps.mk_keeps

theorem execLcTransition_keeps {s0 s : State} (h : Keeps s0 s) (m : Master) (v : Word) : OutKeeps s0 (execLcTransition m v s)
    := by
  unfold execLcTransition
  repeat' first
    | with_reducible first
        | intro _ | assumption | apply State.writeLcCtl_keeps | apply OutKeeps.next | rfl
    | with_reducible apply Keeps.mk_keeps

theorem execFuseWriteEnd_keeps {s0 s : State} (h : Keeps s0 s) (ok : Bool) : OutKeeps s0 (execFuseWriteEnd ok s) := by
  unfold execFuseWriteEnd
  repeat' first
    | with_reducible first
        | intro _ | assumption | apply State.updMss_keeps | apply State.setFlag_keeps
        | apply State.setFld_keeps | apply State.logEvent_keeps | apply State.zeroise_keeps
        | apply State.when_keeps | apply Keeps.ite | apply OutKeeps.ite | apply OutKeeps.next | rfl
        | (extract_lets +onlyGivenNames -underBinder x; first | refine Keeps.cut x ?_ ?_ | refine OutKeeps.cut x ?_ ?_ | skip)
    | split
    | with_reducible apply Keeps.mk_keeps

theorem State.setKeyload_keeps {s0 s : State} (h : Keeps s0 s) (bs : List Byte) : Keeps s0 (State.setKeyload s bs) := by
  unfold State.setKeyload
  repeat' first
    | with_reducible first
        | intro _ | assumption | apply State.setReg_keeps | apply Keeps.foldl | rfl
    | with_reducible apply Keeps.mk_keeps

theorem State.keyRefused_keeps {s0 s : State} (h : Keeps s0 s) (r : Nat) : Keeps s0 (State.keyRefused s r) := by
  unfold State.keyRefused
  repeat' first
    | with_reducible first
        | intro _ | assumption | apply State.logEvent_keeps | apply State.clearKeyload_keeps
        | apply State.setFld_keeps | rfl
    | with_reducible apply Keeps.mk_keeps

theorem State.keyDone_keeps {s0 s : State} (h : Keeps s0 s) (result : List Byte) : Keeps s0 (State.keyDone s result) := by
  unfold State.keyDone
  repeat' first
    | with_reducible first
        | intro _ | assumption | apply State.logEvent_keeps | apply State.clearKeyload_keeps
        | apply State.setKeyload_keeps | apply State.setFld_keeps | rfl
    | with_reducible apply Keeps.mk_keeps

theorem State.setPairKey_keeps {s0 s : State} (h : Keeps s0 s) (k : Option (List Byte)) : Keeps s0 (State.setPairKey s k) := by
  unfold State.setPairKey
  repeat' first
    | with_reducible first
        | intro _ | assumption | apply State.setFlag_keeps | apply State.updMss_keeps | rfl
    | with_reducible apply Keeps.mk_keeps

theorem State.keyOp_keeps {s0 s : State} (h : Keeps s0 s) (m : Master) (op : Nat) (states : List Nat) (act : State → State)
    (h_act : ∀ x0, Keeps s0 x0 → Keeps s0 (act x0)) : Keeps s0 (State.keyOp s m op states act) := by
  unfold State.keyOp
  repeat' first
    | with_reducible first
        | intro _ | assumption | apply h_act | apply State.secWrite_keeps | apply State.setFld_keeps
        | apply State.keyRefused_keeps | apply Keeps.ite | rfl
        | (extract_lets +onlyGivenNames -underBinder x; first | refine Keeps.cut x ?_ ?_ | skip)
    | split
    | with_reducible apply Keeps.mk_keeps

theorem State.opOwner_keeps {s0 s : State} (h : Keeps s0 s) (m : Master) : Keeps s0 (State.opOwner s m) := by
  unfold State.opOwner
  apply State.keyOp_keeps h
  intro s k
  split
  · apply State.keyRefused_keeps k
  · rename_i ho
    apply State.keyDone_keeps
    apply State.setFlag_keeps
    exact State.updMss_parts k _ id id fun n => absurd n ho

theorem execOwner_keeps {s0 s : State} (h : Keeps s0 s) (m : Master) : OutKeeps s0 (execOwner m s) := by
  unfold execOwner
  repeat' first
    | with_reducible first
        | intro _ | assumption | apply State.opOwner_keeps | apply OutKeeps.next | rfl
    | with_reducible apply Keeps.mk_keeps

theorem State.opInstall_keeps {s0 s : State} (h : Keeps s0 s) (m : Master) : Keeps s0 (State.opInstall s m) := by
  unfold State.opInstall
  repeat' first
    | with_reducible first
        | intro _ | assumption | apply State.keyOp_keeps | apply State.keyDone_keeps
        | apply State.setPairKey_keeps | rfl
        | (extract_lets +onlyGivenNames -underBinder x; first | refine Keeps.cut x ?_ ?_ | skip)
    | with_reducible apply Keeps.mk_keeps

theorem execInstall_keeps {s0 s : State} (h : Keeps s0 s) (m : Master) : OutKeeps s0 (execInstall m s) := by
  unfold execInstall
  repeat' first
    | with_reducible first
        | intro _ | assumption | apply State.opInstall_keeps | apply OutKeeps.next | rfl
    | with_reducible apply Keeps.mk_keeps

theorem State.opLoad_keeps {s0 s : State} (h : Keeps s0 s) (m : Master) : Keeps s0 (State.opLoad s m) := by
  unfold State.opLoad
  repeat' first
    | with_reducible first
        | intro _ | assumption | apply State.keyOp_keeps | apply State.keyRefused_keeps
        | apply State.keyDone_keeps | apply State.setPairKey_keeps | rfl
    | split
    | with_reducible apply Keeps.mk_keeps

theorem execLoad_keeps {s0 s : State} (h : Keeps s0 s) (m : Master) : OutKeeps s0 (execLoad m s) := by
  unfold execLoad
  repeat' first
    | with_reducible first
        | intro _ | assumption | apply State.opLoad_keeps | apply OutKeeps.next | rfl
    | with_reducible apply Keeps.mk_keeps

theorem State.opRotate_keeps {s0 s : State} (h : Keeps s0 s) (m : Master) : Keeps s0 (State.opRotate s m) := by
  unfold State.opRotate
  repeat' first
    | with_reducible first
        | intro _ | assumption | apply State.keyOp_keeps | apply State.keyRefused_keeps
        | apply State.keyDone_keeps | apply State.setPairKey_keeps | rfl
    | split
    | with_reducible apply Keeps.mk_keeps

theorem execRotate_keeps {s0 s : State} (h : Keeps s0 s) (m : Master) : OutKeeps s0 (execRotate m s) := by
  unfold execRotate
  repeat' first
    | with_reducible first
        | intro _ | assumption | apply State.opRotate_keeps | apply OutKeeps.next | rfl
    | with_reducible apply Keeps.mk_keeps

theorem State.opClear_keeps {s0 s : State} (h : Keeps s0 s) (m : Master) : Keeps s0 (State.opClear s m) := by
  unfold State.opClear
  repeat' first
    | with_reducible first
        | intro _ | assumption | apply State.keyOp_keeps | apply State.keyDone_keeps
        | apply State.setPairKey_keeps | rfl
    | with_reducible apply Keeps.mk_keeps

theorem execClear_keeps {s0 s : State} (h : Keeps s0 s) (m : Master) : OutKeeps s0 (execClear m s) := by
  unfold execClear
  repeat' first
    | with_reducible first
        | intro _ | assumption | apply State.opClear_keeps | apply OutKeeps.next | rfl
    | with_reducible apply Keeps.mk_keeps

theorem State.writeKeyloadCtl_keeps {s0 s : State} (h : Keeps s0 s) (m : Master) (v : Word) : Keeps s0 (State.writeKeyloadCtl s m
    v) := by
  unfold State.writeKeyloadCtl
  repeat' first
    | with_reducible first
        | intro _ | assumption | apply State.opOwner_keeps | apply State.opInstall_keeps
        | apply State.opLoad_keeps | apply State.opRotate_keeps | apply State.opClear_keeps
        | apply State.secWrite_keeps | apply State.setFld_keeps | apply Keeps.ite | rfl
        | (extract_lets +onlyGivenNames -underBinder x; first | refine Keeps.cut x ?_ ?_ | skip)
    | split
    | with_reducible apply Keeps.mk_keeps

theorem State.writeKeyload_keeps {s0 s : State} (h : Keeps s0 s) (m : Master) (k : Nat) (v : Word) : Keeps s0 (State.writeKeyload
    s m k v) := by
  unfold State.writeKeyload
  repeat' first
    | with_reducible first
        | intro _ | assumption | apply State.secWrite_keeps | apply State.updMss_keeps
        | apply State.setReg_keeps | apply Keeps.ite | rfl
    | split
    | with_reducible apply Keeps.mk_keeps

theorem State.setSlot_keeps {s0 s : State} (h : Keeps s0 s) (k : Nat) (img : List Byte) : Keeps s0 (State.setSlot s k img) := by
  unfold State.setSlot
  repeat' first
    | with_reducible first
        | intro _ | assumption | apply State.updMss_keeps | apply Keeps.ite | rfl
    | split
    | with_reducible apply Keeps.mk_keeps

theorem State.setRcv_keeps {s0 s : State} (h : Keeps s0 s) (st : Nat) : Keeps s0 (State.setRcv s st) := by
  unfold State.setRcv
  repeat' first
    | with_reducible first
        | intro _ | assumption | apply State.raiseIbi_keeps | apply State.setFld_keeps | apply Keeps.ite | rfl
    | split
    | with_reducible apply Keeps.mk_keeps

theorem State.enterRecovery_eq (s : State) : s.enterRecovery = ((((s.setFld F.I3CT_RCV_STAT_CAUSE 0).setFld
    F.I3CT_RCV_STAT_UNIT 0).setRcv 1).alert F.GCTL_ALERT_STAT_BOOT).updMss fun x => { x with booted := true } := by
  unfold State.enterRecovery; with_reducible rfl

theorem State.booted_keeps {s0 s : State} (h : Keeps s0 s) : Keeps s0 (s.updMss fun x => { x with booted := true }) :=
  State.updMss_keeps h _ rfl rfl rfl

theorem State.enterRecovery_keeps {s0 s : State} (h : Keeps s0 s) : Keeps s0 (State.enterRecovery s) := by
  have k := State.setRcv_keeps (State.setFld_keeps (State.setFld_keeps h F.I3CT_RCV_STAT_CAUSE 0) F.I3CT_RCV_STAT_UNIT 0) 1
  rw [State.enterRecovery_eq]
  generalize ((s.setFld F.I3CT_RCV_STAT_CAUSE 0).setFld F.I3CT_RCV_STAT_UNIT 0).setRcv 1 = a at k ⊢
  exact State.booted_keeps (State.alert_keeps k F.GCTL_ALERT_STAT_BOOT)

theorem State.bootSlot_keeps {s0 s : State} (h : Keeps s0 s) (k : Nat) : Keeps s0 (State.bootSlot s k) := by
  have w : ∀ (c : Prop) [Decidable c] (m a : Memory), m.wf = true → a.wf = true → (if c then a else m).wf = true := by
    intro c _ m a hm ha
    split
    · exact ha
    · exact hm
  unfold State.bootSlot
  extract_lets img code at_ s1
  have k1 : Keeps s0 s1 := by
    apply State.setReg_keeps
    apply State.setFld_keeps h
  generalize hc : (0x10000000 ≤ at_ ∧ at_ + code.length ≤ 0x10060000) = c
  apply State.updCore_keeps
  apply State.updMss_parts k1
  · exact fun x => w _ _ _ x (Memory.wf_writeBytes _ _ _ x)
  · exact id
  · exact fun _ => rfl

theorem State.chosenSlot_keeps {s0 s : State} (h : Keeps s0 s) : Keeps s0 (State.chosenSlot s).1 := by
  unfold State.chosenSlot
  repeat' first
    | with_reducible first
        | intro _ | assumption | apply State.setFlag_keeps | apply State.logEvent_keeps | apply Keeps.ite
        | rfl
        | (extract_lets +onlyGivenNames -underBinder x; first | refine Keeps.cut x ?_ ?_ | skip)
    | split
    | with_reducible apply Keeps.mk_keeps

theorem State.chosenSlot_keeps_eq {s0 s : State} (h : Keeps s0 s) {t : State} {r : _} (e : (State.chosenSlot s) = (t, r)) : Keeps s0 t := by
  have k := State.chosenSlot_keeps h 
  rw [e] at k; exact k

theorem State.boot_keeps {s0 s : State} (h : Keeps s0 s) : Keeps s0 (State.boot s) := by
  unfold State.boot
  repeat' first
    | with_reducible first
        | intro _ | assumption | exact State.chosenSlot_keeps_eq ‹_› ‹_› | apply State.setRcv_keeps
        | apply State.setReg_keeps | apply State.setFld_keeps | apply State.enterRecovery_keeps
        | apply State.chosenSlot_keeps | apply State.bootSlot_keeps | apply State.logEvent_keeps
        | apply State.updMss_keeps | apply Keeps.ite | rfl
        | (extract_lets +onlyGivenNames -underBinder x; first | refine Keeps.cut x ?_ ?_ | skip)
    | split
    | with_reducible apply Keeps.mk_keeps

theorem execBootImageChoice_keeps {s0 s : State} (h : Keeps s0 s) : OutKeeps s0 (execBootImageChoice s) := by
  unfold execBootImageChoice
  repeat' first
    | with_reducible first
        | intro _ | assumption | apply State.boot_keeps | apply Keeps.ite | apply OutKeeps.ite
        | apply OutKeeps.next | rfl
    | split
    | with_reducible apply Keeps.mk_keeps

theorem execFwStage_keeps {s0 s : State} (h : Keeps s0 s) (hh : Word) (sg : List (Nat × Nat)) (obj : List Byte) (flashOk : Bool)
    : OutKeeps s0 (execFwStage hh sg obj flashOk s) := by
  unfold execFwStage
  repeat' first
    | with_reducible first
        | intro _ | assumption | apply State.run_keeps | apply State.receive_keeps | apply State.fail_keeps
        | apply State.finish_keeps | apply State.updMss_keeps | apply State.setSlot_keeps | apply Keeps.ite
        | apply OutKeeps.ite | apply OutKeeps.next | rfl
        | (extract_lets +onlyGivenNames -underBinder x; first | refine Keeps.cut x ?_ ?_ | refine OutKeeps.cut x ?_ ?_ | skip)
    | split
    | with_reducible apply Keeps.mk_keeps

theorem execFwActivate_keeps {s0 s : State} (h : Keeps s0 s) (hh : Word) (bursts : List Burst) : OutKeeps s0 (execFwActivate hh
    bursts s) := by
  unfold execFwActivate
  repeat' first
    | with_reducible first
        | intro _ | assumption | apply State.run_keeps | apply State.fail_keeps | apply State.setFlag_keeps
        | apply State.setFld_keeps | apply State.mgmtRestart_keeps | apply State.updMss_keeps
        | apply OutKeeps.next | rfl
        | (extract_lets +onlyGivenNames -underBinder x; first | refine Keeps.cut x ?_ ?_ | refine OutKeeps.cut x ?_ ?_ | skip)
    | split
    | with_reducible apply Keeps.mk_keeps

theorem State.writeTrial_keeps {s0 s : State} (h : Keeps s0 s) (m : Master) (v : Word) : Keeps s0 (State.writeTrial s m v) := by
  unfold State.writeTrial
  repeat' first
    | with_reducible first
        | intro _ | assumption | apply State.secWrite_keeps | apply State.setFld_keeps
        | apply State.setFlag_keeps | apply State.updMss_keeps | apply State.finish_keeps
        | apply State.when_keeps | apply Keeps.ite | rfl
        | (extract_lets +onlyGivenNames -underBinder x; first | refine Keeps.cut x ?_ ?_ | skip)
    | split
    | with_reducible apply Keeps.mk_keeps

theorem execConfirm_keeps {s0 s : State} (h : Keeps s0 s) (m : Master) : OutKeeps s0 (execConfirm m s) := by
  unfold execConfirm
  repeat' first
    | with_reducible first
        | intro _ | assumption | apply State.writeTrial_keeps | apply OutKeeps.next | rfl
    | with_reducible apply Keeps.mk_keeps

theorem State.finishActivate_keeps {s0 s : State} (h : Keeps s0 s) : Keeps s0 (State.finishActivate s) := by
  unfold State.finishActivate
  repeat' first
    | with_reducible first
        | intro _ | assumption | apply State.updMss_keeps | apply State.logEvent_keeps
        | apply State.finish_keeps | apply Keeps.ite | rfl
        | (extract_lets +onlyGivenNames -underBinder x; first | refine Keeps.cut x ?_ ?_ | skip)
    | split
    | with_reducible apply Keeps.mk_keeps

theorem State.writeRollback_keeps {s0 s : State} (h : Keeps s0 s) (m : Master) (v : Word) : Keeps s0 (State.writeRollback s m v)
    := by
  unfold State.writeRollback
  repeat' first
    | with_reducible first
        | intro _ | assumption | apply State.secWrite_keeps | apply State.setFld_keeps | apply Keeps.ite | rfl
        | (extract_lets +onlyGivenNames -underBinder x; first | refine Keeps.cut x ?_ ?_ | skip)
    | split
    | with_reducible apply Keeps.mk_keeps

theorem execRaise_keeps {s0 s : State} (h : Keeps s0 s) (m : Master) (v : Word) : OutKeeps s0 (execRaise m v s) := by
  unfold execRaise
  repeat' first
    | with_reducible first
        | intro _ | assumption | apply State.writeRollback_keeps | apply OutKeeps.next | rfl
    | with_reducible apply Keeps.mk_keeps

theorem State.showVolt_keeps {s0 s : State} (h : Keeps s0 s) : Keeps s0 (State.showVolt s) := by
  unfold State.showVolt
  repeat' first
    | with_reducible first
        | intro _ | assumption | apply State.setFlag_keeps | rfl
    | with_reducible apply Keeps.mk_keeps

theorem execSensorSample_keeps {s0 s : State} (h : Keeps s0 s) (temps : List Int) (volts : List Nat) (currs : List Nat) :
    OutKeeps s0 (execSensorSample temps volts currs s) := by
  unfold execSensorSample
  repeat' first
    | with_reducible first
        | intro _ | assumption | apply State.setFldI_keeps | apply State.setFld_keeps
        | apply State.updMss_keeps | apply State.setFlag_keeps | apply State.icRaise_keeps
        | apply State.logEvent_keeps | apply State.alert_keeps | apply State.when_keeps
        | apply State.detect_keeps | apply State.showVolt_keeps | apply Keeps.ite | apply OutKeeps.ite
        | apply OutKeeps.next | apply Keeps.foldl | rfl
        | (extract_lets +onlyGivenNames -underBinder x; first | refine Keeps.cut x ?_ ?_ | refine OutKeeps.cut x ?_ ?_ | skip)
    | split
    | with_reducible apply Keeps.mk_keeps

theorem execThermalWarnClear_keeps {s0 s : State} (h : Keeps s0 s) : OutKeeps s0 (execThermalWarnClear s) := by
  unfold execThermalWarnClear
  repeat' first
    | with_reducible first
        | intro _ | assumption | apply State.logEvent_keeps | apply State.setFlag_keeps | apply Keeps.ite
        | apply OutKeeps.ite | apply OutKeeps.next | rfl
        | (extract_lets +onlyGivenNames -underBinder x; first | refine Keeps.cut x ?_ ?_ | refine OutKeeps.cut x ?_ ?_ | skip)
    | split
    | with_reducible apply Keeps.mk_keeps

theorem execVoltageAlarmClear_keeps {s0 s : State} (h : Keeps s0 s) (n : Fin 12) : OutKeeps s0 (execVoltageAlarmClear n s) := by
  unfold execVoltageAlarmClear
  repeat' first
    | with_reducible first
        | intro _ | assumption | apply State.showVolt_keeps | apply State.logEvent_keeps
        | apply State.updMss_keeps | apply Keeps.ite | apply OutKeeps.ite | apply OutKeeps.next | rfl
    | split
    | with_reducible apply Keeps.mk_keeps

end Sys2Proof.Machine
end

