-- ==== Sys2Proof/Laws/KeepsTest.lean ====
section
/-!
SUPPORT. That the operations and meanings of test, platform, overhead and boundaries keep what must be kept (`Keeps`), one lemma each.
-/
namespace Sys2Proof.Machine
open Sys2Proof

set_option linter.all false

theorem State.updTest_keeps {s0 s : State} (h : Keeps s0 s) (n : Nat) (f : TestLane → TestLane) : Keeps s0 (State.updTest s n f)
    := by
  unfold State.updTest
  repeat' first
    | with_reducible first
        | intro _ | assumption | rfl
    | with_reducible apply Keeps.mk_keeps

theorem State.testRequest_keeps {s0 s : State} (h : Keeps s0 s) (n : Nat) : Keeps s0 (State.testRequest s n) := by
  unfold State.testRequest
  repeat' first
    | with_reducible first
        | intro _ | assumption | apply State.updTest_keeps | apply State.setFld_keeps | apply Keeps.ite | rfl
        | (extract_lets +onlyGivenNames -underBinder x; first | refine Keeps.cut x ?_ ?_ | skip)
    | split
    | with_reducible apply Keeps.mk_keeps

theorem State.writeTestLoop_keeps {s0 s : State} (h : Keeps s0 s) (n : Nat) (v : Word) : Keeps s0 (State.writeTestLoop s n v)
    := by
  unfold State.writeTestLoop
  repeat' first
    | with_reducible first
        | intro _ | assumption | apply State.setFld_keeps | apply State.testRequest_keeps | apply Keeps.ite
        | rfl
        | (extract_lets +onlyGivenNames -underBinder x; first | refine Keeps.cut x ?_ ?_ | skip)
    | split
    | with_reducible apply Keeps.mk_keeps

theorem execTestLoopWrite_keeps {s0 s : State} (h : Keeps s0 s) (n : LaneNo) (v : Word) : OutKeeps s0 (execTestLoopWrite n v s)
    := by
  unfold execTestLoopWrite
  repeat' first
    | with_reducible first
        | intro _ | assumption | apply State.writeTestLoop_keeps | apply OutKeeps.next | rfl
    | with_reducible apply Keeps.mk_keeps

theorem State.writePrbsGen_keeps {s0 s : State} (h : Keeps s0 s) (n : Nat) (v : Word) : Keeps s0 (State.writePrbsGen s n v) := by
  unfold State.writePrbsGen
  repeat' first
    | with_reducible first
        | intro _ | assumption | exact State.fresh_keeps_eq ‹_› ‹_› | apply State.setFld_keeps
        | apply State.setFlag_keeps | apply State.fresh_keeps | apply State.when_keeps
        | apply State.updTest_keeps | apply State.testRequest_keeps | apply Keeps.ite | rfl
        | (extract_lets +onlyGivenNames -underBinder x; first | refine Keeps.cut x ?_ ?_ | skip)
    | split
    | with_reducible apply Keeps.mk_keeps

theorem execPrbsGenEn_keeps {s0 s : State} (h : Keeps s0 s) (n : LaneNo) (v : Word) : OutKeeps s0 (execPrbsGenEn n v s) := by
  unfold execPrbsGenEn
  repeat' first
    | with_reducible first
        | intro _ | assumption | apply State.writePrbsGen_keeps | apply OutKeeps.next | rfl
    | with_reducible apply Keeps.mk_keeps

theorem execInject_keeps {s0 s : State} (h : Keeps s0 s) (n : LaneNo) : OutKeeps s0 (execInject n s) := by
  unfold execInject
  repeat' first
    | with_reducible first
        | intro _ | assumption | apply State.updTest_keeps | apply OutKeeps.next | rfl
    | with_reducible apply Keeps.mk_keeps

theorem State.testBoundary_keeps {s0 s : State} (h : Keeps s0 s) (n : Nat) : Keeps s0 (State.testBoundary s n) := by
  unfold State.testBoundary
  repeat' first
    | with_reducible first
        | intro _ | assumption | apply State.updTest_keeps | apply State.when_keeps
        | apply State.setFlag_keeps | apply State.setFld_keeps | apply State.setRaws_keeps | apply Keeps.ite
        | rfl
        | (extract_lets +onlyGivenNames -underBinder x; first | refine Keeps.cut x ?_ ?_ | skip)
    | split
    | with_reducible apply Keeps.mk_keeps

theorem execLoopEnd_keeps {s0 s : State} (h : Keeps s0 s) (n : LaneNo) (overrun : Bool) : OutKeeps s0 (execLoopEnd n overrun s)
    := by
  unfold execLoopEnd
  repeat' first
    | with_reducible first
        | intro _ | assumption | apply State.setFlag_keeps | apply State.setFld_keeps
        | apply State.updTest_keeps | apply Keeps.ite | apply OutKeeps.ite | apply OutKeeps.next | rfl
        | (extract_lets +onlyGivenNames -underBinder x; first | refine Keeps.cut x ?_ ?_ | refine OutKeeps.cut x ?_ ?_ | skip)
    | split
    | with_reducible apply Keeps.mk_keeps

theorem State.writePrbsChk_keeps {s0 s : State} (h : Keeps s0 s) (n : Nat) (v : Word) : Keeps s0 (State.writePrbsChk s n v) := by
  unfold State.writePrbsChk
  repeat' first
    | with_reducible first
        | intro _ | assumption | apply State.setFld_keeps | apply State.setFlag_keeps | apply State.when_keeps
        | apply State.updTest_keeps | apply Keeps.ite | rfl
        | (extract_lets +onlyGivenNames -underBinder x; first | refine Keeps.cut x ?_ ?_ | skip)
    | split
    | with_reducible apply Keeps.mk_keeps

theorem execPrbsChkEn_keeps {s0 s : State} (h : Keeps s0 s) (n : LaneNo) (v : Word) : OutKeeps s0 (execPrbsChkEn n v s) := by
  unfold execPrbsChkEn
  repeat' first
    | with_reducible first
        | intro _ | assumption | apply State.writePrbsChk_keeps | apply OutKeeps.next | rfl
    | with_reducible apply Keeps.mk_keeps

theorem execCheckerClear_keeps {s0 s : State} (h : Keeps s0 s) (n : LaneNo) : OutKeeps s0 (execCheckerClear n s) := by
  unfold execCheckerClear
  repeat' first
    | with_reducible first
        | intro _ | assumption | apply State.updTest_keeps | apply OutKeeps.next | rfl
    | with_reducible apply Keeps.mk_keeps

theorem execCheckerLocked_keeps {s0 s : State} (h : Keeps s0 s) (n : LaneNo) : OutKeeps s0 (execCheckerLocked n s) := by
  unfold execCheckerLocked
  repeat' first
    | with_reducible first
        | intro _ | assumption | apply State.setFlag_keeps | apply Keeps.ite | apply OutKeeps.ite
        | apply OutKeeps.next | rfl
        | (extract_lets +onlyGivenNames -underBinder x; first | refine Keeps.cut x ?_ ?_ | refine OutKeeps.cut x ?_ ?_ | skip)
    | split
    | with_reducible apply Keeps.mk_keeps

theorem State.prbsCount_keeps {s0 s : State} (h : Keeps s0 s) (n : Nat) (bits : Nat) (errs : Nat) : Keeps s0 (State.prbsCount s n
    bits errs) := by
  unfold State.prbsCount
  repeat' first
    | with_reducible first
        | intro _ | assumption | apply State.updTest_keeps | apply Keeps.ite | rfl
    | split
    | with_reducible apply Keeps.mk_keeps

theorem execLockLost_keeps {s0 s : State} (h : Keeps s0 s) (n : LaneNo) (bits : Nat) (errs : Nat) (windowErrs : Nat) : OutKeeps
    s0 (execLockLost n bits errs windowErrs s) := by
  unfold execLockLost
  repeat' first
    | with_reducible first
        | intro _ | assumption | apply State.setFlag_keeps | apply State.prbsCount_keeps | apply Keeps.ite
        | apply OutKeeps.ite | apply OutKeeps.next | rfl
        | (extract_lets +onlyGivenNames -underBinder x; first | refine Keeps.cut x ?_ ?_ | refine OutKeeps.cut x ?_ ?_ | skip)
    | split
    | with_reducible apply Keeps.mk_keeps

theorem State.readPrbs_keeps {s0 s : State} (h : Keeps s0 s) (m : Master) (n : Nat) : Keeps s0 (State.readPrbs s m n).2 := by
  unfold State.readPrbs
  repeat' first
    | with_reducible first
        | intro _ | assumption | apply State.latch_keeps | rfl
        | (extract_lets +onlyGivenNames -underBinder x; first | refine Keeps.cut x ?_ ?_ | skip)
    | with_reducible apply Keeps.mk_keeps

theorem State.readPrbs_keeps_eq {s0 s : State} (h : Keeps s0 s) (m : Master) (n : Nat) {t : State} {r : _} (e : (State.readPrbs s m n) = (r, t)) : Keeps s0 t := by
  have k := State.readPrbs_keeps h m n
  rw [e] at k; exact k

theorem execPrbsCountRead_keeps {s0 s : State} (h : Keeps s0 s) (m : Master) (n : LaneNo) (bits : Nat) (errs : Nat) : OutKeeps s0
    (execPrbsCountRead m n bits errs s) := by
  unfold execPrbsCountRead
  repeat' first
    | with_reducible first
        | intro _ | assumption | exact State.readPrbs_keeps_eq ‹_› ‹_› | apply State.readPrbs_keeps
        | apply State.prbsCount_keeps | apply State.setRdata_keeps | apply OutKeeps.next | rfl
        | (extract_lets +onlyGivenNames -underBinder x; first | refine Keeps.cut x ?_ ?_ | refine OutKeeps.cut x ?_ ?_ | skip)
    | with_reducible apply Keeps.mk_keeps

theorem State.tapInstr_keeps {s0 s : State} (h : Keeps s0 s) (ir : Nat) (dr : Nat) : Keeps s0 (State.tapInstr s ir dr) := by
  unfold State.tapInstr
  repeat' first
    | with_reducible first
        | intro _ | assumption | rfl
    | with_reducible apply Keeps.mk_keeps

theorem State.tapSample_keeps {s0 s : State} (h : Keeps s0 s) (ir : Nat) (pins : List Bool) : Keeps s0 (State.tapSample s ir
    pins) := by
  unfold State.tapSample
  repeat' first
    | with_reducible first
        | intro _ | assumption | rfl
    | with_reducible apply Keeps.mk_keeps

theorem State.tapReset_keeps {s0 s : State} (h : Keeps s0 s) : Keeps s0 (State.tapReset s) := by
  unfold State.tapReset
  repeat' first
    | with_reducible first
        | intro _ | assumption | apply State.tapInstr_keeps | rfl
    | with_reducible apply Keeps.mk_keeps

theorem execIdcode_keeps {s0 s : State} (h : Keeps s0 s) : OutKeeps s0 (execIdcode s) := by
  unfold execIdcode
  repeat' first
    | with_reducible first
        | intro _ | assumption | apply State.tapInstr_keeps | apply OutKeeps.next | rfl
    | with_reducible apply Keeps.mk_keeps

theorem execSample_keeps {s0 s : State} (h : Keeps s0 s) (pins : List Bool) : OutKeeps s0 (execSample pins s) := by
  unfold execSample
  repeat' first
    | with_reducible first
        | intro _ | assumption | apply State.tapSample_keeps | apply OutKeeps.next | rfl
    | with_reducible apply Keeps.mk_keeps

theorem execPreload_keeps {s0 s : State} (h : Keeps s0 s) (cells : List Bool) : OutKeeps s0 (execPreload cells s) := by
  unfold execPreload
  repeat' first
    | with_reducible first
        | intro _ | assumption | apply OutKeeps.next | rfl
    | with_reducible apply Keeps.mk_keeps

theorem execExtest_keeps {s0 s : State} (h : Keeps s0 s) (pins : List Bool) : OutKeeps s0 (execExtest pins s) := by
  unfold execExtest
  repeat' first
    | with_reducible first
        | intro _ | assumption | apply State.tapSample_keeps | apply OutKeeps.next | rfl
    | with_reducible apply Keeps.mk_keeps

theorem execExtestPulse_keeps {s0 s : State} (h : Keeps s0 s) (pins : List Bool) : OutKeeps s0 (execExtestPulse pins s) := by
  unfold execExtestPulse
  repeat' first
    | with_reducible first
        | intro _ | assumption | apply State.tapSample_keeps | apply OutKeeps.next | rfl
    | with_reducible apply Keeps.mk_keeps

theorem execExtestTrain_keeps {s0 s : State} (h : Keeps s0 s) (pins : List Bool) : OutKeeps s0 (execExtestTrain pins s) := by
  unfold execExtestTrain
  repeat' first
    | with_reducible first
        | intro _ | assumption | apply State.tapSample_keeps | apply OutKeeps.next | rfl
    | with_reducible apply Keeps.mk_keeps

theorem execClamp_keeps {s0 s : State} (h : Keeps s0 s) (pins : List Bool) : OutKeeps s0 (execClamp pins s) := by
  unfold execClamp
  repeat' first
    | with_reducible first
        | intro _ | assumption | apply State.tapInstr_keeps | apply State.tapSample_keeps | apply Keeps.ite
        | apply OutKeeps.ite | apply OutKeeps.next | rfl
    | split
    | with_reducible apply Keeps.mk_keeps

theorem execHighz_keeps {s0 s : State} (h : Keeps s0 s) (pins : List Bool) : OutKeeps s0 (execHighz pins s) := by
  unfold execHighz
  repeat' first
    | with_reducible first
        | intro _ | assumption | apply State.tapInstr_keeps | apply State.tapSample_keeps | apply Keeps.ite
        | apply OutKeeps.ite | apply OutKeeps.next | rfl
    | split
    | with_reducible apply Keeps.mk_keeps

theorem execEcidcode_keeps {s0 s : State} (h : Keeps s0 s) : OutKeeps s0 (execEcidcode s) := by
  unfold execEcidcode
  repeat' first
    | with_reducible first
        | intro _ | assumption | apply State.tapInstr_keeps | apply OutKeeps.next | rfl
    | with_reducible apply Keeps.mk_keeps

theorem execBypass_keeps {s0 s : State} (h : Keeps s0 s) : OutKeeps s0 (execBypass s) := by
  unfold execBypass
  repeat' first
    | with_reducible first
        | intro _ | assumption | apply State.tapInstr_keeps | apply OutKeeps.next | rfl
    | with_reducible apply Keeps.mk_keeps

theorem execProductionTestOpcode_keeps {s0 s : State} (h : Keeps s0 s) (op : BitVec 8) : OutKeeps s0 (execProductionTestOpcode op
    s) := by
  unfold execProductionTestOpcode
  repeat' first
    | with_reducible first
        | intro _ | assumption | apply State.tapInstr_keeps | apply Keeps.ite | apply OutKeeps.ite
        | apply OutKeeps.next | rfl
        | (extract_lets +onlyGivenNames -underBinder x; first | refine Keeps.cut x ?_ ?_ | refine OutKeeps.cut x ?_ ?_ | skip)
    | split
    | with_reducible apply Keeps.mk_keeps

theorem execTestLogicReset_keeps {s0 s : State} (h : Keeps s0 s) : OutKeeps s0 (execTestLogicReset s) := by
  unfold execTestLogicReset
  repeat' first
    | with_reducible first
        | intro _ | assumption | apply State.tapReset_keeps | apply OutKeeps.next | rfl
    | with_reducible apply Keeps.mk_keeps

theorem State.restoreLog_keeps {s0 s : State} (h : Keeps s0 s) : Keeps s0 (State.restoreLog s) := by
  unfold State.restoreLog
  split
  · exact h
  · refine Keeps.of_parts h rfl id id id id id (fun _ m => ?_) (fun _ _ => Nat.zero_le _) id (Nat.le_refl _) (fun _ => rfl)
    simp only [List.length_map]; exact m

theorem State.rebuildImage_keeps {s0 s : State} (h : Keeps s0 s) (set : Nat) : Keeps s0 (State.rebuildImage s set) := by
  unfold State.rebuildImage
  repeat' first
    | with_reducible first
        | intro _ | assumption | apply State.logEvent_keeps | apply State.updMss_keeps | apply Keeps.ite | rfl
        | (extract_lets +onlyGivenNames -underBinder x; first | refine Keeps.cut x ?_ ?_ | skip)
    | split
    | with_reducible apply Keeps.mk_keeps

theorem State.checkImages_keeps {s0 s : State} (h : Keeps s0 s) : Keeps s0 (State.checkImages s) := by
  unfold State.checkImages
  repeat' first
    | with_reducible first
        | intro _ | assumption | apply State.rebuildImage_keeps | apply Keeps.ite | rfl
        | (extract_lets +onlyGivenNames -underBinder x; first | refine Keeps.cut x ?_ ?_ | skip)
    | split
    | with_reducible apply Keeps.mk_keeps

theorem State.loadRecords_keeps {s0 s : State} (h : Keeps s0 s) : Keeps s0 (State.loadRecords s) := by
  unfold State.loadRecords
  repeat' first
    | with_reducible first
        | intro _ | assumption | apply State.barFacet_keeps | apply State.setFld_keeps
        | apply State.refreshHold_keeps | apply State.updRef_keeps | apply Keeps.ite | apply Keeps.foldl | rfl
        | (extract_lets +onlyGivenNames -underBinder x; first | refine Keeps.cut x ?_ ?_ | skip)
    | split
    | with_reducible apply Keeps.mk_keeps

theorem State.saveRecords_keeps {s0 s : State} (h : Keeps s0 s) : Keeps s0 (State.saveRecords s) := by
  unfold State.saveRecords
  repeat' first
    | with_reducible first
        | intro _ | assumption | apply State.updMss_keeps | apply Keeps.ite | rfl
        | (extract_lets +onlyGivenNames -underBinder x; first | refine Keeps.cut x ?_ ?_ | skip)
    | split
    | with_reducible apply Keeps.mk_keeps

theorem State.firmwareResumes_keeps {s0 s : State} (h : Keeps s0 s) : Keeps s0 (State.firmwareResumes s) := by
  unfold State.firmwareResumes
  repeat' first
    | with_reducible first
        | intro _ | assumption | apply State.armRepair_keeps | apply State.startJobs_keeps
        | apply State.finishActivate_keeps | apply State.drainQueue_keeps | apply State.saveRecords_keeps
        | apply State.deliverCapture_keeps | apply State.retireDue_keeps | apply State.inherit_keeps
        | apply State.finishYield_keeps | apply Keeps.ite | rfl
        | (extract_lets +onlyGivenNames -underBinder x; first | refine Keeps.cut x ?_ ?_ | skip)
    | split
    | with_reducible apply Keeps.mk_keeps

theorem State.judgeAge_keeps {s0 s : State} (h : Keeps s0 s) : Keeps s0 (State.judgeAge s) := by
  unfold State.judgeAge
  repeat' first
    | with_reducible first
        | intro _ | assumption | apply State.detect_keeps | apply Keeps.ite | rfl
    | split
    | with_reducible apply Keeps.mk_keeps

theorem State.keepAlive_keeps {s0 s : State} (h : Keeps s0 s) : Keeps s0 (State.keepAlive s) := by
  unfold State.keepAlive
  repeat' first
    | with_reducible first
        | intro _ | assumption | apply State.judgeAge_keeps | apply State.updGctl_keeps
        | apply State.setFld_keeps | apply State.updMss_keeps | apply State.setFlag_keeps
        | apply State.when_keeps | apply State.restoreLog_keeps | apply State.loadRecords_keeps
        | apply State.checkImages_keeps | apply State.firmwareResumes_keeps | apply Keeps.ite | rfl
        | (extract_lets +onlyGivenNames -underBinder x; first | refine Keeps.cut x ?_ ?_ | skip)
    | split
    | with_reducible apply Keeps.mk_keeps

theorem execGctlAlive_keeps {s0 s : State} (h : Keeps s0 s) (_v : Word) : OutKeeps s0 (execGctlAlive _v s) := by
  unfold execGctlAlive
  repeat' first
    | with_reducible first
        | intro _ | assumption | apply State.keepAlive_keeps | apply OutKeeps.next | rfl
    | with_reducible apply Keeps.mk_keeps

theorem execFlywheel_keeps {s0 s : State} (h : Keeps s0 s) : OutKeeps s0 (execFlywheel s) := by
  unfold execFlywheel
  repeat' first
    | with_reducible first
        | intro _ | assumption | apply State.setFlag_keeps | apply OutKeeps.next | rfl
    | with_reducible apply Keeps.mk_keeps

theorem execFlywheelTimeout_keeps {s0 s : State} (h : Keeps s0 s) : OutKeeps s0 (execFlywheelTimeout s) := by
  unfold execFlywheelTimeout
  repeat' first
    | with_reducible first
        | intro _ | assumption | apply State.judgeAge_keeps | apply OutKeeps.next | rfl
    | with_reducible apply Keeps.mk_keeps

theorem State.writeFenceCtl_keeps {s0 s : State} (h : Keeps s0 s) (v : Word) : Keeps s0 (State.writeFenceCtl s v) := by
  unfold State.writeFenceCtl
  repeat' first
    | with_reducible first
        | intro _ | assumption | apply State.wkWrite_keeps | apply State.detect_keeps | apply Keeps.ite | rfl
    | split
    | with_reducible apply Keeps.mk_keeps

theorem execFenceReq_keeps {s0 s : State} (h : Keeps s0 s) (v : Word) : OutKeeps s0 (execFenceReq v s) := by
  unfold execFenceReq
  repeat' first
    | with_reducible first
        | intro _ | assumption | apply State.writeFenceCtl_keeps | apply OutKeeps.next | rfl
    | with_reducible apply Keeps.mk_keeps

theorem execInternalLink_keeps {s0 s : State} (h : Keeps s0 s) : OutKeeps s0 (execInternalLink s) := by
  unfold execInternalLink
  repeat' first
    | with_reducible first
        | intro _ | assumption | apply State.detect_keeps | apply State.updGctl_keeps | apply OutKeeps.next
        | rfl
    | with_reducible apply Keeps.mk_keeps

theorem execRefclkFail_keeps {s0 s : State} (h : Keeps s0 s) (inputB : Bool) : OutKeeps s0 (execRefclkFail inputB s) := by
  unfold execRefclkFail
  repeat' first
    | with_reducible first
        | intro _ | assumption | apply State.updGctl_keeps | apply State.detect_keeps
        | apply State.logEvent_keeps | apply Keeps.ite | apply OutKeeps.ite | apply OutKeeps.next | rfl
        | (extract_lets +onlyGivenNames -underBinder x; first | refine Keeps.cut x ?_ ?_ | refine OutKeeps.cut x ?_ ?_ | skip)
    | split
    | with_reducible apply Keeps.mk_keeps

theorem execRefclkReturn_keeps {s0 s : State} (h : Keeps s0 s) (inputB : Bool) (both : Bool) : OutKeeps s0 (execRefclkReturn
    inputB both s) := by
  unfold execRefclkReturn
  repeat' first
    | with_reducible first
        | intro _ | assumption | apply State.logEvent_keeps | apply State.updGctl_keeps | apply Keeps.ite
        | apply OutKeeps.ite | apply OutKeeps.next | apply Keeps.foldl | rfl
        | (extract_lets +onlyGivenNames -underBinder x; first | refine Keeps.cut x ?_ ?_ | refine OutKeeps.cut x ?_ ?_ | skip)
    | split
    | with_reducible apply Keeps.mk_keeps

theorem execXoLost_keeps {s0 s : State} (h : Keeps s0 s) : OutKeeps s0 (execXoLost s) := by
  unfold execXoLost
  repeat' first
    | with_reducible first
        | intro _ | assumption | apply State.setFlag_keeps | apply State.updGctl_keeps
        | apply State.logEvent_keeps | apply Keeps.ite | apply OutKeeps.ite | apply OutKeeps.next | rfl
        | (extract_lets +onlyGivenNames -underBinder x; first | refine Keeps.cut x ?_ ?_ | refine OutKeeps.cut x ?_ ?_ | skip)
    | split
    | with_reducible apply Keeps.mk_keeps

theorem execXoReturn_keeps {s0 s : State} (h : Keeps s0 s) : OutKeeps s0 (execXoReturn s) := by
  unfold execXoReturn
  repeat' first
    | with_reducible first
        | intro _ | assumption | apply State.setFlag_keeps | apply State.updGctl_keeps
        | apply State.logEvent_keeps | apply State.refreshHold_keeps | apply Keeps.ite | apply OutKeeps.ite
        | apply OutKeeps.next | rfl
        | (extract_lets +onlyGivenNames -underBinder x; first | refine Keeps.cut x ?_ ?_ | refine OutKeeps.cut x ?_ ?_ | skip)
    | split
    | with_reducible apply Keeps.mk_keeps

theorem State.readDevnum_keeps {s0 s : State} (h : Keeps s0 s) (m : Master) : Keeps s0 (State.readDevnum s m).2 := by
  unfold State.readDevnum
  repeat' first
    | with_reducible first
        | intro _ | assumption | apply State.latch_keeps | rfl
    | with_reducible apply Keeps.mk_keeps

theorem State.readDevnum_keeps_eq {s0 s : State} (h : Keeps s0 s) (m : Master) {t : State} {r : _} (e : (State.readDevnum s m) = (r, t)) : Keeps s0 t := by
  have k := State.readDevnum_keeps h m
  rw [e] at k; exact k

theorem execGctlDevnumRead_keeps {s0 s : State} (h : Keeps s0 s) (m : Master) : OutKeeps s0 (execGctlDevnumRead m s) := by
  unfold execGctlDevnumRead
  repeat' first
    | with_reducible first
        | intro _ | assumption | exact State.readDevnum_keeps_eq ‹_› ‹_› | apply State.readDevnum_keeps
        | apply State.setRdata_keeps | apply OutKeeps.next | rfl
        | (extract_lets +onlyGivenNames -underBinder x; first | refine Keeps.cut x ?_ ?_ | refine OutKeeps.cut x ?_ ?_ | skip)
    | with_reducible apply Keeps.mk_keeps

theorem State.porst_keeps {s0 s : State} (h : Keeps s0 s) : Keeps s0 (State.porst s) := by
  have w : ∀ (l : List Fld) (r : State), Tbl.wf resetReg r.regs = true →
      Tbl.wf resetReg (l.foldl (fun r f => r.setFld f (s.fld f)) r).regs = true := by
    intro l
    induction l with
    | nil => exact fun r hr => hr
    | cons f l ih => exact fun r hr => ih _ (Tbl.wf_put _ _ _ _ hr)
  have e : ∀ (l : List Fld) (r : State), l.foldl (fun r f => r.setFld f (s.fld f)) r
      = { r with regs := (l.foldl (fun r f => r.setFld f (s.fld f)) r).regs } := by
    intro l
    induction l with
    | nil => exact fun r => rfl
    | cons f l ih => intro r; rw [List.foldl_cons, ih]; rfl
  have w' := w keptFields State.reset (by decide)
  unfold State.porst
  dsimp only
  rw [e keptFields State.reset]
  generalize (keptFields.foldl (fun r f => r.setFld f (s.fld f)) State.reset).regs = g at w' ⊢
  have hl : ((s.mirror ++ s.log).drop ((s.mirror ++ s.log).length - 16384)).length ≤ 16384 := by rw [List.length_drop]; omega
  have hq : State.reset.evq.length ≤ 1024 := by decide
  generalize (s.mirror ++ s.log).drop ((s.mirror ++ s.log).length - 16384) = m at hl ⊢
  exact Keeps.of_parts h rfl (fun _ => w') id (fun _ => rfl) (fun _ => rfl) (fun _ => hq)
    (fun _ _ => Nat.zero_le _) (fun _ _ => hl) (fun _ => Nat.zero_le _) (Nat.le_refl _) (fun _ => rfl)

theorem execPorstNAssert_keeps {s0 s : State} (h : Keeps s0 s) : OutKeeps s0 (execPorstNAssert s) := by
  unfold execPorstNAssert
  repeat' first
    | with_reducible first
        | intro _ | assumption | apply State.updGctl_keeps | apply State.porst_keeps | apply OutKeeps.next
        | rfl
    | with_reducible apply Keeps.mk_keeps

theorem execPorstNRelease_keeps {s0 s : State} (h : Keeps s0 s) (straps : BitVec 4) (tamperLow : Bool) : OutKeeps s0
    (execPorstNRelease straps tamperLow s) := by
  unfold execPorstNRelease
  repeat' first
    | with_reducible first
        | intro _ | assumption | apply State.when_keeps | apply State.porst_keeps | apply State.tapReset_keeps
        | apply State.setFld_keeps | apply State.tamper_keeps | apply Keeps.ite | apply OutKeeps.ite
        | apply OutKeeps.next | rfl
        | (extract_lets +onlyGivenNames -underBinder x; first | refine Keeps.cut x ?_ ?_ | refine OutKeeps.cut x ?_ ?_ | skip)
    | split
    | with_reducible apply Keeps.mk_keeps

theorem State.dropOrder_keeps {s0 s : State} (h : Keeps s0 s) : Keeps s0 (State.dropOrder s) := by
  unfold State.dropOrder
  repeat' first
    | with_reducible first
        | intro _ | assumption | apply State.endOrder_keeps | apply Keeps.ite | rfl
    | split
    | with_reducible apply Keeps.mk_keeps

theorem State.enterFence_keeps {s0 s : State} (h : Keeps s0 s) : Keeps s0 (State.enterFence s) := by
  unfold State.enterFence
  repeat' first
    | with_reducible first
        | intro _ | assumption | apply State.dropOrder_keeps | apply State.setFld_keeps
        | apply State.setFlag_keeps | apply State.fail_keeps | apply State.updPair_keeps
        | apply State.joinFail_keeps | apply State.closeSession_keeps | apply State.leaveCand7_keeps
        | apply State.setRole_keeps | apply State.dropHandover_keeps | apply State.icRaise_keeps
        | apply State.logEvent_keeps | apply State.finish_keeps | apply Keeps.ite | apply Keeps.foldl | rfl
        | (extract_lets +onlyGivenNames -underBinder x; first | refine Keeps.cut x ?_ ?_ | skip)
    | split
    | with_reducible apply Keeps.mk_keeps

theorem execFenceTakesEffect_keeps {s0 s : State} (h : Keeps s0 s) : OutKeeps s0 (execFenceTakesEffect s) := by
  unfold execFenceTakesEffect
  repeat' first
    | with_reducible first
        | intro _ | assumption | apply State.updGctl_keeps | apply State.enterFence_keeps
        | apply State.fenceAtSplice_keeps | apply State.joinFail_keeps | apply State.dropChange_keeps
        | apply Keeps.ite | apply OutKeeps.ite | apply OutKeeps.next | rfl
        | (extract_lets +onlyGivenNames -underBinder x; first | refine Keeps.cut x ?_ ?_ | refine OutKeeps.cut x ?_ ?_ | skip)
    | split
    | with_reducible apply Keeps.mk_keeps

theorem State.formOverhead_keeps {s0 s : State} (h : Keeps s0 s) (n : Nat) : Keeps s0 (State.formOverhead s n) := by
  unfold State.formOverhead
  repeat' first
    | with_reducible first
        | intro _ | assumption | apply State.setLane_keeps | apply State.updLane_keeps | apply Keeps.ite | rfl
        | (extract_lets +onlyGivenNames -underBinder x; first | refine Keeps.cut x ?_ ?_ | skip)
    | split
    | with_reducible apply Keeps.mk_keeps

theorem State.runPrecoder_keeps {s0 s : State} (h : Keeps s0 s) (n : Nat) : Keeps s0 (State.runPrecoder s n) := by
  unfold State.runPrecoder
  repeat' first
    | with_reducible first
        | intro _ | assumption | exact State.fresh_keeps_eq ‹_› ‹_› | apply State.updLane_keeps
        | apply State.fresh_keeps | apply Keeps.ite | rfl
        | (extract_lets +onlyGivenNames -underBinder x; first | refine Keeps.cut x ?_ ?_ | skip)
    | split
    | with_reducible apply Keeps.mk_keeps

theorem State.tickReel_keeps {s0 s : State} (h : Keeps s0 s) : Keeps s0 (State.tickReel s) := by
  unfold State.tickReel
  repeat' first
    | with_reducible first
        | intro _ | assumption | rfl
    | with_reducible apply Keeps.mk_keeps

theorem State.stampDeparture_keeps {s0 s : State} (h : Keeps s0 s) : Keeps s0 (State.stampDeparture s) := by
  unfold State.stampDeparture
  repeat' first
    | with_reducible first
        | intro _ | assumption | apply State.updTime_keeps | rfl
    | with_reducible apply Keeps.mk_keeps

theorem State.tickGctl_keeps {s0 s : State} (h : Keeps s0 s) : Keeps s0 (State.tickGctl s) := by
  unfold State.tickGctl
  repeat' first
    | with_reducible first
        | intro _ | assumption | apply State.incFld_keeps | apply State.updGctl_keeps
        | apply State.updSsw_keeps | rfl
        | (extract_lets +onlyGivenNames -underBinder x; first | refine Keeps.cut x ?_ ?_ | skip)
    | with_reducible apply Keeps.mk_keeps

theorem State.tickFacets_keeps {s0 s : State} (h : Keeps s0 s) : Keeps s0 (State.tickFacets s) := by
  unfold State.tickFacets
  repeat' first
    | with_reducible first
        | intro _ | assumption | apply State.setFld_keeps | apply State.updSsw_keeps | apply Keeps.ite
        | apply Keeps.foldl | rfl
        | (extract_lets +onlyGivenNames -underBinder x; first | refine Keeps.cut x ?_ ?_ | skip)
    | split
    | with_reducible apply Keeps.mk_keeps

theorem State.stepNotice_keeps {s0 s : State} (h : Keeps s0 s) (n : Nat) : Keeps s0 (State.stepNotice s n) := by
  unfold State.stepNotice
  repeat' first
    | with_reducible first
        | intro _ | assumption | apply State.txStopNow_keeps | apply State.updLane_keeps | apply Keeps.ite
        | rfl
    | split
    | with_reducible apply Keeps.mk_keeps

theorem State.stepThermal_keeps {s0 s : State} (h : Keeps s0 s) : Keeps s0 (State.stepThermal s) := by
  unfold State.stepThermal
  repeat' first
    | with_reducible first
        | intro _ | assumption | apply State.updGctl_keeps | apply State.loseToHunt_keeps
        | apply State.setFld_keeps | apply State.updLane_keeps | apply State.rxPowerDown_keeps
        | apply Keeps.ite | apply Keeps.foldl | rfl
        | (extract_lets +onlyGivenNames -underBinder x; first | refine Keeps.cut x ?_ ?_ | skip)
    | split
    | with_reducible apply Keeps.mk_keeps

theorem State.stepCmc_keeps {s0 s : State} (h : Keeps s0 s) : Keeps s0 (State.stepCmc s) := by
  unfold State.stepCmc
  repeat' first
    | with_reducible first
        | intro _ | assumption | apply State.cmcApplyNext_keeps | apply State.finish_keeps | apply Keeps.foldl
        | rfl
        | (extract_lets +onlyGivenNames -underBinder x; first | refine Keeps.cut x ?_ ?_ | skip)
    | with_reducible apply Keeps.mk_keeps

theorem State.stepTrace_keeps {s0 s : State} (h : Keeps s0 s) : Keeps s0 (State.stepTrace s) := by
  unfold State.stepTrace
  repeat' first
    | with_reducible first
        | intro _ | assumption | apply State.tracePart_keeps | apply State.updLane_keeps | apply Keeps.ite
        | apply Keeps.foldl | rfl
        | (extract_lets +onlyGivenNames -underBinder x; first | refine Keeps.cut x ?_ ?_ | skip)
    | split
    | with_reducible apply Keeps.mk_keeps

theorem State.stepSteer_keeps {s0 s : State} (h : Keeps s0 s) (n : Nat) : Keeps s0 (State.stepSteer s n) := by
  unfold State.stepSteer
  repeat' first
    | with_reducible first
        | intro _ | assumption | apply State.setFld_keeps | apply State.updLane_keeps | apply Keeps.ite | rfl
        | (extract_lets +onlyGivenNames -underBinder x; first | refine Keeps.cut x ?_ ?_ | skip)
    | split
    | with_reducible apply Keeps.mk_keeps

theorem State.endStreamReel_keeps {s0 s : State} (h : Keeps s0 s) : Keeps s0 (State.endStreamReel s) := by
  unfold State.endStreamReel
  repeat' first
    | with_reducible first
        | intro _ | assumption | apply State.advanceStream_keeps | apply Keeps.ite | rfl
    | split
    | with_reducible apply Keeps.mk_keeps

theorem State.pairBoundary_keeps {s0 s : State} (h : Keeps s0 s) : Keeps s0 (State.pairBoundary s) := by
  unfold State.pairBoundary
  repeat' first
    | with_reducible first
        | intro _ | assumption | apply State.refreshEvidence_keeps | apply State.joinBoundary_keeps
        | apply State.applyPairChange_keeps | apply State.updPair_keeps | apply State.when_keeps
        | apply State.setFld_keeps | apply State.saveRecords_keeps | apply State.sendAlign_keeps
        | apply Keeps.ite | rfl
        | (extract_lets +onlyGivenNames -underBinder x; first | refine Keeps.cut x ?_ ?_ | skip)
    | split
    | with_reducible apply Keeps.mk_keeps

theorem State.stepDisc_keeps {s0 s : State} (h : Keeps s0 s) : Keeps s0 (State.stepDisc s) := by
  unfold State.stepDisc
  repeat' first
    | with_reducible first
        | intro _ | assumption | apply State.setFld_keeps | rfl
    | with_reducible apply Keeps.mk_keeps

theorem execLocalReelBoundary_keeps {s0 s : State} (h : Keeps s0 s) : OutKeeps s0 (execLocalReelBoundary s) := by
  unfold execLocalReelBoundary
  repeat' first
    | with_reducible first
        | intro _ | assumption | apply State.tickFacets_keeps | apply State.tickGctl_keeps
        | apply State.tickReel_keeps | apply State.endStreamReel_keeps | apply State.pairBoundary_keeps
        | apply State.stepOutputs_keeps | apply State.stampDeparture_keeps | apply State.stepNotice_keeps
        | apply State.stepThermal_keeps | apply State.ffeNow_keeps | apply State.testBoundary_keeps
        | apply State.stepTrace_keeps | apply State.stepCmc_keeps | apply State.formOverhead_keeps
        | apply State.runPrecoder_keeps | apply State.stepSteer_keeps | apply State.stepDisc_keeps
        | apply OutKeeps.next | apply Keeps.foldl | rfl
        | (extract_lets +onlyGivenNames -underBinder x; first | refine Keeps.cut x ?_ ?_ | refine OutKeeps.cut x ?_ ?_ | skip)
    | with_reducible apply Keeps.mk_keeps

end Sys2Proof.Machine
end

