-- ==== Sys2Proof/Laws/KeepsHost.lean ====
section
/-!
SUPPORT. That the operations and meanings of host interface, registers and I3C target keep what must be kept (`Keeps`), one lemma each.
-/
namespace Sys2Proof.Machine
open Sys2Proof

set_option linter.all false

theorem State.takeDescriptor_keeps {s0 s : State} (h : Keeps s0 s) (n : Nat) (d : List Byte) : Keeps s0 (State.takeDescriptor s n
    d) := by
  unfold State.takeDescriptor
  dsimp only
  repeat' first
    | with_reducible first
        | assumption | apply State.updHif_keeps | apply State.fail_keeps | apply State.showOpen_keeps
        | apply State.flushRing_keeps | apply Keeps.ite | rfl | intro _
    | split
    | with_reducible apply Keeps.mk_keeps

theorem State.fetchRing_keeps {s0 s : State} (h : Keeps s0 s) (y0 : Nat) (y1 : Nat) (y2 : List (List Byte)) : Keeps s0
    (State.fetchRing y0 s y1 y2) := by
  induction y0 generalizing s y2 with
  | zero => unfold State.fetchRing; exact h
  | succ n ih =>
    cases y2 with
    | nil => unfold State.fetchRing; exact h
    | cons d ds =>
      unfold State.fetchRing
      split
      · exact State.updHif_keeps h _ rfl
      · exact ih (State.takeDescriptor_keeps (State.updHif_keeps h _ rfl) _ _) _

theorem State.badIndex_keeps {s0 s : State} (h : Keeps s0 s) (n : Nat) : Keeps s0 (State.badIndex s n) := by
  unfold State.badIndex
  repeat' first
    | with_reducible first
        | intro _ | assumption | apply State.setFld_keeps | apply State.setFlag_keeps | rfl
    | with_reducible apply Keeps.mk_keeps

theorem State.serveRing_keeps {s0 s : State} (h : Keeps s0 s) (f : DoorbellFetch) (n : Nat) : Keeps s0 (State.serveRing s f n)
    := by
  unfold State.serveRing
  repeat' first
    | with_reducible first
        | intro _ | assumption | apply State.badIndex_keeps | apply State.updHif_keeps
        | apply State.fetchRing_keeps | apply Keeps.ite | rfl
        | (extract_lets +onlyGivenNames -underBinder x; first | refine Keeps.cut x ?_ ?_ | skip)
    | split
    | with_reducible apply Keeps.mk_keeps

theorem State.reportLost_keeps {s0 s : State} (h : Keeps s0 s) : Keeps s0 (State.reportLost s) := by
  unfold State.reportLost
  repeat' first
    | with_reducible first
        | intro _ | assumption | apply State.logEvent_keeps | apply State.updHif_keeps | apply Keeps.ite | rfl
        | (extract_lets +onlyGivenNames -underBinder x; first | refine Keeps.cut x ?_ ?_ | skip)
    | split
    | with_reducible apply Keeps.mk_keeps

theorem State.serveHeads_keeps {s0 s : State} (h : Keeps s0 s) (f : DoorbellFetch) : Keeps s0 (State.serveHeads s f) := by
  unfold State.serveHeads
  repeat' first
    | with_reducible first
        | intro _ | assumption | apply State.updHif_keeps | apply State.when_keeps | apply State.setFld_keeps
        | apply State.drainHeld_keeps | apply State.reportLost_keeps | apply State.setFlag_keeps
        | apply Keeps.ite | apply Keeps.foldl | rfl
        | (extract_lets +onlyGivenNames -underBinder x; first | refine Keeps.cut x ?_ ?_ | skip)
    | split
    | with_reducible apply Keeps.mk_keeps

theorem State.doorbell_keeps {s0 s : State} (h : Keeps s0 s) (f : DoorbellFetch) : Keeps s0 (State.doorbell s f) := by
  unfold State.doorbell
  repeat' first
    | with_reducible first
        | intro _ | assumption | apply State.serveHeads_keeps | apply State.updHif_keeps
        | apply State.writeStatusPage_keeps | apply State.serveRing_keeps | apply Keeps.ite
        | apply Keeps.foldl | rfl
        | (extract_lets +onlyGivenNames -underBinder x; first | refine Keeps.cut x ?_ ?_ | skip)
    | split
    | with_reducible apply Keeps.mk_keeps

theorem execHifHostKick_keeps {s0 s : State} (h : Keeps s0 s) (f : DoorbellFetch) : OutKeeps s0 (execHifHostKick f s) := by
  unfold execHifHostKick
  repeat' first
    | with_reducible first
        | intro _ | assumption | apply State.icEdge_keeps | apply State.doorbell_keeps
        | apply State.updHif_keeps | apply Keeps.ite | apply OutKeeps.ite | apply OutKeeps.next | rfl
        | (extract_lets +onlyGivenNames -underBinder x; first | refine Keeps.cut x ?_ ?_ | refine OutKeeps.cut x ?_ ?_ | skip)
    | split
    | with_reducible apply Keeps.mk_keeps

theorem execDoorbellPoll_keeps {s0 s : State} (h : Keeps s0 s) (f : DoorbellFetch) : OutKeeps s0 (execDoorbellPoll f s) := by
  unfold execDoorbellPoll
  repeat' first
    | with_reducible first
        | intro _ | assumption | apply State.doorbell_keeps | apply Keeps.ite | apply OutKeeps.ite
        | apply OutKeeps.next | rfl
    | split
    | with_reducible apply Keeps.mk_keeps

theorem execHandleCloseRefetch_keeps {s0 s : State} (h : Keeps s0 s) (f : DoorbellFetch) : OutKeeps s0 (execHandleCloseRefetch f
    s) := by
  unfold execHandleCloseRefetch
  repeat' first
    | with_reducible first
        | intro _ | assumption | apply State.doorbell_keeps | apply Keeps.ite | apply OutKeeps.ite
        | apply OutKeeps.next | rfl
        | (extract_lets +onlyGivenNames -underBinder x; first | refine Keeps.cut x ?_ ?_ | refine OutKeeps.cut x ?_ ?_ | skip)
    | split
    | with_reducible apply Keeps.mk_keeps

theorem execHeldCompletionWrite_keeps {s0 s : State} (h : Keeps s0 s) (k : Fin 16) : OutKeeps s0 (execHeldCompletionWrite k s)
    := by
  unfold execHeldCompletionWrite
  repeat' first
    | with_reducible first
        | intro _ | assumption | apply State.drainHeld_keeps | apply OutKeeps.next | rfl
    | with_reducible apply Keeps.mk_keeps

theorem execCoalesceTimeout_keeps {s0 s : State} (h : Keeps s0 s) (ring : Option (Fin 16)) : OutKeeps s0 (execCoalesceTimeout
    ring s) := by
  unfold execCoalesceTimeout
  repeat' first
    | with_reducible first
        | intro _ | assumption | apply State.msix_keeps | apply State.updHif_keeps | apply Keeps.ite
        | apply OutKeeps.ite | apply OutKeeps.next | rfl
    | split
    | with_reducible apply Keeps.mk_keeps

theorem execEventLost_keeps {s0 s : State} (h : Keeps s0 s) : OutKeeps s0 (execEventLost s) := by
  unfold execEventLost
  repeat' first
    | with_reducible first
        | intro _ | assumption | apply State.reportLost_keeps | apply OutKeeps.next | rfl
    | with_reducible apply Keeps.mk_keeps

theorem State.refuseRing_keeps {s0 s : State} (h : Keeps s0 s) (n : Nat) : Keeps s0 (State.refuseRing s n) := by
  unfold State.refuseRing
  repeat' first
    | with_reducible first
        | intro _ | assumption | apply State.setFld_keeps | apply State.setFlag_keeps | rfl
    | with_reducible apply Keeps.mk_keeps

theorem State.enableCr_keeps {s0 s : State} (h : Keeps s0 s) (n : Nat) : Keeps s0 (State.enableCr s n) := by
  unfold State.enableCr
  repeat' first
    | with_reducible first
        | intro _ | assumption | apply State.setFld_keeps | apply State.setFlag_keeps
        | apply State.updHif_keeps | apply Keeps.ite | rfl
        | (extract_lets +onlyGivenNames -underBinder x; first | refine Keeps.cut x ?_ ?_ | skip)
    | split
    | with_reducible apply Keeps.mk_keeps

theorem State.writeCrCtl_keeps {s0 s : State} (h : Keeps s0 s) (n : Nat) (v : Word) : Keeps s0 (State.writeCrCtl s n v) := by
  unfold State.writeCrCtl
  repeat' first
    | with_reducible first
        | intro _ | assumption | apply State.setFlag_keeps | apply State.setFld_keeps
        | apply State.refuseRing_keeps | apply State.enableCr_keeps | apply State.updHif_keeps
        | apply Keeps.ite | rfl
        | (extract_lets +onlyGivenNames -underBinder x; first | refine Keeps.cut x ?_ ?_ | skip)
    | split
    | with_reducible apply Keeps.mk_keeps

theorem execCommandRingEnable_keeps {s0 s : State} (h : Keeps s0 s) (n : Fin 16) (v : Word) : OutKeeps s0 (execCommandRingEnable
    n v s) := by
  unfold execCommandRingEnable
  repeat' first
    | with_reducible first
        | intro _ | assumption | apply State.writeCrCtl_keeps | apply OutKeeps.next | rfl
    | with_reducible apply Keeps.mk_keeps

theorem execCommandRingDisable_keeps {s0 s : State} (h : Keeps s0 s) (n : Fin 16) (v : Word) : OutKeeps s0
    (execCommandRingDisable n v s) := by
  unfold execCommandRingDisable
  repeat' first
    | with_reducible first
        | intro _ | assumption | apply State.writeCrCtl_keeps | apply OutKeeps.next | rfl
    | with_reducible apply Keeps.mk_keeps

theorem execDrainEnd_keeps {s0 s : State} (h : Keeps s0 s) (n : Fin 16) : OutKeeps s0 (execDrainEnd n s) := by
  unfold execDrainEnd
  repeat' first
    | with_reducible first
        | intro _ | assumption | apply State.setFld_keeps | apply State.refuseRing_keeps
        | apply State.updHif_keeps | apply State.enableCr_keeps | apply Keeps.ite | apply OutKeeps.ite
        | apply OutKeeps.next | rfl
        | (extract_lets +onlyGivenNames -underBinder x; first | refine Keeps.cut x ?_ ?_ | refine OutKeeps.cut x ?_ ?_ | skip)
    | split
    | with_reducible apply Keeps.mk_keeps

theorem State.writeCqCtl_keeps {s0 s : State} (h : Keeps s0 s) (k : Nat) (v : Word) : Keeps s0 (State.writeCqCtl s k v) := by
  unfold State.writeCqCtl
  repeat' first
    | with_reducible first
        | intro _ | assumption | apply State.setFld_keeps | apply State.updHif_keeps
        | apply State.setFlag_keeps | apply State.drainHeld_keeps | apply State.refuseRing_keeps
        | apply Keeps.ite | rfl
        | (extract_lets +onlyGivenNames -underBinder x; first | refine Keeps.cut x ?_ ?_ | skip)
    | split
    | with_reducible apply Keeps.mk_keeps

theorem execCompletionRingEnable_keeps {s0 s : State} (h : Keeps s0 s) (k : Fin 16) (v : Word) : OutKeeps s0
    (execCompletionRingEnable k v s) := by
  unfold execCompletionRingEnable
  repeat' first
    | with_reducible first
        | intro _ | assumption | apply State.writeCqCtl_keeps | apply OutKeeps.next | rfl
    | with_reducible apply Keeps.mk_keeps

theorem State.writeOrphans_keeps {s0 s : State} (h : Keeps s0 s) : Keeps s0 (State.writeOrphans s) := by
  unfold State.writeOrphans
  repeat' first
    | with_reducible first
        | intro _ | assumption | apply State.showOpen_keeps | apply State.logEvent_keeps
        | apply State.updHif_keeps | apply Keeps.ite | apply Keeps.foldl | rfl
        | (extract_lets +onlyGivenNames -underBinder x; first | refine Keeps.cut x ?_ ?_ | skip)
    | split
    | with_reducible apply Keeps.mk_keeps

theorem State.writeEvCtl_keeps {s0 s : State} (h : Keeps s0 s) (v : Word) : Keeps s0 (State.writeEvCtl s v) := by
  unfold State.writeEvCtl
  repeat' first
    | with_reducible first
        | intro _ | assumption | apply State.setFld_keeps | apply State.setFlag_keeps
        | apply State.writeOrphans_keeps | apply State.updHif_keeps | apply Keeps.ite | rfl
        | (extract_lets +onlyGivenNames -underBinder x; first | refine Keeps.cut x ?_ ?_ | skip)
    | split
    | with_reducible apply Keeps.mk_keeps

theorem execEventRingEnable_keeps {s0 s : State} (h : Keeps s0 s) (v : Word) : OutKeeps s0 (execEventRingEnable v s) := by
  unfold execEventRingEnable
  repeat' first
    | with_reducible first
        | intro _ | assumption | apply State.writeEvCtl_keeps | apply OutKeeps.next | rfl
    | with_reducible apply Keeps.mk_keeps

theorem State.writeCmcCtl_keeps {s0 s : State} (h : Keeps s0 s) (v : Word) : Keeps s0 (State.writeCmcCtl s v) := by
  unfold State.writeCmcCtl
  repeat' first
    | with_reducible first
        | intro _ | assumption | apply State.setFld_keeps | apply State.setFlag_keeps
        | apply State.updHif_keeps | apply Keeps.ite | rfl
        | (extract_lets +onlyGivenNames -underBinder x; first | refine Keeps.cut x ?_ ?_ | skip)
    | split
    | with_reducible apply Keeps.mk_keeps

theorem State.resetHifRegs_keeps {s0 s : State} (h : Keeps s0 s) : Keeps s0 (State.resetHifRegs s) := by
  unfold State.resetHifRegs
  apply State.setFlag_keeps
  exact Keeps.of_parts h rfl (fun w => Tbl.wf_filter _ _ _ w) id id id id (fun a _ => a) (fun _ a => a) id (Nat.le_refl _)
    fun _ => rfl

theorem State.linkReset_keeps {s0 s : State} (h : Keeps s0 s) : Keeps s0 (State.linkReset s) := by
  unfold State.linkReset
  repeat' first
    | with_reducible first
        | intro _ | assumption | apply State.updHif_keeps | apply State.resetHifRegs_keeps
        | apply State.orphanDone_keeps | apply State.endOne_keeps | apply State.showOpen_keeps
        | apply Keeps.ite | apply Keeps.foldl | rfl
        | (extract_lets +onlyGivenNames -underBinder x; first | refine Keeps.cut x ?_ ?_ | skip)
    | split
    | with_reducible apply Keeps.mk_keeps

theorem State.perstEdges_keeps {s0 s : State} (h : Keeps s0 s) : Keeps s0 (State.perstEdges s) := by
  unfold State.perstEdges
  repeat' first
    | with_reducible first
        | intro _ | assumption | apply State.updGctl_keeps | apply State.icEdge_keeps | apply State.when_keeps
        | rfl
    | with_reducible apply Keeps.mk_keeps

theorem execLinkReset_keeps {s0 s : State} (h : Keeps s0 s) (perst : Bool) (bursts : List Burst) : OutKeeps s0 (execLinkReset
    perst bursts s) := by
  unfold execLinkReset
  repeat' first
    | with_reducible first
        | intro _ | assumption | apply State.when_keeps | apply State.linkReset_keeps
        | apply State.orphans_keeps | apply State.perstEdges_keeps | apply OutKeeps.next | rfl
    | with_reducible apply Keeps.mk_keeps

theorem execLinkUp_keeps {s0 s : State} (h : Keeps s0 s) (speed : Fin 5) (width : Fin 5) : OutKeeps s0 (execLinkUp speed width s)
    := by
  unfold execLinkUp
  repeat' first
    | with_reducible first
        | intro _ | assumption | apply State.setFld_keeps | apply State.when_keeps | apply State.setFlag_keeps
        | apply OutKeeps.next | rfl
        | (extract_lets +onlyGivenNames -underBinder x; first | refine Keeps.cut x ?_ ?_ | refine OutKeeps.cut x ?_ ?_ | skip)
    | with_reducible apply Keeps.mk_keeps

theorem execD3hotEntry_keeps {s0 s : State} (h : Keeps s0 s) : OutKeeps s0 (execD3hotEntry s) := by
  unfold execD3hotEntry
  repeat' first
    | with_reducible first
        | intro _ | assumption | apply State.updHif_keeps | apply Keeps.ite | apply OutKeeps.ite
        | apply OutKeeps.next | rfl
    | split
    | with_reducible apply Keeps.mk_keeps

theorem execReturnToD0_keeps {s0 s : State} (h : Keeps s0 s) : OutKeeps s0 (execReturnToD0 s) := by
  unfold execReturnToD0
  repeat' first
    | with_reducible first
        | intro _ | assumption | apply State.updHif_keeps | apply State.reportLost_keeps
        | apply State.drainHeld_keeps | apply Keeps.ite | apply OutKeeps.ite | apply OutKeeps.next
        | apply Keeps.foldl | rfl
        | (extract_lets +onlyGivenNames -underBinder x; first | refine Keeps.cut x ?_ ?_ | refine OutKeeps.cut x ?_ ?_ | skip)
    | split
    | with_reducible apply Keeps.mk_keeps

theorem State.dmaFault_keeps {s0 s : State} (h : Keeps s0 s) (hh : Nat) (fault : Nat) (obj : List Byte) : Keeps s0
    (State.dmaFault s hh fault obj) := by
  unfold State.dmaFault
  repeat' first
    | with_reducible first
        | intro _ | assumption | apply State.run_keeps | apply State.updHif_keeps | apply State.faultEnd_keeps
        | apply State.dmaDone_keeps | apply State.scatter_keeps | apply Keeps.ite | rfl
        | (extract_lets +onlyGivenNames -underBinder x; first | refine Keeps.cut x ?_ ?_ | skip)
    | split
    | with_reducible apply Keeps.mk_keeps

theorem State.reportAer_keeps {s0 s : State} (h : Keeps s0 s) (e : AerError) : Keeps s0 (State.reportAer s e) := by
  unfold State.reportAer
  repeat' first
    | with_reducible first
        | intro _ | assumption | apply State.updHif_keeps | apply Keeps.ite | rfl
    | split
    | with_reducible apply Keeps.mk_keeps

theorem execCplTimeout_keeps {s0 s : State} (h : Keeps s0 s) (hh : Word) (waited : Nat) (obj : List Byte) : OutKeeps s0
    (execCplTimeout hh waited obj s) := by
  unfold execCplTimeout
  repeat' first
    | with_reducible first
        | intro _ | assumption | apply State.dmaFault_keeps | apply State.reportAer_keeps
        | apply State.incFld_keeps | apply Keeps.ite | apply OutKeeps.ite | apply OutKeeps.next | rfl
    | split
    | with_reducible apply Keeps.mk_keeps

theorem execDmaFault_keeps {s0 s : State} (h : Keeps s0 s) (hh : Word) (kind : DmaFault) (obj : List Byte) : OutKeeps s0
    (execDmaFault hh kind obj s) := by
  unfold execDmaFault
  repeat' first
    | with_reducible first
        | intro _ | assumption | apply State.dmaFault_keeps | apply State.reportAer_keeps
        | apply State.incFld_keeps | apply OutKeeps.next | rfl
    | split
    | with_reducible apply Keeps.mk_keeps

theorem execStagedPrefixExpiry_keeps {s0 s : State} (h : Keeps s0 s) (opcode : BitVec 16) : OutKeeps s0 (execStagedPrefixExpiry
    opcode s) := by
  unfold execStagedPrefixExpiry
  repeat' first
    | with_reducible first
        | intro _ | assumption | apply State.updHif_keeps | apply Keeps.ite | apply OutKeeps.ite
        | apply OutKeeps.next | rfl
    | split
    | with_reducible apply Keeps.mk_keeps

theorem State.updI3c_keeps {s0 s : State} (h : Keeps s0 s) (f : I3c → I3c) : Keeps s0 (State.updI3c s f) := by
  unfold State.updI3c
  repeat' first
    | with_reducible first
        | intro _ | assumption | rfl
    | with_reducible apply Keeps.mk_keeps

theorem State.refuseI3c_keeps {s0 s : State} (h : Keeps s0 s) : Keeps s0 (State.refuseI3c s) := by
  unfold State.refuseI3c
  repeat' first
    | with_reducible first
        | intro _ | assumption | apply State.incFld_keeps | rfl
    | with_reducible apply Keeps.mk_keeps

theorem State.setMbxEn_keeps {s0 s : State} (h : Keeps s0 s) (b : Bool) : Keeps s0 (State.setMbxEn s b) := by
  unfold State.setMbxEn
  repeat' first
    | with_reducible first
        | intro _ | assumption | apply State.updI3c_keeps | apply State.setFlag_keeps | rfl
    | with_reducible apply Keeps.mk_keeps

theorem State.writeI3ctCtl_keeps {s0 s : State} (h : Keeps s0 s) (v : Word) : Keeps s0 (State.writeI3ctCtl s v) := by
  unfold State.writeI3ctCtl
  repeat' first
    | with_reducible first
        | intro _ | assumption | apply State.setFlag_keeps | apply State.incFld_keeps
        | apply State.setMbxEn_keeps | apply State.updI3c_keeps | apply Keeps.ite | rfl
        | (extract_lets +onlyGivenNames -underBinder x; first | refine Keeps.cut x ?_ ?_ | skip)
    | split
    | with_reducible apply Keeps.mk_keeps

theorem State.mbxGo_keeps {s0 s : State} (h : Keeps s0 s) : Keeps s0 (State.mbxGo s) := by
  unfold State.mbxGo
  repeat' first
    | with_reducible first
        | intro _ | assumption | apply State.incFld_keeps | apply State.icRaise_keeps
        | apply State.setFld_keeps | apply State.takeDescriptor_keeps | apply Keeps.ite | rfl
        | (extract_lets +onlyGivenNames -underBinder x; first | refine Keeps.cut x ?_ ?_ | skip)
    | split
    | with_reducible apply Keeps.mk_keeps

theorem State.mbxUnitDone_keeps {s0 s : State} (h : Keeps s0 s) : Keeps s0 (State.mbxUnitDone s) := by
  unfold State.mbxUnitDone
  repeat' first
    | with_reducible first
        | intro _ | assumption | apply State.updI3c_keeps | apply State.mbxUnit_keeps
        | apply State.updHandle_keeps | apply State.setFld_keeps | apply Keeps.ite | rfl
        | (extract_lets +onlyGivenNames -underBinder x; first | refine Keeps.cut x ?_ ?_ | skip)
    | split
    | with_reducible apply Keeps.mk_keeps

theorem State.writeMbxCtl_keeps {s0 s : State} (h : Keeps s0 s) (m : Master) (v : Word) : Keeps s0 (State.writeMbxCtl s m v) := by
  unfold State.writeMbxCtl
  repeat' first
    | with_reducible first
        | intro _ | assumption | apply State.refuseI3c_keeps | apply State.setFld_keeps
        | apply State.when_keeps | apply State.mbxGo_keeps | apply State.mbxUnitDone_keeps | apply Keeps.ite
        | rfl
        | (extract_lets +onlyGivenNames -underBinder x; first | refine Keeps.cut x ?_ ?_ | skip)
    | split
    | with_reducible apply Keeps.mk_keeps

theorem State.mbxBroken_keeps {s0 s : State} (h : Keeps s0 s) : Keeps s0 (State.mbxBroken s) := by
  unfold State.mbxBroken
  repeat' first
    | with_reducible first
        | intro _ | assumption | apply State.setFld_keeps | apply State.faultEnd_keeps
        | apply State.updHif_keeps | apply Keeps.ite | rfl
        | (extract_lets +onlyGivenNames -underBinder x; first | refine Keeps.cut x ?_ ?_ | skip)
    | split
    | with_reducible apply Keeps.mk_keeps

theorem State.readCpl_keeps {s0 s : State} (h : Keeps s0 s) (m : Master) (k : Nat) : Keeps s0 (State.readCpl s m k) := by
  unfold State.readCpl
  repeat' first
    | with_reducible first
        | intro _ | assumption | apply State.setRdata_keeps | apply State.latch_keeps
        | apply State.updI3c_keeps | apply State.setFld_keeps | apply State.setMbxEn_keeps
        | apply State.mbxPlace_keeps | apply Keeps.ite | rfl
        | (extract_lets +onlyGivenNames -underBinder x; first | refine Keeps.cut x ?_ ?_ | skip)
    | split
    | with_reducible apply Keeps.mk_keeps

theorem State.rcvStart_keeps {s0 s : State} (h : Keeps s0 s) (m : Master) : Keeps s0 (State.rcvStart s m) := by
  unfold State.rcvStart
  repeat' first
    | with_reducible first
        | intro _ | assumption | apply State.setRcv_keeps | apply State.setFld_keeps
        | apply State.updI3c_keeps | apply Keeps.ite | rfl
        | (extract_lets +onlyGivenNames -underBinder x; first | refine Keeps.cut x ?_ ?_ | skip)
    | split
    | with_reducible apply Keeps.mk_keeps

theorem State.rcvUnitDone_keeps {s0 s : State} (h : Keeps s0 s) : Keeps s0 (State.rcvUnitDone s) := by
  unfold State.rcvUnitDone
  repeat' first
    | with_reducible first
        | intro _ | assumption | apply State.updI3c_keeps | apply State.setFld_keeps
        | apply State.setRcv_keeps | apply Keeps.ite | rfl
        | (extract_lets +onlyGivenNames -underBinder x; first | refine Keeps.cut x ?_ ?_ | skip)
    | split
    | with_reducible apply Keeps.mk_keeps

theorem State.rcvAbort_keeps {s0 s : State} (h : Keeps s0 s) : Keeps s0 (State.rcvAbort s) := by
  unfold State.rcvAbort
  repeat' first
    | with_reducible first
        | intro _ | assumption | apply State.setFld_keeps | apply State.setRcv_keeps
        | apply State.updI3c_keeps | apply Keeps.ite | rfl
        | (extract_lets +onlyGivenNames -underBinder x; first | refine Keeps.cut x ?_ ?_ | skip)
    | split
    | with_reducible apply Keeps.mk_keeps

theorem State.writeRcvCtl_keeps {s0 s : State} (h : Keeps s0 s) (m : Master) (v : Word) : Keeps s0 (State.writeRcvCtl s m v) := by
  unfold State.writeRcvCtl
  repeat' first
    | with_reducible first
        | intro _ | assumption | apply State.refuseI3c_keeps | apply State.rcvAbort_keeps
        | apply State.rcvUnitDone_keeps | apply State.rcvStart_keeps | apply Keeps.ite | rfl
    | split
    | with_reducible apply Keeps.mk_keeps

theorem State.writeRcvBytes_keeps {s0 s : State} (h : Keeps s0 s) (m : Master) (v : Word) : Keeps s0 (State.writeRcvBytes s m v)
    := by
  unfold State.writeRcvBytes
  repeat' first
    | with_reducible first
        | intro _ | assumption | apply State.refuseI3c_keeps | apply State.setReg_keeps | apply Keeps.ite
        | rfl
    | split
    | with_reducible apply Keeps.mk_keeps

theorem State.writeI3ctBuf_keeps {s0 s : State} (h : Keeps s0 s) (m : Master) (off : Nat) (v : Word) : Keeps s0
    (State.writeI3ctBuf s m off v) := by
  unfold State.writeI3ctBuf
  repeat' first
    | with_reducible first
        | intro _ | assumption | apply State.setReg_keeps | apply State.refuseI3c_keeps | apply Keeps.ite
        | rfl
        | (extract_lets +onlyGivenNames -underBinder x; first | refine Keeps.cut x ?_ ?_ | skip)
    | split
    | with_reducible apply Keeps.mk_keeps

theorem State.writeMbxDesc_keeps {s0 s : State} (h : Keeps s0 s) (m : Master) (off : Nat) (v : Word) : Keeps s0
    (State.writeMbxDesc s m off v) := by
  unfold State.writeMbxDesc
  repeat' first
    | with_reducible first
        | intro _ | assumption | apply State.setReg_keeps | apply State.refuseI3c_keeps | apply Keeps.ite
        | rfl
    | split
    | with_reducible apply Keeps.mk_keeps

theorem State.rcvFail_keeps {s0 s : State} (h : Keeps s0 s) (slot : Nat) (cause : Nat) : Keeps s0 (State.rcvFail s slot cause)
    := by
  unfold State.rcvFail
  repeat' first
    | with_reducible first
        | intro _ | assumption | apply State.setRcv_keeps | apply State.setFld_keeps
        | apply State.setSlot_keeps | rfl
    | with_reducible apply Keeps.mk_keeps

theorem execMbxEnWrite_keeps {s0 s : State} (h : Keeps s0 s) (_m : Master) (v : Word) : OutKeeps s0 (execMbxEnWrite _m v s) := by
  unfold execMbxEnWrite
  repeat' first
    | with_reducible first
        | intro _ | assumption | apply State.writeI3ctCtl_keeps | apply OutKeeps.next | rfl
    | with_reducible apply Keeps.mk_keeps

theorem execMbxGo_keeps {s0 s : State} (h : Keeps s0 s) (m : Master) : OutKeeps s0 (execMbxGo m s) := by
  unfold execMbxGo
  repeat' first
    | with_reducible first
        | intro _ | assumption | apply State.writeMbxCtl_keeps | apply OutKeeps.next | rfl
    | with_reducible apply Keeps.mk_keeps

theorem execMbxUnitDone_keeps {s0 s : State} (h : Keeps s0 s) (m : Master) : OutKeeps s0 (execMbxUnitDone m s) := by
  unfold execMbxUnitDone
  repeat' first
    | with_reducible first
        | intro _ | assumption | apply State.writeMbxCtl_keeps | apply OutKeeps.next | rfl
    | with_reducible apply Keeps.mk_keeps

theorem execMbxUnitTimeout_keeps {s0 s : State} (h : Keeps s0 s) (waitedMs : Nat) : OutKeeps s0 (execMbxUnitTimeout waitedMs s)
    := by
  unfold execMbxUnitTimeout
  repeat' first
    | with_reducible first
        | intro _ | assumption | apply State.mbxBroken_keeps | apply Keeps.ite | apply OutKeeps.ite
        | apply OutKeeps.next | rfl
    | split
    | with_reducible apply Keeps.mk_keeps

theorem execMbxCplRead_keeps {s0 s : State} (h : Keeps s0 s) (m : Master) (k : Fin 4) : OutKeeps s0 (execMbxCplRead m k s) := by
  unfold execMbxCplRead
  repeat' first
    | with_reducible first
        | intro _ | assumption | apply State.readCpl_keeps | apply OutKeeps.next | rfl
    | with_reducible apply Keeps.mk_keeps

theorem execRcvStart_keeps {s0 s : State} (h : Keeps s0 s) (m : Master) : OutKeeps s0 (execRcvStart m s) := by
  unfold execRcvStart
  repeat' first
    | with_reducible first
        | intro _ | assumption | apply State.writeRcvCtl_keeps | apply OutKeeps.next | rfl
    | with_reducible apply Keeps.mk_keeps

theorem execRcvUnitDone_keeps {s0 s : State} (h : Keeps s0 s) (m : Master) : OutKeeps s0 (execRcvUnitDone m s) := by
  unfold execRcvUnitDone
  repeat' first
    | with_reducible first
        | intro _ | assumption | apply State.writeRcvCtl_keeps | apply OutKeeps.next | rfl
    | with_reducible apply Keeps.mk_keeps

theorem execRcvAbort_keeps {s0 s : State} (h : Keeps s0 s) (m : Master) : OutKeeps s0 (execRcvAbort m s) := by
  unfold execRcvAbort
  repeat' first
    | with_reducible first
        | intro _ | assumption | apply State.writeRcvCtl_keeps | apply OutKeeps.next | rfl
    | with_reducible apply Keeps.mk_keeps

theorem execRcvVerifyDone_keeps {s0 s : State} (h : Keeps s0 s) (flashOk : Bool) : OutKeeps s0 (execRcvVerifyDone flashOk s) := by
  unfold execRcvVerifyDone
  repeat' first
    | with_reducible first
        | intro _ | assumption | apply State.rcvFail_keeps | apply State.bootSlot_keeps
        | apply State.setRcv_keeps | apply State.updMss_keeps | apply State.setSlot_keeps | apply Keeps.ite
        | apply OutKeeps.ite | apply OutKeeps.next | rfl
        | (extract_lets +onlyGivenNames -underBinder x; first | refine Keeps.cut x ?_ ?_ | refine OutKeeps.cut x ?_ ?_ | skip)
    | split
    | with_reducible apply Keeps.mk_keeps

theorem State.badSize_keeps {s0 s : State} (h : Keeps s0 s) (m : Master) (off : Nat) (write : Bool) : Keeps s0 (State.badSize s m
    off write) := by
  unfold State.badSize
  repeat' first
    | with_reducible first
        | intro _ | assumption | apply State.logEvent_keeps | apply State.setRdata_keeps | apply Keeps.ite
        | rfl
        | (extract_lets +onlyGivenNames -underBinder x; first | refine Keeps.cut x ?_ ?_ | skip)
    | split
    | with_reducible apply Keeps.mk_keeps

theorem State.writeByCode_keeps {s0 s : State} (h : Keeps s0 s) (off : Nat) (v : Word) : Keeps s0 (State.writeByCode s off v)
    := by
  unfold State.writeByCode
  repeat' first
    | with_reducible first
        | intro _ | assumption | apply State.setReg_keeps | apply State.wkWrite_keeps | apply Keeps.ite | rfl
        | (extract_lets +onlyGivenNames -underBinder x; first | refine Keeps.cut x ?_ ?_ | skip)
    | split
    | with_reducible apply Keeps.mk_keeps

theorem State.writePairCfg_keeps {s0 s : State} (h : Keeps s0 s) (v : Word) : Keeps s0 (State.writePairCfg s v) := by
  unfold State.writePairCfg
  repeat' first
    | with_reducible first
        | intro _ | assumption | apply State.wkWrite_keeps | apply State.setFld_keeps | apply Keeps.ite | rfl
        | (extract_lets +onlyGivenNames -underBinder x; first | refine Keeps.cut x ?_ ?_ | skip)
    | split
    | with_reducible apply Keeps.mk_keeps

theorem State.writePairId_keeps {s0 s : State} (h : Keeps s0 s) (v : Word) : Keeps s0 (State.writePairId s v) := by
  unfold State.writePairId
  repeat' first
    | with_reducible first
        | intro _ | assumption | apply State.wkWrite_keeps | apply State.setReg_keeps | apply Keeps.ite | rfl
    | split
    | with_reducible apply Keeps.mk_keeps

theorem State.writeSteerCtl_keeps {s0 s : State} (h : Keeps s0 s) (n : Nat) (off : Nat) (v : Word) : Keeps s0
    (State.writeSteerCtl s n off v) := by
  unfold State.writeSteerCtl
  repeat' first
    | with_reducible first
        | intro _ | assumption | apply State.writeByCode_keeps | apply State.setFld_keeps
        | apply State.updLane_keeps | apply Keeps.ite | rfl
        | (extract_lets +onlyGivenNames -underBinder x; first | refine Keeps.cut x ?_ ?_ | skip)
    | split
    | with_reducible apply Keeps.mk_keeps

theorem State.writeTtCtl_keeps {s0 s : State} (h : Keeps s0 s) (n : Nat) (off : Nat) (v : Word) : Keeps s0 (State.writeTtCtl s n
    off v) := by
  unfold State.writeTtCtl
  repeat' first
    | with_reducible first
        | intro _ | assumption | apply State.writeByCode_keeps | apply State.when_keeps
        | apply State.writeSuspectClr_keeps | apply Keeps.ite | rfl
        | (extract_lets +onlyGivenNames -underBinder x; first | refine Keeps.cut x ?_ ?_ | skip)
    | split
    | with_reducible apply Keeps.mk_keeps

theorem State.writeLaneReg_keeps {s0 s : State} (h : Keeps s0 s) (n : Nat) (off : Nat) (v : Word) : Keeps s0 (State.writeLaneReg
    s n off v) := by
  unfold State.writeLaneReg
  repeat' first
    | with_reducible first
        | intro _ | assumption | apply State.writeLaneCtl_keeps | apply State.writeTxFfe_keeps
        | apply State.writeTapLoad_keeps | apply State.writeThreshold_keeps | apply State.writeTimCtl_keeps
        | apply State.writeSteerCtl_keeps | apply State.writeTtCtl_keeps | apply State.writeTtAsym_keeps
        | apply State.writeByCode_keeps | apply Keeps.ite | rfl
        | (extract_lets +onlyGivenNames -underBinder x; first | refine Keeps.cut x ?_ ?_ | skip)
    | split
    | with_reducible apply Keeps.mk_keeps

theorem State.writeVctl_keeps {s0 s : State} (h : Keeps s0 s) (k : Nat) (v : Word) : Keeps s0 (State.writeVctl s k v) := by
  unfold State.writeVctl
  repeat' first
    | with_reducible first
        | intro _ | assumption | apply State.writeByCode_keeps | apply State.msix_keeps
        | apply State.setFlag_keeps | apply Keeps.ite | rfl
        | (extract_lets +onlyGivenNames -underBinder x; first | refine Keeps.cut x ?_ ?_ | skip)
    | split
    | with_reducible apply Keeps.mk_keeps

theorem State.writeHifReg_keeps {s0 s : State} (h : Keeps s0 s) (off : Nat) (v : Word) : Keeps s0 (State.writeHifReg s off v)
    := by
  unfold State.writeHifReg
  repeat' first
    | with_reducible first
        | intro _ | assumption | apply State.updHif_keeps | apply State.icEdge_keeps
        | apply State.writeEvCtl_keeps | apply State.writeCmcCtl_keeps | apply State.setFlag_keeps
        | apply State.writeByCode_keeps | apply State.writeCrCtl_keeps | apply State.writeCqCtl_keeps
        | apply State.writeVctl_keeps | apply Keeps.ite | rfl
        | (extract_lets +onlyGivenNames -underBinder x; first | refine Keeps.cut x ?_ ?_ | skip)
    | split
    | with_reducible apply Keeps.mk_keeps

theorem State.writeI3ctReg_keeps {s0 s : State} (h : Keeps s0 s) (m : Master) (off : Nat) (v : Word) : Keeps s0
    (State.writeI3ctReg s m off v) := by
  unfold State.writeI3ctReg
  repeat' first
    | with_reducible first
        | intro _ | assumption | apply State.writeI3ctCtl_keeps | apply State.writeMbxCtl_keeps
        | apply State.writeMbxDesc_keeps | apply State.writeRcvCtl_keeps | apply State.writeRcvBytes_keeps
        | apply State.writeI3ctBuf_keeps | apply State.writeByCode_keeps | apply Keeps.ite | rfl
    | split
    | with_reducible apply Keeps.mk_keeps

theorem State.writeIcReg_keeps {s0 s : State} (h : Keeps s0 s) (off : Nat) (v : Word) : Keeps s0 (State.writeIcReg s off v) := by
  unfold State.writeIcReg
  repeat' first
    | with_reducible first
        | intro _ | assumption | apply State.writeSwi_keeps | apply State.writeHostSet_keeps
        | apply State.writeIcSrc_keeps | apply State.writeByCode_keeps | apply State.icSettle_keeps
        | apply Keeps.ite | apply Keeps.foldl | rfl
        | (extract_lets +onlyGivenNames -underBinder x; first | refine Keeps.cut x ?_ ?_ | skip)
    | split
    | with_reducible apply Keeps.mk_keeps

theorem State.writeTagCtl_keeps {s0 s : State} (h : Keeps s0 s) (c : Nat) (off : Nat) (v : Word) : Keeps s0 (State.writeTagCtl s
    c off v) := by
  unfold State.writeTagCtl
  repeat' first
    | with_reducible first
        | intro _ | assumption | apply State.when_keeps | apply State.writeByCode_keeps
        | apply State.drawTag_keeps | apply State.icRaise_keeps | apply Keeps.ite | rfl
        | (extract_lets +onlyGivenNames -underBinder x; first | refine Keeps.cut x ?_ ?_ | skip)
    | split
    | with_reducible apply Keeps.mk_keeps

theorem State.writeMssReg_keeps {s0 s : State} (h : Keeps s0 s) (m : Master) (off : Nat) (v : Word) : Keeps s0 (State.writeMssReg
    s m off v) := by
  unfold State.writeMssReg
  repeat' first
    | with_reducible first
        | intro _ | assumption | apply State.writeRemap_keeps | apply State.writeHold_keeps
        | apply State.writeRestart_keeps | apply State.writeMtest_keeps | apply State.writeTagCtl_keeps
        | apply State.writeLcCtl_keeps | apply State.writeZeroise_keeps | apply State.writeKeyloadCtl_keeps
        | apply State.writeKeyload_keeps | apply State.writeTrial_keeps | apply State.writeRollback_keeps
        | apply State.writeByCode_keeps | apply Keeps.ite | rfl
    | split
    | with_reducible apply Keeps.mk_keeps

theorem State.writeTestReg_keeps {s0 s : State} (h : Keeps s0 s) (off : Nat) (v : Word) : Keeps s0 (State.writeTestReg s off v)
    := by
  unfold State.writeTestReg
  repeat' first
    | with_reducible first
        | intro _ | assumption | apply State.writeTestLoop_keeps | apply State.writePrbsGen_keeps
        | apply State.writePrbsChk_keeps | apply Keeps.ite | rfl
        | (extract_lets +onlyGivenNames -underBinder x; first | refine Keeps.cut x ?_ ?_ | skip)
    | split
    | with_reducible apply Keeps.mk_keeps

theorem State.writeDailiesCtl_keeps {s0 s : State} (h : Keeps s0 s) (v : Word) : Keeps s0 (State.writeDailiesCtl s v) := by
  unfold State.writeDailiesCtl
  repeat' first
    | with_reducible first
        | intro _ | assumption | apply State.when_keeps | apply State.writeByCode_keeps
        | apply State.writeRelease_keeps | rfl
    | with_reducible apply Keeps.mk_keeps

theorem State.writeReg_keeps {s0 s : State} (h : Keeps s0 s) (m : Master) (off : Nat) (v : Word) : Keeps s0 (State.writeReg s m
    off v) := by
  unfold State.writeReg
  repeat' first
    | with_reducible first
        | intro _ | assumption | apply State.writeKey_keeps | apply State.keepAlive_keeps
        | apply State.writeFenceCtl_keeps | apply State.writeByCode_keeps | apply State.heartbeatAbsent_keeps
        | apply State.placeImage_keeps | apply State.writeFacetBar_keeps | apply State.writeSpliceAt_keeps
        | apply State.writeSpliceCtl_keeps | apply State.writeDailiesCtl_keeps
        | apply State.writePtpSample_keeps | apply State.writeCandCtl_keeps | apply State.writePairCfg_keeps
        | apply State.writePairId_keeps | apply State.refreshEvidence_keeps | apply State.writeHifReg_keeps
        | apply State.writeI3ctReg_keeps | apply State.writeIcReg_keeps | apply State.writeMssReg_keeps
        | apply State.writeTestReg_keeps | apply State.writeLaneReg_keeps | apply Keeps.ite | rfl
        | (extract_lets +onlyGivenNames -underBinder x; first | refine Keeps.cut x ?_ ?_ | skip)
    | split
    | with_reducible apply Keeps.mk_keeps

theorem State.busWrite_keeps {s0 s : State} (h : Keeps s0 s) (m : Master) (off : Nat) (v : Word) : Keeps s0 (State.busWrite s m
    off v) := by
  unfold State.busWrite
  dsimp only
  repeat' first
    | with_reducible first
        | assumption | apply State.badSize_keeps | apply State.denied_keeps | apply State.raiseExc_keeps
        | apply State.writeReg_keeps | apply Keeps.ite | rfl | intro _
    | split
    | with_reducible apply Keeps.mk_keeps

theorem State.readReg_keeps {s0 s : State} (h : Keeps s0 s) (m : Master) (off : Nat) : Keeps s0 (State.readReg s m off) := by
  unfold State.readReg
  repeat' first
    | with_reducible first
        | intro _ | assumption | exact State.readDevnum_keeps_eq ‹_› ‹_› | exact State.fresh_keeps_eq ‹_› ‹_›
        | exact State.readPrbs_keeps_eq ‹_› ‹_› | exact State.popTag_keeps_eq ‹_› ‹_›
        | apply State.setRdata_keeps | apply State.readDevnum_keeps | apply State.fresh_keeps
        | apply State.readAnchor_keeps | apply State.popTsq_keeps | apply State.readPrbs_keeps
        | apply State.readCpl_keeps | apply State.popTag_keeps | apply State.readBoot_keeps
        | apply State.setReg_keeps | apply Keeps.ite | rfl
        | (extract_lets +onlyGivenNames -underBinder x; first | refine Keeps.cut x ?_ ?_ | skip)
    | split
    | with_reducible apply Keeps.mk_keeps

theorem State.busRead_keeps {s0 s : State} (h : Keeps s0 s) (m : Master) (off : Nat) : Keeps s0 (State.busRead s m off) := by
  unfold State.busRead
  repeat' first
    | with_reducible first
        | intro _ | assumption | exact State.fresh_keeps_eq ‹_› ‹_› | apply State.badSize_keeps
        | apply State.setRdata_keeps | apply State.fresh_keeps | apply State.readReg_keeps | apply Keeps.ite
        | rfl
        | (extract_lets +onlyGivenNames -underBinder x; first | refine Keeps.cut x ?_ ?_ | skip)
    | split
    | with_reducible apply Keeps.mk_keeps

theorem execRegisterWrite_keeps {s0 s : State} (h : Keeps s0 s) (m : Master) (off : BitVec 26) (v : Word) : OutKeeps s0
    (execRegisterWrite m off v s) := by
  unfold execRegisterWrite
  repeat' first
    | with_reducible first
        | intro _ | assumption | apply State.busWrite_keeps | apply OutKeeps.next | rfl
    | with_reducible apply Keeps.mk_keeps

theorem execReadClear_keeps {s0 s : State} (h : Keeps s0 s) (m : Master) (off : BitVec 26) : OutKeeps s0 (execReadClear m off s)
    := by
  unfold execReadClear
  repeat' first
    | with_reducible first
        | intro _ | assumption | apply State.busRead_keeps | apply OutKeeps.next | rfl
    | with_reducible apply Keeps.mk_keeps

theorem execRegAccessSize_keeps {s0 s : State} (h : Keeps s0 s) (m : Master) (off : BitVec 26) (bytes : Nat) (write : Bool) :
    OutKeeps s0 (execRegAccessSize m off bytes write s) := by
  unfold execRegAccessSize
  repeat' first
    | with_reducible first
        | intro _ | assumption | apply State.badSize_keeps | apply Keeps.ite | apply OutKeeps.ite
        | apply OutKeeps.next | rfl
    | split
    | with_reducible apply Keeps.mk_keeps

theorem State.nack_keeps {s0 s : State} (h : Keeps s0 s) : Keeps s0 (State.nack s) := by
  unfold State.nack
  repeat' first
    | with_reducible first
        | intro _ | assumption | apply State.updI3c_keeps | rfl
    | with_reducible apply Keeps.mk_keeps

theorem State.ack_keeps {s0 s : State} (h : Keeps s0 s) (bytes : optParam (List Byte) []) : Keeps s0 (State.ack s bytes) := by
  unfold State.ack
  repeat' first
    | with_reducible first
        | intro _ | assumption | apply State.updI3c_keeps | rfl
    | with_reducible apply Keeps.mk_keeps

theorem State.onBus_keeps {s0 s : State} (h : Keeps s0 s) (act : State → State) (h_act : ∀ x0, Keeps s0 x0 → Keeps s0 (act x0)) :
    Keeps s0 (State.onBus s act) := by
  unfold State.onBus
  repeat' first
    | with_reducible first
        | intro _ | assumption | apply h_act | apply State.nack_keeps | apply Keeps.ite | rfl
    | split
    | with_reducible apply Keeps.mk_keeps

theorem State.bridgeWrite_keeps {s0 s : State} (h : Keeps s0 s) (off : Nat) (ws : List Word) : Keeps s0 (State.bridgeWrite s off
    ws) := by
  unfold State.bridgeWrite
  repeat' first
    | with_reducible first
        | intro _ | assumption | apply State.busWrite_keeps | apply State.denied_keeps | apply Keeps.ite
        | apply Keeps.foldl | rfl
        | (extract_lets +onlyGivenNames -underBinder x; first | refine Keeps.cut x ?_ ?_ | skip)
    | split
    | with_reducible apply Keeps.mk_keeps

theorem State.bridgeRead_keeps {s0 s : State} (h : Keeps s0 s) (off : Nat) (n : Nat) : Keeps s0 (State.bridgeRead s off n).2 := by
  unfold State.bridgeRead
  suffices H : ∀ (l : List Nat) (p : List Word × State), Keeps s0 p.2 → Keeps s0 (l.foldl (fun (ws, s) k =>
      let o := off + 4 * k
      if o < 0x4000000 then
        let s := s.busRead .i3c o
        (ws ++ [s.rdataOf .i3c], s)
      else (ws ++ [0], s.denied 10 (0x40000000 + o) 1)) p).2 from H _ _ h
  intro l
  induction l with
  | nil => exact fun p hp => hp
  | cons k l ih =>
    intro p hp
    refine ih _ ?_
    dsimp only
    split
    · exact State.busRead_keeps hp _ _
    · exact State.denied_keeps hp _ _ _

theorem State.bridgeRead_keeps_eq {s0 s : State} (h : Keeps s0 s) (off : Nat) (n : Nat) {t : State} {r : _} (e : (State.bridgeRead s off n) = (r, t)) : Keeps s0 t := by
  have k := State.bridgeRead_keeps h off n
  rw [e] at k; exact k

theorem State.badOp_keeps {s0 s : State} (h : Keeps s0 s) : Keeps s0 (State.badOp s) := by
  unfold State.badOp
  repeat' first
    | with_reducible first
        | intro _ | assumption | apply State.ack_keeps | apply State.incFld_keeps | rfl
    | with_reducible apply Keeps.mk_keeps

theorem State.privateWrite_keeps {s0 s : State} (h : Keeps s0 s) (op : Nat) (bytes : List Byte) : Keeps s0 (State.privateWrite s
    op bytes) := by
  unfold State.privateWrite
  repeat' first
    | with_reducible first
        | intro _ | assumption | exact State.bridgeRead_keeps_eq ‹_› ‹_› | apply State.ack_keeps
        | apply State.bridgeWrite_keeps | apply State.bridgeRead_keeps | apply State.updI3c_keeps
        | apply State.badOp_keeps | apply Keeps.ite | rfl
        | (extract_lets +onlyGivenNames -underBinder x; first | refine Keeps.cut x ?_ ?_ | skip)
    | split
    | with_reducible apply Keeps.mk_keeps

theorem execPrivateWriteWrite_keeps {s0 s : State} (h : Keeps s0 s) (bytes : List Byte) (parity : Bool) : OutKeeps s0
    (execPrivateWriteWrite bytes parity s) := by
  unfold execPrivateWriteWrite
  repeat' first
    | with_reducible first
        | intro _ | assumption | apply State.onBus_keeps | apply State.ack_keeps | apply State.updI3c_keeps
        | apply State.incFld_keeps | apply State.privateWrite_keeps | apply Keeps.ite | apply OutKeeps.ite
        | apply OutKeeps.next | rfl
    | split
    | with_reducible apply Keeps.mk_keeps

theorem execSetRead_keeps {s0 s : State} (h : Keeps s0 s) (off : Word) (count : BitVec 16) : OutKeeps s0 (execSetRead off count
    s) := by
  unfold execSetRead
  repeat' first
    | with_reducible first
        | intro _ | assumption | apply State.onBus_keeps | apply State.privateWrite_keeps
        | apply OutKeeps.next | rfl
    | with_reducible apply Keeps.mk_keeps

theorem State.privateRead_keeps {s0 s : State} (h : Keeps s0 s) : Keeps s0 (State.privateRead s) := by
  unfold State.privateRead
  repeat' first
    | with_reducible first
        | intro _ | assumption | apply State.nack_keeps | apply State.ack_keeps | apply State.updI3c_keeps
        | rfl
    | split
    | with_reducible apply Keeps.mk_keeps

theorem execPrivateRead_keeps {s0 s : State} (h : Keeps s0 s) : OutKeeps s0 (execPrivateRead s) := by
  unfold execPrivateRead
  repeat' first
    | with_reducible first
        | intro _ | assumption | apply State.onBus_keeps | apply State.privateRead_keeps | apply OutKeeps.next
        | rfl
    | with_reducible apply Keeps.mk_keeps

theorem State.hdrError_keeps {s0 s : State} (h : Keeps s0 s) : Keeps s0 (State.hdrError s) := by
  unfold State.hdrError
  repeat' first
    | with_reducible first
        | intro _ | assumption | apply State.ack_keeps | apply State.updI3c_keeps | apply State.incFld_keeps
        | rfl
    | with_reducible apply Keeps.mk_keeps

theorem State.onHdr_keeps {s0 s : State} (h : Keeps s0 s) (act : State → State) (h_act : ∀ x0, Keeps s0 x0 → Keeps s0 (act x0)) :
    Keeps s0 (State.onHdr s act) := by
  unfold State.onHdr
  repeat' first
    | with_reducible first
        | intro _ | assumption | apply h_act | apply State.onBus_keeps | apply State.nack_keeps
        | apply Keeps.ite | rfl
    | split
    | with_reducible apply Keeps.mk_keeps

theorem execHdrDdrWrite_keeps {s0 s : State} (h : Keeps s0 s) (code : Byte) (bytes : List Byte) (bad : Bool) : OutKeeps s0
    (execHdrDdrWrite code bytes bad s) := by
  unfold execHdrDdrWrite
  repeat' first
    | with_reducible first
        | intro _ | assumption | apply State.onHdr_keeps | apply State.hdrError_keeps
        | apply State.privateWrite_keeps | apply State.nack_keeps | apply Keeps.ite | apply OutKeeps.ite
        | apply OutKeeps.next | rfl
    | split
    | with_reducible apply Keeps.mk_keeps

theorem execHdrDdrRead_keeps {s0 s : State} (h : Keeps s0 s) (code : Byte) (bad : Bool) : OutKeeps s0 (execHdrDdrRead code bad s)
    := by
  unfold execHdrDdrRead
  repeat' first
    | with_reducible first
        | intro _ | assumption | apply State.onHdr_keeps | apply State.hdrError_keeps
        | apply State.privateRead_keeps | apply State.nack_keeps | apply Keeps.ite | apply OutKeeps.ite
        | apply OutKeeps.next | rfl
    | split
    | with_reducible apply Keeps.mk_keeps

theorem execEnec_keeps {s0 s : State} (h : Keeps s0 s) (enint : Bool) : OutKeeps s0 (execEnec enint s) := by
  unfold execEnec
  repeat' first
    | with_reducible first
        | intro _ | assumption | apply State.onBus_keeps | apply State.ack_keeps | apply State.when_keeps
        | apply State.setFlag_keeps | apply OutKeeps.next | rfl
    | with_reducible apply Keeps.mk_keeps

theorem execDisec_keeps {s0 s : State} (h : Keeps s0 s) (enint : Bool) : OutKeeps s0 (execDisec enint s) := by
  unfold execDisec
  repeat' first
    | with_reducible first
        | intro _ | assumption | apply State.onBus_keeps | apply State.ack_keeps | apply State.when_keeps
        | apply State.setFlag_keeps | apply OutKeeps.next | rfl
    | with_reducible apply Keeps.mk_keeps

theorem execRstdaa_keeps {s0 s : State} (h : Keeps s0 s) : OutKeeps s0 (execRstdaa s) := by
  unfold execRstdaa
  repeat' first
    | with_reducible first
        | intro _ | assumption | apply State.onBus_keeps | apply State.ack_keeps | apply State.setFld_keeps
        | apply State.setFlag_keeps | apply OutKeeps.next | rfl
    | with_reducible apply Keeps.mk_keeps

theorem execEntdaa_keeps {s0 s : State} (h : Keeps s0 s) (addr : BitVec 7) : OutKeeps s0 (execEntdaa addr s) := by
  unfold execEntdaa
  repeat' first
    | with_reducible first
        | intro _ | assumption | apply State.onBus_keeps | apply State.nack_keeps | apply State.ack_keeps
        | apply State.setFld_keeps | apply State.setFlag_keeps | apply Keeps.ite | apply OutKeeps.ite
        | apply OutKeeps.next | rfl
    | split
    | with_reducible apply Keeps.mk_keeps

theorem execSetmwl_keeps {s0 s : State} (h : Keeps s0 s) (v : BitVec 16) : OutKeeps s0 (execSetmwl v s) := by
  unfold execSetmwl
  repeat' first
    | with_reducible first
        | intro _ | assumption | apply State.onBus_keeps | apply State.ack_keeps | apply State.updI3c_keeps
        | apply OutKeeps.next | rfl
    | with_reducible apply Keeps.mk_keeps

theorem execGetmwl_keeps {s0 s : State} (h : Keeps s0 s) : OutKeeps s0 (execGetmwl s) := by
  unfold execGetmwl
  repeat' first
    | with_reducible first
        | intro _ | assumption | apply State.onBus_keeps | apply State.ack_keeps | apply OutKeeps.next | rfl
    | with_reducible apply Keeps.mk_keeps

theorem execSetmrl_keeps {s0 s : State} (h : Keeps s0 s) (v : BitVec 16) : OutKeeps s0 (execSetmrl v s) := by
  unfold execSetmrl
  repeat' first
    | with_reducible first
        | intro _ | assumption | apply State.onBus_keeps | apply State.ack_keeps | apply State.updI3c_keeps
        | apply OutKeeps.next | rfl
    | with_reducible apply Keeps.mk_keeps

theorem execGetmrl_keeps {s0 s : State} (h : Keeps s0 s) : OutKeeps s0 (execGetmrl s) := by
  unfold execGetmrl
  repeat' first
    | with_reducible first
        | intro _ | assumption | apply State.onBus_keeps | apply State.ack_keeps | apply OutKeeps.next | rfl
    | with_reducible apply Keeps.mk_keeps

theorem execGetpid_keeps {s0 s : State} (h : Keeps s0 s) : OutKeeps s0 (execGetpid s) := by
  unfold execGetpid
  repeat' first
    | with_reducible first
        | intro _ | assumption | apply State.onBus_keeps | apply State.ack_keeps | apply OutKeeps.next | rfl
    | with_reducible apply Keeps.mk_keeps

theorem execGetbcr_keeps {s0 s : State} (h : Keeps s0 s) : OutKeeps s0 (execGetbcr s) := by
  unfold execGetbcr
  repeat' first
    | with_reducible first
        | intro _ | assumption | apply State.onBus_keeps | apply State.ack_keeps | apply OutKeeps.next | rfl
    | with_reducible apply Keeps.mk_keeps

theorem execGetdcr_keeps {s0 s : State} (h : Keeps s0 s) : OutKeeps s0 (execGetdcr s) := by
  unfold execGetdcr
  repeat' first
    | with_reducible first
        | intro _ | assumption | apply State.onBus_keeps | apply State.ack_keeps | apply OutKeeps.next | rfl
    | with_reducible apply Keeps.mk_keeps

theorem execGetstatus_keeps {s0 s : State} (h : Keeps s0 s) : OutKeeps s0 (execGetstatus s) := by
  unfold execGetstatus
  repeat' first
    | with_reducible first
        | intro _ | assumption | apply State.onBus_keeps | apply State.ack_keeps | apply State.updI3c_keeps
        | apply OutKeeps.next | rfl
        | (extract_lets +onlyGivenNames -underBinder x; first | refine Keeps.cut x ?_ ?_ | refine OutKeeps.cut x ?_ ?_ | skip)
    | with_reducible apply Keeps.mk_keeps

theorem execGetmxds_keeps {s0 s : State} (h : Keeps s0 s) : OutKeeps s0 (execGetmxds s) := by
  unfold execGetmxds
  repeat' first
    | with_reducible first
        | intro _ | assumption | apply State.onBus_keeps | apply State.ack_keeps | apply OutKeeps.next | rfl
    | with_reducible apply Keeps.mk_keeps

theorem execGetcaps_keeps {s0 s : State} (h : Keeps s0 s) : OutKeeps s0 (execGetcaps s) := by
  unfold execGetcaps
  repeat' first
    | with_reducible first
        | intro _ | assumption | apply State.onBus_keeps | apply State.ack_keeps | apply OutKeeps.next | rfl
    | with_reducible apply Keeps.mk_keeps

theorem execRstact_keeps {s0 s : State} (h : Keeps s0 s) (defining : Byte) (report : Bool) : OutKeeps s0 (execRstact defining
    report s) := by
  unfold execRstact
  repeat' first
    | with_reducible first
        | intro _ | assumption | apply State.onBus_keeps | apply State.ack_keeps | apply State.nack_keeps
        | apply State.updI3c_keeps | apply Keeps.ite | apply OutKeeps.ite | apply OutKeeps.next | rfl
    | split
    | with_reducible apply Keeps.mk_keeps

theorem State.peripheralReset_keeps {s0 s : State} (h : Keeps s0 s) (bursts : List Burst) : Keeps s0 (State.peripheralReset s
    bursts) := by
  unfold State.peripheralReset
  repeat' first
    | with_reducible first
        | intro _ | assumption | apply State.setFld_keeps | apply State.setFlag_keeps
        | apply State.orphans_keeps | apply State.mbxBroken_keeps | apply State.updI3c_keeps | rfl
        | (extract_lets +onlyGivenNames -underBinder x; first | refine Keeps.cut x ?_ ?_ | skip)
    | with_reducible apply Keeps.mk_keeps

theorem execTargetResetPattern_keeps {s0 s : State} (h : Keeps s0 s) (bursts : List Burst) : OutKeeps s0 (execTargetResetPattern
    bursts s) := by
  unfold execTargetResetPattern
  repeat' first
    | with_reducible first
        | intro _ | assumption | apply State.mgmtRestart_keeps | apply State.peripheralReset_keeps
        | apply Keeps.ite | apply OutKeeps.ite | apply OutKeeps.next | rfl
    | split
    | with_reducible apply Keeps.mk_keeps

theorem execBusAvailableIbi_keeps {s0 s : State} (h : Keeps s0 s) (acked : Bool) : OutKeeps s0 (execBusAvailableIbi acked s) := by
  unfold execBusAvailableIbi
  repeat' first
    | with_reducible first
        | intro _ | assumption | apply State.ack_keeps | apply State.setFld_keeps | apply State.updI3c_keeps
        | apply Keeps.ite | apply OutKeeps.ite | apply OutKeeps.next | rfl
    | split
    | with_reducible apply Keeps.mk_keeps

end Sys2Proof.Machine
end

