-- ==== Sys2Proof/WellFormed.lean ====
section
/-!
DEFINITION. Which commands can be commanded: the sizes and ranges that the spec gives what a command carries. The machine itself
answers every command, well formed or not.
-/
namespace Sys2Proof

/-- A scatter list has at most 4,096 entries (R328). -/
def sgListOk (l : List (Nat × Nat)) : Bool := decide (l.length ≤ 4096) && l.all fun x => decide (x.1 < 2 ^ 64 ∧ x.2 < 2 ^ 32)

/-- A richness window has 1,024 decisions, each with at most one change from the decision before it (R56, R57). -/
def RichWindow.ok (w : RichWindow) : Bool := decide (w.l0 + w.l1 + w.l2 + w.l3 = 1024 ∧ w.changes ≤ 1024)

/-- An LMS window of 2^W symbols, W from 5 in fast converge to 15, comes with the 23 symbols before it (R56, R59). -/
def lmsOk (w : LmsWindow) : Bool := w.before.length == 23 && (List.range 16).any fun k => decide (5 ≤ k) && w.samples.length == 2 ^ k

/-- Training finds a CTLE code of 32, 24 FFE taps, 6 DFE taps (R54, R55). -/
def Trained.ok (t : Trained) : Bool := decide (t.ctle < 32) && t.ffe.length == 24 && t.dfe.length == 6

/-- A memory error names a word that its memory has: 262,144 connections, 524,288 write-map entries, 65,536
circuits, and 4,096 entries of each of 272 facets (R133, R135, R136, R191). -/
def MemError.ok (e : MemError) : Bool :=
  decide (e.index < match e.kind with | .conn => 262144 | .writeMap => 524288 | .circuit => 65536 | .facet => 4096 * 272)

/-- A record of the session comes in whole 32-byte grains: header, body and tag (R229). -/
def Wire.ok (w : Wire) : Bool := w.header.length == 32 && w.body.length % 32 == 0 && w.tag.length == 32

/-- What a doorbell fetch reads: the page of 4 KiB, descriptors of 64 bytes for at most 16 rings, and CMC buffer entries of 16
(R320, R322, R349). -/
def DoorbellFetch.ok (f : DoorbellFetch) : Bool :=
  f.page.length == 4096 && decide (f.desc.length ≤ 16) && f.desc.all (·.all fun d => d.length == 64)
    && f.cmc.all fun b => b.length == 16

/-- A transmit request carries a frame of 60 to 1,518 bytes before its check sequence, with its offsets inside it (R275, R277). -/
def TransmitRequest.ok (r : TransmitRequest) : Bool :=
  decide (60 ≤ r.frame.length ∧ r.frame.length ≤ 1518 ∧ r.tsOffset ≤ r.frame.length ∧ r.cksumOffset ≤ r.frame.length)

/-- At a reset each master has at most one burst in progress (R401). -/
def burstsOk (l : List Burst) : Bool := decide (l.map (·.master)).Nodup

/-- The well-formed commands. -/
def Instr.wf : Instr → Bool
  | .laneTrace _ sg _ | .takeCompile _ sg _ | .takeIncrement _ sg _ | .reportTake _ sg | .dailies _ sg | .refSeed _ sg _
  | .cmcSend _ sg _ | .logRead _ sg | .fwStage _ sg _ _ | .eyeHistogram _ sg _ => sgListOk sg
  | .regAccessSize _ _ n _ => decide (n ≠ 0)
  | .startupFacetTest l => decide l.Nodup
  | .sramStartupTest l => decide l.Nodup
  | .sensorSample t v c => t.length == 24 && v.length == 12 && c.length == 4
  | .coreReelStart l => l.all (·.ok)
  | .lol _ _ bad n | .lolClear _ _ bad n => decide (bad ≤ n)
  | .freeze _ w | .freezeEnd _ w => w.ok
  | .tapSnapshot _ w l => w.ok && l.all lmsOk
  | .receiverStart _ t => t.ok
  | .laneThresholdWrite _ off _ => off.toNat == 0x110 || off.toNat == 0x114 || off.toNat == 0x118
      || (decide (0x140 ≤ off.toNat ∧ off.toNat < 0x180) && off.toNat % 4 == 0)
  | .resyncDone l => decide l.Nodup
  | .authHello w | .authProof w | .ack w | .snapBegin w | .snapData w | .snapEnd w | .takeImage w | .takeDelta w | .prepared w
  | .order w | .orderAck w | .takeDiscardRecord w | .journal w | .timeAlign w | .digest w | .digestResult w | .resyncReq w
  | .handle w | .handoverReq w | .handoverAck w | .handoverRefuse w | .joinReady w | .eject w => w.ok
  | .transmitRequest r => r.ok
  | .hifHostKick f | .doorbellPoll f | .handleCloseRefetch f => f.ok
  | .fwActivate _ l | .linkReset _ l | .mssRestart _ _ l | .autoAge l | .holdWrite _ _ l | .mtestEnWrite _ l
  | .targetResetPattern l => burstsOk l
  | .lockLost _ bits _ w => decide (w ≤ bits ∨ w ≤ 65536)
  | _ => true

end Sys2Proof
end

