-- ==== Sys2Proof/Tests/Slice0.lean ====
section
/-!
SUPPORT. Tests: an ill-formed command for each check of well-formedness, the spec's worked examples, and for every statement states
and operands that meet its hypotheses.
-/
set_option maxRecDepth 20000
set_option exponentiation.threshold 17000
namespace Sys2Proof.Machine
open Sys2Proof

-- Ill-formed commands -------------------------------------------------------------------------------------------------

theorem test_wf_scatter_address : (Instr.logRead 1 [(2 ^ 64, 16)]).wf = false := by decide
theorem test_wf_access_of_no_bytes : (Instr.regAccessSize .pcie 0 0 true).wf = false := by decide
theorem test_wf_facet_named_twice : (Instr.startupFacetTest [3, 3]).wf = false := by decide
theorem test_wf_word_named_twice : (Instr.sramStartupTest [7, 7]).wf = false := by decide
theorem test_wf_sample_without_temperatures : (Instr.sensorSample [] (List.replicate 12 800) [0, 0, 0, 0]).wf = false := by decide
theorem test_wf_circuit_word_outside : (Instr.coreReelStart [⟨.circuit, 65536, true, true, false⟩]).wf = false := by decide
theorem test_wf_more_bad_than_samples : (Instr.lol 0 0 17 16).wf = false := by decide
theorem test_wf_more_bad_than_samples_clear : (Instr.lolClear 0 0 17 16).wf = false := by decide
theorem test_wf_window_of_1023 : (Instr.freeze 0 ⟨256, 256, 256, 255, 0⟩).wf = false := by decide
theorem test_wf_window_with_too_many_changes : (Instr.freezeEnd 0 ⟨256, 256, 256, 256, 1025⟩).wf = false := by decide
theorem test_wf_lms_window_of_29 : (Instr.tapSnapshot 0 ⟨256, 256, 256, 256, 9⟩ [⟨List.replicate 23 (0, 0), List.replicate 29 (0, 0)⟩]).wf =
    false := by decide
theorem test_wf_ctle_code_32 : (Instr.receiverStart 0 ⟨32, List.replicate 24 0, List.replicate 6 0, 0⟩).wf = false := by decide
theorem test_wf_ffe_of_23 : (Instr.receiverStart 0 ⟨0, List.replicate 23 0, List.replicate 6 0, 0⟩).wf = false := by decide
theorem test_wf_no_threshold_register : (Instr.laneThresholdWrite 0 0x11C 0).wf = false := by decide
theorem test_wf_resync_twice : (Instr.resyncDone [(.conn, 1), (.conn, 1)]).wf = false := by decide
theorem test_wf_record_with_part_of_a_grain : (Instr.ack ⟨List.replicate 32 0, [0], List.replicate 32 0⟩).wf = false := by decide
theorem test_wf_short_frame : (Instr.transmitRequest ⟨List.replicate 59 0, 0, 0, 0, 0, 0⟩).wf = false := by decide
theorem test_wf_short_page : (Instr.hifHostKick ⟨[], [], []⟩).wf = false := by decide
theorem test_wf_two_bursts_of_a_master : (Instr.targetResetPattern [⟨1, 0, 0⟩, ⟨1, 64, 0⟩]).wf = false := by decide
theorem test_wf_lock_window_too_long : (Instr.lockLost 0 65536 1 65537).wf = false := by decide
theorem test_wf_nop : (Instr.nop 1).wf = true := by decide

-- The spec's examples -------------------------------------------------------------------------------------------------

/-- 03: the CRC-16 over "123456789". -/
theorem test_crc16 : crc16 (msbBits 72 0x313233343536373839) = 0x29B1 := by decide
/-- 03, the bits of one block: its header. -/
theorem test_header : blockHeader 5 0x00417A3C = 0xF3A60C59D21E053C7362 := by decide
/-- 03: the first eight scrambling bits. -/
theorem test_scrambler : scramBits 8 0x2C59A37E1D064BB 0 = 0xDE := by decide
/-- 03, the bits of one block: 0xF3 precoded after a 0, and back. -/
theorem test_precode : precode 0 [2, 2, 0, 2] = [2, 0, 0, 2] ∧ unprecode 0 [2, 0, 0, 2] = [2, 2, 0, 2] := by decide
/-- 09, one exchange on L40. -/
theorem test_exchange :
    exchange 0x3B9B049880 0x3B9B181740 0x3B9AFC0000 0x3B9B0F95C0 0 512 = (1280576, 3200) := by decide
/-- 09: an offset of -35,840 ns is a step of -14 reels. -/
theorem test_step_reels : stepReels (-9175040) = -14 := by decide
/-- 06: the entry for (L101, 420) from (L17, 300). -/
theorem test_slot_distance : slotDistance 420 ⟨0, 300, 17, 0⟩ = 120 := by decide
/-- No row of the table gives bits. -/
theorem test_no_word : decodeTableWord 32 0 = none := rfl
theorem test_reset_invariant : State.reset.Inv := ⟨by decide, by decide⟩
/-- R20: with REFCLK_A lost the unit runs from REFCLK_B and logs the switch. -/
theorem test_reference_switch :
    (match step { State.reset with pending := [.refclkFail false] } with
      | .next t => t.gctl.refSelB && !t.gctl.refA && t.pending.isEmpty && t.evq.length == State.reset.evq.length + 1
      | _ => false) = true := by decide
/-- R9: an ordinary write to the reset value of a register leaves the table canonical. -/
theorem test_write_of_reset_value : (State.reset.setReg R.SSW_REEL_NOW 5).setReg R.SSW_REEL_NOW 0 = State.reset := by decide

-- States and operands that meet the hypotheses of the statements ------------------------------------------------------

/-- A handle with a descriptor of this opcode and these parameters. -/
def cmd (o : Nat) (p : List Byte := []) (len : Nat := 0) : Handle :=
  { handle := 1, opcode := o, params := p, bufLen := len }

/-- The state with this one handle in its table. -/
def State.holding (s : State) (e : Handle) : State := 
  ((s.updHif fun x => { x with handles := [e] }).updMss fun x => { x with fwUp := true }).setFlag F.GCTL_STATE_MGMT_IN_RESET false

/-- A block last decoded on a lane. -/
def rxBlockOf (no : Nat) (c : BlockClass) (data : BitVec 16960 := 0) : RxBlock :=
  { no := no, cls := c, csym := 0, data := data, rawHeader := 0 }

/-- The premises of `Runs` as one test. -/
def runsTest (s : State) (o : Nat) (h : Word) (e : Handle) (l : List Nat) : Bool :=
  decide (s.handle? h.toNat = some e) && decide (e.opcode = o) && s.startable e l
    && decide (((s.updHandle h.toNat fun x => { x with state := .running }).when (e.state == .waiting) fun s =>
      s.sendHandle e 2 0 0).pairRefusal e = 0)

theorem runs_of {s o h e l} (k : runsTest s o h e l = true) : Runs s o h e l := by
  simp only [runsTest, Bool.and_eq_true, decide_eq_true_eq] at k
  exact ⟨k.1.1.1, k.1.1.2, k.1.2, k.2⟩

theorem direct_of {e n} (k : (!e.list && decide (e.bufOffset = 0) && decide (n ≤ e.bufLen) && decide (ringOf e.handle ≠ 15)) = true) :
    DirectBuffer e n := by
  simp only [Bool.and_eq_true, decide_eq_true_eq, Bool.not_eq_true'] at k
  exact ⟨k.1.1.1, k.1.1.2, k.1.2, k.2⟩

/-- A log entry. -/
def anEvent : LogEntry := { tai := 0, epoch := 0, source := 0, code := 0, data := [] }

/-- The event queue is full. -/
def fullQueue : State := { State.reset with evq := List.replicate 1024 anEvent }

theorem fullQueue_length : fullQueue.evq.length = 1024 := List.length_replicate ..

/-- Every rail at its nominal voltage (R478). -/
def voltsGood : State :=
  (List.range 12).foldl (fun s k => s.setFld (F.MSS_VOLT_MV k) (s.nominalMv k)) { State.reset with regs := [(R.GCTL_AVS, 800#32)] }

theorem bytesAt_le (b : List Byte) (o n : Nat) : (bytesAt b o n).length ≤ n := by simp [bytesAt]

/-- The header of block k of a reel with sequence byte 0. -/
def goodHeader (k : Nat) : BitVec 80 := BitVec.ofNat 80 (blockHeader k 0)

/-- A continuity record of the session, with its CRC and its tag. -/
def wireOf (kind : Nat) (session : Nat := 0) (counter : Nat := 1) (apply : Nat := 0) (len : Nat := 0) (body : List Byte := [])
    (key : List Byte := List.replicate 32 0) : Wire :=
  let h := [BitVec.ofNat 8 kind, 0] ++ beBytes 2 ((len + 31) / 32) ++ beBytes 4 len ++ beBytes 4 session ++ beBytes 8 counter
    ++ beBytes 4 apply ++ [0, 0, 0, 0]
  let w : Wire := { header := h ++ beBytes 4 (crc32 h), body := body, tag := [] }
  { w with tag := gcmTag key (wireNonce w) w.header (wireCipher w) }

theorem gcmTag_take (k n a c : List Byte) : (gcmTag k n a c).take 16 = gcmTag k n a c := by
  refine List.take_of_length_le ?_
  simp only [gcmTag, xorBytes, List.length_zipWith]
  exact Nat.le_trans (Nat.min_le_left _ _) (by simp [beBytes, leBytes])

theorem wireOf_tagOk (kind session counter apply len : Nat) (body key : List Byte) :
    wireTagOk (wireOf kind session counter apply len body key) key = true := by
  simp only [wireTagOk, wireOf, wireNonce, wireCipher, wireLength, gcmTag_take, beq_self_eq_true]

/-- A session with a key. -/
def inSession : State :=
  ((State.reset.setFlag F.GCTL_STATE_MGMT_IN_RESET false).setFld F.PAIR_CFG_UNIT 1).updPair fun p =>
    { p with key := List.replicate 32 0 }

theorem acceptable_of {s : State} {kind session counter apply len : Nat} {body key : List Byte}
    (k : (wireHeaderOk (wireOf kind session counter apply len body key) && !key.isEmpty && decide (s.pair.key = key)
      && wireSession (wireOf kind session counter apply len body key) == s.pair.session
      && wireCounter (wireOf kind session counter apply len body key) == s.pair.rxNext + s.mateBit) = true) :
    s.acceptable (wireOf kind session counter apply len body key) = true := by
  simp only [Bool.and_eq_true, decide_eq_true_eq, beq_iff_eq] at k
  obtain ⟨⟨⟨⟨a, b⟩, rfl⟩, d⟩, e⟩ := k
  simp only [State.acceptable, a, b, d, e, wireOf_tagOk, beq_self_eq_true, Bool.and_self]


/-- Every facet tested. -/
def facetsTested : State := { State.reset with regs := (List.range 272).map fun f => (R.SSW_FACET f, 0x20000000#32) }

theorem facetsTested_state : ∀ f < 272, facetsTested.facetState f ≠ 0 := by decide

theorem met_StepRunsTheFrontCommand :
    (∃ (s : State), ∃ c rest, s.pending = c :: rest) ∧
    (∃ (s : State), s.pending = []) :=
  ⟨⟨{ State.reset with pending := [.refclkFail true] }, .refclkFail true, [], by decide⟩,
   ⟨State.reset, by decide⟩⟩

theorem met_EveryStepKeepsTheInvariant :
    ∃ (s : State) (t : State), step s = .next t ∧ s.Inv :=
   ⟨{ State.reset with pending := [.refclkFail true] }, _, rfl, ⟨by decide, by decide⟩⟩

theorem met_OwnerKeyIsFusedOnce :
    ∃ (s : State) (t : State), step s = .next t ∧ s.mss.ownerHash ≠ [] :=
   ⟨{ State.reset with mss := { State.reset.mss with ownerHash := [1] }, pending := [.owner (.core 0 true)] }, _, rfl, by
     decide⟩

theorem met_ResetState :
    ∃ n, n < 130 :=
   ⟨0, by decide⟩

theorem met_AccessCodes :
    (∃ (o : BitVec 26), ∃ r, 0x480000 ≤ o.toNat ∧ o.toNat < 0x480100 ∧ o.toNat % 4 = 0 ∧ o.toNat ≠ R.REF_PTP_SAMPLE ∧
      regRow o.toNat = some r ∧ r.wk = 0) ∧
    (∃ (o : BitVec 26), 0x480000 ≤ o.toNat ∧ o.toNat < 0x480100 ∧ o.toNat % 4 = 0 ∧ o.toNat ≠ R.REF_PTP_SAMPLE ∧ regRow
      o.toNat = none) :=
  ⟨⟨0x480000, _, by decide, by decide, by decide, by decide, rfl, rfl⟩,
   ⟨0x48001C, by decide⟩⟩

theorem met_EventLogging :
    (∃ (s : State) (code : Nat), alertOf code = none ∧ s.fwRuns = true ∧ s.flag F.HIF_EV_CTL_EN = false) ∧
    (∃ (s : State) (code : Nat), alertOf code = none ∧ s.fwRuns = false ∧ s.evq.length < 1024) ∧
    (∃ (s : State) (code : Nat), alertOf code = none ∧ s.fwRuns = false ∧ 1024 ≤ s.evq.length) :=
  ⟨⟨(State.reset.setFlag F.GCTL_STATE_MGMT_IN_RESET false |>.updMss (fun x => { x with fwUp := true })), 0, by decide⟩,
   ⟨State.reset, 0, by decide⟩,
   ⟨fullQueue, 0, by decide, by decide, Nat.le_of_eq fullQueue_length.symm⟩⟩

theorem met_Completions :
    (∃ (s : State) (k : Nat), s.cqHeldOf k = [] ∧ s.cqRoom k = true ∧ s.hif.d3hot = false) ∧
    (∃ (s : State) (k : Nat), (s.cqHeldOf k ≠ [] ∨ s.cqRoom k = false ∨ s.hif.d3hot = true)) ∧
    (∃ ph, ph < 2) :=
  ⟨⟨State.reset, 0, by decide⟩,
   ⟨(State.reset.updHif (fun x => { x with d3hot := true })), 0, by decide⟩,
   ⟨0, by decide⟩⟩

theorem met_EdgesAndStorms :
    (∃ (s : State) (n : Nat), n < 1280 ∧ s.flag (F.IC_SRC_STORM n) = false ∧ ((((Tbl.get (fun _ => []) s.stormEdges
      n).filter fun t => decide (s.time.clock < t + 1000000)) ++ [s.time.clock]).length ≤ 64 ∨ n = 276)) ∧
    (∃ (s : State) (n : Nat), n < 1280 ∧ s.flag (F.IC_SRC_STORM n) = false ∧ 64 < (((Tbl.get (fun _ => []) s.stormEdges
      n).filter fun t => decide (s.time.clock < t + 1000000)) ++ [s.time.clock]).length ∧ n ≠ 276 ∧ s.fwRuns = false ∧
      s.evq.length = 1024) ∧
    (∃ (s : State) (n : Nat), n < 1280 ∧ s.flag (F.IC_SRC_STORM n) = true) :=
  ⟨⟨State.reset, 0, by decide⟩,
   ⟨({ fullQueue with stormEdges := [(0, List.replicate 64 0)] }.setFlag (F.IC_SRC_STORM 0) false), 0, by decide, by
     decide, by decide, by decide, by decide, fullQueue_length⟩,
   ⟨(State.reset.setFlag (F.IC_SRC_STORM 0) true), 0, by decide⟩⟩

theorem met_ReelBoundaries :
    ∃ (s : State), s.active = {} ∧ s.circ.pairs = [] ∧ s.sby ≠ 7 ∧ s.lanes = [] :=
   ⟨State.reset, by decide⟩

theorem met_HostImmediate :
    (∃ (s : State) (h : Word) (e : Handle), Runs s Op.NOP h e []) ∧
    (∃ (s : State) (h : Word) (e : Handle), Runs s Op.REF_FORCE h e [] ∧ e.param 0 1 = 0) ∧
    (∃ (s : State) (h : Word) (e : Handle), Runs s Op.REF_FORCE h e [] ∧ e.param 0 1 = 1) ∧
    (∃ (s : State) (h : Word) (e : Handle), Runs s Op.REF_FORCE h e [] ∧ e.param 0 1 = 2) ∧
    (∃ (s : State) (h : Word) (e : Handle), Runs s Op.FACET_REINSTATE h e [] ∧ s.facetState (e.param 0 2) = 5) ∧
    (∃ (s : State) (h : Word) (e : Handle), Runs s Op.FACET_REINSTATE h e [] ∧ s.facetState (e.param 0 2) ≠ 5) ∧
    (∃ (s : State) (h : Word) (e : Handle), Runs s Op.FENCE h e [] ∧ s.fenced = false) ∧
    (∃ (s : State) (h : Word) (e : Handle), Runs s Op.FENCE h e [] ∧ s.fenced = true) :=
  ⟨⟨(State.reset.holding (cmd Op.NOP [])), 1, (cmd Op.NOP []), runs_of (by decide)⟩,
   ⟨(State.reset.holding (cmd Op.REF_FORCE [])), 1, (cmd Op.REF_FORCE []), runs_of (by decide), by decide⟩,
   ⟨(State.reset.holding (cmd Op.REF_FORCE [1])), 1, (cmd Op.REF_FORCE [1]), runs_of (by decide), by decide⟩,
   ⟨(State.reset.holding (cmd Op.REF_FORCE [2])), 1, (cmd Op.REF_FORCE [2]), runs_of (by decide), by decide⟩,
   ⟨(State.reset.holding (cmd Op.FACET_REINSTATE []) |>.setFld (F.SSW_FACET_STATE 0) 5), 1, (cmd Op.FACET_REINSTATE []),
     runs_of (by decide), by decide⟩,
   ⟨(State.reset.holding (cmd Op.FACET_REINSTATE [])), 1, (cmd Op.FACET_REINSTATE []), runs_of (by decide), by decide⟩,
   ⟨(State.reset.holding (cmd Op.FENCE []) |>.setFlag F.GCTL_STATE_FENCED false), 1, (cmd Op.FENCE []), runs_of (by
     decide), by decide⟩,
   ⟨(State.reset.holding (cmd Op.FENCE []) |>.setFlag F.GCTL_STATE_FENCED true), 1, (cmd Op.FENCE []), runs_of (by decide),
     by decide⟩⟩

theorem met_HostObjects :
    (∃ (s : State) (h : Word) (e : Handle), Runs s Op.LANE_TRACE h e [] ∧ DirectBuffer e 128 ∧ e.param 1 1 = 1) ∧
    (∃ (s : State) (h : Word) (e : Handle), Runs s Op.LANE_TRACE h e [] ∧ DirectBuffer e 128 ∧ e.param 1 1 = 2 ∧ s.sync
      (e.param 0 1) = 2) ∧
    (∃ (s : State) (h : Word) (e : Handle) (obj : List Byte), ∃ x, Runs s Op.REF_SEED h e [] ∧ DirectBuffer e 40 ∧
      parseSeed (bytesAt obj 0 40) = some x) ∧
    (∃ (s : State) (h : Word) (e : Handle) (obj : List Byte), Runs s Op.REF_SEED h e [] ∧ DirectBuffer e 40 ∧ parseSeed
      (bytesAt obj 0 40) = none) ∧
    (∃ (s : State) (h : Word) (e : Handle) (obj : List Byte), ∃ n c x, Runs s Op.TAKE_COMPILE h e [] ∧ e.param 4 4 = n ∧
      e.param 8 4 = c ∧ DirectBuffer e (8 * n + c) ∧ ((s.begun h e).objectIn e).jobRefusal false (e.param 0 4) 0 = none ∧
      s.ssw.hostJob = none ∧ checkSection none (bytesAt (bytesAt obj 0 (8 * n + c)) (8 * n) c) = .ok x) ∧
    (∃ (s : State) (h : Word) (e : Handle) (obj : List Byte), ∃ n c x, Runs s Op.TAKE_INCREMENT h e [] ∧ e.param 8 4 = n ∧
      e.param 12 4 = c ∧ DirectBuffer e (8 * n + c) ∧ ((s.begun h e).objectIn e).jobRefusal true (e.param 0 4) (e.param 4
      4) = none ∧ s.ssw.hostJob = none ∧ checkSection (some ((s.begun h e).objectIn e).active) (bytesAt (bytesAt obj 0 (8 *
      n + c)) (8 * n) c) = .ok x) ∧
    (∃ (s : State) (h : Word) (e : Handle) (obj : List Byte), ∃ size, Runs s Op.CMC_SEND h e ((cmcRecords (e.param 0 4) 0
      obj).map fun x => x.2.1) ∧ s.stagedFor e = none ∧ cmcObjectSize (e.param 0 4) obj = size ∧ DirectBuffer e size ∧ (∀ x
      ∈ cmcRecords (e.param 0 4) 0 (bytesAt obj 0 size), ((s.begun h e).objectIn e).cmcFault (cmcRecords (e.param 0 4) 0
      (bytesAt obj 0 size)) x = 0)) ∧
    (∃ (s : State) (h : Word) (e : Handle), ∃ size k, Runs s Op.FW_STAGE h e [] ∧ e.param 0 4 = size ∧ DirectBuffer e size
      ∧ k = 3 - (if ((s.begun h e).objectIn e).fld F.MSS_BOOT_IMAGE = 0 then ((s.begun h e).objectIn e).mss.preferred else
      ((s.begun h e).objectIn e).fld F.MSS_BOOT_IMAGE)) :=
  ⟨⟨(State.reset.holding (cmd Op.LANE_TRACE [0, 1] 128)), 1, (cmd Op.LANE_TRACE [0, 1] 128), runs_of (by decide), direct_of
     (by decide), by decide⟩,
   ⟨(State.reset.holding (cmd Op.LANE_TRACE [0, 2] 128) |>.setFld (F.LANE_SYNC_STATE_STATE 0) 2), 1, (cmd Op.LANE_TRACE [0,
     2] 128), runs_of (by decide), direct_of (by decide), by decide⟩,
   ⟨(State.reset.holding (cmd Op.REF_SEED [] 40)), 1, (cmd Op.REF_SEED [] 40), ([1, 0] ++ List.replicate 34 0 ++ leBytes 4
     (crc32 ([1, 0] ++ List.replicate 34 0))), _, runs_of (by decide), direct_of (by decide), rfl⟩,
   ⟨(State.reset.holding (cmd Op.REF_SEED [] 40)), 1, (cmd Op.REF_SEED [] 40), [], runs_of (by decide), direct_of (by
     decide), by decide⟩,
   ⟨(State.reset.holding (cmd Op.TAKE_COMPILE [7, 0, 0, 0, 0, 0, 0, 0, 16] 16) |>.updSsw (fun x =>
     { x with hostJob := none }) |>.setFld F.SSW_FACET_SUMMARY_USABLE 256 |>.setFld F.PAIR_STATE_ROLE 4 |>.setFld
     F.PAIR_STATE_ROLE 4), 1, (cmd Op.TAKE_COMPILE [7, 0, 0, 0, 0, 0, 0, 0, 16] 16), [], 0, 16, _, runs_of (by decide), by
     decide, by decide, direct_of (by decide), by decide, rfl, rfl⟩,
   ⟨(State.reset.holding (cmd Op.TAKE_INCREMENT [7, 0, 0, 0, 0, 0, 0, 0, 0, 0, 0, 0, 16] 16) |>.updSsw (fun x =>
     { x with hostJob := none }) |>.setFld F.SSW_FACET_SUMMARY_USABLE 256 |>.setFld F.PAIR_STATE_ROLE 4 |>.setFld
     F.PAIR_STATE_ROLE 4), 1, (cmd Op.TAKE_INCREMENT [7, 0, 0, 0, 0, 0, 0, 0, 0, 0, 0, 0, 16] 16), [], 0, 16, _, runs_of
     (by decide), by decide, by decide, direct_of (by decide), by decide, rfl, rfl⟩,
   ⟨(State.reset.holding (cmd Op.CMC_SEND [1] 16) |>.updLane 0 (fun l =>
     { l with cmc := { l.cmc with mode := .terminated } })), 1, (cmd Op.CMC_SEND [1] 16), [0, 1], 16, runs_of (by decide),
     by decide, by decide, direct_of (by decide), by decide⟩,
   ⟨(State.reset.holding (cmd Op.FW_STAGE [16] 16)), 1, (cmd Op.FW_STAGE [16] 16), 16, 2, runs_of (by decide), by decide,
     direct_of (by decide), by decide⟩⟩

theorem met_HostReports :
    (∃ (s : State) (h : Word) (e : Handle), ∃ obj, Runs s Op.REPORT_TAKE h e [] ∧ e.param 4 1 ≠ 1 ∧ (s.begun h
      e).activeTake = e.param 0 4 ∧ obj = (s.begun h e).takeReport (s.begun h e).active 1 ((s.begun h e).reg
      R.SSW_REEL_NOW).toNat ∧ DirectBuffer e obj.length) ∧
    (∃ (s : State) (h : Word) (e : Handle), ∃ obj, Runs s Op.REPORT_TAKE h e [] ∧ e.param 4 1 = 1 ∧ (s.begun h e).sby = 3 ∧
      (s.begun h e).standby.take = e.param 0 4 ∧ obj = (s.begun h e).takeReport (s.begun h e).standby 2 ((s.begun h e).reg
      R.SSW_REEL_NOW).toNat ∧ DirectBuffer e obj.length) ∧
    (∃ (s : State) (h : Word) (e : Handle), ∃ l x, Runs s Op.LOG_READ h e [] ∧ (s.begun h e).log.head? = some x ∧ seqLater
      x.num (e.param 0 4) = false ∧ l = (s.begun h e).log.filter (fun x => decide (seqDiff x.num (e.param 0 4) < e.param 4
      4)) ∧ DirectBuffer e (l.flatMap logBytes).length) ∧
    (∃ (s : State) (h : Word) (e : Handle), ∃ x, Runs s Op.LOG_READ h e [] ∧ (s.begun h e).log.head? = some x ∧ seqLater
      x.num (e.param 0 4) = true) ∧
    (∃ (s : State) (h : Word) (e : Handle), ∃ obj, Runs s Op.EYE_HISTOGRAM h e [] ∧ (s.begun h e).rxState (e.param 0 1) = 0
      ∧ DirectBuffer e (bytesAt obj 0 65536).length) ∧
    (∃ (s : State) (h : Word) (e : Handle), Runs s Op.DAILIES h e [] ∧ e.ready = false ∧ e.param 0 1 = 0) ∧
    (∃ (s : State) (h : Word) (e : Handle), Runs s Op.DAILIES h e [] ∧ e.ready = false ∧ e.param 0 1 ≠ 0 ∧ s.dailies = 2) ∧
    (∃ (s : State) (h : Word) (e : Handle), Runs s Op.DAILIES h e [] ∧ e.ready = false ∧ e.param 0 1 ≠ 0 ∧ s.dailies ≠ 2) :=
  ⟨⟨(State.reset.holding (cmd Op.REPORT_TAKE [] 2000)), 1, (cmd Op.REPORT_TAKE [] 2000), _, runs_of (by decide), by decide,
     by decide, rfl, direct_of (by decide)⟩,
   ⟨(State.reset.holding (cmd Op.REPORT_TAKE [7, 0, 0, 0, 1] 2000) |>.setFld F.SSW_PAGE_STATE_SBY 3 |>.setFld
     F.SSW_PAGE_STATE_SBY 3 |>.updSsw (fun x => { x with setB := { x.setB with take := 7 } })), 1, (cmd Op.REPORT_TAKE [7,
     0, 0, 0, 1] 2000), _, runs_of (by decide), by decide, by decide, by decide, rfl, direct_of (by decide)⟩,
   ⟨({ State.reset with log := [anEvent] }.holding (cmd Op.LOG_READ [0, 0, 0, 0, 1] 64)), 1, (cmd Op.LOG_READ [0, 0, 0, 0,
     1] 64), _, _, runs_of (by decide), rfl, by decide, rfl, direct_of (by decide)⟩,
   ⟨({ State.reset with log := [{ anEvent with num := 1 }] }.holding (cmd Op.LOG_READ [])), 1, (cmd Op.LOG_READ []), _,
     runs_of (by decide), rfl, by decide⟩,
   ⟨(State.reset.holding (cmd Op.EYE_HISTOGRAM [] 65536) |>.setFld (F.LANE_STATE_RX_STATE 0) 0), 1, (cmd Op.EYE_HISTOGRAM
     [] 65536), [], runs_of (by decide), by decide, ⟨rfl, rfl, bytesAt_le .., by decide⟩⟩,
   ⟨(State.reset.holding (cmd Op.DAILIES [])), 1, (cmd Op.DAILIES []), runs_of (by decide), by decide⟩,
   ⟨(State.reset.holding (cmd Op.DAILIES [1]) |>.setFld F.CIRC_DAILIES_STAT_STATE 2 |>.setFld F.CIRC_DAILIES_STAT_STATE 2),
     1, (cmd Op.DAILIES [1]), runs_of (by decide), by decide⟩,
   ⟨(State.reset.holding (cmd Op.DAILIES [1]) |>.setFld F.CIRC_DAILIES_STAT_STATE 0), 1, (cmd Op.DAILIES [1]), runs_of (by
     decide), by decide⟩⟩

theorem met_HostTakes :
    (∃ (s : State) (h : Word) (e : Handle), Runs s Op.TAKE_DISCARD h e [] ∧ s.role = 4 ∧ s.holdsTake (e.param 0 4) = true) ∧
    (∃ (s : State) (h : Word) (e : Handle), Runs s Op.TAKE_DISCARD h e [] ∧ s.role = 4 ∧ s.holdsTake (e.param 0 4) = false) ∧
    (∃ (s : State) (h : Word) (e : Handle), Runs s Op.TAKE_SPLICE h e [] ∧ s.role = 4 ∧ s.holdsTake (e.param 0 4) = true ∧
      e.param 4 4 = 0 ∧ s.standby.mergeList = []) ∧
    (∃ (s : State) (h : Word) (e : Handle), Runs s Op.TAKE_SPLICE h e [] ∧ s.role = 4 ∧ s.holdsTake (e.param 0 4) = false) ∧
    (∃ (s : State) (h : Word) (e : Handle), ∃ x, Runs s Op.SPLICE_CANCEL h e [] ∧ (s.begun h e).openSplice (e.param 0 4) =
      some x ∧ x.state = .waiting) ∧
    (∃ (s : State) (h : Word) (e : Handle), Runs s Op.SPLICE_CANCEL h e [] ∧ (s.begun h e).openSplice (e.param 0 4) = none) ∧
    (∃ (s : State) (h : Word) (e : Handle), Runs s Op.CIRC_SET h e [] ∧ s.sby ≠ 2 ∧ s.sby ≠ 6 ∧ s.role = 4 ∧
      s.pair.joinLead = false ∧ (e.param 8 1 = 0 ∧ (s.begun h e).deleting (e.param 0 2) = false ∧ s.active.circAt (e.param
      0 2) = none ∨ e.param 8 1 = 1 ∧ (s.active.circAt (e.param 0 2)).isSome = true)) ∧
    (∃ (s : State) (h : Word) (e : Handle), Runs s Op.CIRC_SET h e [] ∧ s.sby ≠ 2 ∧ s.sby ≠ 6 ∧ e.param 8 1 = 0 ∧ (s.begun
      h e).deleting (e.param 0 2) = false ∧ (s.active.circAt (e.param 0 2)).isSome = true) ∧
    (∃ (s : State), (s.sby = 2 ∨ s.sby = 6)) ∧
    (∃ (s : State) (h : Word) (e : Handle), ∃ p, Runs s Op.MERGE_REANCHOR h e [] ∧ (s.begun h e).pairOf (e.param 0 1) =
      some p) ∧
    (∃ (s : State) (h : Word) (e : Handle), Runs s Op.LANE_CMC h e [] ∧ e.param 1 1 = 0) ∧
    (∃ (s : State) (h : Word) (e : Handle), Runs s Op.LANE_CMC h e [] ∧ e.param 1 1 = 1) ∧
    (∃ (s : State) (h : Word) (e : Handle), Runs s Op.LANE_CMC h e [] ∧ e.param 1 1 = 2) :=
  ⟨⟨(State.reset.holding (cmd Op.TAKE_DISCARD []) |>.setFld F.PAIR_STATE_ROLE 4 |>.setFld F.SSW_PAGE_STATE_SBY 3), 1, (cmd
     Op.TAKE_DISCARD []), runs_of (by decide), by decide⟩,
   ⟨(State.reset.holding (cmd Op.TAKE_DISCARD []) |>.setFld F.PAIR_STATE_ROLE 4 |>.setFld F.PAIR_STATE_ROLE 4), 1, (cmd
     Op.TAKE_DISCARD []), runs_of (by decide), by decide⟩,
   ⟨(State.reset.holding (cmd Op.TAKE_SPLICE []) |>.setFld F.PAIR_STATE_ROLE 4 |>.setFld F.SSW_PAGE_STATE_SBY 3), 1, (cmd
     Op.TAKE_SPLICE []), runs_of (by decide), by decide⟩,
   ⟨(State.reset.holding (cmd Op.TAKE_SPLICE []) |>.setFld F.PAIR_STATE_ROLE 4), 1, (cmd Op.TAKE_SPLICE []), runs_of (by
     decide), by decide⟩,
   ⟨(State.reset.holding (cmd Op.SPLICE_CANCEL) |>.updHif (fun y =>
     { y with handles := y.handles ++ [{ cmd Op.TAKE_SPLICE with handle := 2 }] }) |>.setFld F.PAIR_STATE_ROLE 4), 1, (cmd
     Op.SPLICE_CANCEL), _, runs_of (by decide), rfl, rfl⟩,
   ⟨(State.reset.holding (cmd Op.SPLICE_CANCEL []) |>.setFld F.PAIR_STATE_ROLE 4), 1, (cmd Op.SPLICE_CANCEL []), runs_of
     (by decide), by decide⟩,
   ⟨(State.reset.holding (cmd Op.CIRC_SET []) |>.setFld F.SSW_PAGE_STATE_SBY 0 |>.setFld F.PAIR_STATE_ROLE 4 |>.updPair
     (fun x => { x with joinLead := false })), 1, (cmd Op.CIRC_SET []), runs_of (by decide), by decide⟩,
   ⟨(State.reset.holding (cmd Op.CIRC_SET []) |>.updSsw (fun x =>
     { x with setA := { x.setA with circuits := [(0, some ⟨0, 0⟩)] } }) |>.setFld F.PAIR_STATE_ROLE 4), 1, (cmd Op.CIRC_SET
     []), runs_of (by decide), by decide⟩,
   ⟨(State.reset.setFld F.SSW_PAGE_STATE_SBY 2), by decide⟩,
   ⟨(State.reset.holding (cmd Op.MERGE_REANCHOR) |>.updCirc (fun x => { x with pairs := [⟨0, 1, 0, none, 0, 0, 0⟩] })), 1,
     (cmd Op.MERGE_REANCHOR), _, runs_of (by decide), rfl⟩,
   ⟨(State.reset.holding (cmd Op.LANE_CMC [])), 1, (cmd Op.LANE_CMC []), runs_of (by decide), by decide⟩,
   ⟨(State.reset.holding (cmd Op.LANE_CMC [0, 1])), 1, (cmd Op.LANE_CMC [0, 1]), runs_of (by decide), by decide⟩,
   ⟨(State.reset.holding (cmd Op.LANE_CMC [0, 2])), 1, (cmd Op.LANE_CMC [0, 2]), runs_of (by decide), by decide⟩⟩

theorem met_HostPair :
    (∃ (s : State) (h : Word) (e : Handle), Runs s Op.PAIR_JOIN h e [] ∧ s.fenced = true ∧ s.role = 0 ∧ (s.begun h
      e).fenceLive = 0 ∧ s.mss.pairKey.isSome = true ∧ s.reg R.PAIR_ID ≠ 0 ∧ (s.sync 128 = 2 ∨ s.sync 129 = 2)) ∧
    (∃ (s : State) (h : Word) (e : Handle), Runs s Op.PAIR_JOIN h e [] ∧ (s.fenced = false ∨ s.role ≠ 0)) ∧
    (∃ (s : State) (h : Word) (e : Handle), Runs s Op.PAIR_HANDOVER h e [] ∧ s.role = 2 ∧ (s.begun h e).handoverRefusal =
      0) ∧
    (∃ (s : State) (h : Word) (e : Handle), Runs s Op.PAIR_HANDOVER h e [] ∧ s.role = 3 ∧ s.session = 2) ∧
    (∃ (s : State) (h : Word) (e : Handle), Runs s Op.PAIR_HANDOVER h e [] ∧ s.role = 3 ∧ s.session ≠ 2) ∧
    (∃ (s : State) (h : Word) (e : Handle), Runs s Op.PAIR_HANDOVER h e [] ∧ s.role ≠ 2 ∧ s.role ≠ 3) ∧
    (∃ (s : State) (h : Word) (e : Handle), ∃ ep, Runs s Op.PAIR_SOLO h e [] ∧ s.role = 0 ∧ (s.begun h e).fenceLive = 0 ∧
      s.session ≠ 2 ∧ s.flag F.PAIR_STATE_EV_MATE_LANES = false ∧ s.flag F.PAIR_STATE_EV_HEARTBEAT = false ∧ (s.begun h
      e).nextEpoch = some ep) ∧
    (∃ (s : State) (h : Word) (e : Handle), Runs s Op.PAIR_SOLO h e [] ∧ s.role = 3 ∧ s.session ≠ 2 ∧ s.flag
      F.PAIR_STATE_EV_MATE_LANES = false ∧ s.flag F.PAIR_STATE_EV_HEARTBEAT = false) ∧
    (∃ (s : State) (h : Word) (e : Handle), Runs s Op.PAIR_SOLO h e [] ∧ s.role ≠ 0 ∧ s.role ≠ 3) ∧
    (∃ (s : State) (h : Word) (e : Handle), ∃ k v, Runs s Op.FW_ACTIVATE h e [] ∧ s.mss.staged = some (k, v)) ∧
    (∃ (s : State) (h : Word) (e : Handle), Runs s Op.FW_ACTIVATE h e [] ∧ s.mss.staged = none) ∧
    (∃ (s : State) (h : Word) (e : Handle), Runs s Op.FACET_RETIRE h e [] ∧ (s.begun h e).facetState (e.param 0 2) = 1 ∧
      (s.begun h e).lowestSpare.isSome = true ∧ (s.begun h e).reservedFor (e.param 0 2) = none) ∧
    (∃ (s : State) (h : Word) (e : Handle), Runs s Op.FACET_RETIRE h e [] ∧ (s.begun h e).facetState (e.param 0 2) ≠ 1) ∧
    (∃ (s : State) (h : Word) (e : Handle), Runs s Op.FACET_RETIRE h e [] ∧ (s.begun h e).facetState (e.param 0 2) = 1 ∧
      (s.begun h e).lowestSpare = none) :=
  ⟨⟨(State.reset.holding (cmd Op.PAIR_JOIN []) |>.setFlag F.GCTL_STATE_FENCED true |>.setFld F.PAIR_STATE_ROLE 0 |>.setFld
     (F.LANE_SYNC_STATE_STATE 128) 2 |>.updMss (fun x => { x with pairKey := some [] }) |>.setFld (F.LANE_SYNC_STATE_STATE
     128) 2 |>.setReg R.PAIR_ID 1), 1, (cmd Op.PAIR_JOIN []), runs_of (by decide), by decide⟩,
   ⟨(State.reset.holding (cmd Op.PAIR_JOIN []) |>.setFlag F.GCTL_STATE_FENCED false), 1, (cmd Op.PAIR_JOIN []), runs_of (by
     decide), by decide⟩,
   ⟨(State.reset.holding (cmd Op.PAIR_HANDOVER []) |>.setFld F.PAIR_STATE_ROLE 2 |>.setFld F.PAIR_CONT_STAT_STATE 2
     |>.setFlag F.PAIR_STATE_ISOLATED false |>.setFld F.PAIR_DIGEST_STAT_LAST 1 |>.setFld (F.REF_CANDn_POFS_POFS 7) 0
     |>.updCand 7 (fun x => { x with ofs := some 0 })), 1, (cmd Op.PAIR_HANDOVER []), runs_of (by decide), by decide⟩,
   ⟨(State.reset.holding (cmd Op.PAIR_HANDOVER []) |>.setFld F.PAIR_STATE_ROLE 3 |>.setFld F.PAIR_CONT_STAT_STATE 2), 1,
     (cmd Op.PAIR_HANDOVER []), runs_of (by decide), by decide⟩,
   ⟨(State.reset.holding (cmd Op.PAIR_HANDOVER []) |>.setFld F.PAIR_STATE_ROLE 3), 1, (cmd Op.PAIR_HANDOVER []), runs_of
     (by decide), by decide⟩,
   ⟨(State.reset.holding (cmd Op.PAIR_HANDOVER []) |>.setFld F.PAIR_STATE_ROLE 0), 1, (cmd Op.PAIR_HANDOVER []), runs_of
     (by decide), by decide⟩,
   ⟨(State.reset.holding (cmd Op.PAIR_SOLO []) |>.setFld F.PAIR_STATE_ROLE 0 |>.setFld F.PAIR_CONT_STAT_STATE 0 |>.setFlag
     F.PAIR_STATE_EV_MATE_LANES false |>.setFlag F.PAIR_STATE_EV_HEARTBEAT false), 1, (cmd Op.PAIR_SOLO []), 2, runs_of (by
     decide), by decide⟩,
   ⟨(State.reset.holding (cmd Op.PAIR_SOLO []) |>.setFld F.PAIR_STATE_ROLE 3), 1, (cmd Op.PAIR_SOLO []), runs_of (by
     decide), by decide⟩,
   ⟨(State.reset.holding (cmd Op.PAIR_SOLO []) |>.setFld F.PAIR_STATE_ROLE 1), 1, (cmd Op.PAIR_SOLO []), runs_of (by
     decide), by decide⟩,
   ⟨(State.reset.holding (cmd Op.FW_ACTIVATE []) |>.updMss (fun x => { x with staged := some (1, 1) })), 1, (cmd
     Op.FW_ACTIVATE []), 1, 1, runs_of (by decide), by decide⟩,
   ⟨(State.reset.holding (cmd Op.FW_ACTIVATE []) |>.updMss (fun x => { x with staged := none })), 1, (cmd Op.FW_ACTIVATE
     []), runs_of (by decide), by decide⟩,
   ⟨(State.reset.holding (cmd Op.FACET_RETIRE []) |>.setFld (F.SSW_FACET_STATE 0) 1 |>.setFld (F.SSW_FACET_STATE 0) 1
     |>.setFld (F.SSW_FACET_STATE 1) 2), 1, (cmd Op.FACET_RETIRE []), runs_of (by decide), by decide⟩,
   ⟨(State.reset.holding (cmd Op.FACET_RETIRE [])), 1, (cmd Op.FACET_RETIRE []), runs_of (by decide), by decide⟩,
   ⟨(State.reset.holding (cmd Op.FACET_RETIRE []) |>.setFld (F.SSW_FACET_STATE 0) 1 |>.setFld (F.SSW_FACET_STATE 0) 1), 1,
     (cmd Op.FACET_RETIRE []), runs_of (by decide), by decide⟩⟩

theorem met_BusAccess :
    (∃ (off : BitVec 26), off.toNat % 4 ≠ 0) ∧
    (∃ (m : Master) (off : BitVec 26) (n : Nat), n ≠ 0 ∧ (n = 4 → off.toNat % 4 ≠ 0) ∧ (n = 8 → m ≠ .pcie ∨ off.toNat % 8 ≠
      0 ∨ ¬(0x608000 ≤ off.toNat ∧ off.toNat < 0x608400 ∨ 0x609000 ≤ off.toNat ∧ off.toNat < 0x609008))) ∧
    (∃ (off : BitVec 26), off.toNat % 4 = 0) ∧
    (∃ (off : BitVec 26), off.toNat % 8 = 0 ∧ (0x608000 ≤ off.toNat ∧ off.toNat < 0x608400 ∨ 0x609000 ≤ off.toNat ∧
      off.toNat < 0x609008)) :=
  ⟨⟨1, by decide⟩,
   ⟨.i3c, 0, 1, by decide⟩,
   ⟨0, by decide⟩,
   ⟨0x608000, by decide⟩⟩

theorem met_WriteKeys :
    (∃ (s : State) (v : Word), s.keyOpen .gctl = true ∧ v.toNat.testBit 0 = true) ∧
    (∃ (s : State) (v : Word), s.keyOpen .gctl = true ∧ v.toNat.testBit 0 = false) ∧
    (∃ (s : State) (v : Word), s.keyOpen .gctl = false ∧ v.toNat.testBit 0 ≠ s.recorded .command) ∧
    (∃ (s : State) (v : Word), s.keyOpen .gctl = false ∧ v.toNat.testBit 0 = s.recorded .command) :=
  ⟨⟨(State.reset.setKey .gctl true), 1, by decide⟩,
   ⟨(State.reset.setKey .gctl true), 0, by decide⟩,
   ⟨State.reset, 1, by decide⟩,
   ⟨State.reset, 0, by decide⟩⟩

theorem met_Flywheel :
    (∃ (s : State), s.flag F.GCTL_STATE_MGMT_IN_RESET = true) ∧
    (∃ (s : State), s.flag F.GCTL_STATE_MGMT_IN_RESET = false ∧ s.inRecovery = false ∧ s.mss.fwUp = true ∧ s.gctl.everAlive
      = true ∧ s.fld F.GCTL_ALIVE_AGE_AGE_MS < 10000) ∧
    (∃ (s : State), s.gctl.everAlive = true ∧ 10000 ≤ s.fld F.GCTL_ALIVE_AGE_AGE_MS ∧ s.recorded .flywheelTimeout = false) ∧
    (∃ (s : State), (s.gctl.everAlive = false ∨ s.fld F.GCTL_ALIVE_AGE_AGE_MS < 10000)) ∧
    (∃ (s : State), s.gctl.causeNew = false) ∧
    (∃ (s : State), s.gctl.causeNew = true ∧ s.recorded .thermal = false ∧ s.fenced = false) ∧
    (∃ (s : State), s.gctl.causeNew = true ∧ s.recorded .thermal = false ∧ s.fenced = true ∧ s.pair.joinStep = 0 ∧
      s.pair.change = none) :=
  ⟨⟨(State.reset.setFlag F.GCTL_STATE_MGMT_IN_RESET true), by decide⟩,
   ⟨(State.reset.setFlag F.GCTL_STATE_MGMT_IN_RESET false |>.updMss (fun x => { x with fwUp := true }) |>.updGctl (fun x =>
     { x with everAlive := true })), by decide⟩,
   ⟨(State.reset.setFld F.GCTL_ALIVE_AGE_AGE_MS 10000 |>.updGctl (fun x => { x with everAlive := true })), by decide⟩,
   ⟨State.reset, by decide⟩,
   ⟨State.reset, by decide⟩,
   ⟨(State.reset.setFlag F.GCTL_STATE_FENCED false |>.updGctl (fun x => { x with causeNew := true })), by decide⟩,
   ⟨(State.reset.setFlag F.GCTL_STATE_FENCED true |>.updGctl (fun x => { x with causeNew := true })), by decide⟩⟩

theorem met_PowerOn :
    (∃ (s : State), s.gctl.porstLow = true) ∧
    (∃ (s : State), s.gctl.porstLow = false) :=
  ⟨⟨(State.reset.updGctl (fun x => { x with porstLow := true })), by decide⟩,
   ⟨State.reset, by decide⟩⟩

theorem met_StartUp :
    (∃ (s : State), s.facetCount (fun x => x != 0) = 0) ∧
    (∃ (s : State), (∀ f < 272, s.facetState f ≠ 0)) ∧
    (∃ (s : State), s.mss.started = false) ∧
    (∃ (s : State), s.mss.started = true) ∧
    (∃ (s : State), ∃ k, s.coreOn 0 = true ∧ s.mss.booted = false ∧ s.fld F.MSS_BOOT_BOOT_SRC ≠ 1 ∧ s.flag
      F.MSS_FW_TRIAL_ARMED = false ∧ s.mss.preferred = k) ∧
    (∃ k, k < 4) ∧
    (∃ (s : State), s.mss.booted = true) :=
  ⟨⟨State.reset, by decide⟩,
   ⟨facetsTested, facetsTested_state⟩,
   ⟨State.reset, by decide⟩,
   ⟨(State.reset.updMss (fun x => { x with started := true })), by decide⟩,
   ⟨(State.reset.setFld (coreStat 0) 1 |>.setFld F.MSS_BOOT_BOOT_SRC 0 |>.setFlag F.MSS_FW_TRIAL_ARMED false |>.updMss (fun
     x => { x with booted := false, preferred := 1 }) |>.setFld F.MSS_BOOT_BOOT_SRC 0), 1, by decide⟩,
   ⟨0, by decide⟩,
   ⟨(State.reset.updMss (fun x => { x with booted := true })), by decide⟩⟩

theorem met_PlatformClocks :
    (∃ (s : State), s.gctl.refA = true ∧ s.gctl.refB = true ∧ s.gctl.refSelB = false) ∧
    (∃ (s : State), s.gctl.refA = true ∧ s.gctl.refB = true ∧ s.gctl.refSelB = true) ∧
    (∃ (s : State), s.gctl.refA = false ∧ s.gctl.refB = true) ∧
    (∃ (s : State), s.gctl.refA = true ∧ s.gctl.refB = false) ∧
    (∃ (s : State), s.gctl.refA = false ∧ s.gctl.refB = false) ∧
    (∃ (s : State), (s.gctl.refA = true ∨ s.gctl.refB = true)) ∧
    (∃ (s : State), s.gctl.xoGood = true) ∧
    (∃ (s : State), s.gctl.xoGood = false) :=
  ⟨⟨(State.reset.updGctl (fun x => { x with refA := true, refB := true })), by decide⟩,
   ⟨(State.reset.updGctl (fun x => { x with refA := true, refB := true, refSelB := true })), by decide⟩,
   ⟨(State.reset.updGctl (fun x => { x with refA := false, refB := true })), by decide⟩,
   ⟨(State.reset.updGctl (fun x => { x with refA := true, refB := false })), by decide⟩,
   ⟨(State.reset.updGctl (fun x => { x with refA := false, refB := false })), by decide⟩,
   ⟨(State.reset.updGctl (fun x => { x with refA := true })), by decide⟩,
   ⟨(State.reset.updGctl (fun x => { x with xoGood := true })), by decide⟩,
   ⟨(State.reset.updGctl (fun x => { x with xoGood := false })), by decide⟩⟩

theorem met_TamperAndSensors :
    (∃ (s : State), s.mss.tamperDone = false) ∧
    (∃ (s : State), s.mss.tamperDone = true) ∧
    (∃ (s : State), s.flag F.MSS_ZEROISE_BUSY = true ∧ s.flag F.MSS_ZEROISE_ZEROISE_FAIL = false) ∧
    (∃ (s : State) (temps : List Int), temps.length = 24 ∧ (∀ x ∈ temps, -640 ≤ x ∧ x < 1680) ∧ (∀ i < 12, s.voltBad i =
      false)) ∧
    (∃ (s : State), s.flag F.GCTL_STATE_THERMAL_WARN = true ∧ (∀ i < 24, s.fldI (F.MSS_TEMP_TEMP i) < 1600)) ∧
    (∃ (s : State), s.flag F.GCTL_STATE_THERMAL_WARN = false) ∧
    (∃ (s : State) (n : Fin 12), s.mss.voltAlarms = [n.val] ∧ s.voltBad n.val = false) ∧
    (∃ (s : State) (n : Fin 12), s.voltBad n.val = true) :=
  ⟨⟨State.reset, by decide⟩,
   ⟨(State.reset.updMss (fun x => { x with tamperDone := true })), by decide⟩,
   ⟨(State.reset.setFlag F.MSS_ZEROISE_BUSY true), by decide⟩,
   ⟨voltsGood, (List.replicate 24 0), by decide⟩,
   ⟨(State.reset.setFlag F.GCTL_STATE_THERMAL_WARN true), by decide⟩,
   ⟨State.reset, by decide⟩,
   ⟨(State.reset.updMss (fun x => { x with voltAlarms := [7] }) |>.updMss (fun x => { x with voltAlarms := [7] }) |>.setFld
     (F.MSS_VOLT_MV 7) 1200), 7, by decide⟩,
   ⟨State.reset, 7, by decide⟩⟩

theorem met_LaneSignal :
    (∃ (n : LaneNo) (mv : Nat) (s : State), mv < s.losLevel n ∧ s.rxState n = 0 ∧ (s.testLane n).active ≠ 2 ∧ (s.lane
      n).ctlAutoQuiet = false ∧ (s.lane n).held = none) ∧
    (∃ (n : LaneNo) (mv : Nat) (s : State), ∃ a, mv < s.losLevel n ∧ s.rxState n = 0 ∧ s.sync n = 2 ∧ (s.testLane n).active
      ≠ 2 ∧ (s.lane n).ctlAutoQuiet = true ∧ (s.lane n).stopAt = some a ∧ s.time.clock ≤ a + 25600) ∧
    (∃ (n : LaneNo) (mv : Nat) (s : State), s.losLevel n ≤ mv ∧ s.rxState n = 0) ∧
    (∃ (n : LaneNo) (mv : Nat) (s : State), mv < s.losLevel n ∧ s.rxState n = 0 ∧ (s.testLane n).active ≠ 2 ∧ s.flag
      (F.LANE_STATUS_LOS n) = false) ∧
    (∃ (n : LaneNo) (mv : Nat) (s : State), 2 * s.losLevel n ≤ mv ∧ s.rxState n = 0 ∧ s.flag (F.LANE_STATUS_LOS n) = true ∧
      (s.lane n).autoQuiet = false) ∧
    (∃ (n : LaneNo) (mv : Nat) (s : State), mv < 2 * s.losLevel n) :=
  ⟨⟨0, 0, (State.reset.setFld (F.LANE_STATE_RX_STATE 0) 0 |>.updLane 0 (fun l =>
     { l with ctlAutoQuiet := false, held := none })), by decide⟩,
   ⟨0, 0, (State.reset.setFld (F.LANE_STATE_RX_STATE 0) 0 |>.setFld (F.LANE_SYNC_STATE_STATE 0) 2 |>.updLane 0 (fun l =>
     { l with ctlAutoQuiet := true, stopAt := some 0 })), 0, by decide⟩,
   ⟨0, 80, (State.reset.setFld (F.LANE_STATE_RX_STATE 0) 0), by decide⟩,
   ⟨0, 0, (State.reset.setFld (F.LANE_STATE_RX_STATE 0) 0 |>.setFlag (F.LANE_STATUS_LOS 0) false), by decide⟩,
   ⟨0, 160, (State.reset.setFld (F.LANE_STATE_RX_STATE 0) 0 |>.setFlag (F.LANE_STATUS_LOS 0) true |>.updLane 0 (fun l =>
     { l with autoQuiet := false })), by decide⟩,
   ⟨0, 0, State.reset, by decide⟩⟩

theorem met_LaneLock :
    (∃ (n : LaneNo) (s : State), ∃ ppm bad k, s.lolHolds n ppm bad k = true ∧ (s.testLane n).active ≠ 2 ∧ s.rxState n = 0 ∧
      s.flag (F.LANE_STATUS_LOL n) = false) ∧
    (∃ (n : LaneNo) (s : State), ∃ ppm bad k, s.lolHolds n ppm bad k = false ∧ s.rxState n = 0 ∧ s.flag (F.LANE_STATUS_LOS
      n) = false ∧ s.flag (F.LANE_STATUS_LOL n) = true) ∧
    (∃ (n : LaneNo) (s : State), ∃ w, s.isRich n w = true ∧ s.adapting n = true) ∧
    (∃ (n : LaneNo) (s : State), s.adapting n = false) ∧
    (∃ (n : LaneNo) (s : State) (mean : Int), s.fld (F.LANE_FOFS_LIM_LIM n) < mean.natAbs ∧ 2 ≤ (s.lane n).fofsOut ∧ s.flag
      (F.LANE_STATUS_LOL n) = false ∧ (s.lane n).lolInWindow = false ∧ s.flag (F.LANE_STATUS_FOFS_ALARM n) = false) ∧
    (∃ (n : LaneNo) (s : State) (mean : Int), mean.natAbs ≤ s.fld (F.LANE_FOFS_LIM_LIM n) ∧ 2 ≤ (s.lane n).fofsIn ∧ s.flag
      (F.LANE_STATUS_LOL n) = false ∧ (s.lane n).lolInWindow = false) :=
  ⟨⟨0, (State.reset.setFld (F.LANE_STATE_RX_STATE 0) 0 |>.setFlag (F.LANE_STATUS_LOL 0) false), 20001, 0, 1, by decide⟩,
   ⟨0, (State.reset.setFld (F.LANE_STATE_RX_STATE 0) 0 |>.setFlag (F.LANE_STATUS_LOS 0) false |>.setFlag (F.LANE_STATUS_LOL
     0) true), 20000, 1, 16, by decide⟩,
   ⟨0, (State.reset.setFld (F.LANE_STATE_RX_STATE 0) 0 |>.setFlag (F.LANE_EQ_CTL_ADAPT 0) true |>.setFlag
     (F.LANE_STATUS_LOS 0) false |>.setFlag (F.LANE_STATUS_LOL 0) false), ⟨128, 128, 128, 128, 512⟩, by decide⟩,
   ⟨0, State.reset, by decide⟩,
   ⟨0, (State.reset.setFlag (F.LANE_STATUS_LOL 0) false |>.setFlag (F.LANE_STATUS_FOFS_ALARM 0) false |>.updLane 0 (fun l
     => { l with fofsOut := 2, lolInWindow := false })), 101, by decide⟩,
   ⟨0, (State.reset.setFlag (F.LANE_STATUS_LOL 0) false |>.updLane 0 (fun l =>
     { l with fofsIn := 2, lolInWindow := false }) |>.updLane 0 (fun l => { l with lolInWindow := false })), 100, by
     decide⟩⟩

theorem met_LaneWrites :
    (∃ (v : Word), (!txPstateOk (bitsOf v.toNat 4 3) || !rxPstateOk (bitsOf v.toNat 8 3)) = true) ∧
    (∃ (n : LaneNo) (v : Word) (s : State), txPstateOk (bitsOf v.toNat 4 3) = true ∧ rxPstateOk (bitsOf v.toNat 8 3) = true
      ∧ s.inTransition n = true) ∧
    (∃ (n : LaneNo) (v : Word) (s : State), txPstateOk (bitsOf v.toNat 4 3) = true ∧ rxPstateOk (bitsOf v.toNat 8 3) = true
      ∧ s.inTransition n = false) ∧
    (∃ (v : Word), ((-8 ≤ (toSigned 6 (bitsOf v.toNat (6 * 3) 6)) ∧ (toSigned 6 (bitsOf v.toNat (6 * 3) 6)) ≤ 0 ∧ 0 ≤
      (toSigned 6 (bitsOf v.toNat (6 * 2) 6)) ∧ (toSigned 6 (bitsOf v.toNat (6 * 2) 6)) ≤ 12 ∧ -24 ≤ (toSigned 6 (bitsOf
      v.toNat (6 * 1) 6)) ∧ (toSigned 6 (bitsOf v.toNat (6 * 1) 6)) ≤ 0 ∧ 24 ≤ (bitsOf v.toNat 24 7) ∧ (bitsOf v.toNat 24
      7) ≤ 64 ∧ -16 ≤ (toSigned 6 (bitsOf v.toNat (6 * 0) 6)) ∧ (toSigned 6 (bitsOf v.toNat (6 * 0) 6)) ≤ 0 ∧ ((toSigned 6
      (bitsOf v.toNat (6 * 3) 6))).natAbs + ((toSigned 6 (bitsOf v.toNat (6 * 2) 6))).natAbs + ((toSigned 6 (bitsOf v.toNat
      (6 * 1) 6))).natAbs + (bitsOf v.toNat 24 7) + ((toSigned 6 (bitsOf v.toNat (6 * 0) 6))).natAbs ≤ 64))) ∧
    (∃ (v : Word), (¬(-8 ≤ (toSigned 6 (bitsOf v.toNat (6 * 3) 6)) ∧ (toSigned 6 (bitsOf v.toNat (6 * 3) 6)) ≤ 0 ∧ 0 ≤
      (toSigned 6 (bitsOf v.toNat (6 * 2) 6)) ∧ (toSigned 6 (bitsOf v.toNat (6 * 2) 6)) ≤ 12 ∧ -24 ≤ (toSigned 6 (bitsOf
      v.toNat (6 * 1) 6)) ∧ (toSigned 6 (bitsOf v.toNat (6 * 1) 6)) ≤ 0 ∧ 24 ≤ (bitsOf v.toNat 24 7) ∧ (bitsOf v.toNat 24
      7) ≤ 64 ∧ -16 ≤ (toSigned 6 (bitsOf v.toNat (6 * 0) 6)) ∧ (toSigned 6 (bitsOf v.toNat (6 * 0) 6)) ≤ 0 ∧ ((toSigned 6
      (bitsOf v.toNat (6 * 3) 6))).natAbs + ((toSigned 6 (bitsOf v.toNat (6 * 2) 6))).natAbs + ((toSigned 6 (bitsOf v.toNat
      (6 * 1) 6))).natAbs + (bitsOf v.toNat 24 7) + ((toSigned 6 (bitsOf v.toNat (6 * 0) 6))).natAbs ≤ 64))) ∧
    (∃ (n : LaneNo) (v : Word) (s : State), v.toNat.testBit 31 = false ∧ s.flag (F.LANE_EQ_CTL_ADAPT n) = true) ∧
    (∃ (n : LaneNo) (v : Word) (s : State), v.toNat.testBit 31 = false ∧ s.flag (F.LANE_EQ_CTL_ADAPT n) = false ∧ bitsOf
      v.toNat 29 2 = 2) ∧
    (∃ (n : LaneNo) (v : Word) (s : State), v.toNat.testBit 31 = false ∧ s.flag (F.LANE_EQ_CTL_ADAPT n) = false ∧ bitsOf
      v.toNat 29 2 = 0 ∧ (bitsOf v.toNat 24 5) < 24) ∧
    (∃ (n : LaneNo) (v : Word) (s : State), v.toNat.testBit 31 = false ∧ s.flag (F.LANE_EQ_CTL_ADAPT n) = false ∧ bitsOf
      v.toNat 29 2 = 1 ∧ (bitsOf v.toNat 24 5) < 6) ∧
    (∃ (n : LaneNo) (v : Word) (s : State), v.toNat.testBit 31 = false ∧ s.flag (F.LANE_EQ_CTL_ADAPT n) = false ∧ bitsOf
      v.toNat 29 2 = 3) ∧
    (∃ (v : Word), v.toNat.testBit 31 = true ∧ bitsOf v.toNat 29 2 = 0) :=
  ⟨⟨0x70, by decide⟩,
   ⟨0, 0, (State.reset.setFld (F.LANE_STATE_TX_STATE 0) 5), by decide⟩,
   ⟨0, 0, State.reset, by decide⟩,
   ⟨0x40000000, by decide⟩,
   ⟨0, by decide⟩,
   ⟨0, 0, (State.reset.setFlag (F.LANE_EQ_CTL_ADAPT 0) true), by decide⟩,
   ⟨0, 0x40000000, (State.reset.setFlag (F.LANE_EQ_CTL_ADAPT 0) false), by decide⟩,
   ⟨0, 0x0, (State.reset.setFlag (F.LANE_EQ_CTL_ADAPT 0) false), by decide⟩,
   ⟨0, 0x20000000, (State.reset.setFlag (F.LANE_EQ_CTL_ADAPT 0) false), by decide⟩,
   ⟨0, 0x60000000, (State.reset.setFlag (F.LANE_EQ_CTL_ADAPT 0) false), by decide⟩,
   ⟨0x80000000, by decide⟩⟩

theorem met_LanePower :
    (∃ (n : LaneNo) (s : State), s.txState n = 5 ∧ (s.lane n).noticeLeft = 0 ∧ (s.lane n).txTarget ≠ 0) ∧
    (∃ (n : LaneNo) (s : State), s.txState n ≠ 5) ∧
    (∃ (n : LaneNo) (s : State), s.txState n = 6) ∧
    (∃ (n : LaneNo) (s : State), s.txState n ≠ 6) ∧
    (∃ (n : LaneNo) (s : State), s.rxState n = 5) ∧
    (∃ (n : LaneNo) (s : State), s.rxState n ≠ 5) ∧
    (∃ (n : LaneNo) (s : State) (tr : Trained) (taps : TapSet), s.rxState n = 6 ∧ (s.fld (F.LANE_STATE_START_MODE n) = 0 ∧
      taps = (s.lane n).startSet ∨ s.fld (F.LANE_STATE_START_MODE n) = 1 ∧ s.flag (F.LANE_EQ_CTL_CTLE_MANUAL n) = false ∧
      taps =
      { ctle := clampNat ((s.lane n).startSet.ctle - 3) (min 20 ((s.lane n).startSet.ctle + 3)) tr.ctle, ffe := tr.ffe, dfe := tr.dfe, cdr := tr.cdr }
      ∨ s.fld (F.LANE_STATE_START_MODE n) = 2 ∧ s.flag (F.LANE_EQ_CTL_CTLE_MANUAL n) = false ∧ taps =
      { ctle := min 20 tr.ctle, ffe := tr.ffe, dfe := tr.dfe, cdr := tr.cdr })) ∧
    (∃ (n : LaneNo) (s : State), s.rxState n ≠ 6) :=
  ⟨⟨0, (State.reset.setFld (F.LANE_STATE_TX_STATE 0) 5), by decide⟩,
   ⟨0, (State.reset.setFld (F.LANE_STATE_TX_STATE 0) 0), by decide⟩,
   ⟨0, (State.reset.setFld (F.LANE_STATE_TX_STATE 0) 6), by decide⟩,
   ⟨0, (State.reset.setFld (F.LANE_STATE_TX_STATE 0) 0), by decide⟩,
   ⟨0, (State.reset.setFld (F.LANE_STATE_RX_STATE 0) 5), by decide⟩,
   ⟨0, (State.reset.setFld (F.LANE_STATE_RX_STATE 0) 0), by decide⟩,
   ⟨0, (State.reset.setFld (F.LANE_STATE_RX_STATE 0) 6 |>.setFld (F.LANE_STATE_START_MODE 0) 0), ⟨0, [], [], 0⟩,
     (State.reset.lane 0).startSet, by decide⟩,
   ⟨0, (State.reset.setFld (F.LANE_STATE_RX_STATE 0) 0), by decide⟩⟩

theorem met_LaneBlocks :
    (∃ (n : LaneNo) (s : State) (hdr : BitVec 80) (prev : Fin 4) (off : Fin 17920), s.sync n = 0 ∧ off.val % 2 = 0 ∧ s.flag
      (F.LANE_STATUS_LOS n) = false ∧ s.flag (F.LANE_STATUS_LOL n) = false ∧ s.rxState n = 0 ∧ (s.lane n).candidates = [] ∧
      (s.lane n).barred = none ∧ hdrClapper (s.fromLine n prev 80 hdr.toNat) = clapper ∧ hdrMatches (s.fromLine n prev 80
      hdr.toNat) = true) ∧
    (∃ (n : LaneNo) (s : State), ∃ b, s.sync n ≠ 0 ∧ (s.lane n).blk = some b ∧ b.headerJudged = false ∧ (s.judgeHeader n
      b).1 = true) ∧
    (∃ (n : LaneNo) (s : State), ∃ b, s.sync n ≠ 0 ∧ (s.lane n).blk = some b ∧ b.headerJudged = false ∧ (s.judgeHeader n
      b).1 = false ∧ (s.lane n).badHeaders < 7) ∧
    (∃ (n : LaneNo) (s : State), s.sync n = 1) :=
  ⟨⟨0, (State.reset.setFld (F.LANE_SYNC_STATE_STATE 0) 0 |>.setFlag (F.LANE_STATUS_LOS 0) false |>.setFlag
     (F.LANE_STATUS_LOL 0) false |>.setFld (F.LANE_STATE_RX_STATE 0) 0 |>.updLane 0 (fun l =>
     { l with candidates := [], barred := none }) |>.setFld (F.LANE_STATE_RX_STATE 0) 0 |>.setFlag (F.LANE_STATUS_LOS 0)
     false |>.setFlag (F.LANE_STATUS_LOL 0) false |>.updLane 0 (fun l => { l with rxPrecode := false })), (goodHeader 0),
     0, 0, by decide⟩,
   ⟨0, (State.reset.setFld (F.LANE_SYNC_STATE_STATE 0) 1 |>.updLane 0 (fun l =>
     { l with blk := some { rxBlockOf 1 .uncorrectable with rawHeader := goodHeader 1 } }) |>.setFld
     (F.LANE_SYNC_STATE_STATE 0) 1), { rxBlockOf 1 .uncorrectable with rawHeader := goodHeader 1 }, by decide, rfl, by
     decide⟩,
   ⟨0, (State.reset.setFld (F.LANE_SYNC_STATE_STATE 0) 1 |>.updLane 0 (fun l =>
     { l with blk := some { rxBlockOf 1 .uncorrectable with rawHeader := 1 } }) |>.setFld (F.LANE_SYNC_STATE_STATE 0) 1),
     { rxBlockOf 1 .uncorrectable with rawHeader := 1 }, by decide, rfl, by decide⟩,
   ⟨0, (State.reset.setFld (F.LANE_SYNC_STATE_STATE 0) 1), by decide⟩⟩

theorem met_LaneReels :
    (∃ (n : LaneNo) (s : State), ∃ b, (s.lane n).blk = some b ∧ b.no = 0 ∧ b.used = false ∧ s.sync n = 2 ∧ b.headerGood =
      false ∧ b.cls = .uncorrectable ∧ (s.lane n).badControls = 1) ∧
    (∃ (n : LaneNo) (s : State), ∃ b, (s.lane n).blk = some b ∧ b.no = 0 ∧ b.used = false ∧ b.headerGood = true ∧ b.cls =
      .clean ∧ beAt (dataOverhead b.data) 0 4 % 256 = hdrSeq (dataHeader b.data) ∧ beAt (dataOverhead b.data) 17 1 = 1 ∧
      s.sync n = 1 ∧ (s.lane n).qualRun = 2 ∧ beAt (dataOverhead b.data) 0 4 = ((s.lane n).qualSeq + 1) % 2 ^ 32) ∧
    (∃ (n : LaneNo) (s : State), ∃ b, (s.lane n).blk = some b ∧ b.no = 0 ∧ b.used = false ∧ b.headerGood = true ∧ b.cls =
      .clean ∧ beAt (dataOverhead b.data) 0 4 % 256 = hdrSeq (dataHeader b.data) ∧ beAt (dataOverhead b.data) 17 1 = 1 ∧
      s.sync n = 2 ∧ s.steerState n = 0) ∧
    (∃ (n : LaneNo) (s : State), ∃ b, (s.lane n).blk = some b ∧ b.no = 0 ∧ b.used = false ∧ s.sync n = 2 ∧ b.cls =
      .uncorrectable ∧ (s.lane n).badControls = 0) ∧
    (∃ (n : LaneNo) (s : State), (s.lane n).blk = none) ∧
    (∃ (n : LaneNo) (s : State), s.sync n = 1 ∧ 8 ≤ (s.lane n).reelsInBlock) ∧
    (∃ (n : LaneNo) (s : State), s.sync n ≠ 1) ∧
    (∃ (n : LaneNo) (s : State), s.sync n ≠ 2) ∧
    (∃ (n : LaneNo) (s : State), s.sync n = 2 ∧ (s.lane n).ucbClr < (s.lane n).ucbCount ∧ (s.lane n).degSet = 0 ∧ (s.lane
      n).degClr < (s.lane n).csymCount) ∧
    (∃ (n : LaneNo) (s : State), s.sync n.val = 2) ∧
    (∃ (n : LaneNo) (s : State), s.sync n.val ≠ 2) :=
  ⟨⟨0, (State.reset.setFld (F.LANE_SYNC_STATE_STATE 0) 2 |>.updLane 0 (fun l =>
     { l with blk := some (rxBlockOf 0 .uncorrectable), badControls := 1 })), (rxBlockOf 0 .uncorrectable), rfl, by decide⟩,
   ⟨0, (State.reset.setFld (F.LANE_SYNC_STATE_STATE 0) 1 |>.updLane 0 (fun l =>
     { l with blk := some { rxBlockOf 0 .clean (2 ^ 352) with headerGood := true }, qualRun := 2 }) |>.updLane 0 (fun l =>
     { l with qualSeq := 4294967295 })), { rxBlockOf 0 .clean (2 ^ 352) with headerGood := true }, rfl, by decide⟩,
   ⟨0, (State.reset.setFld (F.LANE_SYNC_STATE_STATE 0) 2 |>.updLane 0 (fun l =>
     { l with blk := some { rxBlockOf 0 .clean (2 ^ 352) with headerGood := true } })),
     { rxBlockOf 0 .clean (2 ^ 352) with headerGood := true }, rfl, by decide⟩,
   ⟨0, (State.reset.setFld (F.LANE_SYNC_STATE_STATE 0) 2 |>.updLane 0 (fun l =>
     { l with blk := some (rxBlockOf 0 .uncorrectable), badControls := 0 })), (rxBlockOf 0 .uncorrectable), rfl, by decide⟩,
   ⟨0, State.reset, by decide⟩,
   ⟨0, (State.reset.setFld (F.LANE_SYNC_STATE_STATE 0) 1 |>.updLane 0 (fun l => { l with reelsInBlock := 8 })), by decide⟩,
   ⟨0, State.reset, by decide⟩,
   ⟨0, State.reset, by decide⟩,
   ⟨0, (State.reset.setFld (F.LANE_SYNC_STATE_STATE 0) 2 |>.updLane 0 (fun l =>
     { l with ucbCount := 13, degSet := 0, degClr := 0, csymCount := 1 })), by decide⟩,
   ⟨0, (State.reset.setFld (F.LANE_SYNC_STATE_STATE 0) 2), by decide⟩,
   ⟨0, State.reset, by decide⟩⟩

theorem met_LaneOverhead :
    (∃ (n : LaneNo) (s : State) (b : RxBlock), (s.lane n).blk = some b ∧ b.used = false ∧ s.sync n = 2 ∧ b.no = 1 ∧
      s.looped n = false ∧ b.cls = .uncorrectable) ∧
    (∃ (n : LaneNo) (s : State) (b : RxBlock), (s.lane n).blk = some b ∧ b.used = false ∧ s.sync n = 2 ∧ b.no = 2 ∧
      s.looped n = false ∧ b.cls ≠ .uncorrectable ∧ 128 ≤ n.val) ∧
    (∃ (n : LaneNo) (s : State) (b : RxBlock), (s.lane n).blk = some b ∧ b.used = false ∧ s.sync n = 2 ∧ b.no = 2 ∧
      s.looped n = false ∧ b.cls ≠ .uncorrectable ∧ n.val < 128 ∧ s.isWitness n = true) ∧
    (∃ (n : LaneNo) (s : State) (b : RxBlock), (s.lane n).blk = some b ∧ b.used = false ∧ s.sync n = 2 ∧ b.no = 3 ∧
      s.looped n = false ∧ b.cls ≠ .uncorrectable) ∧
    (∃ (n : LaneNo) (s : State) (b : RxBlock), (s.lane n).blk = some b ∧ b.used = false ∧ s.sync n = 2 ∧ b.no = 3 ∧
      s.looped n = false ∧ b.cls = .uncorrectable) ∧
    (∃ (n : LaneNo) (s : State) (b : RxBlock), (s.lane n).blk = some b ∧ b.used = false ∧ s.sync n = 2 ∧ 4 ≤ b.no ∧ b.cls ≠
      .uncorrectable) ∧
    (∃ (n : LaneNo) (s : State) (b : RxBlock), (s.lane n).blk = some b ∧ b.used = false ∧ s.sync n = 2 ∧ 4 ≤ b.no ∧ b.cls =
      .uncorrectable ∧ (s.lane n).cmc.rxSync = true) :=
  ⟨⟨0, (State.reset.setFld (F.LANE_SYNC_STATE_STATE 0) 2 |>.updLane 0 (fun l =>
     { l with blk := some (rxBlockOf 1 .uncorrectable) })), (rxBlockOf 1 .uncorrectable), rfl, by decide⟩,
   ⟨128, (State.reset.setFld (F.LANE_SYNC_STATE_STATE 128) 2 |>.updLane 128 (fun l =>
     { l with blk := some (rxBlockOf 2 .clean) })), (rxBlockOf 2 .clean), rfl, by decide⟩,
   ⟨0, (State.reset.setFld (F.LANE_SYNC_STATE_STATE 0) 2 |>.updLane 0 (fun l =>
     { l with blk := some (rxBlockOf 2 .clean) }) |>.setReg (R.PAIR_WIT_MASK 0) 1), (rxBlockOf 2 .clean), rfl, by decide⟩,
   ⟨0, (State.reset.setFld (F.LANE_SYNC_STATE_STATE 0) 2 |>.updLane 0 (fun l =>
     { l with blk := some (rxBlockOf 3 .clean) })), (rxBlockOf 3 .clean), rfl, by decide⟩,
   ⟨0, (State.reset.setFld (F.LANE_SYNC_STATE_STATE 0) 2 |>.updLane 0 (fun l =>
     { l with blk := some (rxBlockOf 3 .uncorrectable) })), (rxBlockOf 3 .uncorrectable), rfl, by decide⟩,
   ⟨0, (State.reset.setFld (F.LANE_SYNC_STATE_STATE 0) 2 |>.updLane 0 (fun l =>
     { l with blk := some (rxBlockOf 4 .clean) })), (rxBlockOf 4 .clean), rfl, by decide⟩,
   ⟨0, (State.reset.setFld (F.LANE_SYNC_STATE_STATE 0) 2 |>.updLane 0 (fun l =>
     { l with blk := some (rxBlockOf 4 .uncorrectable), cmc := { l.cmc with rxSync := true } })), (rxBlockOf 4
     .uncorrectable), rfl, by decide⟩⟩

theorem met_TimingExchange :
    ∃ (n : LaneNo) (s : State) (b : RxBlock) (a : Stamp) (d : Stamp), (s.lane n).blk = some b ∧ b.no = 1 ∧ b.used = false ∧
      s.sync n = 2 ∧ s.looped n = false ∧ (s.lane n).chassis = false ∧ s.flag (F.LANE_TT_CTL_EN n) = true ∧ (s.lane
      n).reelsSince = 0 ∧ b.cls = .clean ∧ (s.lane n).ttCap = true ∧ (beAt (dataOverhead b.data) 19 1).testBit 7 = true ∧
      (beAt (dataOverhead b.data) 19 1).testBit 6 = true ∧ (s.lane n).arrivals.find? (fun a => a.seq == beAt (dataOverhead
      b.data) 0 4) = some a ∧ s.time.departures.find? (fun a => a.seq == beAt (dataOverhead b.data) 9 4) = some d ∧ a.epoch
      = d.epoch ∧ (s.lane n).tt.epoch = none ∧ (s.lane n).tt.delay = [] :=
   ⟨0, (State.reset.setFld (F.LANE_SYNC_STATE_STATE 0) 2 |>.setFlag (F.LANE_TT_CTL_EN 0) true |>.updLane 0 (fun l =>
     { l with blk := some (rxBlockOf 1 .clean (192 * 2 ^ 336)), ttCap := true }) |>.updTime (fun x =>
     { x with departures := [⟨0, 0, 0, true⟩] }) |>.updLane 0 (fun l => { l with arrivals := [⟨0, 0, 0, true⟩] })),
     (rxBlockOf 1 .clean (192 * 2 ^ 336)), ⟨0, 0, 0, true⟩, ⟨0, 0, 0, true⟩, rfl, by decide⟩

theorem met_LaneServices :
    (∃ (s : State), ∃ b rest, s.hif.cmcPosted = b :: rest ∧ 0 < s.hif.cmcFill) ∧
    (∃ (s : State), s.hif.cmcFill = 0) ∧
    (∃ (v : Word), v.toNat % 4 ≠ 0) ∧
    (∃ (v : Word), v.toNat % 4 = 0) ∧
    (∃ (off : BitVec 12), (off = 0x110#12 ∨ off = 0x114#12 ∨ off = 0x118#12)) ∧
    (∃ (off : BitVec 12), 0x140 ≤ off.toNat ∧ off.toNat < 0x180 ∧ off.toNat % 4 = 0) ∧
    (∃ (n : LaneNo) (s : State), s.steerState n = 3 ∧ s.drifted n = true ∧ n.val < 128) ∧
    (∃ (n : LaneNo) (s : State), s.steerState n ≠ 3) ∧
    (∃ (n : LaneNo) (s : State), s.steerState n = 4 ∧ s.sync n = 2 ∧ s.raw n .bdiRx = false) ∧
    (∃ (n : LaneNo) (s : State), s.steerState n ≠ 4) ∧
    (∃ (n : LaneNo) (s : State), n.val < 128 ∧ s.sync n = 2 ∧ (s.lane n).waits.length = 256 ∧ (s.lane n).skews = [] ∧
      s.steerState n = 0 ∧ s.flag (F.LANE_STEER_CTL_EN n) = false) :=
  ⟨⟨(State.reset.updHif (fun x => { x with cmcPosted := ⟨0, 0, 64⟩ :: [], cmcFill := 1 })), ⟨0, 0, 64⟩, [], by decide⟩,
   ⟨State.reset, by decide⟩,
   ⟨1, by decide⟩,
   ⟨0, by decide⟩,
   ⟨0x110, by decide⟩,
   ⟨0x140, by decide⟩,
   ⟨0, (State.reset.setFld (F.LANE_STEER_STAT_STATE 0) 3), by decide⟩,
   ⟨0, State.reset, by decide⟩,
   ⟨0, (State.reset.setFld (F.LANE_STEER_STAT_STATE 0) 4 |>.setFld (F.LANE_SYNC_STATE_STATE 0) 2), by decide⟩,
   ⟨0, State.reset, by decide⟩,
   ⟨0, (State.reset.setFld (F.LANE_SYNC_STATE_STATE 0) 2 |>.updLane 0 (fun l => { l with waits := List.replicate 256 0 })
     |>.setFlag (F.LANE_STEER_CTL_EN 0) false), by decide⟩⟩

theorem met_Splices :
    (∃ (s : State), s.armed = true ∧ (s.reg R.SSW_SPLICE_AT).toNat = (seqNext s.reelSeq) ∧ s.fencePending = true) ∧
    (∃ (s : State), (s.armed = false ∨ (s.reg R.SSW_SPLICE_AT).toNat ≠ (seqNext s.reelSeq))) ∧
    (∃ (s : State), s.armed = true ∧ (s.reg R.SSW_SPLICE_AT).toNat = (seqNext s.reelSeq) ∧ s.fencePending = false ∧
      s.circ.pairs = [] ∧ s.circ.newPairs = [] ∧ s.active.circuits = [] ∧ s.standby.mergeList = []) ∧
    (∃ (s : State), s.sby ≠ 7) ∧
    (∃ (s : State), s.sby = 7 ∧ s.ssw.spliceHandle = 0 ∧ s.pair.inheritSplice = 0 ∧ s.pair.catchUp = false ∧ s.role = 4 ∧
      s.pair.snapWaiting = false ∧ s.ssw.retires = []) ∧
    (∃ (s : State), s.flag F.SSW_COL_STATE_RESYNC = true ∧ s.sby = 0 ∧ s.pair.imageDone = false) ∧
    (∃ (s : State), s.flag F.SSW_COL_STATE_RESYNC = false ∧ s.pair.imageDone = false) ∧
    (∃ (s : State), s.keyOpen .ssw = false) ∧
    (∃ (s : State), s.keyOpen .ssw = true ∧ s.sby ≠ 3) ∧
    (∃ (s : State), s.keyOpen .ssw = true ∧ s.sby = 3 ∧ s.spliceLead < 64) ∧
    (∃ (s : State), s.keyOpen .ssw = true ∧ s.sby = 3 ∧ 64 ≤ s.spliceLead ∧ s.spliceLead ≤ 390625 ∧ s.standby.mergeList =
      []) ∧
    (∃ (s : State), s.keyOpen .ssw = true ∧ s.armed = false) ∧
    (∃ (s : State), s.keyOpen .ssw = true ∧ s.sby = 3 ∧ 390625 < s.spliceLead) ∧
    (∃ (s : State), s.keyOpen .ssw = true ∧ s.armed = true ∧ (s.cancellable = false ∨ s.orderBound = true)) ∧
    (∃ (s : State), s.keyOpen .ssw = true ∧ s.cancellable = true ∧ s.orderBound = false ∧ s.ssw.spliceHandle = 0) :=
  ⟨⟨(State.reset.setFld F.SSW_SPLICE_STATE_STATE 1 |>.setReg R.SSW_SPLICE_AT 1 |>.setReg R.GCTL_FENCE_CAUSE 1 |>.setFlag
     F.GCTL_STATE_FENCED false), by decide⟩,
   ⟨State.reset, by decide⟩,
   ⟨(State.reset.setFld F.SSW_SPLICE_STATE_STATE 1 |>.updCirc (fun x => { x with pairs := [], newPairs := [] }) |>.setReg
     R.SSW_SPLICE_AT 1), by decide⟩,
   ⟨State.reset, by decide⟩,
   ⟨(State.reset.setFld F.SSW_PAGE_STATE_SBY 7 |>.setFld F.PAIR_STATE_ROLE 4), by decide⟩,
   ⟨(State.reset.setFlag F.SSW_COL_STATE_RESYNC true |>.setFld F.SSW_PAGE_STATE_SBY 0 |>.updPair (fun x =>
     { x with imageDone := false })), by decide⟩,
   ⟨State.reset, by decide⟩,
   ⟨State.reset, by decide⟩,
   ⟨(State.reset.setKey .ssw true), by decide⟩,
   ⟨(State.reset.setKey .ssw true |>.setFld F.SSW_PAGE_STATE_SBY 3), by decide⟩,
   ⟨(State.reset.setKey .ssw true |>.setFld F.SSW_PAGE_STATE_SBY 3 |>.setReg R.SSW_SPLICE_AT 64), by decide⟩,
   ⟨(State.reset.setKey .ssw true), by decide⟩,
   ⟨(State.reset.setKey .ssw true |>.setFld F.SSW_PAGE_STATE_SBY 3 |>.setReg R.SSW_SPLICE_AT 400000), by decide⟩,
   ⟨(State.reset.setKey .ssw true |>.setFld F.SSW_SPLICE_STATE_STATE 1), by decide⟩,
   ⟨(State.reset.setKey .ssw true |>.setFld F.SSW_SPLICE_STATE_STATE 1 |>.updSsw (fun x => { x with spliceHandle := 0 })
     |>.setReg R.SSW_SPLICE_AT 8), by decide⟩⟩

theorem met_ColouristJobs :
    (∃ (s : State), ∃ j, s.ssw.repairWaiting = false ∧ s.ssw.hostJob = some j ∧ s.ssw.moreJobs = [] ∧ j.kind = .full ∧
      s.sby = 1 ∧ s.jobRunning = false ∧ s.fwRuns = true) ∧
    (∃ (s : State), s.ssw.repairWaiting = false ∧ s.ssw.hostJob = none ∧ s.ssw.moreJobs = []) ∧
    (∃ (s : State), (s.ssw.hostJob = none ∨ s.jobRunning = false ∨ s.fwRuns = false)) ∧
    (∃ (s : State), ∃ time j, s.ssw.hostJob = some j ∧ s.jobRunning = true ∧ s.fwRuns = true ∧ (s.compile j time).1.code ≠
      0) ∧
    (∃ (s : State), ∃ time j, s.ssw.hostJob = some j ∧ s.jobRunning = true ∧ s.fwRuns = true ∧ (s.compile j time).1.code =
      0 ∧ s.ssw.retires = []) ∧
    (∃ (s : State) (ws : List (MemKind × Nat)), ws ≠ [] ∧ s.flag F.SSW_SBY_PORT_COLOURIST_EN = true ∧ s.flag
      F.SSW_SBY_PORT_CONTINUITY_EN = true) ∧
    (∃ (s : State), s.ssw.repairRunning = true ∧ s.sby = 2 ∧ s.fwRuns = true ∧ s.ssw.retires = []) ∧
    (∃ (s : State), s.ssw.repairRunning = false) :=
  ⟨⟨(State.reset.setFld F.SSW_PAGE_STATE_SBY 1 |>.setFlag F.GCTL_STATE_MGMT_IN_RESET false |>.updSsw (fun x =>
     { x with repairWaiting := false, hostJob := some { kind := .full, take := 1, base := 0, records := [], section_ := List.replicate 16 0, handle := 0 }, moreJobs := [] })
     |>.updMss (fun x => { x with fwUp := true })),
     { kind := .full, take := 1, base := 0, records := [], section_ := List.replicate 16 0, handle := 0 }, by decide⟩,
   ⟨State.reset, by decide⟩,
   ⟨State.reset, by decide⟩,
   ⟨(State.reset.setFld F.SSW_COL_STATE_HOST_JOB 1 |>.setFlag F.GCTL_STATE_MGMT_IN_RESET false |>.updSsw (fun x =>
     { x with hostJob := some { kind := .full, take := 1, base := 0, records := [], section_ := [], handle := 0 } })
     |>.updMss (fun x => { x with fwUp := true })), 0,
     { kind := .full, take := 1, base := 0, records := [], section_ := [], handle := 0 }, by decide⟩,
   ⟨(State.reset.setFld F.SSW_COL_STATE_HOST_JOB 1 |>.setFlag F.GCTL_STATE_MGMT_IN_RESET false |>.updSsw (fun x =>
     { x with hostJob := some { kind := .full, take := 1, base := 0, records := [], section_ := List.replicate 16 0, handle := 0 }, retires := [] })
     |>.updMss (fun x => { x with fwUp := true })), 0,
     { kind := .full, take := 1, base := 0, records := [], section_ := List.replicate 16 0, handle := 0 }, by decide⟩,
   ⟨(State.reset.setFlag F.SSW_SBY_PORT_COLOURIST_EN true |>.setFlag F.SSW_SBY_PORT_CONTINUITY_EN true), [(.conn, 0)], by
     decide⟩,
   ⟨(State.reset.setFld F.SSW_PAGE_STATE_SBY 2 |>.setFlag F.GCTL_STATE_MGMT_IN_RESET false |>.updSsw (fun x =>
     { x with repairRunning := true }) |>.updMss (fun x => { x with fwUp := true })), by decide⟩,
   ⟨State.reset, by decide⟩⟩

theorem met_Facets :
    (∃ (s : State) (f : BitVec 9), s.keyOpen .ssw = true ∧ f.toNat ≤ 271) ∧
    (∃ (s : State) (f : BitVec 9), s.keyOpen .ssw = true ∧ 271 < f.toNat) ∧
    (∃ (s : State) (f : BitVec 9), s.keyOpen .ssw = false ∧ f.toNat ≠ s.fld F.SSW_FACET_BAR_FACET) ∧
    (∃ (s : State), s.ssw.errWin = []) ∧
    (∃ (s : State) (f : Fin 272), s.facetState f.val = 2) ∧
    (∃ (s : State) (f : Fin 272), s.facetState f.val = 4 ∧ s.fld (F.SSW_FACET_TEST_HOURS f.val) = 24) ∧
    (∃ (s : State) (f : Fin 272), (s.facetState f.val ≠ 4 ∨ s.fld (F.SSW_FACET_TEST_HOURS f.val) ≠ 24)) :=
  ⟨⟨(State.reset.setKey .ssw true), 0, by decide⟩,
   ⟨(State.reset.setKey .ssw true), 0x110, by decide⟩,
   ⟨State.reset, 1, by decide⟩,
   ⟨State.reset, by decide⟩,
   ⟨(State.reset.setFld (F.SSW_FACET_STATE 0) 2), 0, by decide⟩,
   ⟨(State.reset.setFld (F.SSW_FACET_STATE 0) 4 |>.setFld (F.SSW_FACET_TEST_HOURS 0) 24), 0, by decide⟩,
   ⟨State.reset, 0, by decide⟩⟩

theorem met_CircuitsAndDailies :
    (∃ (s : State), ∃ x, s.sby ≠ 2 ∧ s.sby ≠ 6 ∧ s.circ.changes = [x] ∧ x.waits = false ∧ x.reel = (seqNext (s.reg
      R.SSW_REEL_NOW).toNat)) ∧
    (∃ (s : State), ∃ x, (s.sby = 2 ∨ s.sby = 6) ∧ s.circ.changes = [x] ∧ x.reel = (seqNext (s.reg R.SSW_REEL_NOW).toNat)) ∧
    (∃ (s : State), ∃ x, s.sby ≠ 2 ∧ s.sby ≠ 6 ∧ s.circ.changes = [x] ∧ x.waits = false ∧ seqLater x.reel (seqNext (s.reg
      R.SSW_REEL_NOW).toNat) = true ∧ seqLater (seqNext (s.reg R.SSW_REEL_NOW).toNat) x.reel = false ∧ x.reel ≠ (seqNext
      (s.reg R.SSW_REEL_NOW).toNat)) ∧
    (∃ (s : State), ∃ f, s.circ.wanted = some f ∧ s.sby ≠ 7) ∧
    (∃ (s : State), s.flag F.CIRC_DAILIES_CTL_PERIODIC = true ∧ s.periodDue = true) ∧
    (∃ (s : State), s.flag F.CIRC_DAILIES_CTL_PERIODIC = false) ∧
    (∃ (s : State), ∃ f h, s.circ.deferred = [(f, h)] ∧ s.dailies = 0 ∧ s.circ.wanted = none) ∧
    (∃ (s : State), (s.circ.deferred = [] ∨ s.dailies ≠ 0 ∨ s.circ.wanted.isSome = true)) ∧
    (∃ (s : State), s.circ.copying = true ∧ s.circ.copyHandle = 0) ∧
    (∃ (s : State), s.circ.copying = false) ∧
    (∃ (s : State), s.dailies = 2) ∧
    (∃ (s : State), s.dailies ≠ 2) :=
  ⟨⟨(State.reset.updCirc (fun x => { x with changes := [⟨1, 0, 0, 0, false, false, 0⟩] })), ⟨1, 0, 0, 0, false, false, 0⟩,
     by decide⟩,
   ⟨(State.reset.setFld F.SSW_PAGE_STATE_SBY 2 |>.updCirc (fun x =>
     { x with changes := [⟨1, 0, 0, 0, false, false, 0⟩] })), ⟨1, 0, 0, 0, false, false, 0⟩, by decide⟩,
   ⟨(State.reset.setFld F.SSW_PAGE_STATE_SBY 0 |>.updCirc (fun x =>
     { x with changes := [⟨2, 0, 0, 0, false, false, 0⟩] })), ⟨2, 0, 0, 0, false, false, 0⟩, by decide⟩,
   ⟨(State.reset.setFld F.SSW_PAGE_STATE_SBY 0 |>.updCirc (fun x => { x with wanted := some 0 })), 0, by decide⟩,
   ⟨({ State.reset with tai := 999997520 }.setFlag F.CIRC_DAILIES_CTL_PERIODIC true), by decide⟩,
   ⟨State.reset, by decide⟩,
   ⟨(State.reset.setFld F.CIRC_DAILIES_STAT_STATE 0 |>.updCirc (fun x => { x with deferred := [(0, 1)], wanted := none })),
     0, 1, by decide⟩,
   ⟨(State.reset.updCirc (fun x => { x with deferred := [] })), by decide⟩,
   ⟨(State.reset.updCirc (fun x => { x with copying := true })), by decide⟩,
   ⟨State.reset, by decide⟩,
   ⟨(State.reset.setFld F.CIRC_DAILIES_STAT_STATE 2), by decide⟩,
   ⟨State.reset, by decide⟩⟩

theorem met_PairRoles :
    (∃ (s : State), (s.role = 3 ∨ s.role = 4) ∧ s.claim < s.mateClaim) ∧
    (∃ (s : State), s.mateClaim ≤ s.claim) ∧
    (∃ (s : State), s.role ≠ 3 ∧ s.role ≠ 4) ∧
    (∃ (s : State), ∃ e, s.role = 2 ∧ s.allAbsent = true ∧ 20000000 ≤ s.pair.absentNs ∧ s.flag F.PAIR_CFG_AUTO_TAKEOVER =
      true ∧ s.witnessLanes ≠ [] ∧ s.nextEpoch = some e) ∧
    (∃ (s : State), s.role = 2 ∧ s.allAbsent = true ∧ 20000000 ≤ s.pair.absentNs ∧ s.flag F.PAIR_CFG_AUTO_TAKEOVER = true ∧
      s.witnessLanes ≠ [] ∧ s.nextEpoch = none) ∧
    (∃ (s : State), (s.role ≠ 2 ∨ s.pair.absentNs < 20000000)) :=
  ⟨⟨(State.reset.setFld F.PAIR_STATE_ROLE 4 |>.setFld (F.LANE_SYNC_STATE_STATE 128) 2 |>.updPair (fun x =>
     { x with mateClaims := [(128, 9)] })), by decide⟩,
   ⟨State.reset, by decide⟩,
   ⟨State.reset, by decide⟩,
   ⟨(State.reset.setFld F.PAIR_STATE_ROLE 2 |>.setFlag F.PAIR_CFG_AUTO_TAKEOVER true |>.updPair (fun x =>
     { x with absentNs := 20000000 }) |>.setReg (R.PAIR_WIT_MASK 0) 1), 2, by decide⟩,
   ⟨(State.reset.setFld F.PAIR_STATE_ROLE 2 |>.setFlag F.PAIR_CFG_AUTO_TAKEOVER true |>.updPair (fun x =>
     { x with absentNs := 20000000 }) |>.setReg (R.PAIR_WIT_MASK 0) 1 |>.setFld F.PAIR_EPOCH_FLOOR_FLOOR 0x7FFFFFFF), by
     decide⟩,
   ⟨State.reset, by decide⟩⟩

theorem met_Heartbeat :
    (∃ (s : State), s.flag F.MATE_HB_CTL_RX_EN = false) ∧
    (∃ (s : State) (f : BitVec 64), s.flag F.MATE_HB_CTL_RX_EN = true ∧ beAt (beBytes 8 f.toNat) 0 1 = 0xA5 ∧ crc8
      ((beBytes 8 f.toNat).take 7) = beAt (beBytes 8 f.toNat) 7 1 ∧ s.pair.order = none ∧ (beAt (beBytes 8 f.toNat) 1
      1).testBit 7 = false ∧ s.pair.hbGoodRun = 1) ∧
    (∃ (s : State) (f : BitVec 64), s.flag F.MATE_HB_CTL_RX_EN = true ∧ beAt (beBytes 8 f.toNat) 0 1 ≠ 0xA5 ∧
      s.pair.hbBadRun = 3 ∧ s.flag F.MATE_HB_STAT_LOCKED = true) ∧
    (∃ (s : State) (f : BitVec 64), s.flag F.MATE_HB_CTL_RX_EN = true ∧ beAt (beBytes 8 f.toNat) 0 1 = 0xA5 ∧ crc8
      ((beBytes 8 f.toNat).take 7) ≠ beAt (beBytes 8 f.toNat) 7 1 ∧ s.pair.hbBadRun = 0) :=
  ⟨⟨(State.reset.setFlag F.MATE_HB_CTL_RX_EN false), by decide⟩,
   ⟨(State.reset.setFlag F.MATE_HB_CTL_RX_EN true |>.updPair (fun x => { x with order := none, hbGoodRun := 1 })),
     0xA500000000000081, by decide⟩,
   ⟨(State.reset.setFlag F.MATE_HB_CTL_RX_EN true |>.setFlag F.MATE_HB_STAT_LOCKED true |>.updPair (fun x =>
     { x with hbBadRun := 3 })), 0, by decide⟩,
   ⟨(State.reset.setFlag F.MATE_HB_CTL_RX_EN true |>.updPair (fun x => { x with hbBadRun := 0 })), 0xA500000000000000, by
     decide⟩⟩

theorem met_Authentication :
    (∃ (s : State) (w : Wire), s.takesRecords = true ∧ wireKind w = 0x01 ∧ wireHeaderOk w = true ∧ wireSession w = 0 ∧
      wireCounter w = 0 ∧ wireLength w = 52 ∧ s.role = 1 ∧ s.pair.joinStep = 1 ∧ beAt w.body 4 4 = (s.reg R.PAIR_ID).toNat
      ∧ beAt w.body 0 1 ≠ s.unit) ∧
    (∃ (s : State) (w : Wire), s.takesRecords = true ∧ wireKind w = 0x01 ∧ wireHeaderOk w = true ∧ wireSession w = 0 ∧
      wireCounter w = 0 ∧ wireLength w = 52 ∧ s.role = 1 ∧ s.pair.joinStep = 1 ∧ beAt w.body 4 4 ≠ (s.reg R.PAIR_ID).toNat) ∧
    (∃ (s : State) (w : Wire), s.takesRecords = true ∧ wireKind w = 0x01 ∧ wireHeaderOk w = true ∧ wireSession w = 0 ∧
      wireCounter w = 0 ∧ wireLength w = 52 ∧ s.role = 1 ∧ s.pair.joinStep = 1 ∧ beAt w.body 4 4 = (s.reg R.PAIR_ID).toNat
      ∧ beAt w.body 0 1 = s.unit) ∧
    (∃ (s : State) (w : Wire), s.takesRecords = true ∧ wireKind w = 0x01 ∧ wireHeaderOk w = true ∧ wireSession w = 0 ∧
      wireCounter w = 0 ∧ wireLength w = 52 ∧ s.role = 4 ∧ s.session = 0 ∧ s.pair.joinStep = 0 ∧ s.mss.pairKey.isSome =
      true) ∧
    (∃ (s : State), s.takesRecords = false) ∧
    (∃ (s : State) (w : Wire), s.takesRecords = true ∧ wireKind w = 0x02 ∧ wireHeaderOk w = true ∧ s.session = 1 ∧
      s.pair.joinStep = 2 ∧ wireCounter w = s.pair.rxNext + s.mateBit) :=
  ⟨⟨(State.reset.setFlag F.GCTL_STATE_MGMT_IN_RESET false |>.setFld F.PAIR_STATE_ROLE 1 |>.updPair (fun x =>
     { x with joinStep := 1 }) |>.setFld F.PAIR_CFG_UNIT 1 |>.setReg R.PAIR_ID 0), (wireOf 1 0 0 0 52 (List.replicate 64
     0)), by decide⟩,
   ⟨(State.reset.setFlag F.GCTL_STATE_MGMT_IN_RESET false |>.setFld F.PAIR_STATE_ROLE 1 |>.updPair (fun x =>
     { x with joinStep := 1 }) |>.setReg R.PAIR_ID 1), (wireOf 1 0 0 0 52 (List.replicate 64 0)), by decide⟩,
   ⟨(State.reset.setFlag F.GCTL_STATE_MGMT_IN_RESET false |>.setFld F.PAIR_STATE_ROLE 1 |>.updPair (fun x =>
     { x with joinStep := 1 }) |>.setFld F.PAIR_CFG_UNIT 0 |>.setReg R.PAIR_ID 0), (wireOf 1 0 0 0 52 (List.replicate 64
     0)), by decide⟩,
   ⟨(State.reset.setFlag F.GCTL_STATE_MGMT_IN_RESET false |>.setFld F.PAIR_STATE_ROLE 4 |>.setFld F.PAIR_CONT_STAT_STATE 0
     |>.updPair (fun x => { x with joinStep := 0 }) |>.updMss (fun x => { x with pairKey := some [] })), (wireOf 1 0 0 0 52
     (List.replicate 64 0)), by decide⟩,
   ⟨State.reset, by decide⟩,
   ⟨(State.reset.setFlag F.GCTL_STATE_MGMT_IN_RESET false |>.setFld F.PAIR_CONT_STAT_STATE 1 |>.updPair (fun x =>
     { x with joinStep := 2 }) |>.setFld F.PAIR_CFG_UNIT 1), (wireOf 2), by decide⟩⟩

theorem met_ContinuityRecords :
    (∃ (s : State) (w : Wire), s.takesRecords = true ∧ s.acceptable w = true ∧ wireApply w = 0 ∧ wireKind w = 0x03) ∧
    (∃ (s : State) (w : Wire), s.takesRecords = true ∧ s.acceptable w = true ∧ wireApply w = 0 ∧ wireKind w = 0x10) ∧
    (∃ (s : State) (w : Wire), s.takesRecords = true ∧ s.acceptable w = true ∧ wireApply w = 0 ∧ wireKind w = 0x11) ∧
    (∃ (s : State) (w : Wire), s.takesRecords = true ∧ s.acceptable w = true ∧ wireApply w = 0 ∧ wireKind w = 0x12) ∧
    (∃ (s : State) (w : Wire), s.takesRecords = true ∧ s.acceptable w = true ∧ wireApply w = 0 ∧ wireKind w = 0x30) ∧
    (∃ (s : State) (w : Wire), s.takesRecords = true ∧ s.acceptable w = true ∧ wireApply w = 0 ∧ wireKind w = 0x40) ∧
    (∃ (s : State) (w : Wire), s.takesRecords = true ∧ s.acceptable w = true ∧ wireApply w = 0 ∧ wireKind w = 0x60) ∧
    (∃ (s : State) (w : Wire), s.takesRecords = true ∧ s.acceptable w = true ∧ wireApply w = 0 ∧ wireKind w = 0x72) ∧
    (∃ (s : State) (w : Wire), s.takesRecords = true ∧ s.acceptable w = true ∧ wireApply w = 0 ∧ wireKind w = 0x73) ∧
    (∃ (s : State) (w : Wire), s.takesRecords = true ∧ s.acceptable w = true ∧ wireApply w = 0 ∧ wireKind w = 0x20) ∧
    (∃ (s : State) (w : Wire), s.takesRecords = true ∧ s.acceptable w = true ∧ wireApply w = 0 ∧ wireKind w = 0x21) ∧
    (∃ (s : State) (w : Wire), s.takesRecords = true ∧ s.acceptable w = true ∧ wireApply w = 0 ∧ wireKind w = 0x22) ∧
    (∃ (s : State) (w : Wire), s.takesRecords = true ∧ s.acceptable w = true ∧ wireApply w = 0 ∧ wireKind w = 0x23) ∧
    (∃ (s : State) (w : Wire), s.takesRecords = true ∧ s.acceptable w = true ∧ wireApply w = 0 ∧ wireKind w = 0x24) ∧
    (∃ (s : State) (w : Wire), s.takesRecords = true ∧ s.acceptable w = true ∧ wireApply w = 0 ∧ wireKind w = 0x25) ∧
    (∃ (s : State) (w : Wire), s.takesRecords = true ∧ s.acceptable w = true ∧ wireApply w = 0 ∧ wireKind w = 0x50) ∧
    (∃ (s : State) (w : Wire), s.takesRecords = true ∧ s.acceptable w = true ∧ wireApply w = 0 ∧ wireKind w = 0x51) ∧
    (∃ (s : State) (w : Wire), s.takesRecords = true ∧ s.acceptable w = true ∧ wireApply w = 0 ∧ wireKind w = 0x52) ∧
    (∃ (s : State) (w : Wire), s.takesRecords = true ∧ s.acceptable w = true ∧ wireApply w = 0 ∧ wireKind w = 0x70) ∧
    (∃ (s : State) (w : Wire), s.takesRecords = true ∧ s.acceptable w = true ∧ wireApply w = 0 ∧ wireKind w = 0x71) ∧
    (∃ (s : State) (w : Wire), s.takesRecords = true ∧ s.acceptable w = true ∧ wireApply w = 0 ∧ wireKind w = 0x74) :=
  ⟨⟨inSession, (wireOf 0x03), by decide, acceptable_of (by decide), by decide, by decide⟩,
   ⟨inSession, (wireOf 0x10), by decide, acceptable_of (by decide), by decide, by decide⟩,
   ⟨inSession, (wireOf 0x11), by decide, acceptable_of (by decide), by decide, by decide⟩,
   ⟨inSession, (wireOf 0x12), by decide, acceptable_of (by decide), by decide, by decide⟩,
   ⟨inSession, (wireOf 0x30), by decide, acceptable_of (by decide), by decide, by decide⟩,
   ⟨inSession, (wireOf 0x40), by decide, acceptable_of (by decide), by decide, by decide⟩,
   ⟨inSession, (wireOf 0x60), by decide, acceptable_of (by decide), by decide, by decide⟩,
   ⟨inSession, (wireOf 0x72), by decide, acceptable_of (by decide), by decide, by decide⟩,
   ⟨inSession, (wireOf 0x73), by decide, acceptable_of (by decide), by decide, by decide⟩,
   ⟨inSession, (wireOf 0x20), by decide, acceptable_of (by decide), by decide, by decide⟩,
   ⟨inSession, (wireOf 0x21), by decide, acceptable_of (by decide), by decide, by decide⟩,
   ⟨inSession, (wireOf 0x22), by decide, acceptable_of (by decide), by decide, by decide⟩,
   ⟨inSession, (wireOf 0x23), by decide, acceptable_of (by decide), by decide, by decide⟩,
   ⟨inSession, (wireOf 0x24), by decide, acceptable_of (by decide), by decide, by decide⟩,
   ⟨inSession, (wireOf 0x25), by decide, acceptable_of (by decide), by decide, by decide⟩,
   ⟨inSession, (wireOf 0x50), by decide, acceptable_of (by decide), by decide, by decide⟩,
   ⟨inSession, (wireOf 0x51), by decide, acceptable_of (by decide), by decide, by decide⟩,
   ⟨inSession, (wireOf 0x52), by decide, acceptable_of (by decide), by decide, by decide⟩,
   ⟨inSession, (wireOf 0x70), by decide, acceptable_of (by decide), by decide, by decide⟩,
   ⟨inSession, (wireOf 0x71), by decide, acceptable_of (by decide), by decide, by decide⟩,
   ⟨inSession, (wireOf 0x74), by decide, acceptable_of (by decide), by decide, by decide⟩⟩

theorem met_RecordsRefused :
    (∃ (s : State), s.takesRecords = false) ∧
    (∃ (s : State) (w : Wire), s.takesRecords = true ∧ wireKind w = 0x23 ∧ s.acceptable w = false) ∧
    (∃ (s : State) (w : Wire), s.takesRecords = true ∧ wireKind w = 0x30 ∧ s.acceptable w = true ∧ wireApply w ≠ 0) ∧
    (∃ (s : State), s.pair.key = []) :=
  ⟨⟨State.reset, by decide⟩,
   ⟨(State.reset.setFlag F.GCTL_STATE_MGMT_IN_RESET false), (wireOf 0x23), by decide⟩,
   ⟨inSession, (wireOf 0x30 0 1 5), by decide, by decide, acceptable_of (by decide), by decide⟩,
   ⟨State.reset, by decide⟩⟩

theorem met_ContinuityTimers :
    (∃ (s : State), ∃ x, s.role = 2 ∧ s.pair.journal = [x] ∧ x.reel = seqNext (s.reg R.SSW_REEL_NOW).toNat) ∧
    (∃ (s : State), s.role = 1 ∧ s.pair.joinStep ≤ 3) ∧
    (∃ (s : State), s.fwRuns = true ∧ s.role = 2) ∧
    (∃ (s : State), s.fwRuns = true ∧ s.role = 3) ∧
    (∃ (s : State), s.fwRuns = false) ∧
    (∃ (s : State), s.pair.key ≠ [] ∧ s.pair.unacked ≠ []) ∧
    (∃ (s : State), s.pair.unacked = []) ∧
    (∃ (s : State), s.takesRecords = true ∧ s.pair.key ≠ [] ∧ s.session ≠ 0) ∧
    (∃ (s : State), s.takesRecords = false) ∧
    (∃ (s : State), s.session = 2 ∧ s.pair.unacked ≠ []) ∧
    (∃ (s : State), s.session ≠ 2) :=
  ⟨⟨(State.reset.setFld F.PAIR_STATE_ROLE 2 |>.updPair (fun x => { x with journal := [⟨1, 3, []⟩] })), ⟨1, 3, []⟩, by
     decide⟩,
   ⟨(State.reset.setFld F.PAIR_STATE_ROLE 1), by decide⟩,
   ⟨(State.reset.setFlag F.GCTL_STATE_MGMT_IN_RESET false |>.setFld F.PAIR_STATE_ROLE 2 |>.updMss (fun x =>
     { x with fwUp := true })), by decide⟩,
   ⟨(State.reset.setFlag F.GCTL_STATE_MGMT_IN_RESET false |>.setFld F.PAIR_STATE_ROLE 3 |>.updMss (fun x =>
     { x with fwUp := true })), by decide⟩,
   ⟨State.reset, by decide⟩,
   ⟨(State.reset.updPair (fun x => { x with key := [0], unacked := [{ kind := 3, counter := 1 }] })), by decide⟩,
   ⟨State.reset, by decide⟩,
   ⟨(State.reset.setFlag F.GCTL_STATE_MGMT_IN_RESET false |>.setFld F.PAIR_CONT_STAT_STATE 1 |>.updPair (fun x =>
     { x with key := [0] })), by decide⟩,
   ⟨State.reset, by decide⟩,
   ⟨(State.reset.setFld F.PAIR_CONT_STAT_STATE 2 |>.updPair (fun x =>
     { x with unacked := [{ kind := 3, counter := 1 }] })), by decide⟩,
   ⟨State.reset, by decide⟩⟩

theorem met_PairTimeouts :
    (∃ (s : State), s.pair.prepareTake ≠ 0 ∧ s.hif.handles = []) ∧
    (∃ (s : State), ∃ e, s.pair.prepareTake ≠ 0 ∧ s.hif.handles.find? (fun e => Op.isCompile e.opcode && e.state ==
      .running && e.ctx == 1) = some e) ∧
    (∃ (s : State), s.pair.prepareTake = 0) ∧
    (∃ (s : State), ∃ o, s.pair.order = some o ∧ o.acked = false ∧ o.cancels = [] ∧ seqDiff o.reel (s.reg
      R.SSW_REEL_NOW).toNat ≤ 64) ∧
    (∃ (s : State), s.pair.order = none) ∧
    (∃ (s : State), s.pair.joinStep ≠ 0 ∧ s.pair.joinLead = true) ∧
    (∃ (s : State), s.pair.joinStep = 0) ∧
    (∃ (s : State), s.role = 3 ∧ s.pair.handoverAhead = true) ∧
    (∃ (s : State), s.role ≠ 3) ∧
    (∃ (s : State) (n : LaneNo), s.role = 2 ∧ 16 ≤ Tbl.get (fun _ => 0) s.pair.splitRun n.val ∧ s.flag
      F.PAIR_STATE_TAKE_SPLIT = false) ∧
    (∃ (s : State), s.role ≠ 2) :=
  ⟨⟨(State.reset.updPair (fun x => { x with prepareTake := 1 })), by decide⟩,
   ⟨(State.reset.updPair (fun x => { x with prepareTake := 1 }) |>.holding
     { cmd Op.TAKE_COMPILE with state := .running, ctx := 1 }), { cmd Op.TAKE_COMPILE with state := .running, ctx := 1 },
     by decide⟩,
   ⟨State.reset, by decide⟩,
   ⟨(State.reset.updPair (fun x => { x with order := some ⟨0, 0, 0, 0, false, []⟩ })), ⟨0, 0, 0, 0, false, []⟩, by decide⟩,
   ⟨State.reset, by decide⟩,
   ⟨(State.reset.updPair (fun x => { x with joinStep := 1, joinLead := true })), by decide⟩,
   ⟨State.reset, by decide⟩,
   ⟨(State.reset.setFld F.PAIR_STATE_ROLE 3 |>.updPair (fun x => { x with handoverAhead := true })), by decide⟩,
   ⟨State.reset, by decide⟩,
   ⟨(State.reset.setFld F.PAIR_STATE_ROLE 2 |>.setFlag F.PAIR_STATE_TAKE_SPLIT false |>.updPair (fun x =>
     { x with splitRun := [(0, 16)] })), 0, by decide⟩,
   ⟨State.reset, by decide⟩⟩

theorem met_TimeSteps :
    (∃ (s : State) (o : Int), s.refOffset = some o ∧ 256 * (clampNat 100 1000000 (s.fld F.TIME_STEP_CTL_THRESH) : Int) ≤
      o.natAbs ∧ (s.role = 0 ∨ s.role = 3 ∨ s.role = 4) ∧ s.fld F.TIME_STEP_CTL_PERMIT = 1 ∧ stepReels o ≠ 0 ∧ s.fld
      F.TIME_DISC_LEFT_REELS = 0 ∧ s.flag F.TIME_STATE_STEP_PENDING = false) ∧
    (∃ (s : State) (o : Int), s.refOffset = some o ∧ 256 * (clampNat 100 1000000 (s.fld F.TIME_STEP_CTL_THRESH) : Int) ≤
      o.natAbs ∧ (s.role = 0 ∨ s.role = 3 ∨ s.role = 4) ∧ s.fld F.TIME_STEP_CTL_PERMIT = 0 ∧ s.fwRuns = false) ∧
    (∃ (s : State), s.refOffset = none) ∧
    (∃ (s : State), s.fld F.TIME_STEP_CTL_PERMIT = 1 ∧ (s.flag F.TIME_STATE_STEP_PENDING = true ∨ s.fld
      F.TIME_DISC_LEFT_REELS ≠ 0)) ∧
    (∃ (s : State), s.flag F.TIME_STATE_STEP_PENDING = true ∧ (s.reg R.TIME_STEP_REEL).toNat = seqNext s.reelSeq ∧
      s.time.residual = none) ∧
    (∃ (s : State), s.fld F.TIME_DISC_LEFT_REELS ≠ 0) :=
  ⟨⟨(State.reset.setFld F.PAIR_STATE_ROLE 0 |>.setFld F.TIME_STEP_CTL_PERMIT 1 |>.setFld F.TIME_DISC_LEFT_REELS 0
     |>.setFlag F.TIME_STATE_STEP_PENDING false |>.setFld F.REF_STATE_SELECTED 4 |>.setFld (F.REF_CANDn_POFS_POFS 4) 655360
     |>.setFld (F.REF_CANDn_POFS_POFS 0) 655360 |>.updCand 4 (fun x => { x with ofs := some 655360 })), 655360, by decide⟩,
   ⟨(State.reset.setFld F.PAIR_STATE_ROLE 0 |>.setFld F.TIME_STEP_CTL_PERMIT 0 |>.setFld F.REF_STATE_SELECTED 4 |>.setFld
     (F.REF_CANDn_POFS_POFS 4) 655360 |>.setFld (F.REF_CANDn_POFS_POFS 0) 655360 |>.setFld F.TIME_STEP_CTL_PERMIT 0
     |>.updCand 4 (fun x => { x with ofs := some 655360 })), 655360, by decide⟩,
   ⟨State.reset, by decide⟩,
   ⟨(State.reset.setFld F.TIME_STEP_CTL_PERMIT 1 |>.setFlag F.TIME_STATE_STEP_PENDING true), by decide⟩,
   ⟨(State.reset.setFlag F.TIME_STATE_STEP_PENDING true |>.updTime (fun x => { x with residual := none }) |>.setReg
     R.TIME_STEP_REEL 1), by decide⟩,
   ⟨(State.reset.setFld F.TIME_DISC_LEFT_REELS 1), by decide⟩⟩

theorem met_TimingPort :
    (∃ (s : State) (fr : List Byte), s.flag F.TIME_PTP_CTL_EN = true ∧ s.flag F.TIME_PTP_STAT_BLOCK_LOCK = true ∧
      s.acceptsFrame fr = false) ∧
    (∃ (s : State) (fr : List Byte), s.flag F.TIME_PTP_CTL_EN = true ∧ s.flag F.TIME_PTP_STAT_BLOCK_LOCK = true ∧
      s.acceptsFrame fr = true) ∧
    (∃ (s : State), s.flag F.TIME_PTP_CTL_EN = false) ∧
    (∃ (s : State) (r : TransmitRequest), s.flag F.TIME_PTP_CTL_EN = true ∧ r.stamp = 0) ∧
    (∃ (s : State) (r : TransmitRequest), s.flag F.TIME_PTP_CTL_EN = true ∧ r.stamp = 1 ∧ s.time.tsq.length < 64 ∧ s.flag
      (F.IC_SRC_HELD 41) = true) ∧
    (∃ (s : State) (r : TransmitRequest), s.flag F.TIME_PTP_CTL_EN = true ∧ r.stamp = 1 ∧ 64 ≤ s.time.tsq.length ∧
      s.time.tsqDropped = true) ∧
    (∃ (s : State), s.time.tsq = []) ∧
    (∃ (s : State), ∃ e rest, s.time.tsq = e :: rest) :=
  ⟨⟨(State.reset.setFlag F.TIME_PTP_CTL_EN true |>.setFlag F.TIME_PTP_STAT_BLOCK_LOCK true), [], by decide⟩,
   ⟨(State.reset.setFlag F.TIME_PTP_CTL_EN true |>.setFlag F.TIME_PTP_STAT_BLOCK_LOCK true), (List.replicate 64 0xFF), by
     decide⟩,
   ⟨State.reset, by decide⟩,
   ⟨(State.reset.setFlag F.TIME_PTP_CTL_EN true), ⟨[], 0, 0, 0, 0, 0⟩, by decide⟩,
   ⟨(State.reset.setFlag F.TIME_PTP_CTL_EN true |>.setFlag (F.IC_SRC_HELD 41) true), ⟨[], 0, 1, 0, 0, 0⟩, by decide⟩,
   ⟨(State.reset.setFlag F.TIME_PTP_CTL_EN true |>.updTime (fun x =>
     { x with tsq := List.replicate 64 ⟨0, 0, 0, 0, 0, 0⟩, tsqDropped := true })), ⟨[], 0, 1, 0, 0, 0⟩, by decide⟩,
   ⟨State.reset, by decide⟩,
   ⟨(State.reset.updTime (fun x => { x with tsq := ⟨0, 0, 0, 0, 0, 0⟩ :: [] })), ⟨0, 0, 0, 0, 0, 0⟩, [], by decide⟩⟩

theorem met_PathAsymmetry :
    (∃ (n : LaneNo) (s : State) (a : Int) (b : Int) (ga : Int) (gb : Int), n.val = 128 ∧ s.meanOfs 128 = some a ∧ s.meanOfs
      129 = some b ∧ s.asymThresh < (a - b).natAbs ∧ (s.lane 128).tt.suspect = false ∧ (s.lane 129).tt.suspect = false ∧
      (s.lane 128).tt.good = some ga ∧ (s.lane 129).tt.good = some gb ∧ (b - gb).natAbs < (a - ga).natAbs) ∧
    (∃ (n : LaneNo) (s : State) (a : Int) (b : Int) (ga : Int) (gb : Int), n.val = 128 ∧ s.meanOfs 128 = some a ∧ s.meanOfs
      129 = some b ∧ s.asymThresh < (a - b).natAbs ∧ (s.lane 128).tt.suspect = false ∧ (s.lane 129).tt.suspect = false ∧
      (s.lane 128).tt.good = some ga ∧ (s.lane 129).tt.good = some gb ∧ (a - ga).natAbs < (b - gb).natAbs) ∧
    (∃ (n : LaneNo) (s : State) (a : Int) (b : Int) (ga : Int) (gb : Int), n.val = 128 ∧ s.meanOfs 128 = some a ∧ s.meanOfs
      129 = some b ∧ s.asymThresh < (a - b).natAbs ∧ (s.lane 128).tt.suspect = false ∧ (s.lane 129).tt.suspect = false ∧
      (s.lane 128).tt.good = some ga ∧ (s.lane 129).tt.good = some gb ∧ (a - ga).natAbs = (b - gb).natAbs) ∧
    (∃ (n : LaneNo) (s : State) (a : Int) (b : Int), s.meanOfs n = some a ∧ s.leadPath n = some b ∧ ((a - b).natAbs : Int)
      ≤ s.asymThresh) ∧
    (∃ (n : LaneNo) (s : State), s.meanOfs n = none) ∧
    (∃ (n : LaneNo) (s : State), s.divergences n ≠ [] ∧ (∀ d ∈ s.divergences n, (d.natAbs : Int) ≤ s.asymThresh) ∧ (s.lane
      n).tt.suspect = true) ∧
    (∃ (n : LaneNo) (s : State), s.divergences n = []) ∧
    (∃ (n : LaneNo) (s : State), (s.lane n).tt.suspect = false ∧ s.flag (F.LANE_TT_STAT_MATE_PATH_SUSPECT n) = false) ∧
    (∃ (n : LaneNo) (s : State), ((s.lane n).tt.suspect = true ∨ s.flag (F.LANE_TT_STAT_MATE_PATH_SUSPECT n) = true)) :=
  ⟨⟨128, (State.reset.setFld (F.LANE_TT_OFS_OFS 128) 3000 |>.setFld (F.LANE_TT_OFS_OFS 129) 0 |>.updLane 128 (fun l =>
     { l with tt := { l.tt with good := some (0) } }) |>.updLane 129 (fun l =>
     { l with tt := { l.tt with good := some (0) } })), (3000), (0), (0), (0), by decide⟩,
   ⟨128, (State.reset.setFld (F.LANE_TT_OFS_OFS 128) 3000 |>.setFld (F.LANE_TT_OFS_OFS 129) 0 |>.updLane 128 (fun l =>
     { l with tt := { l.tt with good := some (3000) } }) |>.updLane 129 (fun l =>
     { l with tt := { l.tt with good := some (3000) } })), (3000), (0), (3000), (3000), by decide⟩,
   ⟨128, (State.reset.setFld (F.LANE_TT_OFS_OFS 128) 3000 |>.setFld (F.LANE_TT_OFS_OFS 129) 4294964296 |>.updLane 128 (fun
     l => { l with tt := { l.tt with good := some (0) } }) |>.updLane 129 (fun l =>
     { l with tt := { l.tt with good := some (0) } })), (3000), (-3000), (0), (0), by decide⟩,
   ⟨0, (State.reset.setFld (F.LANE_TT_OFS_OFS 0) 0 |>.setFld F.PAIR_STATE_ROLE 2 |>.setFlag (F.LANE_TT_CTL_MATE_WATCH 0)
     true |>.setFld (F.REF_CANDn_POFS_POFS 7) 0 |>.updTime (fun x => { x with leadOfs := [(0, 0)] }) |>.updCand 7 (fun x =>
     { x with ofs := some 0 })), 0, 0, by decide⟩,
   ⟨0, State.reset, by decide⟩,
   ⟨0, (State.reset.updLane 0 (fun l => { l with tt := { l.tt with suspect := true } }) |>.setFld (F.LANE_TT_OFS_OFS 0) 0
     |>.setFld (F.LANE_TT_OFS_OFS 1) 0 |>.setFlag (F.LANE_TT_CTL_PAIR_WATCH 0) true |>.setFld (F.LANE_TT_CTL_PARTNER 0) 1),
     by decide⟩,
   ⟨0, State.reset, by decide⟩,
   ⟨0, State.reset, by decide⟩,
   ⟨0, (State.reset.updLane 0 (fun l => { l with tt := { l.tt with suspect := true } })), by decide⟩⟩

theorem met_FrequencyLoop :
    (∃ (s : State), s.mode = 0 ∧ s.selected = 15 ∧ s.flag F.REF_CTL_FORCE_HO = false ∧ s.ref.build = 0 ∧ s.ref.residual =
      0) ∧
    (∃ (s : State), s.fwRuns = false) ∧
    (∃ (s : State), s.mode ≠ 1) ∧
    (∃ (s : State), s.mode = 1 ∧ s.ref.build = 0 ∧ s.ref.freqN ≠ 0) ∧
    (∃ (s : State), s.mode = 3 ∧ s.fld F.REF_HO_CTL_BUDGET ≠ 0 ∧ min (s.fld F.REF_HO_CTL_BUDGET) (2 ^ 20 - 1) ≤ s.fld
      F.REF_HO_STAT_ELAPSED) ∧
    (∃ (s : State), (s.fld F.REF_HO_CTL_BUDGET = 0 ∨ s.mode ≠ 3)) ∧
    (∃ (s : State), s.mode = 2 ∧ s.ref.build = 0) ∧
    (∃ (s : State), (s.mode ≠ 2 ∨ s.ref.build ≠ 0)) ∧
    (∃ (s : State), s.fwRuns = true ∧ s.wanted = none ∧ s.selected = 15) ∧
    (∃ (s : State), ∃ n, s.fwRuns = true ∧ s.wanted = some n ∧ n ≠ s.selected ∧ (s.forced = true ∨ s.selected = 15)) ∧
    (∃ (s : State) (k : Nat) (e : Int), s.ppsEdge k = some e ∧ s.flag (F.REF_PPSO_EN k) = true ∧ s.squelched (s.fld
      (F.REF_PPSO_SQUELCH k)) = false ∧ Tbl.get (fun _ => none) s.time.pps k = none) ∧
    (∃ (s : State) (k : Nat), s.flag (F.REF_FOUT_EN k) = true ∧ s.foutOn k = true ∧ Tbl.get (fun _ => false) s.time.fout k
      = true) :=
  ⟨⟨(State.reset.setFld F.REF_STATE_SELECTED 15), by decide⟩,
   ⟨State.reset, by decide⟩,
   ⟨State.reset, by decide⟩,
   ⟨(State.reset.setFld F.REF_STATE_MODE 1 |>.updRef (fun x => { x with freqN := 1 })), by decide⟩,
   ⟨(State.reset.setFld F.REF_STATE_MODE 3 |>.setFld F.REF_HO_CTL_BUDGET 1 |>.setFld F.REF_HO_STAT_ELAPSED 0xFFFFF), by
     decide⟩,
   ⟨State.reset, by decide⟩,
   ⟨(State.reset.setFld F.REF_STATE_MODE 2), by decide⟩,
   ⟨State.reset, by decide⟩,
   ⟨(State.reset.setFlag F.GCTL_STATE_MGMT_IN_RESET false |>.setFld F.REF_STATE_SELECTED 15 |>.updMss (fun x =>
     { x with fwUp := true })), by decide⟩,
   ⟨(State.reset.setFlag F.GCTL_STATE_MGMT_IN_RESET false |>.updMss (fun x => { x with fwUp := true }) |>.setFlag
     F.REF_CTL_FORCE_EN true |>.setFld F.REF_CTL_FORCE_CAND 0 |>.setFld (F.REF_CANDn_STAT_STATE 0) 3), 0, by decide⟩,
   ⟨(State.reset.setFlag (F.REF_PPSO_EN 0) true |>.setFld (F.REF_PPSO_SQUELCH 0) 0), 0, 0, by decide⟩,
   ⟨(State.reset.setFlag (F.REF_FOUT_EN 0) true |>.setFld (F.REF_FOUT_SQUELCH 0) 0 |>.updTime (fun x =>
     { x with fout := [(0, true)] })), 0, by decide⟩⟩

theorem met_Candidates :
    (∃ (n : Fin 8) (s : State), (n.val < 2 ∨ n.val < 4 ∧ (s.cand n).lastSample + 1000100000 ≤ s.time.clock) ∧ s.candState n
      = 3 ∧ s.selected ≠ n.val) ∧
    (∃ (n : Fin 8) (s : State), (s.candState n = 0 ∨ s.candState n = 1 ∨ s.lossHolds n = false)) ∧
    (∃ (n : Fin 8) (s : State), (s.candState n ≠ 1 ∨ s.lossEnded n = false)) ∧
    (∃ (n : Fin 8) (s : State), s.candState n = 1 ∧ s.ref.lost = none ∧ n.val < 2) ∧
    (∃ (n : Fin 8) (s : State), s.candState n = 1 ∧ s.ref.lost = none ∧ 2 ≤ n.val ∧ s.lossHolds n = false) ∧
    (∃ (n : Fin 8) (s : State), s.candState n = 5 ∧ s.fld (F.REF_CANDn_STAT_LEFT n) = 0) ∧
    (∃ (n : Fin 8) (s : State), s.candState n ≠ 5) ∧
    (∃ (v : Word), v.toNat.testBit 31 = false) ∧
    (∃ (s : State), (s.candState 6 = 0 ∨ s.candState 6 = 1)) ∧
    (∃ (s : State), s.candState 6 ≠ 0 ∧ s.candState 6 ≠ 1) ∧
    (∃ hi, hi < 300) ∧
    (∃ (s : State) (b : Bool), ∃ hi, 300 ≤ hi ∧ (s.cand (if b then 3 else 2)).pulse = none) ∧
    (∃ (s : State) (b : Bool) (d : Nat), ∃ stamp, ((s.icEdge (274 + b.toNat)).cand (if b then 3 else 2)).pulse = some stamp
      ∧ 1000 ≤ d ∧ d ≤ 500000 ∧ (s.icEdge (274 + b.toNat)).candState (if b then 3 else 2) ≠ 0 ∧ (s.icEdge (274 +
      b.toNat)).candState (if b then 3 else 2) ≠ 1) :=
  ⟨⟨0, (State.reset.setFld (F.REF_CANDn_STAT_STATE 0) 3 |>.setFld F.REF_STATE_SELECTED 1 |>.updTime (fun x =>
     { x with clock := 1000100000 })), by decide⟩,
   ⟨0, State.reset, by decide⟩,
   ⟨0, State.reset, by decide⟩,
   ⟨0, (State.reset.setFld (F.REF_CANDn_STAT_STATE 0) 1), by decide⟩,
   ⟨2, (State.reset.setFld (F.REF_CANDn_STAT_STATE 2) 1), by decide⟩,
   ⟨0, (State.reset.setFld (F.REF_CANDn_STAT_STATE 0) 5), by decide⟩,
   ⟨0, State.reset, by decide⟩,
   ⟨0, by decide⟩,
   ⟨State.reset, by decide⟩,
   ⟨(State.reset.setFld (F.REF_CANDn_STAT_STATE 6) 2), by decide⟩,
   ⟨0, by decide⟩,
   ⟨State.reset, true, 300, by decide⟩,
   ⟨(State.reset.updCand 2 (fun x => { x with pulse := some 0 }) |>.setFld (F.REF_CANDn_STAT_STATE 2) 2), false, 1000, 0,
     by decide⟩⟩

theorem met_HostDoorbell :
    (∃ (s : State), s.flag (F.IC_SRC_STORM 33) = false ∧ (Tbl.get (fun _ => []) s.stormEdges 33).length < 64 ∧ (s.icEdge
      33).fwRuns = false) ∧
    (∃ (s : State), (s.icEdge 33).fwRuns = true ∧ (s.icEdge 33).hif.d3hot = false) ∧
    (∃ (s : State), s.fld F.HIF_POLL_US ≠ 0 ∧ s.fwRuns = true ∧ s.hif.d3hot = false) ∧
    (∃ (s : State), (s.fld F.HIF_POLL_US = 0 ∨ s.fwRuns = false ∨ s.hif.d3hot = true)) ∧
    (∃ (s : State), s.hif.fetchHeld = true ∧ s.openCount < 1024 ∧ s.fwRuns = true ∧ s.hif.d3hot = false) ∧
    (∃ (s : State), s.hif.fetchHeld = false ∧ s.hif.kickHeld = false) ∧
    (∃ (s : State) (k : Fin 16), s.cqHeldOf k = []) ∧
    (∃ (s : State) (k : Fin 16), ∃ c, s.cqHeldOf k = [c] ∧ s.cqRoom k = true ∧ s.hif.d3hot = false) ∧
    (∃ (s : State) (k : Fin 16), (s.cqRoom k = false ∨ s.hif.d3hot = true)) ∧
    (∃ (s : State) (k : Fin 16), Tbl.get (fun _ => 0) s.hif.cqUnsig k.val = 0) ∧
    (∃ (s : State) (k : Fin 16), Tbl.get (fun _ => 0) s.hif.cqUnsig k.val ≠ 0 ∧ s.flag (F.HIF_MSIX_VCTL_MASK (s.fld
      (F.HIF_CQ_CTL_VECTOR k))) = false) ∧
    (∃ (s : State), s.hif.evUnsig = 0) ∧
    (∃ (s : State), s.hif.evUnsig ≠ 0) ∧
    (∃ (s : State), s.hif.evMissed = 0) ∧
    (∃ (s : State), 0 < s.hif.evMissed ∧ s.evRoom = true ∧ s.hif.d3hot = false) :=
  ⟨⟨State.reset, by decide⟩,
   ⟨(State.reset.updMss (fun x => { x with fwUp := true }) |>.setFlag F.GCTL_STATE_MGMT_IN_RESET false), by decide⟩,
   ⟨(State.reset.setFld F.HIF_POLL_US 1 |>.setFlag F.GCTL_STATE_MGMT_IN_RESET false |>.updMss (fun x =>
     { x with fwUp := true })), by decide⟩,
   ⟨State.reset, by decide⟩,
   ⟨(State.reset.setFlag F.GCTL_STATE_MGMT_IN_RESET false |>.updHif (fun x => { x with fetchHeld := true }) |>.updMss (fun
     x => { x with fwUp := true })), by decide⟩,
   ⟨State.reset, by decide⟩,
   ⟨State.reset, 0, by decide⟩,
   ⟨(State.reset.updHif (fun x => { x with d3hot := false }) |>.updHif (fun x =>
     { x with cqHeld := [(0, [⟨0, 0, 0, false, false, false, false, 0⟩])] })), 0, ⟨0, 0, 0, false, false, false, false, 0⟩,
     by decide⟩,
   ⟨(State.reset.updHif (fun x => { x with d3hot := true })), 0, by decide⟩,
   ⟨State.reset, 0, by decide⟩,
   ⟨(State.reset.updHif (fun x => { x with cqUnsig := [(0, 1)] }) |>.setFlag (F.HIF_MSIX_VCTL_MASK 0) false), 0, by decide⟩,
   ⟨State.reset, by decide⟩,
   ⟨(State.reset.updHif (fun x => { x with evUnsig := 1 })), by decide⟩,
   ⟨State.reset, by decide⟩,
   ⟨(State.reset.updHif (fun x => { x with evMissed := 1 })), by decide⟩⟩

theorem met_HostRings :
    (∃ (s : State) (n : Fin 16) (v : Word), s.fld (F.HIF_CR_STAT_STATE n) = 0 ∧ s.flag (F.HIF_CQ_CTL_EN (bitsOf v.toNat 24
      4)) = true ∧ s.isMailbox n = false) ∧
    (∃ (s : State) (n : Fin 16) (v : Word), s.fld (F.HIF_CR_STAT_STATE n) = 0 ∧ s.flag (F.HIF_CQ_CTL_EN (bitsOf v.toNat 24
      4)) = false ∧ s.isMailbox n = false) ∧
    (∃ (s : State) (n : Fin 16), s.fld (F.HIF_CR_STAT_STATE n) = 1) ∧
    (∃ (s : State) (n : Fin 16), s.fld (F.HIF_CR_STAT_STATE n) = 2 ∧ s.ringBusy n = false ∧ Tbl.get (fun _ => false)
      s.hif.crEnHeld n.val = false) ∧
    (∃ (s : State) (n : Fin 16), (s.fld (F.HIF_CR_STAT_STATE n) ≠ 2 ∨ s.ringBusy n = true)) ∧
    (∃ (s : State) (n : Fin 16) (v : Word), s.flag (F.HIF_CQ_CTL_EN n) = false ∧ v.toNat.testBit 31 = true ∧ s.cqHeldOf n =
      []) ∧
    (∃ (s : State) (n : Fin 16) (v : Word), s.flag (F.HIF_CQ_CTL_EN n) = true ∧ v.toNat.testBit 31 = false ∧ s.cqMapped n =
      true) ∧
    (∃ (s : State) (v : Word), s.flag F.HIF_EV_CTL_EN = true ∧ v.toNat.testBit 31 = true) ∧
    (∃ (s : State), s.hif.handles = [] ∧ s.hif.heldFinal = []) ∧
    (∃ (s : State), s.hif.cqHeld = [] ∧ s.hif.evMissed = 0) ∧
    (∃ (s : State), ∃ waited, waited < s.cplTimeoutUs) ∧
    (∃ (s : State) (h : Word), ∃ waited, s.handle? h.toNat = none ∧ s.cplTimeoutUs ≤ waited) ∧
    (∃ (s : State) (h : Word), ∃ e, Runs s e.opcode h e [] ∧ Op.toDevice e.opcode = false ∧ Op.toHost e.opcode = true ∧
      e.list = false) :=
  ⟨⟨(State.reset.setFlag (F.HIF_CQ_CTL_EN (bitsOf 0 24 4)) true), 0, 0, by decide⟩,
   ⟨State.reset, 0, 0, by decide⟩,
   ⟨(State.reset.setFld (F.HIF_CR_STAT_STATE 0) 1), 0, by decide⟩,
   ⟨(State.reset.setFld (F.HIF_CR_STAT_STATE 0) 2), 0, by decide⟩,
   ⟨State.reset, 0, by decide⟩,
   ⟨State.reset, 0, 0x80000000, by decide⟩,
   ⟨(State.reset.setFlag (F.HIF_CQ_CTL_EN 0) true |>.setFld (F.HIF_CR_STAT_STATE 0) 1), 0, 0, by decide⟩,
   ⟨(State.reset.setFlag F.HIF_EV_CTL_EN true), 0x80000000, by decide⟩,
   ⟨State.reset, by decide⟩,
   ⟨State.reset, by decide⟩,
   ⟨State.reset, 0, by decide⟩,
   ⟨State.reset, 1, 50000, by decide⟩,
   ⟨(State.reset.holding (cmd Op.REPORT_TAKE)), 1, (cmd Op.REPORT_TAKE), runs_of (by decide), by decide⟩⟩

theorem met_MgmtRestart :
    (∃ (s : State) (v : Word), s.keyOpen .mss = true ∧ v.toNat.testBit 31 = true ∧ s.flag F.GCTL_STATE_MGMT_IN_RESET =
      true) ∧
    (∃ (s : State) (v : Word), s.keyOpen .mss = true ∧ v.toNat.testBit 31 = true ∧ s.flag F.GCTL_STATE_MGMT_IN_RESET =
      false ∧ s.sby ≠ 2 ∧ s.flag { F.GCTL_ALERT_STAT_MGMT_RESTART with reg := R.GCTL_ALERT_MASK } = false) ∧
    (∃ (s : State) (v : Word), s.keyOpen .mss = false ∧ v.toNat.testBit 31 = true) ∧
    (∃ (s : State), s.flag F.GCTL_STATE_MGMT_IN_RESET = true ∧ s.mss.started = true) ∧
    (∃ (s : State), s.fld F.MSS_RESTART_CTL_AUTO_AGE ≠ 0 ∧ s.gctl.everAlive = true ∧ min 7500 (s.fld
      F.MSS_RESTART_CTL_AUTO_AGE) ≤ s.fld F.GCTL_ALIVE_AGE_AGE_MS ∧ s.mss.autoDone = false) ∧
    (∃ (s : State), (s.fld F.MSS_RESTART_CTL_AUTO_AGE = 0 ∨ s.mss.autoDone = true)) ∧
    (∃ m, isCore0Machine m = false) ∧
    (∃ (s : State) (v : Word), s.reg R.MSS_CORE_CTL = 0xE#32 ∧ v.toNat % 16 / 2 = 6) ∧
    (∃ (s : State), s.flag F.MSS_BOOT_REMAP_PENDING = true) ∧
    (∃ (s : State), s.flag F.MSS_BOOT_REMAP_PENDING = false) ∧
    (∃ (s : State), s.flag F.MSS_MTEST_CTL_EN = false) ∧
    (∃ (s : State), s.flag F.MSS_MTEST_CTL_EN = true ∧ s.mss.window < 4095) :=
  ⟨⟨(State.reset.setKey .mss true |>.setFlag F.GCTL_STATE_MGMT_IN_RESET true), 0x80000000, by decide⟩,
   ⟨(State.reset.setKey .mss true |>.setFlag F.GCTL_STATE_MGMT_IN_RESET false |>.setFld F.SSW_PAGE_STATE_SBY 0),
     0x80000000, by decide⟩,
   ⟨State.reset, 0x80000000, by decide⟩,
   ⟨(State.reset.setFlag F.GCTL_STATE_MGMT_IN_RESET true |>.updMss (fun x => { x with started := true })), by decide⟩,
   ⟨(State.reset.setFld F.MSS_RESTART_CTL_AUTO_AGE 1 |>.updGctl (fun x => { x with everAlive := true }) |>.updMss (fun x =>
     { x with autoDone := false }) |>.setFld F.GCTL_ALIVE_AGE_AGE_MS 7500), by decide⟩,
   ⟨(State.reset.setFld F.MSS_RESTART_CTL_AUTO_AGE 0), by decide⟩,
   ⟨.i3c, by decide⟩,
   ⟨(State.reset.setReg R.MSS_CORE_CTL 0xE), 12, by decide⟩,
   ⟨(State.reset.setFlag F.MSS_BOOT_REMAP_PENDING true), by decide⟩,
   ⟨State.reset, by decide⟩,
   ⟨(State.reset.setFlag F.MSS_MTEST_CTL_EN false), by decide⟩,
   ⟨(State.reset.setFlag F.MSS_MTEST_CTL_EN true), by decide⟩⟩

theorem met_Interrupts :
    (∃ (s : State), s.touchedSources = []) ∧
    (∃ (s : State) (c : Fin 4) (r : CoreRegs), ∃ n off, (s.updCore c fun x => { x with r := r }).bestSource c = some (n,
      false) ∧ r.mie = true ∧ r.meie = true ∧ s.coreOffline c = false ∧ s.abovePrio c (s.fld (F.IC_SRC_PRIO n)) = true ∧
      s.coreTarget (BitVec.ofNat 32 ((s.reg (R.IC_VTBASE c)).toNat + 8 * n)).toNat = some (.sram off)) ∧
    (∃ (r : CoreRegs), r.user = true) ∧
    (∃ (s : State) (c : Fin 4) (r : CoreRegs), ∃ b l, r.user = false ∧ (s.core c).traps = b :: l) ∧
    (∃ (s : State) (c : Fin 4) (r : CoreRegs), r.user = false ∧ (s.core c).traps = []) ∧
    (∃ (s : State) (c : Fin 4), (s.core c).exc = none) ∧
    (∃ (s : State) (c : Fin 4), ∃ a b, (s.core c).exc = some (a, b)) ∧
    (∃ (n : Fin 1280), icIsLevel n = false) ∧
    (∃ (s : State) (n : Fin 1280), icIsLevel n = true ∧ s.icRaw n = false) ∧
    (∃ (s : State) (n : Fin 1280), icIsLevel n = true ∧ s.icRaw n = true) ∧
    (∃ (s : State) (n : Fin 1280), s.flag (F.IC_SRC_STORM n) = true) ∧
    (∃ (s : State) (n : Fin 1280), s.flag (F.IC_SRC_STORM n) = false) :=
  ⟨⟨{ State.reset with regs := [] }, by decide⟩,
   ⟨(State.reset.setFlag (F.IC_SRC_PENDING 0) true |>.setFlag (F.IC_SRC_KIND 0) false |>.setFlag (F.IC_SRC_MASK 0) false
     |>.setFld (coreStat 0) 1 |>.setFlag F.MSS_BOOT_REMAP true), 0, { mie := true, meie := true }, 0, 0, by decide⟩,
   ⟨{ user := true }, by decide⟩,
   ⟨(State.reset.updCore 0 (fun x => { x with traps := true :: [] })), 0, {}, true, [], by decide⟩,
   ⟨State.reset, 0, {}, by decide⟩,
   ⟨State.reset, 0, by decide⟩,
   ⟨(State.reset.updCore 0 (fun x => { x with exc := some (2, 0) })), 0, 2, 0, by decide⟩,
   ⟨0, by decide⟩,
   ⟨State.reset, 16, by decide⟩,
   ⟨(State.reset.setFlag F.GCTL_STATE_FENCED true), 34, by decide⟩,
   ⟨(State.reset.setFlag (F.IC_SRC_STORM 0) true), 0, by decide⟩,
   ⟨State.reset, 0, by decide⟩⟩

theorem met_CountersAndTags :
    (∃ (s : State) (c : Fin 4) (k : Fin 9), ∃ adv, s.counter c k + adv < 2 ^ 48) ∧
    (∃ (s : State) (c : Fin 4), ∃ user, (user = false ∨ s.userRd c = true)) ∧
    (∃ (s : State) (c : Fin 4) (k : Fin 9), ∃ v, Tbl.get (fun _ => none) (s.core c).shadow k.val = some v) ∧
    (∃ (s : State) (c : Fin 4), s.userRd c = false) ∧
    (∃ (s : State) (c : Fin 4) (k : Fin 9), k.val ≠ 0 ∧ s.counts c k = true) ∧
    (∃ (s : State) (c : Fin 4) (k : Fin 9), (k.val = 0 ∨ s.counts c k = false)) ∧
    (∃ (s : State) (c : Fin 4) (u : Bool), (s.flag (F.MSS_TAG_CTL_EN c) = false ∨ s.tagMode c u = false)) ∧
    (∃ (s : State) (c : Fin 4) (u : Bool), s.flag (F.MSS_TAG_CTL_EN c) = true ∧ s.tagMode c u = true ∧ (s.core
      c).tags.length < 32) ∧
    (∃ (s : State) (c : Fin 4) (u : Bool), s.flag (F.MSS_TAG_CTL_EN c) = true ∧ s.tagMode c u = true ∧ 32 ≤ (s.core
      c).tags.length) ∧
    (∃ (s : State) (c : Fin 4), (s.core c).tags = []) ∧
    (∃ (s : State) (c : Fin 4), ∃ x l, (s.core c).tags = x :: l) :=
  ⟨⟨State.reset, 0, 0, 0, by decide⟩,
   ⟨State.reset, 0, false, by decide⟩,
   ⟨(State.reset.updCore 0 (fun x => { x with shadow := [(0, some 0)] })), 0, 0, 0, by decide⟩,
   ⟨State.reset, 0, by decide⟩,
   ⟨(State.reset.updCore 0 (fun x => { x with events := [(1, 0x205)] })), 0, 1, by decide⟩,
   ⟨State.reset, 0, 0, by decide⟩,
   ⟨State.reset, 0, true, by decide⟩,
   ⟨(State.reset.setFlag (F.MSS_TAG_CTL_EN 0) true |>.updCore 0 (fun x => { x with events := [(1, 0x228)] })), 0, true, by
     decide⟩,
   ⟨(State.reset.setFlag (F.MSS_TAG_CTL_EN 0) true |>.updCore 0 (fun x =>
     { x with events := [(1, 0x228)], tags := List.replicate 32 ⟨0, 0⟩ })), 0, true, by decide⟩,
   ⟨State.reset, 0, by decide⟩,
   ⟨(State.reset.updCore 0 (fun x => { x with tags := ⟨0, 0⟩ :: [] })), 0, ⟨0, 0⟩, [], by decide⟩⟩

theorem met_Atomics :
    (∃ (s : State) (c : Fin 4) (a : Word), ∃ off, s.coreOn c = true ∧ a.toNat % 4 = 0 ∧ s.coreTarget a.toNat = some (.sram
      off) ∧ (s.core c).resv = some (off / 64)) ∧
    (∃ (s : State) (c : Fin 4) (a : Word), ∃ off, s.coreOn c = true ∧ a.toNat % 4 = 0 ∧ s.coreTarget a.toNat = some (.sram
      off) ∧ (s.core c).resv = none) ∧
    (∃ (s : State) (c : Fin 4) (a : Word), s.coreOn c = true ∧ a.toNat % 4 ≠ 0) ∧
    (∃ (s : State) (c : Fin 4), s.coreOn c = false) :=
  ⟨⟨(State.reset.setFld (coreStat 0) 1 |>.setFlag F.MSS_BOOT_REMAP false |>.updCore 0 (fun x =>
     { x with resv := some 1 })), 0, 0x10000040, 64, by decide⟩,
   ⟨(State.reset.setFld (coreStat 0) 1 |>.setFlag F.MSS_BOOT_REMAP false), 0, 0x10000040, 64, by decide⟩,
   ⟨(State.reset.setFld (coreStat 0) 1), 0, 1, by decide⟩,
   ⟨State.reset, 0, by decide⟩⟩

theorem met_LifeCycle :
    (∃ m, isCore0Machine m = false) ∧
    (∃ (s : State) (v : Word), s.keyOpen .mss = true ∧ v.toNat.testBit 31 = true ∧ (s.setKey .mss false).lcResult (v.toNat
      % 4) = 0 ∧ ((s.setKey .mss false).setFld F.MSS_LC_CTL_TARGET (v.toNat % 4)).lcResult (v.toNat % 4) = 0) ∧
    (∃ (s : State) (v : Word), s.keyOpen .mss = false ∧ v.toNat.testBit 31 = true) ∧
    (∃ (s : State), s.mss.lcTarget = none) ∧
    (∃ (s : State), ∃ t, s.mss.lcTarget = some t ∧ t < 3) ∧
    (∃ (s : State), s.mss.lcTarget = some 3 ∧ s.flag F.MSS_ZEROISE_BUSY = true ∧ s.fwRuns = false ∧ s.evq.length = 1024) ∧
    (∃ (s : State), s.keyOpen .mss = true ∧ s.mss.activateHandle = 0 ∧ s.handle? 0 = none) ∧
    (∃ (s : State) (v : Word), s.keyOpen .mss = true ∧ v.toNat.testBit 31 = true ∧ s.fld F.MSS_FW_ROLLBACK_COUNT < bitsOf
      v.toNat 8 6 ∧ bitsOf v.toNat 8 6 ≤ s.mss.runSec ∧ s.flag F.MSS_FW_TRIAL_ARMED = false) ∧
    (∃ (s : State) (v : Word), s.keyOpen .mss = true ∧ v.toNat.testBit 31 = true ∧ bitsOf v.toNat 8 6 ≤ s.fld
      F.MSS_FW_ROLLBACK_COUNT) :=
  ⟨⟨.i3c, by decide⟩,
   ⟨(State.reset.setKey .mss true |>.setFlag F.GCTL_STATE_FENCED true |>.updMss (fun x => { x with ownerHash := [1] })),
     0x80000001, by decide⟩,
   ⟨State.reset, 0x80000000, by decide⟩,
   ⟨State.reset, by decide⟩,
   ⟨(State.reset.updMss (fun x => { x with lcTarget := some 1 })), 1, by decide⟩,
   ⟨(fullQueue.setFlag F.MSS_ZEROISE_BUSY true |>.updMss (fun x => { x with lcTarget := some 3 }) |>.setFlag
     F.MSS_ZEROISE_BUSY true), by decide, by decide, by decide, fullQueue_length⟩,
   ⟨(State.reset.setKey .mss true), by decide⟩,
   ⟨(State.reset.setKey .mss true |>.setFlag F.MSS_FW_TRIAL_ARMED false |>.updMss (fun x => { x with runSec := 1 })),
     0x80000100, by decide⟩,
   ⟨(State.reset.setKey .mss true), 0x80000000, by decide⟩⟩

theorem met_KeyLoad :
    (∃ m, isCore0Machine m = false) ∧
    (∃ (s : State), s.keyOpen .mss = false) ∧
    (∃ (s : State), s.keyOpen .mss = true ∧ s.flag F.MSS_ZEROISE_BUSY = true) ∧
    (∃ (s : State), s.keyOpen .mss = true ∧ s.flag F.MSS_ZEROISE_BUSY = false ∧ s.lifeCycle = 0 ∧ s.mss.ownerHash = []) ∧
    (∃ (s : State), s.keyOpen .mss = true ∧ s.flag F.MSS_ZEROISE_BUSY = false ∧ s.lifeCycle = 0 ∧ s.mss.ownerHash ≠ []) ∧
    (∃ (s : State), s.keyOpen .mss = true ∧ s.flag F.MSS_ZEROISE_BUSY = false ∧ s.lifeCycle ≠ 0) ∧
    (∃ (s : State), s.keyOpen .mss = true ∧ s.flag F.MSS_ZEROISE_BUSY = false ∧ s.lifeCycle ≠ 1 ∧ s.lifeCycle ≠ 2) ∧
    (∃ (s : State), s.keyOpen .mss = true ∧ s.flag F.MSS_ZEROISE_BUSY = false ∧ s.lifeCycle = 1) ∧
    (∃ (s : State), s.keyOpen .mss = true ∧ s.flag F.MSS_ZEROISE_BUSY = false ∧ (s.lifeCycle = 1 ∨ s.lifeCycle = 2) ∧
      s.mss.pairKey = none) ∧
    (∃ (s : State), ∃ old, s.keyOpen .mss = true ∧ s.flag F.MSS_ZEROISE_BUSY = false ∧ (s.lifeCycle = 1 ∨ s.lifeCycle = 2)
      ∧ s.mss.pairKey = some old) ∧
    (∃ (s : State), s.keyOpen .mss = true ∧ s.flag F.MSS_ZEROISE_BUSY = false ∧ s.lifeCycle < 4) :=
  ⟨⟨.i3c, by decide⟩,
   ⟨State.reset, by decide⟩,
   ⟨(State.reset.setKey .mss true |>.setFlag F.MSS_ZEROISE_BUSY true), by decide⟩,
   ⟨(State.reset.setKey .mss true), by decide⟩,
   ⟨(State.reset.setKey .mss true |>.updMss (fun x => { x with ownerHash := [0] })), by decide⟩,
   ⟨(State.reset.setKey .mss true |>.setFld F.MSS_LC_STATE_STATE 1), by decide⟩,
   ⟨(State.reset.setKey .mss true), by decide⟩,
   ⟨(State.reset.setKey .mss true |>.setFld F.MSS_LC_STATE_STATE 1), by decide⟩,
   ⟨(State.reset.setKey .mss true |>.setFld F.MSS_LC_STATE_STATE 1), by decide⟩,
   ⟨(State.reset.setKey .mss true |>.setFlag F.MSS_ZEROISE_BUSY false |>.setFld F.MSS_LC_STATE_STATE 1 |>.updMss (fun x =>
     { x with pairKey := some [] })), [], by decide⟩,
   ⟨(State.reset.setKey .mss true), by decide⟩⟩

theorem met_CommonCommandCodes :
    (∃ (s : State), s.i3cUp = true ∧ s.flag F.I3CT_STAT_DA_VALID = false) ∧
    (∃ (s : State), s.i3cUp = true ∧ s.flag F.I3CT_STAT_DA_VALID = true) ∧
    (∃ (s : State) (d : Byte), s.i3cUp = true ∧ d.toNat ≤ 2) ∧
    (∃ (s : State) (d : Byte), s.i3cUp = true ∧ 2 < d.toNat) ∧
    (∃ (s : State), s.i3cUp = false) ∧
    (∃ (s : State), s.i3cUp = true ∧ s.i3c.rstact = some 0) ∧
    (∃ (s : State), s.i3cUp = true ∧ s.i3c.rstact = some 2) ∧
    (∃ (s : State), s.i3cUp = true ∧ s.i3c.rstact = none) :=
  ⟨⟨(State.reset.setFlag F.I3CT_CTL_EN true), by decide⟩,
   ⟨(State.reset.setFlag F.I3CT_CTL_EN true |>.setFlag F.I3CT_STAT_DA_VALID true), by decide⟩,
   ⟨(State.reset.setFlag F.I3CT_CTL_EN true), 0, by decide⟩,
   ⟨(State.reset.setFlag F.I3CT_CTL_EN true), 3, by decide⟩,
   ⟨(State.reset.setFlag F.I3CT_CTL_EN false), by decide⟩,
   ⟨(State.reset.setFlag F.I3CT_CTL_EN true |>.updI3c (fun x => { x with rstact := some 0 })), by decide⟩,
   ⟨(State.reset.setFlag F.I3CT_CTL_EN true |>.updI3c (fun x => { x with rstact := some 2 })), by decide⟩,
   ⟨(State.reset.setFlag F.I3CT_CTL_EN true), by decide⟩⟩

theorem met_PrivateTransfers :
    (∃ (s : State) (b : List Byte), s.i3cUp = true ∧ 8 ≤ b.length ∧ b.length % 4 = 0) ∧
    (∃ (s : State) (n : BitVec 16), s.i3cUp = true ∧ 1 ≤ n.toNat ∧ n.toNat ≤ 1024) ∧
    (∃ (s : State) (n : BitVec 16), s.i3cUp = true ∧ (n.toNat = 0 ∨ 1024 < n.toNat)) ∧
    (∃ (s : State), ∃ ws, s.i3cUp = true ∧ s.i3c.words = some ws) ∧
    (∃ (s : State), s.i3cUp = true ∧ s.i3c.words = none) ∧
    (∃ (s : State), ∃ b rest, s.i3cUp = true ∧ s.flag F.I3CT_STAT_DA_VALID = true ∧ s.flag F.I3CT_STAT_IBI_EN = true ∧
      s.i3c.ibis = b :: rest) ∧
    (∃ (s : State), s.i3cUp = true ∧ s.flag F.I3CT_STAT_DA_VALID = false) :=
  ⟨⟨(State.reset.setFlag F.I3CT_CTL_EN true), (List.replicate 8 0), by decide⟩,
   ⟨(State.reset.setFlag F.I3CT_CTL_EN true), 1, by decide⟩,
   ⟨(State.reset.setFlag F.I3CT_CTL_EN true), 0, by decide⟩,
   ⟨(State.reset.setFlag F.I3CT_CTL_EN true |>.updI3c (fun x => { x with words := some [] })), [], by decide⟩,
   ⟨(State.reset.setFlag F.I3CT_CTL_EN true), by decide⟩,
   ⟨(State.reset.setFlag F.I3CT_CTL_EN true |>.setFlag F.I3CT_STAT_DA_VALID true |>.setFlag F.I3CT_STAT_IBI_EN true
     |>.updI3c (fun x => { x with ibis := 0 :: [] })), 0, [], by decide⟩,
   ⟨(State.reset.setFlag F.I3CT_CTL_EN true), by decide⟩⟩

theorem met_MailboxAndRecovery :
    (∃ (s : State), s.fld (F.HIF_CR_STAT_STATE 15) = 0) ∧
    (∃ (s : State), s.fld (F.HIF_CR_STAT_STATE 15) = 1) ∧
    (∃ (m : Master), m ≠ .i3c) ∧
    (∃ (s : State), s.flag F.I3CT_CTL_MBX_EN = true ∧ s.mbx ≠ 0) ∧
    (∃ (s : State), s.flag F.I3CT_CTL_MBX_EN = true ∧ s.mbx = 0) ∧
    (∃ (s : State), s.mbx = 3 ∧ s.i3c.mbxOut = false ∧ s.i3c.mbxTotal ≤ s.i3c.mbxPos) ∧
    (∃ (s : State), ∃ w, (s.mbx = 0 ∨ s.mbx = 1 ∨ w < s.unitTimeoutMs)) ∧
    (∃ (s : State), ∃ e w, s.mbx = 2 ∧ s.i3c.mbxOut = true ∧ s.handle? s.i3c.mbxHandle = some e ∧ s.unitTimeoutMs ≤ w) ∧
    (∃ (s : State), s.i3c.cplUnread = true ∧ s.i3c.disableHeld = false ∧ s.hif.mbxOut = [] ∧ (s.reg (R.I3CT_MBX_CPL
      1)).toNat.testBit 29 = true ∧ (s.reg (R.I3CT_MBX_CPL 1)).toNat.testBit 28 = false) ∧
    (∃ (s : State), s.rcv = 0) ∧
    (∃ (s : State), s.rcv ≠ 0 ∧ s.rcvForeign .i3c = false) ∧
    (∃ (s : State), ∃ c b, s.rcv ≠ 0 ∧ rcvMaster (.core c b) = false) ∧
    (∃ (s : State), s.rcv ≠ 3) ∧
    (∃ (s : State), s.rcv = 3) :=
  ⟨⟨State.reset, by decide⟩,
   ⟨(State.reset.setFld (F.HIF_CR_STAT_STATE 15) 1), by decide⟩,
   ⟨.pcie, by decide⟩,
   ⟨(State.reset.setFlag F.I3CT_CTL_MBX_EN true |>.setFld F.I3CT_MBX_STAT_STATE 1), by decide⟩,
   ⟨(State.reset.setFlag F.I3CT_CTL_MBX_EN true), by decide⟩,
   ⟨(State.reset.setFld F.I3CT_MBX_STAT_STATE 3), by decide⟩,
   ⟨State.reset, 0, by decide⟩,
   ⟨(State.reset.setFld F.I3CT_MBX_STAT_STATE 2 |>.updI3c (fun x => { x with mbxOut := true }) |>.holding (cmd 0) |>.updI3c
     (fun x => { x with mbxHandle := 1, mbxOut := true })), (cmd 0), 1000, by decide⟩,
   ⟨(State.reset.updI3c (fun x => { x with cplUnread := true, disableHeld := false }) |>.updHif (fun x =>
     { x with mbxOut := [] }) |>.setReg (R.I3CT_MBX_CPL 1) 0x20000000), by decide⟩,
   ⟨State.reset, by decide⟩,
   ⟨(State.reset.setFld F.I3CT_RCV_STAT_STATE 1), by decide⟩,
   ⟨(State.reset.setFld F.I3CT_RCV_STAT_STATE 1), 0, true, by decide⟩,
   ⟨State.reset, by decide⟩,
   ⟨(State.reset.setFld F.I3CT_RCV_STAT_STATE 3), by decide⟩⟩

theorem met_TestLanes :
    (∃ (n : LaneNo) (s : State) (v : Word), v.toNat % 4 ≠ 0 ∧ s.laneInUse n = true ∧ s.fenced = false) ∧
    (∃ (n : LaneNo) (s : State), s.laneInUse n = false) ∧
    (∃ (n : LaneNo) (s : State), (s.testLane n).active ≠ 0 ∧ s.loopEnds n = true) ∧
    (∃ (n : LaneNo) (s : State), s.loopEnds n = false) ∧
    (∃ (n : LaneNo) (s : State) (v : Word), v.toNat.testBit 31 = true ∧ s.laneInUse n = true ∧ s.fenced = false) ∧
    (∃ (v : Word), v.toNat.testBit 31 = false ∧ v.toNat.testBit 26 = false ∧ v.toNat.testBit 30 = false) ∧
    (∃ (n : LaneNo) (s : State), s.flag (F.TEST_PRBS_CHK_EN n) = true ∧ s.rxState n = 0) ∧
    (∃ (n : LaneNo) (s : State), s.flag (F.TEST_PRBS_CHK_EN n) = false) ∧
    (∃ (n : LaneNo) (s : State), ∃ w, s.flag (F.TEST_PRBS_CHK_LOCKED n) = true ∧ s.rxState n = 0 ∧ 16384 < w) ∧
    (∃ (n : LaneNo) (s : State), ∃ w, (w ≤ 16384 ∨ s.rxState n ≠ 0)) ∧
    (∃ (n : LaneNo) (s : State), (s.flag (F.TEST_PRBS_CHK_LOCKED n) = false ∨ s.rxState n ≠ 0)) :=
  ⟨⟨128, (State.reset.setFlag F.GCTL_STATE_FENCED false), 1, by decide⟩,
   ⟨0, State.reset, by decide⟩,
   ⟨0, (State.reset.updTest 0 (fun x => { x with active := 1, wasTx := true }) |>.setFld (F.LANE_STATE_TX_STATE 0) 4), by
     decide⟩,
   ⟨0, (State.reset.setFld (F.LANE_STATE_TX_STATE 0) 0 |>.setFld (F.LANE_STATE_RX_STATE 0) 0), by decide⟩,
   ⟨128, (State.reset.setFlag F.GCTL_STATE_FENCED false), 0x80000000, by decide⟩,
   ⟨0, by decide⟩,
   ⟨0, (State.reset.setFlag (F.TEST_PRBS_CHK_EN 0) true |>.setFld (F.LANE_STATE_RX_STATE 0) 0), by decide⟩,
   ⟨0, State.reset, by decide⟩,
   ⟨0, (State.reset.setFlag (F.TEST_PRBS_CHK_LOCKED 0) true |>.setFld (F.LANE_STATE_RX_STATE 0) 0), 16385, by decide⟩,
   ⟨0, State.reset, 0, by decide⟩,
   ⟨0, State.reset, by decide⟩⟩

theorem met_TestAccessPort :
    (∃ (s : State) (op : BitVec 8), 0x80 ≤ op.toNat ∧ op.toNat ≤ 0xFE ∧ (s.lifeCycle = 0 ∨ s.lifeCycle = 3)) ∧
    (∃ (s : State) (op : BitVec 8), (s.lifeCycle = 1 ∨ s.lifeCycle = 2 ∨ op.toNat < 0x80)) :=
  ⟨⟨State.reset, 0x80, by decide⟩,
   ⟨(State.reset.setFld F.MSS_LC_STATE_STATE 1), 0, by decide⟩⟩

end Sys2Proof.Machine
end

section
/-!
PROOFS. The register bus (O16): what a 32-bit write and read do at the offsets of the statement, and what an access of a wrong
size does (spec 00 R6 to R9, 11 R316, 18 R497).
-/
namespace Sys2Proof.Machine
open Sys2Proof

-- Access size ---------------------------------------------------------------------------------------------------

/-- The sizes the register space takes (R6, R316, R402). -/
theorem sizeOk_iff (m : Master) (off bytes : Nat) (write : Bool) : sizeOk m off bytes write = true ↔
    (bytes = 4 ∧ off % 4 = 0) ∨ (bytes = 0 ∧ write = true) ∨ (bytes = 8 ∧ off % 8 = 0 ∧ m = .pcie
      ∧ (0x608000 ≤ off ∧ off < 0x608400 ∨ 0x609000 ≤ off ∧ off < 0x609008)) := by
  simp only [sizeOk, Bool.or_eq_true, Bool.and_eq_true, beq_iff_eq, decide_eq_true_eq, and_assoc, or_assoc]

theorem State.badSize_write (s : State) (m : Master) (off : Nat) :
    s.badSize m off true = s.logEvent Ev.REG_ACCESS_SIZE (matrixNo m) (leBytes 4 off) := rfl

theorem State.badSize_read (s : State) (m : Master) (off : Nat) : s.badSize m off false =
    (s.logEvent Ev.REG_ACCESS_SIZE (matrixNo m) (leBytes 4 off)).setRdata m 0xFFFFFFFF#32 := rfl

/-- An access of a size the register space takes is no wrong one. -/
theorem execRegAccessSize_of_sizeOk {m : Master} {off : BitVec 26} {n : Nat} {w : Bool} (s : State)
    (h : sizeOk m off.toNat n w = true) : execRegAccessSize m off n w s = .next s := by
  rw [execRegAccessSize, if_pos h]

theorem execRegAccessSize_of_not_sizeOk {m : Master} {off : BitVec 26} {n : Nat} {w : Bool} (s : State)
    (h : ¬ sizeOk m off.toNat n w = true) : execRegAccessSize m off n w s = .next (s.badSize m off.toNat w) := by
  rw [execRegAccessSize, if_neg h]

-- Where a bus access goes ---------------------------------------------------------------------------------------

theorem State.busWrite_of_misaligned (s : State) (m : Master) {off : Nat} (v : Word) (h : off % 4 ≠ 0) :
    s.busWrite m off v = s.badSize m off true := if_pos h

theorem State.busRead_of_misaligned (s : State) (m : Master) {off : Nat} (h : off % 4 ≠ 0) :
    s.busRead m off = s.badSize m off false := if_pos h

/-- An aligned write below the window range is a register write. -/
theorem State.busWrite_of_aligned (s : State) (m : Master) {off : Nat} (v : Word) (h : off % 4 = 0) (hw : off < 0x1000000) :
    s.busWrite m off v = s.writeReg m off v := by
  rw [State.busWrite, if_neg (not_not.mpr h), if_neg (by omega)]

/-- An aligned read below the window range is a register read. -/
theorem State.busRead_of_aligned (s : State) (m : Master) {off : Nat} (h : off % 4 = 0) (hw : off < 0x1000000) :
    s.busRead m off = s.readReg m off := by
  rw [State.busRead, if_neg (not_not.mpr h), if_neg (by omega)]

-- Writes by code ------------------------------------------------------------------------------------------------

/-- Replacing the low `k` bits under a mask stores the field of those bits. -/
theorem maskIn_low (w v : Word) (k : Nat) :
    maskIn w v (2 ^ k - 1) = BitVec.ofNat 32 (putBits w.toNat 0 k v.toNat) := by
  have hput : putBits w.toNat 0 k v.toNat = 2 ^ k * (w.toNat / 2 ^ k) + v.toNat % 2 ^ k := by
    rw [putBits_eq]; simp [Nat.mod_one, Nat.add_comm]
  apply BitVec.eq_of_getLsbD_eq
  intro i hi
  rw [hput, BitVec.getLsbD_ofNat, Nat.testBit_two_pow_mul_add _ (Nat.mod_lt _ (Nat.two_pow_pos k))]
  simp only [maskIn, BitVec.getLsbD_or, BitVec.getLsbD_and, BitVec.getLsbD_not, BitVec.getLsbD_ofNat,
    Nat.testBit_two_pow_sub_one, Nat.testBit_div_two_pow, Nat.testBit_mod_two_pow]
  by_cases h : i < k
  · simp [hi, h, BitVec.getLsbD]
  · simp [hi, h, BitVec.getLsbD, Nat.sub_add_cancel (Nat.le_of_not_lt h)]

/-- Where no register stands a write changes nothing (R497). -/
theorem State.writeByCode_of_no_row (s : State) {off : Nat} (v : Word) (h : regRow off = none) : s.writeByCode off v = s := by
  rw [State.writeByCode, h]

/-- A register whose only writable bits are one RW field from bit 0 up stores that field. -/
theorem State.writeByCode_of_low_field (s : State) (f : Fld) (v : Word) {r : RegRow} (hr : regRow f.reg = some r)
    (hrw : r.rw = 2 ^ f.width - 1) (hc : r.w1c = 0) (hk : r.wk = 0) (hlo : f.lo = 0) :
    s.writeByCode f.reg v = s.setFld f v.toNat := by
  have hkeep (w : Word) : w &&& ~~~(v &&& 0#32) = w := by
    rw [BitVec.and_zero, BitVec.not_zero, BitVec.and_allOnes]
  simp only [State.writeByCode, hr, hrw, hc, hk, hkeep, maskIn_low, State.setFld, hlo, if_true]

theorem State.writeReg_REF_SLOPE (s : State) (m : Master) (v : Word) :
    s.writeReg m R.REF_SLOPE v = s.setFld F.REF_SLOPE_SLOPE v.toNat := by
  have hgo : s.writeReg m R.REF_SLOPE v = s.writeByCode F.REF_SLOPE_SLOPE.reg v := rfl
  rw [hgo]
  exact State.writeByCode_of_low_field s F.REF_SLOPE_SLOPE v (r := ⟨0x480008, 1, 0x4, 0x4b, 0x3fff, 0x0, 0x0, 0x0, 0x0⟩)
    (by decide) (by decide) rfl rfl rfl

-- Reads ---------------------------------------------------------------------------------------------------------

/-- HIF_DMA_FAULTS is read-clear in every bit (R9): the word goes to the master, and 0 stays. -/
theorem State.readReg_HIF_DMA_FAULTS (s : State) (m : Master) :
    s.readReg m R.HIF_DMA_FAULTS = (s.setReg R.HIF_DMA_FAULTS 0).setRdata m (s.reg R.HIF_DMA_FAULTS) := by
  have hclear : s.reg R.HIF_DMA_FAULTS &&& ~~~(BitVec.ofNat 32 0xffffffff) = 0 := by simp
  rw [← hclear]
  rfl

-- The first offset past the loops and patterns ------------------------------------------------------------------

theorem regRow_past_test : regRow 0xA00000 = none := by decide

theorem State.writeReg_past_test (s : State) (m : Master) (v : Word) : s.writeReg m 0xA00000 v = s := by
  have hgo : s.writeReg m 0xA00000 v = s.writeByCode 0xA00000 v := rfl
  rw [hgo, State.writeByCode_of_no_row s v regRow_past_test]

theorem State.readReg_past_test (s : State) (m : Master) : s.readReg m 0xA00000 = s.setRdata m 0 := rfl

/-- Settles O16: each clause is the law of the bus at its offset, or of `sizeOk` at its size. -/
theorem busAccess : Obligations.BusAccess := by
  unfold Obligations.BusAccess
  intro m s
  refine ⟨fun v => ?_, ?_, fun v => ?_, ?_, fun off v h => ?_, fun off h => ?_, fun off n h0 h4 h8 => ?_, fun off w h => ?_,
    fun off w h hr => ?_, fun off => ?_⟩
  · refine ⟨s.setFld F.REF_SLOPE_SLOPE v.toNat, ?_, State.fld_setFld_same _ _ _ (by decide),
      (OnlyFields.refl _ s).setFld _ _ (by simp)⟩
    rw [exec_registerWrite, execRegisterWrite]
    exact congrArg _ ((s.busWrite_of_aligned m v (by decide) (by decide)).trans (s.writeReg_REF_SLOPE m v))
  · refine ⟨(s.setReg R.HIF_DMA_FAULTS 0).setRdata m (s.reg R.HIF_DMA_FAULTS), ?_, by simp, by simp, fun o ho => ?_, rfl⟩
    · rw [exec_readClear, execReadClear]
      exact congrArg _ ((s.busRead_of_aligned m (by decide) (by decide)).trans (s.readReg_HIF_DMA_FAULTS m))
    · rw [State.reg_setRdata, State.reg_setReg_ne _ _ _ _ ho.symm]
  · rw [exec_registerWrite, execRegisterWrite]
    exact congrArg _ ((s.busWrite_of_aligned m v (by decide) (by decide)).trans (s.writeReg_past_test m v))
  · rw [exec_readClear, execReadClear]
    exact congrArg _ ((s.busRead_of_aligned m (by decide) (by decide)).trans (s.readReg_past_test m))
  · rw [exec_registerWrite, execRegisterWrite, State.busWrite_of_misaligned s m v h, State.badSize_write]
  · rw [exec_readClear, execReadClear, State.busRead_of_misaligned s m h, State.badSize_read]
  · have hbad : ∀ w, ¬ sizeOk m off.toNat n w = true := by
      intro w hok
      rcases (sizeOk_iff ..).mp hok with ⟨hn, ha⟩ | ⟨hn, -⟩ | ⟨hn, ha, hm, hr⟩
      · exact h4 hn ha
      · exact h0 hn
      · rcases h8 hn with hm' | ha' | hr'
        · exact hm' hm
        · exact ha' ha
        · exact hr' hr
    simp only [exec_regAccessSize, execRegAccessSize_of_not_sizeOk s (hbad _), State.badSize_write, State.badSize_read,
      and_self]
  · exact execRegAccessSize_of_sizeOk s ((sizeOk_iff ..).mpr (.inl ⟨rfl, h⟩))
  · exact execRegAccessSize_of_sizeOk s ((sizeOk_iff ..).mpr (.inr (.inr ⟨rfl, h, rfl, hr⟩)))
  · exact execRegAccessSize_of_sizeOk s ((sizeOk_iff ..).mpr (.inr (.inl ⟨rfl, rfl⟩)))

end Sys2Proof.Machine
end

section
/-!
PROOFS. The clock inputs (O21): what the loss and the return of a REFCLK input and of XO_IN do, said once for either input
(spec 01 R20, R21).
-/
namespace Sys2Proof.Machine
open Sys2Proof

-- The reference inputs ------------------------------------------------------------------------------------------

/-- Whether a reference input is good; `true` names REFCLK_B, as in the rows of R20. -/
def Gctl.refGood (g : Gctl) : Bool → Bool
  | false => g.refA
  | true => g.refB

/-- The inputs after one of them has failed or returned. -/
def Gctl.setRef (g : Gctl) (inputB good : Bool) : Gctl :=
  match inputB with
  | false => { g with refA := good }
  | true => { g with refB := good }

/-- One input has returned and is logged with its number. -/
def State.refReturns (s : State) (inputB : Bool) : State :=
  (s.updGctl fun g => g.setRef inputB true).logEvent Ev.REFCLK_RETURN noSource [inputB.toNat]

/-- An input is selected and the switch is logged. -/
def State.refSwitches (s : State) (inputB : Bool) : State :=
  (s.updGctl fun g => { g with refSelB := inputB }).logEvent Ev.REFCLK_SWITCH noSource []

/-- REFCLK_LOST persists only while both inputs are lost (R39). -/
theorem State.causeHolds_refclkLost (s : State) (inputB : Bool) (h : s.gctl.refGood inputB = true) :
    s.causeHolds .refclkLost = false := by
  cases inputB <;> simp_all [Gctl.refGood, State.causeHolds]

-- Failure of a reference input ----------------------------------------------------------------------------------

theorem execRefclkFail_eq (inputB : Bool) (s : State) : execRefclkFail inputB s = .next (
    if s.gctl.refGood inputB = false then s
    else if s.gctl.refGood (!inputB) = false then (s.updGctl fun g => g.setRef inputB false).detect .refclkLost
    else if s.gctl.refSelB = inputB then (s.updGctl fun g => g.setRef inputB false).refSwitches (!inputB)
    else s.updGctl fun g => g.setRef inputB false) := by
  cases inputB <;> simp [execRefclkFail, Gctl.refGood, Gctl.setRef, State.refSwitches]

section
variable {inputB : Bool} {s : State} (hgood : s.gctl.refGood inputB = true)
include hgood

/-- The failure of the last good input is the cause REFCLK_LOST. -/
theorem execRefclkFail_last (hother : s.gctl.refGood (!inputB) = false) :
    execRefclkFail inputB s = .next ((s.updGctl fun g => g.setRef inputB false).detect .refclkLost) := by
  rw [execRefclkFail_eq, if_neg (by simp [hgood]), if_pos hother]

/-- The failure of the selected input selects the other one, which is good. -/
theorem execRefclkFail_selected (hother : s.gctl.refGood (!inputB) = true) (hsel : s.gctl.refSelB = inputB) :
    execRefclkFail inputB s = .next ((s.updGctl fun g => g.setRef inputB false).refSwitches (!inputB)) := by
  rw [execRefclkFail_eq, if_neg (by simp [hgood]), if_neg (by simp [hother]), if_pos hsel]

/-- The failure of the input that is not selected leaves the selection as it is. -/
theorem execRefclkFail_unselected (hother : s.gctl.refGood (!inputB) = true) (hsel : s.gctl.refSelB ≠ inputB) :
    execRefclkFail inputB s = .next (s.updGctl fun g => g.setRef inputB false) := by
  rw [execRefclkFail_eq, if_neg (by simp [hgood]), if_neg (by simp [hother]), if_neg hsel]

end

-- Return of a reference input -----------------------------------------------------------------------------------

/-- A returning input whose other input is good does not change the selection. -/
theorem execRefclkReturn_beside_good {inputB : Bool} {s : State} (hlost : s.gctl.refGood inputB = false)
    (hother : s.gctl.refGood (!inputB) = true) : execRefclkReturn inputB false s = .next (s.refReturns inputB) := by
  cases inputB <;> simp_all [execRefclkReturn, Gctl.refGood, Gctl.setRef, State.refReturns]

/-- Where both inputs had failed, the one that returns is selected. -/
theorem execRefclkReturn_alone {inputB : Bool} {s : State} (hlost : ∀ b, s.gctl.refGood b = false) :
    execRefclkReturn inputB false s = .next ((s.refReturns inputB).refSwitches inputB) := by
  have hA : s.gctl.refA = false := hlost false
  have hB : s.gctl.refB = false := hlost true
  cases inputB <;> simp [execRefclkReturn, hA, hB, Gctl.setRef, State.refReturns, State.refSwitches]

/-- Where both inputs return together, each return is logged and REFCLK_A is selected. -/
theorem execRefclkReturn_both {inputB : Bool} {s : State} (hlost : ∀ b, s.gctl.refGood b = false) :
    execRefclkReturn inputB true s = .next (((s.refReturns false).refReturns true).refSwitches false) := by
  have hA : s.gctl.refA = false := hlost false
  have hB : s.gctl.refB = false := hlost true
  simp [execRefclkReturn, hA, hB, Gctl.setRef, State.refReturns, State.refSwitches]

-- XO_IN ---------------------------------------------------------------------------------------------------------

theorem execXoLost_of_good {s : State} (h : s.gctl.xoGood = true) : execXoLost s =
    .next ((((s.updGctl fun g => { g with xoGood := false }).setFlag F.TIME_STATE_XO_SYNTH true).setFlag
      F.REF_HO_STAT_MODEL_UNAVAILABLE true).logEvent Ev.XO_LOST noSource []) := by
  rw [execXoLost, if_neg (by simp [h])]

/-- XO_IN is lost once. -/
theorem execXoLost_of_lost {s : State} (h : s.gctl.xoGood = false) : execXoLost s = .next s := by
  rw [execXoLost, if_pos (by simp [h])]

theorem execXoReturn_of_lost {s : State} (h : s.gctl.xoGood = false) : execXoReturn s =
    .next ((((s.updGctl fun g => { g with xoGood := true }).setFlag F.TIME_STATE_XO_SYNTH false).setFlag
      F.REF_HO_STAT_MODEL_UNAVAILABLE false).refreshHold.logEvent Ev.XO_RETURN noSource []) := by
  rw [execXoReturn, if_neg (by simp [h])]

/-- XO_IN that is good does not return. -/
theorem execXoReturn_of_good {s : State} (h : s.gctl.xoGood = true) : execXoReturn s = .next s := by
  rw [execXoReturn, if_pos h]

/-- Settles O21: each clause is the law of its row for REFCLK_A or for REFCLK_B, or a law of XO_IN. -/
theorem platformClocks : Obligations.PlatformClocks := by
  unfold Obligations.PlatformClocks
  intro s
  have hnone (hA : s.gctl.refA = false) (hB : s.gctl.refB = false) (b : Bool) : s.gctl.refGood b = false := by
    cases b
    · exact hA
    · exact hB
  refine ⟨fun hA hB hsel => ?failA_selected, fun hA hB hsel => ?failB_unselected, fun hA hB hsel => ?failB_selected,
    fun hA hB hsel => ?failA_unselected, fun hA hB => ?failB_last, fun hA hB => ?returnB, fun hA hB => ?returnA_alone,
    fun b hA hB => ?return_both, fun h => ?cause, fun hA hB => ?failA_last, fun hA hB => ?returnA,
    fun hA hB => ?returnB_alone, execXoLost_of_good, execXoReturn_of_lost, execXoLost_of_lost, execXoReturn_of_good⟩
  case failA_selected => exact execRefclkFail_selected (inputB := false) hA hB hsel
  case failB_unselected => exact execRefclkFail_unselected (inputB := true) hB hA (by simp [hsel])
  case failB_selected => exact execRefclkFail_selected (inputB := true) hB hA hsel
  case failA_unselected => exact execRefclkFail_unselected (inputB := false) hA hB (by simp [hsel])
  case failB_last => exact execRefclkFail_last (inputB := true) hB hA
  case returnB => exact execRefclkReturn_beside_good (inputB := true) hB hA
  case returnA_alone => exact execRefclkReturn_alone (inputB := false) (hnone hA hB)
  case return_both => exact execRefclkReturn_both (inputB := b) (hnone hA hB)
  case cause =>
    rcases h with hA | hB
    · exact s.causeHolds_refclkLost false hA
    · exact s.causeHolds_refclkLost true hB
  case failA_last => exact execRefclkFail_last (inputB := false) hA hB
  case returnA => exact execRefclkReturn_beside_good (inputB := false) hA hB
  case returnB_alone => exact execRefclkReturn_alone (inputB := true) (hnone hA hB)

end Sys2Proof.Machine
end

section
/-!
PROOFS. The host commands whose effect is immediate (O11): NOP, REF_FORCE, FACET_REINSTATE and FENCE, each as one law of a command
that may start (spec 12 R356, R370, R375, R381).
-/
namespace Sys2Proof.Machine
open Sys2Proof

-- Parameters ----------------------------------------------------------------------------------------------------

theorem leNat_lt (bs : List Byte) : leNat bs < 256 ^ bs.length := by
  induction bs with
  | nil => exact Nat.one_pos
  | cons b bs ih =>
    have hb : b.toNat < 256 := b.isLt
    rw [leNat, List.length_cons, Nat.pow_succ]
    omega

theorem Handle.param_lt (e : Handle) (off k : Nat) : e.param off k < 256 ^ k := by
  simpa [Handle.param, leAt, bytesAt] using leNat_lt (bytesAt e.params off k)

-- What a started command reads ------------------------------------------------------------------------------------

@[simp] theorem State.begun_role (s : State) (h : Word) (e : Handle) : (s.begun h e).role = s.role :=
  s.begun_fld h e _ (by decide)

@[simp] theorem State.begun_fenced (s : State) (h : Word) (e : Handle) : (s.begun h e).fenced = s.fenced :=
  s.begun_flag h e _ (by decide)

/-- The registers of the facets that two bytes can name lie below PAIR_CONT_STAT, which alone may change at the start. -/
theorem State.begun_facetState (s : State) (h : Word) (e : Handle) {f : Nat} (hf : f < 256 ^ 2) :
    (s.begun h e).facetState f = s.facetState f := by
  refine s.begun_fld h e _ (decide_eq_true (.inl ?_))
  simp only [F.PAIR_CONT_STAT_OUTSTANDING, F.SSW_FACET_STATE, R.PAIR_CONT_STAT, R.SSW_FACET]
  omega

-- The force fields ----------------------------------------------------------------------------------------------

/-- REF_CTL with the force fields of a mode of R370. -/
def State.writeForce (s : State) (mode cand : Nat) : State :=
  let s := s.setFlag F.REF_CTL_FORCE_HO (mode == 2)
  let s := if mode = 2 then s else s.setFlag F.REF_CTL_FORCE_EN (mode == 1)
  if mode = 1 then s.setFld F.REF_CTL_FORCE_CAND cand else s

theorem State.writeForce_release (s : State) (cand : Nat) : s.writeForce 0 cand =
    (s.setFlag F.REF_CTL_FORCE_HO false).setFlag F.REF_CTL_FORCE_EN false := rfl

theorem State.writeForce_candidate (s : State) (cand : Nat) : s.writeForce 1 cand =
    ((s.setFlag F.REF_CTL_FORCE_HO false).setFlag F.REF_CTL_FORCE_EN true).setFld F.REF_CTL_FORCE_CAND cand := rfl

theorem State.writeForce_holdover (s : State) (cand : Nat) : s.writeForce 2 cand = s.setFlag F.REF_CTL_FORCE_HO true := rfl

theorem State.writeForce_onlyFields (s : State) (mode cand : Nat) :
    OnlyFields [F.REF_CTL_FORCE_HO, F.REF_CTL_FORCE_EN, F.REF_CTL_FORCE_CAND] s (s.writeForce mode cand) := by
  have hHo := (OnlyFields.refl [F.REF_CTL_FORCE_HO, F.REF_CTL_FORCE_EN, F.REF_CTL_FORCE_CAND] s).setFlag
    F.REF_CTL_FORCE_HO (mode == 2) (by simp)
  unfold State.writeForce
  by_cases h2 : mode = 2
  · simpa [h2] using hHo
  · have hEn := hHo.setFlag F.REF_CTL_FORCE_EN (mode == 1) (by simp)
    by_cases h1 : mode = 1
    · simpa [h1] using hEn.setFld F.REF_CTL_FORCE_CAND cand (by simp)
    · simpa [h1, h2] using hEn

@[simp] theorem State.writeForce_role (s : State) (mode cand : Nat) : (s.writeForce mode cand).role = s.role :=
  (s.writeForce_onlyFields mode cand).2 F.PAIR_STATE_ROLE (by decide)

-- The commands --------------------------------------------------------------------------------------------------

section
variable {s : State} {h : Word} {e : Handle}

theorem execNop_of_runs (hr : Runs s Op.NOP h e []) :
    execNop h s = .next ((s.begun h e).finish e.handle Out.OK 0 0) := by
  rw [execNop, State.run_of_runs hr]

/-- The role decides only the status: the fields are written in every role (R370). -/
theorem execRefForce_of_runs (hr : Runs s Op.REF_FORCE h e []) :
    execRefForce h s = .next (((s.begun h e).writeForce (e.param 0 1) (e.param 1 1)).finish e.handle Out.OK
      (if s.role = 1 ∨ s.role = 2 then St.FORCE_IGNORED else 0) 0) := by
  rw [execRefForce, State.run_of_runs hr, ← s.begun_role h e,
    ← (s.begun h e).writeForce_role (e.param 0 1) (e.param 1 1)]
  rfl

theorem execFacetReinstate_of_runs (hr : Runs s Op.FACET_REINSTATE h e []) :
    execFacetReinstate h s = .next (if s.facetState (e.param 0 2) ≠ 5 then (s.begun h e).fail e.handle St.FACET_STATE 0
      else ((s.begun h e).setFacet (e.param 0 2) 2 0).finish e.handle Out.OK 0 0) := by
  rw [execFacetReinstate, State.run_of_runs hr, ← s.begun_facetState h e (e.param_lt 0 2)]

theorem execFence_of_runs (hr : Runs s Op.FENCE h e []) :
    execFence h s = .next (if s.fenced then ((s.begun h e).detect .command).finish e.handle Out.OK 0 s.reelSeq
      else (s.begun h e).detect .command) := by
  rw [execFence, State.run_of_runs hr, ← s.begun_fenced h e, ← s.begun_reelSeq h e]
  rfl

end

/-- Settles O11: each clause is the law of its command, in the mode or the state the clause names. -/
theorem hostImmediate : Obligations.HostImmediate := by
  unfold Obligations.HostImmediate
  intro s h e
  refine ⟨fun hr => ?nop, fun hr => ⟨fun hm => ?release, fun hm => ?candidate, fun hm => ?holdover⟩,
    fun hr hf => ?reinstated, fun hr hf => ?not_reinstatable, fun hr hf => ?fence, fun hr hf => ?fence_again⟩
  case nop => exact execNop_of_runs hr
  case release => rw [exec_refForce, execRefForce_of_runs hr, hm, State.writeForce_release]
  case candidate => rw [exec_refForce, execRefForce_of_runs hr, hm, State.writeForce_candidate]
  case holdover => rw [exec_refForce, execRefForce_of_runs hr, hm, State.writeForce_holdover]
  case reinstated => rw [exec_facetReinstate, execFacetReinstate_of_runs hr, if_neg (not_not_intro hf)]
  case not_reinstatable => rw [exec_facetReinstate, execFacetReinstate_of_runs hr, if_pos hf]
  case fence => rw [exec_fence, execFence_of_runs hr, hf, if_neg Bool.false_ne_true]
  case fence_again => rw [exec_fence, execFence_of_runs hr, hf, if_pos rfl]

end Sys2Proof.Machine
end

section
/-!
PROOFS. The machine as a whole (O1 to O5): a step is the front command's meaning; every meaning answers a next state and keeps what
`Keeps` names, so that every step does; and the reset state.
-/
namespace Sys2Proof.Machine
open Sys2Proof

-- Every command answers -------------------------------------------------------------------------------------------

/-- The outcome is a next state. -/
def Answers (o : Host.Outcome State Fault Refusal) : Prop := ∃ t, o = .next t

theorem Answers.next (t : State) : Answers (.next t) := ⟨t, rfl⟩

theorem Answers.ite {c : Prop} [Decidable c] {a b : Host.Outcome State Fault Refusal} (ha : Answers a) (hb : Answers b) :
    Answers (if c then a else b) := by
  split <;> assumption

/-- Most meanings are one next state, written out; the others choose between several by conditions of the state. -/
theorem exec_answers (c : Instr) (s : State) : Answers (exec c s) := by
  cases c
  any_goals exact ⟨_, rfl⟩
  any_goals (repeat' first | exact ⟨_, rfl⟩ | apply Answers.ite); done
  case blockHeader =>
    rw [exec_blockHeader, execBlockHeader.eq_def]
    repeat' first | with_reducible apply Answers.next | with_reducible apply Answers.ite | extract_lets | split
  case reelControl =>
    rw [exec_reelControl, execReelControl.eq_def]
    repeat' first | with_reducible apply Answers.next | with_reducible apply Answers.ite | extract_lets | split
  case timingWords =>
    rw [exec_timingWords, execTimingWords.eq_def]
    dsimp only
    repeat' first | exact ⟨_, rfl⟩ | with_reducible apply Answers.ite | split
  case claimAndWitnessWords =>
    rw [exec_claimAndWitnessWords, execClaimAndWitnessWords.eq_def]
    repeat' first | with_reducible apply Answers.next | with_reducible apply Answers.ite | extract_lets | split
  case defectReport =>
    rw [exec_defectReport, execDefectReport.eq_def]
    repeat' first | with_reducible apply Answers.next | with_reducible apply Answers.ite | extract_lets | split
  case cmcSlice =>
    rw [exec_cmcSlice, execCmcSlice.eq_def]
    repeat' first | with_reducible apply Answers.next | with_reducible apply Answers.ite | extract_lets | split
  case arrivalMean =>
    rw [exec_arrivalMean, execArrivalMean.eq_def]
    repeat' first | with_reducible apply Answers.next | with_reducible apply Answers.ite | extract_lets | split
  case compileDone =>
    rw [exec_compileDone, execCompileDone.eq_def]
    repeat' first | with_reducible apply Answers.next | with_reducible apply Answers.ite | extract_lets | split
  case takeover =>
    rw [exec_takeover, execTakeover.eq_def]
    repeat' first | with_reducible apply Answers.next | with_reducible apply Answers.ite | extract_lets | split
  case orderTimeout =>
    rw [exec_orderTimeout, execOrderTimeout.eq_def]
    repeat' first | with_reducible apply Answers.next | with_reducible apply Answers.ite | extract_lets | split
  case stepConfirm =>
    rw [exec_stepConfirm, execStepConfirm.eq_def]
    repeat' first | with_reducible apply Answers.next | with_reducible apply Answers.ite | extract_lets | split
  case asymSuspect =>
    rw [exec_asymSuspect, execAsymSuspect.eq_def]
    repeat' first | with_reducible apply Answers.next | with_reducible apply Answers.ite | extract_lets | split
  case todMessage =>
    rw [exec_todMessage, execTodMessage.eq_def]
    repeat' first | with_reducible apply Answers.next | with_reducible apply Answers.ite | extract_lets | split
  case vectorFetch =>
    rw [exec_vectorFetch, execVectorFetch.eq_def]
    repeat' first | with_reducible apply Answers.next | with_reducible apply Answers.ite | extract_lets | split
  case counterWrite =>
    rw [exec_counterWrite, execCounterWrite.eq_def]
    repeat' first | with_reducible apply Answers.next | with_reducible apply Answers.ite | extract_lets | split

/-- Settles O2. -/
theorem everyCommandCompletes : Obligations.EveryCommandCompletes := exec_answers

-- Every command keeps ---------------------------------------------------------------------------------------------

/-- Every command keeps what no command may undo, by the law of its meaning. -/
theorem exec_keeps {s0 s : State} (h : Keeps s0 s) (c : Instr) : OutKeeps s0 (exec c s) := by
  cases c with
  | nop k => exact execNop_keeps h k
  | laneTrace k sg obj => exact execLaneTrace_keeps h k sg obj
  | laneCmc k => exact execLaneCmc_keeps h k
  | circSet k => exact execCircSet_keeps h k
  | mergeReanchor k => exact execMergeReanchor_keeps h k
  | takeCompile k sg obj => exact execTakeCompile_keeps h k sg obj
  | takeIncrement k sg obj => exact execTakeIncrement_keeps h k sg obj
  | takeDiscard k => exact execTakeDiscard_keeps h k
  | takeSplice k => exact execTakeSplice_keeps h k
  | spliceCancel k => exact execSpliceCancel_keeps h k
  | reportTake k sg => exact execReportTake_keeps h k sg
  | dailies k sg => exact execDailies_keeps h k sg
  | refForce k => exact execRefForce_keeps h k
  | refSeed k sg obj => exact execRefSeed_keeps h k sg obj
  | pairJoin k => exact execPairJoin_keeps h k
  | pairHandover k => exact execPairHandover_keeps h k
  | pairSolo k => exact execPairSolo_keeps h k
  | fence k => exact execFence_keeps h k
  | cmcSend k sg obj => exact execCmcSend_keeps h k sg obj
  | logRead k sg => exact execLogRead_keeps h k sg
  | fwStage k sg obj flashOk => exact execFwStage_keeps h k sg obj flashOk
  | fwActivate k bursts => exact execFwActivate_keeps h k bursts
  | facetRetire k => exact execFacetRetire_keeps h k
  | facetReinstate k => exact execFacetReinstate_keeps h k
  | eyeHistogram k sg obj => exact execEyeHistogram_keeps h k sg obj
  | registerWrite m off v => exact execRegisterWrite_keeps h m off v
  | readClear m off => exact execReadClear_keeps h m off
  | regAccessSize m off bytes write => exact execRegAccessSize_keeps h m off bytes write
  | keyWrite b v => exact execKeyWrite_keeps h b v
  | keyTimeout b => exact execKeyTimeout_keeps h b
  | gctlAlive v => exact execGctlAlive_keeps h v
  | fenceReq v => exact execFenceReq_keeps h v
  | flywheel => exact execFlywheel_keeps h
  | flywheelTimeout => exact execFlywheelTimeout_keeps h
  | fenceTakesEffect => exact execFenceTakesEffect_keeps h
  | internalLink => exact execInternalLink_keeps h
  | porstNAssert => exact execPorstNAssert_keeps h
  | porstNRelease straps tamperLow => exact execPorstNRelease_keeps h straps tamperLow
  | startupFacetTest failed => exact execStartupFacetTest_keeps h failed
  | sramStartupTest bad => exact execSramStartupTest_keeps h bad
  | bootImageChoice => exact execBootImageChoice_keeps h
  | refclkFail inputB => exact execRefclkFail_keeps h inputB
  | refclkReturn inputB both => exact execRefclkReturn_keeps h inputB both
  | xoLost => exact execXoLost_keeps h
  | xoReturn => exact execXoReturn_keeps h
  | tamper => exact execTamper_keeps h
  | zeroisationEnd ok => exact execZeroisationEnd_keeps h ok
  | sensorSample temps volts currs => exact execSensorSample_keeps h temps volts currs
  | thermalWarnClear => exact execThermalWarnClear_keeps h
  | voltageAlarmClear n => exact execVoltageAlarmClear_keeps h n
  | localReelBoundary => exact execLocalReelBoundary_keeps h
  | coreReelStart errors => exact execCoreReelStart_keeps h errors
  | reelSlip n fast => exact execReelSlip_keeps h n fast
  | signalLoss n mv sinceSnapNs => exact execSignalLoss_keeps h n mv sinceSnapNs
  | signalReturn n mv => exact execSignalReturn_keeps h n mv
  | los n mv => exact execLos_keeps h n mv
  | losClear n mv => exact execLosClear_keeps h n mv
  | lol n ppm badPhase samples => exact execLol_keeps h n ppm badPhase samples
  | lolClear n ppm badPhase samples => exact execLolClear_keeps h n ppm badPhase samples
  | fastConvergeEnd n => exact execFastConvergeEnd_keeps h n
  | freeze n w => exact execFreeze_keeps h n w
  | freezeEnd n w => exact execFreezeEnd_keeps h n w
  | tapSnapshot n w lms => exact execTapSnapshot_keeps h n w lms
  | laneFofs n mean lolSeen => exact execLaneFofs_keeps h n mean lolSeen
  | laneCtlWrite n v => exact execLaneCtlWrite_keeps h n v
  | transmitterStop n => exact execTransmitterStop_keeps h n
  | transmitterStart n => exact execTransmitterStart_keeps h n
  | receiverStopDone n => exact execReceiverStopDone_keeps h n
  | receiverStart n t => exact execReceiverStart_keeps h n t
  | laneTxFfeWrite n v => exact execLaneTxFfeWrite_keeps h n v
  | laneTapLoad n v => exact execLaneTapLoad_keeps h n v
  | pathDelayUpdate snr => exact execPathDelayUpdate_keeps h snr
  | blockHeader n hdr prev offset => exact execBlockHeader_keeps h n hdr prev offset
  | blockDecode n raw prev => exact execBlockDecode_keeps h n raw prev
  | reelControl n arrival => exact execReelControl_keeps h n arrival
  | reelSyncTimeout n => exact execReelSyncTimeout_keeps h n
  | barExpiry n => exact execBarExpiry_keeps h n
  | defectWindowEnd n => exact execDefectWindowEnd_keeps h n
  | timingWords n => exact execTimingWords_keeps h n
  | claimAndWitnessWords n => exact execClaimAndWitnessWords_keeps h n
  | defectReport n => exact execDefectReport_keeps h n
  | cmcSlice n => exact execCmcSlice_keeps h n
  | cmcBufferHold => exact execCmcBufferHold_keeps h
  | laneTimCtlWrite n v => exact execLaneTimCtlWrite_keeps h n v
  | laneThresholdWrite n off v => exact execLaneThresholdWrite_keeps h n off v
  | steerRequest n => exact execSteerRequest_keeps h n
  | steerFailed n => exact execSteerFailed_keeps h n
  | arrivalMean n => exact execArrivalMean_keeps h n
  | splice => exact execSplice_keeps h
  | seamReelEnd => exact execSeamReelEnd_keeps h
  | resyncDone uncorrectable => exact execResyncDone_keeps h uncorrectable
  | compileStart => exact execCompileStart_keeps h
  | compileDone time collided => exact execCompileDone_keeps h time collided
  | repairPassDone time => exact execRepairPassDone_keeps h time
  | spliceArm => exact execSpliceArm_keeps h
  | spliceCtlCancel => exact execSpliceCtlCancel_keeps h
  | sswFacetBar f => exact execSswFacetBar_keeps h f
  | facetErrorWindow => exact execFacetErrorWindow_keeps h
  | facetTestPass f failed => exact execFacetTestPass_keeps h f failed
  | facetReinstatable f => exact execFacetReinstatable_keeps h f
  | effectReel => exact execEffectReel_keeps h
  | dailiesBoundary => exact execDailiesBoundary_keeps h
  | periodicCapture => exact execPeriodicCapture_keeps h
  | deferredCapture => exact execDeferredCapture_keeps h
  | captureCopyDone => exact execCaptureCopyDone_keeps h
  | release => exact execRelease_keeps h
  | yield => exact execYield_keeps h
  | takeover => exact execTakeover_keeps h
  | heartbeatFrame f => exact execHeartbeatFrame_keeps h f
  | heartbeatAbsent => exact execHeartbeatAbsent_keeps h
  | authHello w => exact execAuthHello_keeps h w
  | authProof w => exact execAuthProof_keeps h w
  | ack w => exact execAck_keeps h w
  | snapBegin w => exact execSnapBegin_keeps h w
  | snapData w => exact execSnapData_keeps h w
  | snapEnd w => exact execSnapEnd_keeps h w
  | takeImage w => exact execTakeImage_keeps h w
  | takeDelta w => exact execTakeDelta_keeps h w
  | prepared w => exact execPrepared_keeps h w
  | order w => exact execOrder_keeps h w
  | orderAck w => exact execOrderAck_keeps h w
  | takeDiscardRecord w => exact execTakeDiscardRecord_keeps h w
  | journal w => exact execJournal_keeps h w
  | journalApply => exact execJournalApply_keeps h
  | timeAlign w => exact execTimeAlign_keeps h w
  | digest w => exact execDigest_keeps h w
  | digestResult w => exact execDigestResult_keeps h w
  | resyncReq w => exact execResyncReq_keeps h w
  | handle w => exact execHandle_keeps h w
  | handoverReq w => exact execHandoverReq_keeps h w
  | handoverAck w => exact execHandoverAck_keeps h w
  | handoverRefuse w => exact execHandoverRefuse_keeps h w
  | joinReady w => exact execJoinReady_keeps h w
  | eject w => exact execEject_keeps h w
  | pairDigest => exact execPairDigest_keeps h
  | retransmit => exact execRetransmit_keeps h
  | ackInterval => exact execAckInterval_keeps h
  | contStalled => exact execContStalled_keeps h
  | prepareTimeout => exact execPrepareTimeout_keeps h
  | orderTimeout => exact execOrderTimeout_keeps h
  | joinTimeout => exact execJoinTimeout_keeps h
  | joinLockoutEnd => exact execJoinLockoutEnd_keeps h
  | ackLate => exact execAckLate_keeps h
  | takeSplit n => exact execTakeSplit_keeps h n
  | pairProve => exact execPairProve_keeps h
  | stepConfirm => exact execStepConfirm_keeps h
  | timeStep => exact execTimeStep_keeps h
  | timeDiscEnd => exact execTimeDiscEnd_keeps h
  | timeAnchorRead m elapsed => exact execTimeAnchorRead_keeps h m elapsed
  | timingPortFrame frame captured => exact execTimingPortFrame_keeps h frame captured
  | transmitRequest r => exact execTransmitRequest_keeps h r
  | timeTsqPop m => exact execTimeTsqPop_keeps h m
  | asymSuspect n mate => exact execAsymSuspect_keeps h n mate
  | asymClear n => exact execAsymClear_keeps h n
  | suspectClr n => exact execSuspectClr_keeps h n
  | laneTtAsymWrite n v => exact execLaneTtAsymWrite_keeps h n v
  | dpllUpdate freqA freqB => exact execDpllUpdate_keeps h freqA freqB
  | candidateEvaluation => exact execCandidateEvaluation_keeps h
  | candidateLost n => exact execCandidateLost_keeps h n
  | candidateReturn n offset => exact execCandidateReturn_keeps h n offset
  | wtrExpiry n => exact execWtrExpiry_keeps h n
  | selectionChange => exact execSelectionChange_keeps h
  | dissolveEnd => exact execDissolveEnd_keeps h
  | historySample => exact execHistorySample_keeps h
  | holdoverExpired => exact execHoldoverExpired_keeps h
  | refCandnCtlWrite n v => exact execRefCandnCtlWrite_keeps h n v
  | refPtpSample v => exact execRefPtpSample_keeps h v
  | ppsIn b captured highNs => exact execPpsIn_keeps h b captured highNs
  | stormEnd n => exact execStormEnd_keeps h n
  | todMessage b delayUs second => exact execTodMessage_keeps h b delayUs second
  | hifHostKick f => exact execHifHostKick_keeps h f
  | doorbellPoll f => exact execDoorbellPoll_keeps h f
  | handleCloseRefetch f => exact execHandleCloseRefetch_keeps h f
  | heldCompletionWrite k => exact execHeldCompletionWrite_keeps h k
  | coalesceTimeout ring => exact execCoalesceTimeout_keeps h ring
  | eventLost => exact execEventLost_keeps h
  | commandRingEnable n v => exact execCommandRingEnable_keeps h n v
  | commandRingDisable n v => exact execCommandRingDisable_keeps h n v
  | drainEnd n => exact execDrainEnd_keeps h n
  | completionRingEnable k v => exact execCompletionRingEnable_keeps h k v
  | eventRingEnable v => exact execEventRingEnable_keeps h v
  | linkReset perst bursts => exact execLinkReset_keeps h perst bursts
  | returnToD0 => exact execReturnToD0_keeps h
  | cplTimeout k waited obj => exact execCplTimeout_keeps h k waited obj
  | dmaFault k kind obj => exact execDmaFault_keeps h k kind obj
  | stagedPrefixExpiry opcode => exact execStagedPrefixExpiry_keeps h opcode
  | mssRestart m v bursts => exact execMssRestart_keeps h m v bursts
  | core0LeavesReset => exact execCore0LeavesReset_keeps h
  | autoAge bursts => exact execAutoAge_keeps h bursts
  | holdWrite m v bursts => exact execHoldWrite_keeps h m v bursts
  | remapWrite m v => exact execRemapWrite_keeps h m v
  | remapReadback machine => exact execRemapReadback_keeps h machine
  | windowBorrow fault => exact execWindowBorrow_keeps h fault
  | mtestEnWrite v bursts => exact execMtestEnWrite_keeps h v bursts
  | vectorFetch c r => exact execVectorFetch_keeps h c r
  | mret c r => exact execMret_keeps h c r
  | wfi c r => exact execWfi_keeps h c r
  | arm n => exact execArm_keeps h n
  | icSwiSet v => exact execIcSwiSet_keeps h v
  | icHostSet v => exact execIcHostSet_keeps h v
  | counterRead c user k high adv => exact execCounterRead_keeps h c user k high adv
  | counterOverflow c k => exact execCounterOverflow_keeps h c k
  | tagSample c pc latency stall miss user trapped => exact execTagSample_keeps h c pc latency stall miss user trapped
  | mssTagSampleRead m c => exact execMssTagSampleRead_keeps h m c
  | fenceInstruction c => exact execFenceInstruction_keeps h c
  | fenceI c => exact execFenceI_keeps h c
  | lrW c machine addr ecc => exact execLrW_keeps h c machine addr ecc
  | scW c machine addr v => exact execScW_keeps h c machine addr v
  | amo c machine op addr v ecc => exact execAmo_keeps h c machine op addr v ecc
  | lcTransition m v => exact execLcTransition_keeps h m v
  | fuseWriteEnd ok => exact execFuseWriteEnd_keeps h ok
  | owner m => exact execOwner_keeps h m
  | install m => exact execInstall_keeps h m
  | load m => exact execLoad_keeps h m
  | rotate m => exact execRotate_keeps h m
  | clear m => exact execClear_keeps h m
  | zeroiseReq m v => exact execZeroiseReq_keeps h m v
  | confirm m => exact execConfirm_keeps h m
  | raise m v => exact execRaise_keeps h m v
  | gctlDevnumRead m => exact execGctlDevnumRead_keeps h m
  | privateWriteWrite bytes parity => exact execPrivateWriteWrite_keeps h bytes parity
  | setRead off count => exact execSetRead_keeps h off count
  | privateRead => exact execPrivateRead_keeps h
  | hdrDdrWrite code bytes bad => exact execHdrDdrWrite_keeps h code bytes bad
  | hdrDdrRead code bad => exact execHdrDdrRead_keeps h code bad
  | enec enint => exact execEnec_keeps h enint
  | disec enint => exact execDisec_keeps h enint
  | rstdaa => exact execRstdaa_keeps h
  | entdaa addr => exact execEntdaa_keeps h addr
  | setmwl v => exact execSetmwl_keeps h v
  | getmwl => exact execGetmwl_keeps h
  | setmrl v => exact execSetmrl_keeps h v
  | getmrl => exact execGetmrl_keeps h
  | getpid => exact execGetpid_keeps h
  | getbcr => exact execGetbcr_keeps h
  | getdcr => exact execGetdcr_keeps h
  | getstatus => exact execGetstatus_keeps h
  | getmxds => exact execGetmxds_keeps h
  | getcaps => exact execGetcaps_keeps h
  | rstact defining report => exact execRstact_keeps h defining report
  | targetResetPattern bursts => exact execTargetResetPattern_keeps h bursts
  | busAvailableIbi acked => exact execBusAvailableIbi_keeps h acked
  | mbxEnWrite m v => exact execMbxEnWrite_keeps h m v
  | mbxGo m => exact execMbxGo_keeps h m
  | mbxUnitDone m => exact execMbxUnitDone_keeps h m
  | mbxUnitTimeout waitedMs => exact execMbxUnitTimeout_keeps h waitedMs
  | mbxCplRead m k => exact execMbxCplRead_keeps h m k
  | rcvStart m => exact execRcvStart_keeps h m
  | rcvUnitDone m => exact execRcvUnitDone_keeps h m
  | rcvAbort m => exact execRcvAbort_keeps h m
  | rcvVerifyDone flashOk => exact execRcvVerifyDone_keeps h flashOk
  | testLoopWrite n v => exact execTestLoopWrite_keeps h n v
  | loopEnd n overrun => exact execLoopEnd_keeps h n overrun
  | prbsGenEn n v => exact execPrbsGenEn_keeps h n v
  | inject n => exact execInject_keeps h n
  | prbsChkEn n v => exact execPrbsChkEn_keeps h n v
  | checkerClear n => exact execCheckerClear_keeps h n
  | lockLost n bits errs windowErrs => exact execLockLost_keeps h n bits errs windowErrs
  | prbsCountRead m n bits errs => exact execPrbsCountRead_keeps h m n bits errs
  | idcode => exact execIdcode_keeps h
  | sample pins => exact execSample_keeps h pins
  | preload cells => exact execPreload_keeps h cells
  | extest pins => exact execExtest_keeps h pins
  | extestPulse pins => exact execExtestPulse_keeps h pins
  | extestTrain pins => exact execExtestTrain_keeps h pins
  | clamp pins => exact execClamp_keeps h pins
  | highz pins => exact execHighz_keeps h pins
  | ecidcode => exact execEcidcode_keeps h
  | bypass => exact execBypass_keeps h
  | productionTestOpcode op => exact execProductionTestOpcode_keeps h op
  | d3hotEntry => exact execD3hotEntry_keeps h
  | linkUp speed width => exact execLinkUp_keeps h speed width
  | vddIoRemoved => exact execVddIoRemoved_keeps h
  | trapEntry c r cause tval => exact execTrapEntry_keeps h c r cause tval
  | counterWrite c user k part v adv => exact execCounterWrite_keeps h c user k part v adv
  | checkerLocked n => exact execCheckerLocked_keeps h n
  | timingPortBlockLock lock fault => exact execTimingPortBlockLock_keeps h lock fault
  | testLogicReset => exact execTestLogicReset_keeps h

-- Steps -----------------------------------------------------------------------------------------------------------

theorem step_of_pending {s : State} {c : Instr} {rest : List Instr} (h : s.pending = c :: rest) :
    step s = exec c { s with pending := rest } := by
  rw [step, h]

theorem step_of_idle {s : State} (h : s.pending = []) : step s = .next s := by
  rw [step, h]

/-- Settles O1. -/
theorem stepRunsTheFrontCommand : Obligations.StepRunsTheFrontCommand := fun _ => ⟨fun _ _ => step_of_pending, step_of_idle⟩

/-- A step idles, or takes the front command off the queue and keeps the rest of what must be kept. -/
theorem step_keeps {s t : State} (h : step s = .next t) : Keeps { s with pending := s.pending.tail } t := by
  cases hp : s.pending with
  | nil =>
    rw [step_of_idle hp] at h
    cases h
    rw [List.tail_nil, ← hp]
    exact Keeps.refl s
  | cons c rest =>
    rw [step_of_pending hp] at h
    exact exec_keeps (Keeps.refl _) c t h

/-- Settles O3: the queue is no part of the invariant. -/
theorem everyStepKeepsTheInvariant : Obligations.EveryStepKeepsTheInvariant := by
  intro s t h
  have hk := step_keeps h
  exact ⟨hk.inv, hk.pending, hk.free⟩

/-- Settles O4. -/
theorem ownerKeyIsFusedOnce : Obligations.OwnerKeyIsFusedOnce := fun _ _ h => (step_keeps h).owner

-- Reset -----------------------------------------------------------------------------------------------------------

/-- Settles O5. -/
theorem resetState : Obligations.ResetState := by
  unfold Obligations.ResetState
  refine ⟨⟨by decide, by decide⟩, rfl, by decide, by decide, by decide, by decide, rfl, rfl, rfl, rfl, rfl, rfl, rfl, by decide,
    by decide, rfl, by decide⟩

end Sys2Proof.Machine
end

section
/-!
PROOFS. Support: fields that share no bit, said for fields of one lane; and what events, alerts and interrupts change of the
state (`Signals`), so that a proof about a meaning that logs or raises unfolds neither.
-/
namespace Sys2Proof.Machine
open Sys2Proof

-- Outcomes --------------------------------------------------------------------------------------------------------

theorem Completes.intro {c : Instr} {s t : State} {P : State → Prop} (h : exec c s = .next t) (hp : P t) : Completes c s P :=
  ⟨t, h, hp⟩

-- Fields ----------------------------------------------------------------------------------------------------------

/-- Fields of registers at different offsets from one base share no bit. -/
theorem Fld.apart_of_base {f g : Fld} (b c d : Nat) (hf : f.reg = b + c) (hg : g.reg = b + d) (h : Nat.beq c d = false) :
    f.apart g = true := by
  have hcd : c ≠ d := Nat.ne_of_beq_eq_false h
  simp only [Fld.apart, decide_eq_true_eq]
  exact .inl (by omega)

/-- Fields of a register whose bits do not overlap share no bit. -/
theorem Fld.apart_of_bits {f g : Fld}
    (h : (Nat.ble (g.lo + g.width) 32 && (Nat.ble (f.lo + f.width) g.lo || Nat.ble (g.lo + g.width) f.lo)) = true) :
    f.apart g = true := by
  simp only [Bool.and_eq_true, Bool.or_eq_true, Nat.ble_eq] at h
  simp only [Fld.apart, decide_eq_true_eq]
  exact .inr h

theorem Fld.apart_of_reg {f g : Fld} (h : f.reg ≠ g.reg) : f.apart g = true := by
  simp only [Fld.apart, decide_eq_true_eq]
  exact .inl h

/-- A flag written reads back; the hypotheses hold by computation for a field of the map. -/
theorem State.flag_setFlag (s : State) (f : Fld) (b : Bool) (h : Nat.ble (f.lo + 1) 32 = true) (hw : Nat.beq f.width 1 = true) :
    (s.setFlag f b).flag f = b :=
  State.flag_setFlag_same s f b (Nat.le_of_ble_eq_true h) (Nat.eq_of_beq_eq_true hw)

theorem State.fld_setFld (s : State) (f : Fld) (v : Nat) (h : Nat.ble (f.lo + f.width) 32 = true) :
    (s.setFld f v).fld f = v % 2 ^ f.width :=
  State.fld_setFld_same s f v (Nat.le_of_ble_eq_true h)

/-- A number that fits its field reads back as it is. -/
theorem State.fld_setFld_fits (s : State) (f : Fld) (v : Nat) (h : Nat.ble (f.lo + f.width) 32 = true) (hv : v < 2 ^ f.width) :
    (s.setFld f v).fld f = v := by
  rw [State.fld_setFld s f v h, Nat.mod_eq_of_lt hv]

theorem State.fldI_setFld_apart (s : State) (f g : Fld) (v : Nat) (h : f.apart g = true) : (s.setFld f v).fldI g = s.fldI g := by
  unfold State.fldI; rw [State.fld_setFld_apart s f g v h]

theorem State.fld_lt (s : State) (f : Fld) : s.fld f < 2 ^ f.width := Nat.mod_lt _ (Nat.two_pow_pos _)

theorem State.flag_congr {s t : State} {f : Fld} (h : s.fld f = t.fld f) : s.flag f = t.flag f := by
  unfold State.flag; rw [h]

theorem State.flag_eq_false_iff (s : State) (f : Fld) : s.flag f = false ↔ s.fld f = 0 := by simp [State.flag]

/-- Writing a field leaves every other register. -/
theorem State.reg_setFld_ne (s : State) (f : Fld) (v o : Nat) (h : f.reg ≠ o) : (s.setFld f v).reg o = s.reg o :=
  State.reg_setReg_ne s _ _ _ h

theorem State.reg_setFlag_ne (s : State) (f : Fld) (b : Bool) (o : Nat) (h : f.reg ≠ o) : (s.setFlag f b).reg o = s.reg o :=
  State.reg_setFld_ne s f _ o h

/-- The window of a lane lies between the platform's registers and those of the heartbeat. -/
theorem laneBase_bounds (n : LaneNo) : 0x100000 ≤ laneBase n ∧ laneBase n + 0x1000 ≤ 0x182000 := by
  have := n.isLt
  unfold laneBase
  split <;> omega

-- Events, alerts and interrupts -----------------------------------------------------------------------------------

/-- The registers that events, alerts, interrupts and their messages write. -/
def signalReg (o : Nat) : Bool :=
  o == R.GCTL_ALERT_STAT || o == R.HIF_ERR || o == R.I3CT_STAT || o == R.IC_STAT || o == R.MSS_EVQ_STAT
    || decide (0x609000 ≤ o ∧ o < 0x609008) || decide (0x701000 ≤ o ∧ o < 0x702400)

theorem signalReg_lane (n : LaneNo) {c : Nat} (h : Nat.ble 0x1000 c = false) : signalReg (laneBase n + c) = false := by
  have hb := laneBase_bounds n
  have hc : ¬ 0x1000 ≤ c := fun hle => by simp [Nat.ble_eq_true_of_le hle] at h
  simp only [signalReg, R.GCTL_ALERT_STAT, R.HIF_ERR, R.I3CT_STAT, R.IC_STAT, R.MSS_EVQ_STAT, Bool.or_eq_false_iff,
    beq_eq_false_iff_ne, decide_eq_false_iff_not]
  omega

/-- `t` is `s` after events, alerts, interrupts and messages alone: beyond the registers they write, only the event queue and log,
the event ring in host memory, the waiting in-band interrupts, and of the cores whether they sleep and what was last delivered to
them differ. -/
structure Signals (s t : State) : Prop where
  eq : t = { s with regs := t.regs, evq := t.evq, evDropped := t.evDropped, log := t.log, logNext := t.logNext
                    stormEdges := t.stormEdges, hif := t.hif, mss := t.mss, i3c := t.i3c }
  hif : t.hif = { s.hif with hostMem := t.hif.hostMem, evTail := t.hif.evTail, evPhase := t.hif.evPhase
                             evMissed := t.hif.evMissed, evUnsig := t.hif.evUnsig, statusSeq := t.hif.statusSeq
                             msixSent := t.hif.msixSent }
  mss : t.mss = { s.mss with cores := t.mss.cores, lastTo := t.mss.lastTo }
  core : ∀ c, t.core c = { s.core c with wfi := (t.core c).wfi }
  i3c : t.i3c = { s.i3c with ibis := t.i3c.ibis }
  reg : ∀ o, signalReg o = false → t.reg o = s.reg o

theorem Signals.refl (s : State) : Signals s s := ⟨rfl, rfl, rfl, fun _ => rfl, rfl, fun _ _ => rfl⟩

theorem Signals.trans {a b c : State} (h : Signals a b) (k : Signals b c) : Signals a c where
  eq := by rw [k.eq, h.eq]
  hif := by rw [k.hif, h.hif]
  mss := by rw [k.mss, h.mss]
  core n := by rw [k.core, h.core]
  i3c := by rw [k.i3c, h.i3c]
  reg o ho := (k.reg o ho).trans (h.reg o ho)

/-- A write of a field of these registers. -/
theorem Signals.setFld {s t : State} (h : Signals s t) (f : Fld) (v : Nat) (hf : signalReg f.reg = true) :
    Signals s (t.setFld f v) := by
  refine h.trans ⟨rfl, rfl, rfl, fun _ => rfl, rfl, fun o ho => State.reg_setFld_ne t f v o ?_⟩
  rintro rfl
  simp [hf] at ho

theorem Signals.setFlag {s t : State} (h : Signals s t) (f : Fld) (b : Bool) (hf : signalReg f.reg = true) :
    Signals s (t.setFlag f b) := h.setFld f _ hf

theorem Signals.ite {s a b : State} {c : Prop} [Decidable c] (ha : Signals s a) (hb : Signals s b) :
    Signals s (if c then a else b) := by
  split <;> assumption

theorem Signals.when {s t : State} (h : Signals s t) (b : Bool) {f : State → State} (hf : ∀ u, Signals s u → Signals s (f u)) :
    Signals s (t.when b f) := by
  cases b
  · exact h
  · exact hf t h

theorem Signals.fld {s t : State} (h : Signals s t) (g : Fld) (hg : signalReg g.reg = false) : t.fld g = s.fld g := by
  rw [State.fld, h.reg _ hg]; rfl

theorem Signals.flag {s t : State} (h : Signals s t) (g : Fld) (hg : signalReg g.reg = false) : t.flag g = s.flag g :=
  State.flag_congr (h.fld g hg)

theorem Signals.fldI {s t : State} (h : Signals s t) (g : Fld) (hg : signalReg g.reg = false) : t.fldI g = s.fldI g := by
  unfold State.fldI; rw [h.fld g hg]

-- Parts that signals leave

section
variable {s t : State} (h : Signals s t)
include h
theorem Signals.gctl : t.gctl = s.gctl := by rw [h.eq]
theorem Signals.rdata : t.rdata = s.rdata := by rw [h.eq]
theorem Signals.latches : t.latches = s.latches := by rw [h.eq]
theorem Signals.tai : t.tai = s.tai := by rw [h.eq]
theorem Signals.reelSeq : t.reelSeq = s.reelSeq := by rw [h.eq]
theorem Signals.lanes : t.lanes = s.lanes := by rw [h.eq]
theorem Signals.mirror : t.mirror = s.mirror := by rw [h.eq]
theorem Signals.ssw : t.ssw = s.ssw := by rw [h.eq]
theorem Signals.circ : t.circ = s.circ := by rw [h.eq]
theorem Signals.pair : t.pair = s.pair := by rw [h.eq]
theorem Signals.time : t.time = s.time := by rw [h.eq]
theorem Signals.ref : t.ref = s.ref := by rw [h.eq]
theorem Signals.test : t.test = s.test := by rw [h.eq]
theorem Signals.jtag : t.jtag = s.jtag := by rw [h.eq]
theorem Signals.free : t.free = s.free := by rw [h.eq]
theorem Signals.pending : t.pending = s.pending := by rw [h.eq]
theorem Signals.lane (n : Nat) : t.lane n = s.lane n := by rw [State.lane, h.lanes]; rfl
theorem Signals.cand (n : Nat) : t.cand n = s.cand n := by rw [State.cand, h.ref]; rfl
theorem Signals.testLane (n : Nat) : t.testLane n = s.testLane n := by rw [State.testLane, h.test]; rfl
theorem Signals.keyOpen (b : KeyBlock) : t.keyOpen b = s.keyOpen b := by cases b <;> simp only [State.keyOpen, h.gctl]
end

/-- A record update of the parts that signals change. -/
theorem Signals.record {s t : State} (h : Signals s t) {evq log : List LogEntry} {evDropped logNext : Nat}
    {stormEdges : Tbl (List Nat)} {hif : Hif} {mss : Mss} {i3c : I3c}
    (h1 : hif = { t.hif with hostMem := hif.hostMem, evTail := hif.evTail, evPhase := hif.evPhase, evMissed := hif.evMissed
                             evUnsig := hif.evUnsig, statusSeq := hif.statusSeq, msixSent := hif.msixSent })
    (h2 : mss = { t.mss with lastTo := mss.lastTo }) (h3 : i3c = { t.i3c with ibis := i3c.ibis }) :
    Signals s (State.mk t.regs t.gctl t.rdata t.latches t.tai t.reelSeq t.lanes evq evDropped log logNext t.mirror stormEdges hif
      t.ssw t.circ t.pair t.time t.ref mss i3c t.test t.jtag t.free t.pending) := by
  refine h.trans ⟨rfl, h1, ?_, fun c => ?_, h3, fun _ _ => rfl⟩
  · rw [h2]
  · have hc : mss.cores = t.mss.cores := by rw [h2]
    simp only [State.core, hc]

-- Interrupts

/-- Vectors are named in six bits, and the pending-bit array has two words. -/
theorem State.msix_signals {s t : State} (h : Signals s t) {v : Nat} (hv : v < 64) : Signals s (t.msix v) := by
  refine Signals.ite (h.setFld _ _ ?_) (Signals.record h rfl rfl rfl)
  have : 0x609000 ≤ R.HIF_MSIX_PBA (v / 32) ∧ R.HIF_MSIX_PBA (v / 32) < 0x609008 := by unfold R.HIF_MSIX_PBA; omega
  simp only [signalReg, decide_eq_true this, Bool.or_true, Bool.true_or]

theorem signalReg_icSrc {n : Nat} (hn : n < 1280) : signalReg (R.IC_SRC n) = true := by
  have : 0x701000 ≤ R.IC_SRC n ∧ R.IC_SRC n < 0x702400 := by unfold R.IC_SRC; omega
  simp only [signalReg, decide_eq_true this, Bool.or_true]

theorem State.icDelivered_signals {s t : State} (h : Signals s t) {n : Nat} (hn : n < 1280) : Signals s (t.icDelivered n) :=
  (h.setFlag _ _ (signalReg_icSrc hn)).when _ fun _ hu => hu.setFlag _ _ (signalReg_icSrc hn)

theorem State.icTryMsix_signals {s t : State} (h : Signals s t) {n : Nat} (hn : n < 1280) : Signals s (t.icTryMsix n) := by
  refine Signals.ite ?_ h
  apply State.msix_signals
  · exact Signals.record (State.icDelivered_signals h hn) rfl rfl rfl
  · exact State.fld_lt _ _

theorem State.updCore_wfi_signals {s t : State} (h : Signals s t) (c : Nat) (b : Bool) :
    Signals s (t.updCore c fun x => { x with wfi := b }) := by
  refine h.trans ⟨rfl, rfl, rfl, fun k => ?_, rfl, fun _ _ => rfl⟩
  by_cases hk : c = k
  · subst hk
    simp only [State.core_updCore_same]
  · rw [State.core_updCore_ne _ _ _ _ hk]

theorem State.icWake_signals {s t : State} (h : Signals s t) (n : Nat) : Signals s (t.icWake n) := by
  refine Signals.ite ?_ h
  split
  · exact Signals.ite (State.updCore_wfi_signals h _ _) h
  · exact h

theorem State.icSettle_signals {s t : State} (h : Signals s t) {n : Nat} (hn : n < 1280) : Signals s (t.icSettle n) :=
  State.icWake_signals (State.icTryMsix_signals h hn) n

theorem State.icPend_signals {s t : State} (h : Signals s t) {n : Nat} (hn : n < 1280) : Signals s (t.icPend n) :=
  State.icSettle_signals (h.setFlag _ _ (signalReg_icSrc hn)) hn

theorem State.icRaise_signals {s t : State} (h : Signals s t) {n : Nat} (hn : n < 1280) : Signals s (t.icRaise n) :=
  Signals.ite h (State.icPend_signals h hn)

-- The event log

theorem State.hostWrite_signals {s t : State} (h : Signals s t) (a : Nat) (bs : List Byte) : Signals s (t.hostWrite a bs) :=
  Signals.ite h (Signals.record h rfl rfl rfl)

theorem State.writeStatusPage_signals {s t : State} (h : Signals s t) : Signals s t.writeStatusPage :=
  Signals.record (State.hostWrite_signals h _ _) rfl rfl rfl

theorem State.evRing_signals {s t : State} (h : Signals s t) (e : LogEntry) : Signals s (t.evRing e) := by
  unfold State.evRing
  refine Signals.ite h (Signals.ite ?_ ?_)
  · apply Signals.setFlag _ _ _ rfl
    exact Signals.record h rfl rfl rfl
  · extract_lets nxt u v w
    have hw : Signals s w := State.writeStatusPage_signals (Signals.record (State.hostWrite_signals h _ _) rfl rfl rfl)
    refine Signals.ite ?_ hw
    apply State.msix_signals
    · exact Signals.record hw rfl rfl rfl
    · exact State.fld_lt _ _

theorem State.logWrite_signals {s t : State} (h : Signals s t) (e : LogEntry) : Signals s (t.logWrite e) := by
  unfold State.logWrite
  apply State.evRing_signals
  exact Signals.record h rfl rfl rfl

theorem State.queueEvent_signals {s t : State} (h : Signals s t) (e : LogEntry) : Signals s (t.queueEvent e) := by
  unfold State.queueEvent
  refine Signals.ite ?_ ?_
  · apply State.icRaise_signals _ (by decide)
    exact Signals.record h rfl rfl rfl
  · apply Signals.setFld _ _ _ rfl
    exact Signals.record h rfl rfl rfl

theorem State.raiseIbi_signals {s t : State} (h : Signals s t) (b : Nat) : Signals s (t.raiseIbi b) := by
  refine Signals.ite ?_ h
  apply Signals.setFld _ _ _ rfl
  exact Signals.record h rfl rfl rfl

theorem State.alert_signals {s t : State} (h : Signals s t) {f : Fld} (hf : signalReg f.reg = true) : Signals s (t.alert f) :=
  (h.setFlag f true hf).when _ fun _ hu => State.raiseIbi_signals hu _

theorem alertOf_reg {code : Nat} {f : Fld} (h : alertOf code = some f) : f.reg = R.GCTL_ALERT_STAT := by
  unfold alertOf at h
  split_ifs at h <;> cases h <;> rfl

theorem State.alertFor_signals {s t : State} (h : Signals s t) (code : Nat) : Signals s (t.alertFor code) := by
  unfold State.alertFor
  split
  · next f hf => exact State.alert_signals h (by rw [alertOf_reg hf]; rfl)
  · exact h

theorem State.logEvent_signals {s t : State} (h : Signals s t) (code source : Nat) (data : List Byte) :
    Signals s (t.logEvent code source data) := by
  unfold State.logEvent
  extract_lets e u
  have hu : Signals s u := State.alertFor_signals h code
  exact Signals.ite (State.logWrite_signals hu _) (State.queueEvent_signals hu _)

theorem State.icEdge_signals {s t : State} (h : Signals s t) {n : Nat} (hn : n < 1280) : Signals s (t.icEdge n) := by
  unfold State.icEdge
  extract_lets recent u
  have hu : Signals s u := Signals.record h rfl rfl rfl
  have hf := signalReg_icSrc hn
  refine Signals.ite (hu.setFlag _ _ hf) (Signals.ite ?_ (State.icPend_signals hu hn))
  apply State.logEvent_signals
  exact ((hu.setFlag _ _ hf).setFlag _ _ hf).setFld _ _ rfl

end Sys2Proof.Machine
end

section
/-!
PROOFS. Writes by the access codes, and what an event leaves in the log or the event queue.
-/
namespace Sys2Proof.Machine
open Sys2Proof

-- Writes by the access codes (R8, R9) ---------------------------------------------------------------------------

/-- Of the offsets below the candidates' registers, the reference block holds no lane. -/
theorem laneOfOffset_ref {off : Nat} (h1 : 0x480000 ≤ off) (h2 : off < 0x480100) : laneOfOffset off = none := by
  unfold laneOfOffset
  repeat refine (if_neg (by omega)).trans ?_
  rfl

/-- A write below the candidates' registers in the reference block, outside the sample register, is one by the access codes. -/
theorem State.writeReg_ref (s : State) (m : Master) {off : Nat} (v : Word) (h1 : 0x480000 ≤ off) (h2 : off < 0x480100)
    (h3 : off ≠ R.REF_PTP_SAMPLE) : s.writeReg m off v = s.writeByCode off v := by
  simp only [State.writeReg, R.GCTL_KEY, R.SSW_KEY, R.PAIR_KEY, R.MSS_KEY, R.GCTL_ALIVE, R.GCTL_FENCE_CTL, R.MATE_HB_CTL,
    R.SSW_SBY_PORT, R.SSW_FACET_BAR, R.SSW_SPLICE_AT, R.SSW_SPLICE_CTL, R.CIRC_DAILIES_CTL, R.REF_PTP_SAMPLE, R.REF_CANDn_DLY,
    R.PAIR_CFG, R.PAIR_ID] at h3 ⊢
  repeat refine (if_neg (by omega)).trans ?_
  rw [laneOfOffset_ref h1 h2]

/-- A register without WK fields takes its RW bits and clears its W1C bits where a 1 is written. -/
theorem State.writeByCode_of_no_key (s : State) {off : Nat} (v : Word) {r : RegRow} (hr : regRow off = some r) (hk : r.wk = 0) :
    s.writeByCode off v = s.setReg off (((s.reg off &&& ~~~(BitVec.ofNat 32 r.rw)) ||| (v &&& BitVec.ofNat 32 r.rw))
      &&& ~~~(v &&& BitVec.ofNat 32 r.w1c)) := by
  simp only [State.writeByCode, hr, hk, maskIn, if_true]

/-- Settles O6: here a write goes by the access codes of the register at its offset, if one stands there. -/
theorem accessCodes : Obligations.AccessCodes := by
  unfold Obligations.AccessCodes
  intro s m o v h1 h2 h4 hp
  have hgo : exec (.registerWrite m o v) s = .next (s.writeByCode o.toNat v) := by
    rw [exec_registerWrite, execRegisterWrite, State.busWrite_of_aligned s m v h4 (by omega), State.writeReg_ref s m v h1 h2 hp]
  refine ⟨fun r hr hk => ?_, fun hr => ?_⟩
  · rw [hgo, State.writeByCode_of_no_key s v hr hk]
  · rw [hgo, State.writeByCode_of_no_row s v hr]

-- Where an event goes (R27, R448) -------------------------------------------------------------------------------

/-- `t` has the event queue and the log of `s`. -/
structure SameEvents (s t : State) : Prop where
  evq : t.evq = s.evq
  log : t.log = s.log
  evDropped : t.evDropped = s.evDropped

theorem SameEvents.refl (s : State) : SameEvents s s := ⟨rfl, rfl, rfl⟩

theorem SameEvents.ite {s a b : State} {c : Prop} [Decidable c] (ha : SameEvents s a) (hb : SameEvents s b) :
    SameEvents s (if c then a else b) := by
  split <;> assumption

theorem SameEvents.setFlag {s t : State} (h : SameEvents s t) (f : Fld) (b : Bool) : SameEvents s (t.setFlag f b) :=
  ⟨h.evq, h.log, h.evDropped⟩

theorem SameEvents.trans {a b c : State} (h : SameEvents a b) (k : SameEvents b c) : SameEvents a c :=
  ⟨k.evq.trans h.evq, k.log.trans h.log, k.evDropped.trans h.evDropped⟩

theorem State.msix_sameEvents (s : State) (v : Nat) : SameEvents s (s.msix v) := by
  unfold State.msix
  exact SameEvents.ite ⟨by simp, by simp, by simp⟩ ⟨by simp, by simp, by simp⟩

theorem State.icDelivered_sameEvents (s : State) (n : Nat) : SameEvents s (s.icDelivered n) := by
  unfold State.icDelivered
  cases icIsLevel n with
  | false => exact (SameEvents.refl s).setFlag _ _
  | true => exact ((SameEvents.refl s).setFlag _ _).setFlag _ _

theorem State.icTryMsix_sameEvents (s : State) (n : Nat) : SameEvents s (s.icTryMsix n) := by
  unfold State.icTryMsix
  refine SameEvents.ite ?_ (SameEvents.refl s)
  obtain ⟨hq, hl, hd⟩ := s.icDelivered_sameEvents n
  obtain ⟨mq, ml, md⟩ := State.msix_sameEvents { s.icDelivered n with
    mss := { (s.icDelivered n).mss with lastTo := (s.icDelivered n).mss.lastTo.filter fun x => x.1 != n } }
    ((s.icDelivered n).fld (F.IC_SRC_TARGET n))
  exact ⟨mq.trans hq, ml.trans hl, md.trans hd⟩

theorem State.icWake_sameEvents (s : State) (n : Nat) : SameEvents s (s.icWake n) := by
  unfold State.icWake
  refine SameEvents.ite ?_ (SameEvents.refl s)
  split
  · exact SameEvents.ite ⟨rfl, rfl, rfl⟩ (SameEvents.refl s)
  · exact SameEvents.refl s

theorem State.icRaise_sameEvents (s : State) (n : Nat) : SameEvents s (s.icRaise n) := by
  unfold State.icRaise State.icPend State.icSettle
  refine SameEvents.ite (SameEvents.refl s) ?_
  exact ((SameEvents.refl s).setFlag _ _).trans
    ((State.icTryMsix_sameEvents _ n).trans (State.icWake_sameEvents _ n))

/-- The 16 DATA bytes of an entry are 16. -/
theorem length_eventData (bs : List Byte) : (eventData bs).length = 16 := by simp [eventData]

theorem State.alertFor_of_none (s : State) {code : Nat} (h : alertOf code = none) : s.alertFor code = s := by
  rw [State.alertFor, h]

theorem State.evRing_of_disabled {s : State} (h : s.flag F.HIF_EV_CTL_EN = false) (e : LogEntry) : s.evRing e = s := by
  unfold State.evRing
  exact if_pos (by rw [h]; rfl)

/-- While the event ring is disabled firmware writes an entry to the log alone. -/
theorem State.logWrite_of_no_ring (s : State) (e : LogEntry) (h : s.flag F.HIF_EV_CTL_EN = false) :
    s.logWrite e = { s with log := (s.log ++ [{ e with num := s.logNext, data := eventData e.data }]).drop (s.log.length + 1 - 16384)
                            logNext := (s.logNext + 1) % 2 ^ 32 } := by
  unfold State.logWrite
  refine State.evRing_of_disabled ?_ _
  rw [← h, State.flag, State.flag, State.fld, State.fld, State.reg, State.reg]

/-- Settles O7: firmware takes the entry while it runs, and otherwise the queue, as long as there is room in it. -/
theorem eventLogging : Obligations.EventLogging := by
  unfold Obligations.EventLogging
  intro s code src data ha
  let e : LogEntry := { tai := s.tai, epoch := s.fld F.TIME_STATE_STEP_EPOCH, source := src, code := code, data := data }
  have hlog : s.logEvent code src data = if s.fwRuns then s.logWrite e else s.queueEvent e := by
    unfold State.logEvent
    rw [State.alertFor_of_none s ha]
  refine ⟨fun hf hr => ?_, fun hf hq => ?_, fun hf hq => ?_⟩
  · rw [hlog, if_pos hf, State.logWrite_of_no_ring s _ hr]
    refine ⟨{ e with num := s.logNext, data := eventData e.data }, ?_, ?_, rfl, rfl, rfl, length_eventData data, rfl, rfl, rfl⟩
    · dsimp only
    · rfl
  · rw [hlog, if_neg (by simp [hf]), State.queueEvent, if_pos hq]
    obtain ⟨eq, el, -⟩ := State.icRaise_sameEvents _ 32
    exact ⟨{ e with queued := s.flywheel, data := eventData e.data }, eq, rfl, rfl, rfl, el⟩
  · rw [hlog, if_neg (by simp [hf]), State.queueEvent, if_neg (by omega)]
    exact ⟨rfl, rfl, rfl⟩

end Sys2Proof.Machine
end

section
/-!
PROOFS. The local reel boundary and a core reel without connections.
-/
namespace Sys2Proof.Machine
open Sys2Proof

/-- What a core reel changes where no connection, pair, held reel or error stands: of the registers neither REEL_NOW nor the page
state, and beside them the lanes and the circuits' own state, with no pair entered. -/
structure QuietReel (s t : State) : Prop where
  eq : t = { s with regs := t.regs, lanes := t.lanes, circ := t.circ }
  now : t.reg R.SSW_REEL_NOW = s.reg R.SSW_REEL_NOW
  page : t.reg R.SSW_PAGE_STATE = s.reg R.SSW_PAGE_STATE
  pairs : s.circ.pairs = [] → t.circ.pairs = []

theorem QuietReel.refl (s : State) : QuietReel s s := ⟨rfl, rfl, rfl, id⟩

theorem QuietReel.trans {a b c : State} (h : QuietReel a b) (k : QuietReel b c) : QuietReel a c where
  eq := by rw [k.eq, h.eq]
  now := k.now.trans h.now
  page := k.page.trans h.page
  pairs ha := k.pairs (h.pairs ha)

theorem QuietReel.foldl {α : Type} {f : State → α → State} (hf : ∀ s a, QuietReel s (f s a)) (l : List α) (s : State) :
    QuietReel s (l.foldl f s) := by
  induction l generalizing s with
  | nil => exact QuietReel.refl s
  | cons a l ih => exact (hf s a).trans (ih (f s a))

theorem QuietReel.setFld {s t : State} (h : QuietReel s t) (f : Fld) (v : Nat) (h1 : f.reg ≠ R.SSW_REEL_NOW)
    (h2 : f.reg ≠ R.SSW_PAGE_STATE) : QuietReel s (t.setFld f v) :=
  h.trans ⟨rfl, State.reg_setFld_ne t f v _ h1, State.reg_setFld_ne t f v _ h2, id⟩

theorem QuietReel.updLane {s t : State} (h : QuietReel s t) (n : Nat) (f : Lane → Lane) : QuietReel s (t.updLane n f) :=
  h.trans ⟨rfl, rfl, rfl, id⟩

theorem QuietReel.active {s t : State} (h : QuietReel s t) : t.active = s.active := by
  have hb : t.activeIsB = s.activeIsB := by
    rw [State.activeIsB, State.activeIsB, State.flag, State.flag, State.fld, State.fld]
    exact congrArg (fun w : Word => decide (bitsOf w.toNat _ _ ≠ 0)) h.page
  have hssw : t.ssw = s.ssw := by rw [h.eq]
  rw [State.active, State.active, hb, hssw]

/-- Releasing a reel of a lane. -/
theorem State.releaseReel_quiet (s : State) (n q : Nat) : QuietReel s (s.releaseReel n q) := by
  unfold State.releaseReel
  extract_lets blank counts s1 synced s2
  have h1 : QuietReel s s1 := by
    unfold s1 State.when
    split
    · exact ⟨rfl, rfl, rfl, id⟩
    · exact QuietReel.refl s
  exact (h1.updLane n _).updLane n _

theorem State.showPool_quiet (s : State) : QuietReel s s.showPool := by
  unfold State.showPool
  extract_lets filling s1
  have h1 : QuietReel s s1 := ((QuietReel.refl s).setFld F.CIRC_POOL_IN_USE _ (by decide) (by decide)).setFld
    F.CIRC_POOL_FILLING _ (by decide) (by decide)
  refine h1.trans (QuietReel.foldl (fun u p => QuietReel.foldl (fun v n => (QuietReel.refl v).setFld _ _ ?_ ?_) _ u) _ _) <;>
    simp only [F.CIRC_MERGE_FILLING, R.CIRC_MERGE, R.SSW_REEL_NOW, R.SSW_PAGE_STATE] <;> omega

theorem State.fillPool_quiet (s : State) : QuietReel s s.fillPool := by
  unfold State.fillPool
  extract_lets f
  have h1 : QuietReel s (s.updCirc fun c => { c with pairs := c.pairs.map f, newPairs := c.newPairs.map f }) :=
    ⟨rfl, rfl, rfl, fun h => by simp [h]⟩
  exact h1.trans (State.showPool_quiet _)

/-- The reels that a core reel of number `q` releases, one per lane. -/
def State.releaseReels (s : State) (q : Nat) : State := (List.range 130).foldl (fun s n => s.releaseReel n q) s

theorem State.releaseReels_quiet (s : State) (q : Nat) : QuietReel s (s.releaseReels q) :=
  QuietReel.foldl (fun s n => s.releaseReel_quiet n q) _ s

/-- What a core reel does where its release leaves a state `u` without connections and pairs: it sends nothing, and counts no circuit. -/
theorem State.coreReel_of_released (s u : State) (hu : (s.setFld F.SSW_REEL_NOW_REEL (seqNext s.reelSeq)).releaseReels
    (seqNext s.reelSeq) = u) (hua : u.active = {}) (hup : u.circ.pairs = []) (hs : s.sby ≠ 7) :
    s.coreReel [] = ((u.updSsw fun x => { x with tx := [] }).setFld F.CIRC_FDI_COUNT
        (u.circ.fdi.filter fun x => x.2.inFdi).length).fillPool := by
  unfold State.coreReel
  extract_lets q seam errors s1 s2 s3 s4 s5 s6 s7 badEntries bad badOut idxs fenced sent s8 byCircuit s9
  have h2 : s2 = u := hu
  have hseam : seam = false := decide_eq_false hs
  have herr : errors = [] := by simp only [errors, hseam, Bool.false_eq_true, if_false]
  have h3 : s3 = u := by simp only [s3, h2, hup, List.foldl_nil]
  have h7 : s7 = u := by
    simp [s7, s6, s5, s4, h3, herr, hua, State.countBadGrains, State.writeSlots, PageSet.sources, PageSet.conns,
      PageSet.mergeList, PageSet.writes]
  have hidx : idxs = [] := by
    simp [idxs, bad, badOut, herr, hseam, h7, hua, PageSet.conns, blankSlots]
  have hsent : sent = [] := by simp only [sent, hidx, List.map_nil]
  have h9 : s9 = u.updSsw fun x => { x with tx := [] } := by
    simp only [s9, hseam, State.when_false, s8, hsent, List.foldl_nil, h7]
  have hact : s9.active = {} := by rw [h9]; exact hua
  rw [State.circuitsReel, hact, h9]
  rfl

/-- Settles O10: the boundary does its work in the order of `execLocalReelBoundary`, and of what a quiet core reel shows only the
number of the reel about to begin is new. -/
theorem reelBoundaries : Obligations.ReelBoundaries := by
  unfold Obligations.ReelBoundaries
  refine fun s => ⟨rfl, rfl, fun ha hp hs _ => ?_⟩
  have hn : seqNext s.reelSeq < 2 ^ 32 := Nat.mod_lt _ (by decide)
  have hact : (s.setFld F.SSW_REEL_NOW_REEL (seqNext s.reelSeq)).active = {} := by
    rw [← ha, State.active, State.active, State.activeIsB, State.flag_setFld_apart _ _ _ _ (by decide)]; rfl
  obtain ⟨u, hu⟩ : ∃ u, (s.setFld F.SSW_REEL_NOW_REEL (seqNext s.reelSeq)).releaseReels (seqNext s.reelSeq) = u := ⟨_, rfl⟩
  have hq : QuietReel _ u := hu ▸ State.releaseReels_quiet _ _
  have hend := State.coreReel_of_released s u hu (hq.active.trans hact) (hq.pairs hp) hs
  have hf := State.fillPool_quiet ((u.updSsw fun x => { x with tx := [] }).setFld F.CIRC_FDI_COUNT
    (u.circ.fdi.filter fun x => x.2.inFdi).length)
  rw [← hend] at hf
  refine Completes.intro rfl ⟨?_, ?_, ?_, ?_, ?_⟩
  · have hnow : (s.coreReel []).reg R.SSW_REEL_NOW = (s.setFld F.SSW_REEL_NOW_REEL (seqNext s.reelSeq)).reg R.SSW_REEL_NOW := by
      rw [hf.now, State.reg_setFld_ne _ _ _ _ (by decide), ← hq.now]; rfl
    have hfld := State.fld_setFld_fits s F.SSW_REEL_NOW_REEL (seqNext s.reelSeq) rfl hn
    rw [hnow]
    simpa [State.fld, bitsOf, F.SSW_REEL_NOW_REEL, Nat.mod_eq_of_lt (BitVec.isLt _), seqNext] using hfld
  · rw [hf.eq]; rfl
  all_goals rw [hf.eq]; dsimp only [State.setFld_reelSeq, State.setFld_tai, State.setFld_log]; rw [hq.eq]; rfl

end Sys2Proof.Machine
end

section
/-!
PROOFS. Host commands whose object comes from one buffer.
-/
namespace Sys2Proof.Machine
open Sys2Proof

-- What an object's transfer leaves ------------------------------------------------------------------------------

/-- Between the alerts and the host interface no register shows a signal. -/
theorem signalReg_of_lt {o : Nat} (h : 0x208 < o) (h' : o < 0x600000) : signalReg o = false := by
  simp only [signalReg, R.GCTL_ALERT_STAT, R.HIF_ERR, R.I3CT_STAT, R.IC_STAT, R.MSS_EVQ_STAT, Bool.or_eq_false_iff,
    beq_eq_false_iff_ne, decide_eq_false_iff_not]
  omega

theorem State.dmaDone_signals {s t : State} (h : Signals s t) (n : Nat) : Signals s (t.dmaDone n) :=
  Signals.ite h (State.icEdge_signals h (by decide))

@[simp] theorem State.objectIn_ssw (s : State) (e : Handle) : (s.objectIn e).ssw = s.ssw :=
  (State.dmaDone_signals (Signals.refl s) e.handle).ssw

theorem State.objectIn_fld (s : State) (e : Handle) (g : Fld) (hg : signalReg g.reg = false) : (s.objectIn e).fld g = s.fld g :=
  (State.dmaDone_signals (Signals.refl s) e.handle).fld g hg

-- The commands --------------------------------------------------------------------------------------------------

section
variable {s : State} {h : Word} {e : Handle}

/-- Writing registers of a list of offsets leaves the fields of every other. -/
theorem State.fld_foldl_setReg {α : Type} (off : α → Nat) (w : α → Word) (g : Fld) (l : List α) (s : State)
    (hg : ∀ a, off a ≠ g.reg) : (l.foldl (fun s a => s.setReg (off a) (w a)) s).fld g = s.fld g := by
  induction l generalizing s with
  | nil => rfl
  | cons a l ih => rw [List.foldl_cons, ih, State.fld_setReg_ne s _ _ g (hg a)]

theorem bytesAt_take (obj : List Byte) {k n : Nat} (h : k ≤ n) : (bytesAt obj 0 n).take k = bytesAt obj 0 k := by
  rw [bytesAt, bytesAt, ← List.map_take, List.take_range, Nat.min_eq_left h]

theorem execLaneTrace_of_send (hr : Runs s Op.LANE_TRACE h e []) (hd : DirectBuffer e 128) (hw : e.param 1 1 = 1)
    (sg : List (Nat × Nat)) (obj : List Byte) :
    execLaneTrace h sg obj s = .next ((((s.begun h e).objectIn e).setCtx e.handle 1).updLane (e.param 0 1) fun l =>
      { l with traceTxNext := some (bytesAt obj 0 64) }) := by
  have h0 : Nat.testBit 1 0 = true := rfl
  have h1 : Nat.testBit 1 1 = false := rfl
  rw [execLaneTrace, State.run_of_runs hr, State.receive_direct hd]
  simp only [hw, h0, h1, bytesAt_take obj (show 64 ≤ 128 by decide), if_true, Bool.false_eq_true, if_false, Nat.one_mod]

/-- A lane's number takes one byte. -/
theorem laneBase_of_byte {n : Nat} (h : n < 256) : 0x100000 ≤ laneBase n ∧ laneBase n < 0x200000 := by
  unfold laneBase
  split <;> omega

/-- The synchronisation state of a lane is apart from its expected trace, and from what signals and the start of a command write. -/
theorem execLaneTrace_of_expect (hr : Runs s Op.LANE_TRACE h e []) (hd : DirectBuffer e 128) (hw : e.param 1 1 = 2)
    (hs : s.sync (e.param 0 1) = 2) (sg : List (Nat × Nat)) (obj : List Byte) :
    execLaneTrace h sg obj s = .next (((List.range 16).foldl (fun s k =>
      s.setReg (R.LANE_TRACE_EXP (e.param 0 1) k) (BitVec.ofNat 32 (leAt (bytesAt obj 0 128) (64 + 4 * k) 4)))
      (((s.begun h e).objectIn e).setCtx e.handle 2)).updLane (e.param 0 1) fun l => { l with traceExpTouched := true }) := by
  have h0 : Nat.testBit 2 0 = false := rfl
  have h1 : Nat.testBit 2 1 = true := rfl
  have hb := laneBase_of_byte (e.param_lt 0 1)
  have hsync : ((List.range 16).foldl (fun s k =>
      s.setReg (R.LANE_TRACE_EXP (e.param 0 1) k) (BitVec.ofNat 32 (leAt (bytesAt obj 0 128) (64 + 4 * k) 4)))
      (((s.begun h e).objectIn e).setCtx e.handle 2)).sync (e.param 0 1) = 2 := by
    rw [← hs, State.sync, State.fld_foldl_setReg (fun k => R.LANE_TRACE_EXP (e.param 0 1) k)]
    · refine Eq.trans (State.objectIn_fld _ e _ ?_) (s.begun_fld h e _ (Fld.apart_of_reg ?_))
      · exact signalReg_of_lt (show 0x208 < laneBase _ + _ by omega) (show laneBase _ + _ < 0x600000 by omega)
      · simp only [F.LANE_SYNC_STATE_STATE, R.LANE_SYNC_STATE, F.PAIR_CONT_STAT_OUTSTANDING, R.PAIR_CONT_STAT]
        omega
    · intro k
      simp only [F.LANE_SYNC_STATE_STATE, R.LANE_SYNC_STATE, R.LANE_TRACE_EXP]
      omega
  rw [execLaneTrace, State.run_of_runs hr, State.receive_direct hd]
  simp only [hw, h0, h1, if_true, Bool.false_eq_true, if_false, show 2 % 4 = 2 from rfl, hsync]

theorem execRefSeed_of_runs (hr : Runs s Op.REF_SEED h e []) (hd : DirectBuffer e 40) (sg : List (Nat × Nat)) (obj : List Byte) :
    execRefSeed h sg obj s = .next (match parseSeed (bytesAt obj 0 40) with
      | none => ((s.begun h e).objectIn e).fail e.handle St.RECORD_INVALID 0
      | some x => (((s.begun h e).objectIn e).updRef fun r => { r with seed := some x }).refreshHold.finish e.handle Out.OK 0 0) := by
  rw [execRefSeed, State.run_of_runs hr, State.receive_direct hd] <;> rfl

/-- A job without a refusal, of a section without a fault, is the host's where the host has none. -/
theorem State.requestJob_of_free {u : State} {handle take base : Nat} {increment : Bool} {records sect : List Byte}
    {x : Tbl (Option CircEntry) × List MergePair} (hf : u.jobRefusal increment take base = none)
    (hs : checkSection (if increment then some u.active else none) sect = .ok x) (hj : u.ssw.hostJob = none) :
    u.requestJob handle increment take base records sect = ((u.updSsw fun w => { w with
      hostJob := some { kind := if increment then .increment else .full, take := take, base := base, records := records
                        section_ := sect, handle := handle } }).setFld F.SSW_COL_STATE_HOST_JOB 3).startJobs := by
  simp only [State.requestJob, hf, hs]
  rw [State.updSsw, State.updSsw, hj]
  rfl

theorem execTakeCompile_of_free {n c : Nat} {x : Tbl (Option CircEntry) × List MergePair} (hr : Runs s Op.TAKE_COMPILE h e [])
    (hn : e.param 4 4 = n) (hc : e.param 8 4 = c) (hd : DirectBuffer e (8 * n + c))
    (hf : ((s.begun h e).objectIn e).jobRefusal false (e.param 0 4) 0 = none) (hj : s.ssw.hostJob = none) (sg : List (Nat × Nat))
    (obj : List Byte) (hs : checkSection none (bytesAt (bytesAt obj 0 (8 * n + c)) (8 * n) c) = .ok x) :
    execTakeCompile h sg obj s = .next (((((s.begun h e).objectIn e).updSsw fun w => { w with
      hostJob := some { kind := .full, take := e.param 0 4, base := 0, records := (bytesAt obj 0 (8 * n + c)).take (8 * n)
                        section_ := bytesAt (bytesAt obj 0 (8 * n + c)) (8 * n) c, handle := e.handle } }).setFld
          F.SSW_COL_STATE_HOST_JOB 3).startJobs) := by
  subst hn hc
  rw [execTakeCompile, State.run_of_runs hr, State.receive_direct hd,
    State.requestJob_of_free hf hs (by rw [State.objectIn_ssw, State.begun_ssw, hj])]
  rfl

theorem execTakeIncrement_of_free {n c : Nat} {x : Tbl (Option CircEntry) × List MergePair} (hr : Runs s Op.TAKE_INCREMENT h e [])
    (hn : e.param 8 4 = n) (hc : e.param 12 4 = c) (hd : DirectBuffer e (8 * n + c))
    (hf : ((s.begun h e).objectIn e).jobRefusal true (e.param 0 4) (e.param 4 4) = none) (hj : s.ssw.hostJob = none)
    (sg : List (Nat × Nat)) (obj : List Byte) (hs : checkSection (some ((s.begun h e).objectIn e).active)
      (bytesAt (bytesAt obj 0 (8 * n + c)) (8 * n) c) = .ok x) :
    execTakeIncrement h sg obj s = .next (((((s.begun h e).objectIn e).updSsw fun w => { w with
      hostJob := some { kind := .increment, take := e.param 0 4, base := e.param 4 4
                        records := (bytesAt obj 0 (8 * n + c)).take (8 * n)
                        section_ := bytesAt (bytesAt obj 0 (8 * n + c)) (8 * n) c, handle := e.handle } }).setFld
          F.SSW_COL_STATE_HOST_JOB 3).startJobs) := by
  subst hn hc
  rw [execTakeIncrement, State.run_of_runs hr, State.receive_direct hd,
    State.requestJob_of_free hf hs (by rw [State.objectIn_ssw, State.begun_ssw, hj])]
  rfl

theorem execCmcSend_of_faultless {obj : List Byte} (hr : Runs s Op.CMC_SEND h e ((cmcRecords (e.param 0 4) 0 obj).map fun x => x.2.1))
    (hst : s.stagedFor e = none) (hd : DirectBuffer e (cmcObjectSize (e.param 0 4) obj)) (sg : List (Nat × Nat)) :
    let b := bytesAt obj 0 (cmcObjectSize (e.param 0 4) obj)
    (∀ x ∈ cmcRecords (e.param 0 4) 0 b, ((s.begun h e).objectIn e).cmcFault (cmcRecords (e.param 0 4) 0 b) x = 0) →
    execCmcSend h sg obj s = .next (((cmcRecords (e.param 0 4) 0 b).foldl (fun s x =>
      s.updCmc x.2.1 fun c => { c with txQueue := c.txQueue ++ [x.2.2] }) ((s.begun h e).objectIn e)).finish e.handle Out.OK 0 0) := by
  intro b hok
  have hobj : s.hostObject h.toNat obj = obj := by
    rw [← hr.handle, State.hostObject, if_neg (by simp [State.isMailbox, hd.ring])]
  have hfind : (cmcRecords (e.param 0 4) 0 b).find? (fun x =>
      ((s.begun h e).objectIn e).cmcFault (cmcRecords (e.param 0 4) 0 b) x != 0) = none :=
    List.find?_eq_none.mpr fun x hx => by simp [hok x hx]
  rw [execCmcSend, hobj]
  simp only [hr.entry, hst, List.nil_append]
  rw [State.run_of_runs hr, State.receive_direct hd]
  simp only [b] at hfind
  simp only [hfind]
  rfl

/-- FW_STAGE checks the image, then writes it to slot `k`, which the firmware does not run from. -/
theorem execFwStage_of_runs {k : Nat} (hr : Runs s Op.FW_STAGE h e []) (hd : DirectBuffer e (e.param 0 4))
    (hk : k = 3 - (if ((s.begun h e).objectIn e).fld F.MSS_BOOT_IMAGE = 0 then ((s.begun h e).objectIn e).mss.preferred
      else ((s.begun h e).objectIn e).fld F.MSS_BOOT_IMAGE)) (sg : List (Nat × Nat)) (obj : List Byte) (flashOk : Bool) :
    let u := (s.begun h e).objectIn e
    let img := bytesAt obj 0 (e.param 0 4)
    execFwStage h sg obj flashOk s = .next (if u.imageFault img = 1 then u.fail e.handle St.IMAGE_SIZE 0
      else if u.imageFault img = 2 then u.fail e.handle St.SIGNATURE_BAD 0
      else if flashOk then ((u.setSlot k img).updMss fun x => { x with staged := some (k, leAt img 8 4) }).finish e.handle Out.OK 0
        (leAt img 8 4)
      else ((u.setSlot k []).updMss fun x => { x with staged := none }).fail e.handle St.FLASH_ERROR 0) := by
  intro u img
  rw [execFwStage, State.run_of_runs hr, State.receive_direct hd, hk]

end

/-- Settles O12: each clause is the law of its command for an object read from one buffer. -/
theorem hostObjects : Obligations.HostObjects := by
  unfold Obligations.HostObjects
  intro s h e sg obj u
  refine ⟨fun hr hd hw => ?send, fun hr hd hw hs => ?expect, fun x hr hd hp => ?seed, fun hr hd hp => ?bad_seed,
    fun n c x hr hn hc hd hf hj hs => ?compile, fun n c x hr hn hc hd hf hj hs => ?increment, fun size => ?cmc, fun size k => ?stage⟩
  case send => exact execLaneTrace_of_send hr hd hw sg obj
  case expect => exact execLaneTrace_of_expect hr hd hw hs sg obj
  case seed => rw [exec_refSeed, execRefSeed_of_runs hr hd, hp]
  case bad_seed => rw [exec_refSeed, execRefSeed_of_runs hr hd, hp]
  case compile => exact execTakeCompile_of_free hr hn hc hd hf hj sg obj hs
  case increment => exact execTakeIncrement_of_free hr hn hc hd hf hj sg obj hs
  case cmc =>
    intro b hr hst hsize hd hok
    subst hsize
    exact execCmcSend_of_faultless hr hst hd sg hok
  case stage =>
    intro img hr hsize hd hk
    subst hsize
    exact ⟨execFwStage_of_runs hr hd hk sg obj true, execFwStage_of_runs hr hd hk sg obj false⟩

end Sys2Proof.Machine
end

section
/-!
PROOFS. Host commands that write an object, and those for takes, circuits and the pair.
-/
namespace Sys2Proof.Machine
open Sys2Proof

-- What a started command reads ----------------------------------------------------------------------------------

theorem State.begun_reg (s : State) (h : Word) (e : Handle) {o : Nat} (ho : R.PAIR_CONT_STAT ≠ o) :
    (s.begun h e).reg o = s.reg o := by
  have hf := s.begun_fld h e ⟨o, 0, 32⟩ (Fld.apart_of_reg ho)
  have hall (w : Word) : bitsOf w.toNat 0 32 = w.toNat := by simp [bitsOf, Nat.mod_eq_of_lt w.isLt]
  rw [State.fld, State.fld, hall, hall] at hf
  exact BitVec.eq_of_toNat_eq hf

@[simp] theorem State.begun_sby (s : State) (h : Word) (e : Handle) : (s.begun h e).sby = s.sby := s.begun_fld h e _ (by decide)

@[simp] theorem State.begun_session (s : State) (h : Word) (e : Handle) : (s.begun h e).session = s.session :=
  s.begun_fld h e _ (by decide)

@[simp] theorem State.begun_unit (s : State) (h : Word) (e : Handle) : (s.begun h e).unit = s.unit := s.begun_fld h e _ (by decide)

@[simp] theorem State.begun_dailies (s : State) (h : Word) (e : Handle) : (s.begun h e).dailies = s.dailies :=
  s.begun_fld h e _ (by decide)

@[simp] theorem State.begun_activeIsB (s : State) (h : Word) (e : Handle) : (s.begun h e).activeIsB = s.activeIsB :=
  s.begun_flag h e _ (by decide)

@[simp] theorem State.begun_active (s : State) (h : Word) (e : Handle) : (s.begun h e).active = s.active := by
  rw [State.active, State.active, State.begun_activeIsB, State.begun_ssw]

@[simp] theorem State.begun_standby (s : State) (h : Word) (e : Handle) : (s.begun h e).standby = s.standby := by
  rw [State.standby, State.standby, State.begun_activeIsB, State.begun_ssw]

@[simp] theorem State.begun_holdsTake (s : State) (h : Word) (e : Handle) (t : Nat) : (s.begun h e).holdsTake t = s.holdsTake t := by
  rw [State.holdsTake, State.holdsTake, State.begun_sby, State.begun_standby]

theorem State.begun_joinLead (s : State) (h : Word) (e : Handle) : (s.begun h e).pair.joinLead = s.pair.joinLead := by
  unfold State.begun State.when State.sendHandle State.sendRecord
  split
  · dsimp only
    split
    · split <;> rfl
    · rfl
  · rfl

-- Reports -------------------------------------------------------------------------------------------------------

section
variable {s : State} {h : Word} {e : Handle}

theorem execReportTake_of_active (hr : Runs s Op.REPORT_TAKE h e []) (hw : e.param 4 1 ≠ 1)
    (ht : (s.begun h e).activeTake = e.param 0 4) (sg : List (Nat × Nat)) :
    let u := s.begun h e
    let seq := (u.reg R.SSW_REEL_NOW).toNat
    DirectBuffer e (u.takeReport u.active 1 seq).length →
    execReportTake h sg s = .next ((u.objectOut e (u.takeReport u.active 1 seq)).finish e.handle Out.OK 0
      ((u.takeReport u.active 1 seq).length + 2 ^ 32 * seq)) := by
  intro u seq hd
  have hw' : (e.param 4 1 == 1) = false := by simp [hw]
  rw [execReportTake, State.run_of_runs hr]
  simp only [hw', ht, beq_self_eq_true, Bool.not_true, Bool.false_eq_true, if_false]
  rw [State.deliver_direct hd]

theorem execReportTake_of_standby (hr : Runs s Op.REPORT_TAKE h e []) (hw : e.param 4 1 = 1)
    (hs : (s.begun h e).sby = 3) (ht : (s.begun h e).standby.take = e.param 0 4) (sg : List (Nat × Nat)) :
    let u := s.begun h e
    let seq := (u.reg R.SSW_REEL_NOW).toNat
    DirectBuffer e (u.takeReport u.standby 2 seq).length →
    execReportTake h sg s = .next ((u.objectOut e (u.takeReport u.standby 2 seq)).finish e.handle Out.OK 0
      ((u.takeReport u.standby 2 seq).length + 2 ^ 32 * seq)) := by
  intro u seq hd
  rw [execReportTake, State.run_of_runs hr]
  simp only [hw, hs, ht, beq_self_eq_true, Bool.true_or, Bool.true_and, if_true, Bool.not_true, Bool.false_eq_true, if_false]
  rw [State.deliver_direct hd]

theorem execLogRead_of_held {x : LogEntry} (hr : Runs s Op.LOG_READ h e []) (hx : (s.begun h e).log.head? = some x)
    (hl : seqLater x.num (e.param 0 4) = false) (sg : List (Nat × Nat)) :
    let u := s.begun h e
    let l := u.log.filter fun x => decide (seqDiff x.num (e.param 0 4) < e.param 4 4)
    DirectBuffer e (l.flatMap logBytes).length →
    execLogRead h sg s = .next ((u.objectOut e (l.flatMap logBytes)).finish e.handle Out.OK 0
      (l.length + 2 ^ 32 * ((u.logNext + 2 ^ 32 - 1) % 2 ^ 32))) := by
  intro u l hd
  rw [execLogRead, State.run_of_runs hr]
  simp only [hx, hl, Bool.false_eq_true, if_false]
  rw [State.deliver_direct hd]

theorem execLogRead_of_older {x : LogEntry} (hr : Runs s Op.LOG_READ h e []) (hx : (s.begun h e).log.head? = some x)
    (hl : seqLater x.num (e.param 0 4) = true) (sg : List (Nat × Nat)) :
    execLogRead h sg s = .next ((s.begun h e).fail e.handle St.LOG_RANGE x.num) := by
  rw [execLogRead, State.run_of_runs hr]
  simp only [hx, hl, if_true]

theorem execEyeHistogram_of_active {obj : List Byte} (hr : Runs s Op.EYE_HISTOGRAM h e [])
    (hx : (s.begun h e).rxState (e.param 0 1) = 0) (hd : DirectBuffer e (bytesAt obj 0 65536).length) (sg : List (Nat × Nat)) :
    execEyeHistogram h sg obj s = .next (((s.begun h e).objectOut e (bytesAt obj 0 65536)).finish e.handle Out.OK 0
      (2 ^ (e.param 2 1) % 2 ^ 32)) := by
  rw [execEyeHistogram, State.run_of_runs hr]
  simp only [hx, ne_eq, not_true_eq_false, if_false]
  rw [State.deliver_direct hd]

/-- DAILIES of a command not yet resumed asks a capture, or delivers the record held. -/
theorem execDailies_of_runs (hr : Runs s Op.DAILIES h e []) (hf : e.ready = false) (sg : List (Nat × Nat)) :
    let v := (s.begun h e).updHandle e.handle fun x => { x with sg := sg }
    execDailies h sg s = .next (if e.param 0 1 = 0 then v.requestCapture 0 e.handle
      else if s.dailies = 2 then v.deliverRecord e.handle else v.fail e.handle St.NO_RECORD 0) := by
  intro v
  have hd : v.dailies = s.dailies := s.begun_dailies h e
  rw [execDailies, State.run_of_runs hr]
  simp only [hf, Bool.false_eq_true, if_false]
  rw [← hd]

end

/-- Settles O13: each clause is the law of its command for an object written to one buffer. -/
theorem hostReports : Obligations.HostReports := by
  unfold Obligations.HostReports
  intro s h e sg u
  refine ⟨fun obj hr hw ht ho hd => ?active, fun obj hr hw hs ht ho hd => ?standby, fun l x hr hx hl hll hd => ?held,
    fun x hr hx hl => ?older, fun obj hr hx hd => ?eye, fun hr hf hm => ?ask, fun hr hf hm hd => ?record, fun hr hf hm hd => ?none⟩
  case active =>
    subst ho
    exact execReportTake_of_active hr hw ht sg hd
  case standby =>
    subst ho
    exact execReportTake_of_standby hr hw hs ht sg hd
  case held =>
    subst hll
    exact execLogRead_of_held hr hx hl sg hd
  case older => exact execLogRead_of_older hr hx hl sg
  case eye => exact execEyeHistogram_of_active hr hx hd sg
  case ask => rw [exec_dailies, execDailies_of_runs hr hf, if_pos hm]
  case record => rw [exec_dailies, execDailies_of_runs hr hf, if_neg hm, if_pos hd]
  case none => rw [exec_dailies, execDailies_of_runs hr hf, if_neg hm, if_neg hd]

end Sys2Proof.Machine
end

section
/-!
PROOFS. Host commands for takes, splices, circuits and merge pairs, and those for the pair, firmware and facets.
-/
namespace Sys2Proof.Machine
open Sys2Proof

section
variable {s : State} {h : Word} {e : Handle}

-- Takes ---------------------------------------------------------------------------------------------------------

@[simp] theorem State.setSby_role (s : State) (n : Nat) : (s.setSby n).role = s.role :=
  State.fld_setFld_apart s _ _ n (by decide)

@[simp] theorem State.startResync_role (s : State) (n : Nat) : (s.startResync n).role = s.role := by
  rw [State.startResync, State.role, State.fld_updSsw, State.fld_setFlag_apart _ _ _ _ (by decide), ← State.role, State.setSby_role]

/-- Only in the role LEAD does a command's outcome wait for the mate. -/
theorem State.finishAcked_of_not_lead {s : State} (hs : s.role ≠ 3) (k outcome status result : Nat) :
    s.finishAcked k outcome status result = s.finish k outcome status result := if_neg fun hc => hs hc.1

/-- In the role SOLO the standby's take is given up at once, and no mate is told. -/
theorem execTakeDiscard_of_solo (hr : Runs s Op.TAKE_DISCARD h e []) (hro : s.role = 4) :
    execTakeDiscard h s = .next (if s.holdsTake (e.param 0 4) then
        (((s.begun h e).startResync 0).updPair fun p => { p with matchedTake := none }).finish e.handle Out.OK 0 0
      else (s.begun h e).fail e.handle St.TAKE_STATE 0) := by
  have hrole : (((s.begun h e).startResync 0).updPair fun p => { p with matchedTake := none }).role ≠ 3 := by
    rw [State.role, State.fld_updPair, ← State.role, State.startResync_role, State.begun_role, hro]
    decide
  rw [execTakeDiscard, State.run_of_runs hr]
  cases hh : s.holdsTake (e.param 0 4)
  · simp only [State.begun_holdsTake, hh, Bool.not_false, Bool.false_eq_true, if_true, if_false]
  · simp only [State.begun_holdsTake, hh, Bool.not_true, Bool.false_eq_true, if_true, if_false, if_neg hrole,
      State.finishAcked_of_not_lead hrole]

/-- In the role SOLO a take in the standby is armed at once, at the reel asked for or 64 reels on. -/
theorem execTakeSplice_of_solo (hr : Runs s Op.TAKE_SPLICE h e []) (hro : s.role = 4) :
    execTakeSplice h s = .next (if s.holdsTake (e.param 0 4) then (s.begun h e).armHost e.handle
        (if e.param 4 4 = 0 then ((s.reg R.SSW_REEL_NOW).toNat + 64) % 2 ^ 32 else e.param 4 4)
      else (s.begun h e).fail e.handle St.NOT_COMPILED 0) := by
  have hn : (s.begun h e).reg R.SSW_REEL_NOW = s.reg R.SSW_REEL_NOW := s.begun_reg h e (by decide)
  have h43 : ¬ (4 = 3 ∧ e.param 4 4 ≠ 0) := fun hc => absurd hc.1 (by decide)
  rw [execTakeSplice, State.run_of_runs hr]
  cases hh : s.holdsTake (e.param 0 4)
  · simp only [State.begun_holdsTake, State.begun_role, hro, hh, if_neg h43, Bool.not_false, Bool.false_eq_true, if_true, if_false]
  · simp only [State.begun_holdsTake, State.begun_role, hro, hh, if_neg h43, hn, Bool.not_true, Bool.false_eq_true, if_true,
      if_false]

/-- Where no pair is new, the pool shows its use and none filling. -/
theorem State.showPool_of_no_new {s : State} (hs : s.circ.newPairs = []) :
    s.showPool = (s.setFld F.CIRC_POOL_IN_USE s.circ.poolUsed).setFld F.CIRC_POOL_FILLING 0 := by
  unfold State.showPool
  rw [hs]
  exact congrArg (List.foldl _ _) hs

/-- A splice with a lead in its range arms a take that brings no pairs of lanes. -/
theorem State.armSplice_of_no_pairs (hs : s.sby = 3) (h1 : 64 ≤ s.spliceLead) (h2 : s.spliceLead ≤ 390625)
    (hm : s.standby.mergeList = []) :
    s.armSplice = ((((s.setSby 4).setFld F.SSW_SPLICE_STATE_STATE 1).spliceResult 0).updCirc fun c =>
      { c with newPairs := [] }).showPool := by
  have hst : (((s.setSby 4).setFld F.SSW_SPLICE_STATE_STATE 1).spliceResult 0).standby = s.standby := by
    have hb : (((s.setSby 4).setFld F.SSW_SPLICE_STATE_STATE 1).spliceResult 0).activeIsB = s.activeIsB := by
      unfold State.activeIsB State.spliceResult State.setSby
      rw [State.flag_setFld_apart _ _ _ _ (by decide), State.flag_setFld_apart _ _ _ _ (by decide),
        State.flag_setFld_apart _ _ _ _ (by decide)]
    rw [State.standby, State.standby, hb]
    rfl
  rw [State.armSplice, if_neg (not_not_intro hs), if_neg (by omega), if_neg (by omega), State.armPairs, hst, lanePairsOf, hm]
  rfl

/-- A register is its field of 32 bits. -/
theorem State.toNat_reg (s : State) (o : Nat) : (s.reg o).toNat = s.fld ⟨o, 0, 32⟩ := by
  simp [State.fld, bitsOf, Nat.mod_eq_of_lt (s.reg o).isLt]

theorem seqDiff_add (n : Nat) {k : Nat} (hk : k < 2 ^ 32) : seqDiff ((n + k) % 2 ^ 32) n = k := by
  unfold seqDiff
  omega

/-- Firmware's arming of a take without merges, 64 reels on. -/
theorem State.armHost_of_no_pairs (k : Nat) {r : Nat} (hn : r = ((s.reg R.SSW_REEL_NOW).toNat + 64) % 2 ^ 32)
    (hs : s.sby = 3) (hm : s.standby.mergeList = []) :
    (s.armHost k r).sby = 4 ∧ (s.armHost k r).armed = true ∧ (s.armHost k r).ssw.spliceHandle = k
      ∧ (s.armHost k r).fld F.SSW_SPLICE_AT_REEL = r := by
  have hr : r < 2 ^ 32 := hn ▸ Nat.mod_lt _ (by decide)
  have hlead : (s.setFld F.SSW_SPLICE_AT_REEL r).spliceLead = 64 := by
    have hreg : ((s.setFld F.SSW_SPLICE_AT_REEL r).reg R.SSW_SPLICE_AT).toNat = r :=
      (State.toNat_reg _ _).trans (State.fld_setFld_fits s F.SSW_SPLICE_AT_REEL r rfl hr)
    rw [State.spliceLead, State.reg_setFld_ne _ _ _ R.SSW_REEL_NOW (by decide), hreg, hn]
    exact seqDiff_add _ (by decide)
  have hsby : (s.setFld F.SSW_SPLICE_AT_REEL r).sby = 3 := (State.fld_setFld_apart _ _ _ _ (by decide)).trans hs
  have hstandby : (s.setFld F.SSW_SPLICE_AT_REEL r).standby = s.standby := by
    have hb : (s.setFld F.SSW_SPLICE_AT_REEL r).activeIsB = s.activeIsB := State.flag_setFld_apart _ _ _ _ (by decide)
    rw [State.standby, State.standby, hb]
    rfl
  have hat := State.armSplice_of_no_pairs hsby (by omega) (by omega) (by rw [hstandby, hm])
  obtain ⟨t, ht⟩ : ∃ t, s.armAt r = t := ⟨_, rfl⟩
  have hfld : t.fld F.SSW_SPLICE_STATE_STATE = 1 ∧ t.sby = 4 ∧ t.fld F.SSW_SPLICE_AT_REEL = r := by
    rw [← ht, State.armAt, hat, State.showPool_of_no_new rfl, State.spliceResult, State.setSby, State.sby]
    simp (disch := decide) only [State.fld_setFld_apart, State.fld_updCirc]
    exact ⟨State.fld_setFld_fits _ _ _ rfl (by decide), State.fld_setFld_fits _ _ _ rfl (by decide),
      State.fld_setFld_fits _ _ _ rfl hr⟩
  have harm : t.armed = true := by rw [State.armed, hfld.1]; rfl
  rw [State.armHost, ht, if_pos harm]
  exact ⟨hfld.2.1, harm, rfl, hfld.2.2⟩

theorem execSpliceCancel_of_waiting {x : Handle} (hr : Runs s Op.SPLICE_CANCEL h e [])
    (hx : (s.begun h e).openSplice (e.param 0 4) = some x) (hw : x.state = .waiting) :
    execSpliceCancel h s = .next (((s.begun h e).finish x.handle Out.NOT_SPLICED St.CANCELLED 0).finish e.handle Out.OK 0 0) := by
  rw [execSpliceCancel, State.run_of_runs hr]
  simp only [hx, hw, if_true]

theorem execSpliceCancel_of_none (hr : Runs s Op.SPLICE_CANCEL h e []) (hx : (s.begun h e).openSplice (e.param 0 4) = none) :
    execSpliceCancel h s = .next ((s.begun h e).fail e.handle St.NOT_ARMED 0) := by
  rw [execSpliceCancel, State.run_of_runs hr]
  simp only [hx]

-- Circuits, merge pairs and CMC modes ---------------------------------------------------------------------------

/-- While the standby takes neither job nor image, a circuit command of a unit without a journal enters its change for the next reel,
unless its circuit's state refuses it. -/
theorem execCircSet_of_solo (hr : Runs s Op.CIRC_SET h e []) (h2 : s.sby ≠ 2) (h6 : s.sby ≠ 6) (hro : s.role = 4)
    (hj : s.pair.joinLead = false)
    (hok : e.param 8 1 = 0 ∧ (s.begun h e).deleting (e.param 0 2) = false ∧ s.active.circAt (e.param 0 2) = none
      ∨ e.param 8 1 = 1 ∧ (s.active.circAt (e.param 0 2)).isSome = true) :
    execCircSet h s = .next ((s.begun h e).updCirc fun c => { c with changes := c.changes ++
      [{ reel := seqNext (s.reg R.SSW_REEL_NOW).toNat, circuit := e.param 0 2, flags := e.param 2 2, label := e.param 4 4
         add := e.param 8 1 == 0, handle := e.handle }] }) := by
  have hrole : (s.begun h e).role = 4 := (s.begun_role h e).trans hro
  have hjour : (s.begun h e).journals = false := by
    rw [State.journals, hrole, s.begun_joinLead h e, hj]
    rfl
  have hreel : (s.begun h e).effectReel = seqNext (s.reg R.SSW_REEL_NOW).toNat := by
    rw [State.effectReel, hrole, s.begun_reg h e (by decide)]
    exact if_pos (by simp)
  rw [execCircSet, if_neg (not_or.mpr ⟨h2, h6⟩), State.run_of_runs hr]
  have hsend : (s.begun h e).sendChange e.handle (seqNext (s.reg R.SSW_REEL_NOW).toNat) e.params = s.begun h e := by
    rw [State.sendChange, hjour]
    rfl
  obtain ⟨ha, hd, hc⟩ | ⟨ha, hc⟩ := hok
  · simp [ha, hd, hc, hreel, hsend, hjour]
  · simp [ha, hc, hreel, hsend, hjour]

theorem execCircSet_of_present (hr : Runs s Op.CIRC_SET h e []) (h2 : s.sby ≠ 2) (h6 : s.sby ≠ 6) (ha : e.param 8 1 = 0)
    (hd : (s.begun h e).deleting (e.param 0 2) = false) (hc : (s.active.circAt (e.param 0 2)).isSome = true) :
    execCircSet h s = .next ((s.begun h e).fail e.handle St.ID_PRESENT 0) := by
  rw [execCircSet, if_neg (not_or.mpr ⟨h2, h6⟩), State.run_of_runs hr]
  simp [ha, hd, hc]

theorem execCircSet_of_compiling (hs : s.sby = 2 ∨ s.sby = 6) : execCircSet h s = .next s := by
  rw [execCircSet, if_pos hs]

theorem execMergeReanchor_of_pair {p : LanePair} (hr : Runs s Op.MERGE_REANCHOR h e [])
    (hp : (s.begun h e).pairOf (e.param 0 1) = some p) :
    let r := (s.begun h e).reanchor p
    execMergeReanchor h s = .next ((r.1.setPair r.2).finish e.handle Out.OK 0 (r.2.anchor.getD 0 + 2 ^ 32 *
      (if p.anchor.isSome then (r.2.anchor.getD 0 + 2 ^ 32 - p.anchor.getD 0) % 2 ^ 32 else 0))) := by
  intro r
  rw [execMergeReanchor, State.run_of_runs hr]
  simp only [hp]
  rfl

end

/-- Settles O14: each clause is the law of its command in the state the clause names. -/
theorem hostTakes : Obligations.HostTakes := by
  unfold Obligations.HostTakes
  intro s h e u
  refine ⟨fun hr hro hh => ?discard, fun hr hro hh => ?not_held, fun hr hro hh => ?splice, fun hr hro hh hw hm => ?armed,
    fun hr hro hh => ?not_compiled, fun x hr hx hw => ?waiting, fun hr hx => ?not_open, fun hr h2 h6 hro hj hok => ?change,
    fun hr h2 h6 ha hd hc => ?present, fun hs => ?compiling, fun p hr hp => ?reanchor, fun hr hm => ?mode_none,
    fun hr hm => ?terminated, fun hr hm => ?courier⟩
  case discard => rw [exec_takeDiscard, execTakeDiscard_of_solo hr hro, if_pos hh]
  case not_held => rw [exec_takeDiscard, execTakeDiscard_of_solo hr hro, if_neg (by simp [hh])]
  case splice => rw [exec_takeSplice, execTakeSplice_of_solo hr hro, if_pos hh]
  case armed =>
    have hs3 : s.sby = 3 := by
      simp only [State.holdsTake, Bool.and_eq_true, beq_iff_eq] at hh
      exact hh.1.1
    refine Completes.intro (c := .takeSplice h) ?_ (State.armHost_of_no_pairs (s := u) e.handle
      (by rw [s.begun_reg h e (by decide)]) ((s.begun_sby h e).trans hs3) (by rw [s.begun_standby h e, hm]))
    rw [exec_takeSplice, execTakeSplice_of_solo hr hro, if_pos hh, if_pos hw]
  case not_compiled => rw [exec_takeSplice, execTakeSplice_of_solo hr hro, if_neg (by simp [hh])]
  case waiting => exact execSpliceCancel_of_waiting hr hx hw
  case not_open => exact execSpliceCancel_of_none hr hx
  case change => exact execCircSet_of_solo hr h2 h6 hro hj hok
  case present => exact execCircSet_of_present hr h2 h6 ha hd hc
  case compiling => exact execCircSet_of_compiling hs
  case reanchor => exact execMergeReanchor_of_pair hr hp
  case mode_none => rw [exec_laneCmc, execLaneCmc, State.run_of_runs hr]; simp only [hm]; rfl
  case terminated => rw [exec_laneCmc, execLaneCmc, State.run_of_runs hr]; simp only [hm]; rfl
  case courier => rw [exec_laneCmc, execLaneCmc, State.run_of_runs hr]; simp only [hm]; rfl

-- Pair, firmware and facets -------------------------------------------------------------------------------------

section
variable {s : State} {h : Word} {e : Handle}

theorem execPairJoin_of_ready (hr : Runs s Op.PAIR_JOIN h e []) (hf : s.fenced = true) (hro : s.role = 0)
    (hl : (s.begun h e).fenceLive = 0) (hk : s.mss.pairKey.isSome = true) (hi : s.reg R.PAIR_ID ≠ 0)
    (hs : s.sync 128 = 2 ∨ s.sync 129 = 2) :
    execPairJoin h s = .next (((((((s.begun h e).closeSession.setRole 1).setFld F.PAIR_CONT_STAT_STATE 1).setFlag
      F.SSW_SBY_PORT_CONTINUITY_EN true).cand7On).updPair fun p =>
      { p with joinStep := 1, joinLead := false, joinHandle := e.handle, align := none }).drawNonce) := by
  have hsync (n : Nat) (hn : F.PAIR_CONT_STAT_OUTSTANDING.apart (F.LANE_SYNC_STATE_STATE n) = true) :
      (s.begun h e).sync n = s.sync n := s.begun_fld h e _ hn
  have hmate : ¬ ((s.begun h e).sync 128 ≠ 2 ∧ (s.begun h e).sync 129 ≠ 2) := by
    rw [hsync 128 (by decide), hsync 129 (by decide)]
    omega
  have hkey : (s.begun h e).mss.pairKey.isNone = false := by
    rw [State.begun_mss, Option.isNone_eq_false_iff]
    exact hk
  rw [execPairJoin, State.run_of_runs hr]
  simp only [State.begun_fenced, State.begun_role, hf, hro, hl, hkey, s.begun_reg h e (o := R.PAIR_ID) (by decide), if_neg hi,
    if_neg hmate, Bool.not_true, Bool.false_eq_true, ne_eq, not_true_eq_false, or_self, if_false]

theorem execPairJoin_of_wrong_role (hr : Runs s Op.PAIR_JOIN h e []) (hf : s.fenced = false ∨ s.role ≠ 0) :
    execPairJoin h s = .next ((s.begun h e).fail e.handle St.BAD_ROLE 0) := by
  rw [execPairJoin, State.run_of_runs hr]
  refine congrArg _ (if_pos ?_)
  rw [State.begun_fenced, State.begun_role]
  simpa using hf

/-- The lead hands a handover to the follower, which checks it. -/
theorem execPairHandover_of_runs (hr : Runs s Op.PAIR_HANDOVER h e []) :
    let u := s.begun h e
    execPairHandover h s = .next (if s.role = 3 then
        if s.session ≠ 2 then u.fail e.handle St.ISOLATED 0
        else ((u.setFlag F.PAIR_STATE_HANDOVER true).updPair fun p =>
          { p with handoverHandle := e.handle, handoverAhead := false }).sendRecord 0x70 0 (beBytes 4 e.handle)
      else if s.role = 2 then
        if u.handoverRefusal ≠ 0 then (u.noteExhausted u.handoverRefusal).fail e.handle u.handoverRefusal 0
        else u.acceptHandover e.handle
      else u.fail e.handle St.BAD_ROLE 0) := by
  intro u
  rw [execPairHandover, State.run_of_runs hr, ← s.begun_role h e, ← s.begun_session h e]

/-- A unit with no mate in evidence becomes SOLO with the next epoch, or as the lead it was with the claim it holds. -/
theorem execPairSolo_of_no_mate (hr : Runs s Op.PAIR_SOLO h e []) (hs : s.session ≠ 2)
    (hm : s.flag F.PAIR_STATE_EV_MATE_LANES = false) (hb : s.flag F.PAIR_STATE_EV_HEARTBEAT = false) :
    let u := s.begun h e
    (∀ ep, s.role = 0 → u.fenceLive = 0 → u.nextEpoch = some ep → execPairSolo h s = .next (u.updPair fun p =>
      { p with change := some { role := 4, claim := 2 * ep + s.unit, clears := true, handle := e.handle } })) ∧
    (s.role = 3 → execPairSolo h s = .next (u.updPair fun p =>
      { p with change := some { role := 4, claim := u.claim, handle := e.handle } })) := by
  intro u
  have hpresent : ¬ (u.session = 2 ∨ u.flag F.PAIR_STATE_EV_MATE_LANES ∨ u.flag F.PAIR_STATE_EV_HEARTBEAT) := by
    rw [s.begun_session h e, s.begun_flag h e _ (by decide), s.begun_flag h e _ (by decide), hm, hb]
    simp [hs]
  refine ⟨fun ep hro hl hn => ?_, fun hro => ?_⟩
  · rw [execPairSolo, State.run_of_runs hr]
    rw [if_neg (by rw [s.begun_role h e, hro]; decide), if_neg (fun hc => hc.2 hl), if_neg hpresent,
      if_neg (by rw [s.begun_role h e, hro]; decide), hn, ← s.begun_unit h e]
  · rw [execPairSolo, State.run_of_runs hr]
    rw [if_neg (by rw [s.begun_role h e, hro]; decide), if_neg (by rw [s.begun_role h e, hro]; simp), if_neg hpresent,
      if_pos ((s.begun_role h e).trans hro)]

theorem execPairSolo_of_other_role (hr : Runs s Op.PAIR_SOLO h e []) (h0 : s.role ≠ 0) (h3 : s.role ≠ 3) :
    execPairSolo h s = .next ((s.begun h e).fail e.handle St.BAD_ROLE 0) := by
  rw [execPairSolo, State.run_of_runs hr, if_pos (by rw [s.begun_role h e]; exact ⟨h0, h3⟩)]

/-- FW_ACTIVATE arms the trial of the slot staged, and restarts the management side for it. -/
theorem execFwActivate_of_runs (hr : Runs s Op.FW_ACTIVATE h e []) (bursts : List Burst) :
    let u := s.begun h e
    execFwActivate h bursts s = .next (match s.mss.staged with
      | none => u.fail e.handle St.NO_STAGED_IMAGE 0
      | some (k, _) => ((((u.setFld F.MSS_FW_TRIAL_TRY_SLOT k).setFlag F.MSS_FW_TRIAL_ARMED true).setFlag
          F.MSS_FW_TRIAL_TRIED false).updMss fun x =>
          { x with activateHandle := e.handle, activateFailed := false }).mgmtRestart 2 bursts) := by
  intro u
  rw [execFwActivate, State.run_of_runs hr, s.begun_mss h e] <;> rfl

theorem execFacetRetire_of_spare (hr : Runs s Op.FACET_RETIRE h e []) (hf : (s.begun h e).facetState (e.param 0 2) = 1)
    (hs : (s.begun h e).lowestSpare.isSome = true) (hv : (s.begun h e).reservedFor (e.param 0 2) = none) :
    execFacetRetire h s = .next (((s.begun h e).setCtx e.handle (e.param 0 2 + 1)).retire (e.param 0 2) false) := by
  have hsome : ¬ (s.begun h e).lowestSpare.isNone = true := by rw [← Option.not_isSome, hs]; simp
  rw [execFacetRetire, State.run_of_runs hr]
  simp only [hf, hv, if_neg hsome, ne_eq, not_true_eq_false, if_false]

theorem execFacetRetire_of_other (hr : Runs s Op.FACET_RETIRE h e []) (hf : (s.begun h e).facetState (e.param 0 2) ≠ 1) :
    execFacetRetire h s = .next ((s.begun h e).fail e.handle St.FACET_STATE 0) := by
  rw [execFacetRetire, State.run_of_runs hr, if_pos hf]

theorem execFacetRetire_of_no_spare (hr : Runs s Op.FACET_RETIRE h e []) (hf : (s.begun h e).facetState (e.param 0 2) = 1)
    (hs : (s.begun h e).lowestSpare = none) :
    execFacetRetire h s = .next ((s.begun h e).fail e.handle St.NO_SPARE 0) := by
  rw [execFacetRetire, State.run_of_runs hr, if_neg (not_not_intro hf), hs]
  rfl

end

/-- Settles O15: each clause is the law of its command in the role or the state the clause names. -/
theorem hostPair : Obligations.HostPair := by
  unfold Obligations.HostPair
  intro s h e u
  refine ⟨fun hr hf hro hl hk hi hs => ?join, fun hr hf => ?not_joined, fun hr hro hh => ?accept, fun hr hro hs => ?ask,
    fun hr hro hs => ?isolated, fun hr h2 h3 => ?no_mate, fun ep hr hro hl hs hm hb hn => ?solo, fun hr hro hs hm hb => ?solo_lead,
    fun hr h0 h3 => ?not_solo, fun k v bursts hr hk => ?activate, fun bursts hr hk => ?no_image, fun hr hf hs hv => ?retire,
    fun hr hf => ?not_in_use, fun hr hf hs => ?no_spare⟩
  case join => exact execPairJoin_of_ready hr hf hro hl hk hi hs
  case not_joined => exact execPairJoin_of_wrong_role hr hf
  case accept =>
    rw [exec_pairHandover, execPairHandover_of_runs hr, if_neg (by omega), if_pos hro, if_neg (not_not_intro hh),
      ← s.begun_unit h e]
    rfl
  case ask => rw [exec_pairHandover, execPairHandover_of_runs hr, if_pos hro, if_neg (not_not_intro hs)]
  case isolated => rw [exec_pairHandover, execPairHandover_of_runs hr, if_pos hro, if_pos hs]
  case no_mate => rw [exec_pairHandover, execPairHandover_of_runs hr, if_neg h3, if_neg h2]
  case solo => exact (execPairSolo_of_no_mate hr hs hm hb).1 ep hro hl hn
  case solo_lead => exact (execPairSolo_of_no_mate hr hs hm hb).2 hro
  case not_solo => exact execPairSolo_of_other_role hr h0 h3
  case activate => rw [exec_fwActivate, execFwActivate_of_runs hr, hk]
  case no_image => rw [exec_fwActivate, execFwActivate_of_runs hr, hk]
  case retire => exact execFacetRetire_of_spare hr hf hs hv
  case not_in_use => exact execFacetRetire_of_other hr hf
  case no_spare => exact execFacetRetire_of_no_spare hr hf hs

end Sys2Proof.Machine
end

section
/-!
PROOFS. Block keys, the keep-alive and the causes of the fence.
-/
namespace Sys2Proof.Machine
open Sys2Proof

-- Block keys (R10, R37) -----------------------------------------------------------------------------------------

theorem State.wkWrite_of_open {s : State} {b : KeyBlock} (h : s.keyOpen b = true) (matters : Bool) (act : State → State) :
    s.wkWrite b matters act = act (s.setKey b false) := if_pos h

theorem State.wkWrite_of_closed {s : State} {b : KeyBlock} (h : s.keyOpen b = false) (matters : Bool) (act : State → State) :
    s.wkWrite b matters act = if matters then s.logEvent Ev.KEY_REFUSED noSource [] else s :=
  if_neg (by rw [h]; decide)

/-- What opening or closing a key leaves. -/
theorem State.setKey_keys (s : State) (b : KeyBlock) (v : Bool) : (s.setKey b v).keyOpen b = v ∧
    (∀ c, c ≠ b → (s.setKey b v).keyOpen c = s.keyOpen c) ∧ s.setKey b v = { s with gctl := (s.setKey b v).gctl } :=
  ⟨State.keyOpen_setKey_same s b v, fun c hc => State.keyOpen_setKey_ne s b c v hc, rfl⟩

/-- A cause detected is recorded. -/
theorem State.recorded_detect_same (s : State) (c : FenceCause) : (s.detect c).recorded c = true := by
  have h : (s.detect c).fld ⟨R.GCTL_FENCE_CAUSE, c.bit, 1⟩ = 1 :=
    State.fld_setFld_fits _ _ _ (by cases c <;> rfl) Nat.one_lt_two
  rw [State.recorded, State.flag, h]
  rfl

theorem State.reg_detect_ne (s : State) (c : FenceCause) {o : Nat} (h : o ≠ R.GCTL_FENCE_CAUSE) : (s.detect c).reg o = s.reg o :=
  State.reg_setFld_ne _ _ _ _ h.symm

/-- Settles O17: each clause is the law of the key, or of a write under the key of GCTL. -/
theorem writeKeys : Obligations.WriteKeys := by
  unfold Obligations.WriteKeys
  refine fun s b v => ⟨Completes.intro rfl ?key, Completes.intro rfl ?timeout, fun ho hv => Completes.intro rfl ?request,
    fun ho hv => ?no_request, fun ho hv => ?refused, fun ho hv => ?same⟩
  case key => exact s.setKey_keys b _
  case timeout => exact s.setKey_keys b false
  case request =>
    rw [State.writeFenceCtl, State.wkWrite_of_open ho, if_pos hv]
    exact ⟨State.recorded_detect_same _ _, State.keyOpen_setKey_same s .gctl false, rfl, rfl, rfl,
      fun o hne => State.reg_detect_ne _ _ hne⟩
  case no_request =>
    rw [exec_fenceReq, execFenceReq, State.writeFenceCtl, State.wkWrite_of_open ho, if_neg (by simp [hv])]
  case refused =>
    rw [exec_fenceReq, execFenceReq, State.writeFenceCtl, State.wkWrite_of_closed ho, if_pos (by simpa using hv)]
  case same =>
    rw [exec_fenceReq, execFenceReq, State.writeFenceCtl, State.wkWrite_of_closed ho, if_neg (by simp [hv])]

-- The keep-alive (R26, R29, R40) --------------------------------------------------------------------------------

/-- The age has reached its limit, and the cause is not recorded yet. -/
theorem State.judgeAge_of_limit {s : State} (ha : s.gctl.everAlive = true) (hg : 10000 ≤ s.fld F.GCTL_ALIVE_AGE_AGE_MS)
    (hr : s.recorded .flywheelTimeout = false) : s.judgeAge = s.detect .flywheelTimeout :=
  if_pos (by simp [State.causeHolds, ha, hg, hr])

theorem State.judgeAge_of_young {s : State} (h : s.gctl.everAlive = false ∨ s.fld F.GCTL_ALIVE_AGE_AGE_MS < 10000) :
    s.judgeAge = s := by
  refine if_neg ?_
  simp only [State.causeHolds, Bool.and_eq_true, decide_eq_true_eq, not_and]
  rintro ⟨ha, hg⟩
  rcases h with h | h
  · simp [h] at ha
  · omega

/-- Judging the age records at most a cause. -/
theorem State.judgeAge_cases (s : State) : s.judgeAge = s ∨ s.judgeAge = s.detect .flywheelTimeout := by
  unfold State.judgeAge
  split
  · exact .inr rfl
  · exact .inl rfl

theorem State.judgeAge_flag (s : State) (g : Fld) (hg : g.reg ≠ R.GCTL_FENCE_CAUSE) : s.judgeAge.flag g = s.flag g := by
  obtain h | h := s.judgeAge_cases <;> rw [h]
  exact State.flag_setFld_apart _ _ _ _ (Fld.apart_of_reg hg.symm)

@[simp] theorem State.judgeAge_mss (s : State) : s.judgeAge.mss = s.mss := by
  obtain h | h := s.judgeAge_cases <;> rw [h]
  rfl

/-- The state in which a keep-alive has restarted the age. -/
def State.aged (s : State) : State :=
  ((s.judgeAge.setFld F.GCTL_ALIVE_AGE_AGE_MS 0).updGctl fun g => { g with everAlive := true, ageNs := 0 }).updMss fun x =>
    { x with autoDone := false }

theorem State.aged_flag (s : State) (g : Fld) (hg : g.reg ≠ R.GCTL_FENCE_CAUSE) (hg' : g.reg ≠ R.GCTL_ALIVE_AGE) :
    s.aged.flag g = s.flag g :=
  (State.flag_setFld_apart _ _ _ _ (Fld.apart_of_reg hg'.symm)).trans (s.judgeAge_flag g hg)

theorem State.aged_age (s : State) : s.aged.fld F.GCTL_ALIVE_AGE_AGE_MS = 0 := State.fld_setFld_fits _ _ _ rfl (by decide)

theorem State.aged_everAlive (s : State) : s.aged.gctl.everAlive = true := rfl

/-- After a keep-alive the flywheel applies while the management side is in reset, and only then. -/
theorem State.aged_flywheel (s : State) : s.aged.flywheel = s.flag F.GCTL_STATE_MGMT_IN_RESET := by
  rw [State.flywheel, s.aged_age, s.aged_everAlive, s.aged_flag _ (by decide) (by decide)]
  simp

/-- The flywheel is shown beside what it depends on. -/
theorem State.setFlag_flywheel (s : State) (b : Bool) : (s.setFlag F.GCTL_STATE_FLYWHEEL b).flywheel = s.flywheel := by
  rw [State.flywheel, State.flag_setFlag_apart _ _ _ _ (by decide), State.fld_setFlag_apart _ _ _ _ (by decide)]
  rfl

/-- While the management side is in reset a keep-alive restarts the age alone, and the flywheel applies. -/
theorem State.keepAlive_of_reset {s : State} (h : s.flag F.GCTL_STATE_MGMT_IN_RESET = true) :
    s.keepAlive = s.aged.setFlag F.GCTL_STATE_FLYWHEEL true := by
  have hfly : s.aged.flywheel = true := (s.aged_flywheel).trans h
  unfold State.keepAlive
  extract_lets s1 first s2 s3 up starts s4 s5 s6 s7 s8
  have h3 : s3 = s.aged := rfl
  have hup : up = false := by simp only [up, h3, s.aged_flag F.GCTL_STATE_MGMT_IN_RESET (by decide) (by decide), h, Bool.not_true,
    Bool.false_and]
  have h7 : s7 = s.aged := by
    simp only [s7, s6, s5, s4, hup, h3, Bool.false_and, Bool.false_eq_true, if_false, State.when_false]
  have h8 : s8 = s.aged.setFlag F.GCTL_STATE_FLYWHEEL true := by simp only [s8, h7, hfly]
  have hfw : s8.fwRuns = false := by
    rw [h8, State.fwRuns, State.setFlag_flywheel, hfly, Bool.not_true, Bool.and_false]
  rw [hfw, h8]
  rfl

/-- While firmware has run before and core 0 is out of reset, a keep-alive ends the flywheel, and firmware goes on. -/
theorem State.keepAlive_of_running {s : State} (h : s.flag F.GCTL_STATE_MGMT_IN_RESET = false)
    (hu : s.mss.fwUp = true) (ha : s.gctl.everAlive = true) (hy : s.fld F.GCTL_ALIVE_AGE_AGE_MS < 10000) :
    s.keepAlive = ((((s.setFld F.GCTL_ALIVE_AGE_AGE_MS 0).updGctl fun g => { g with everAlive := true, ageNs := 0 }).updMss fun x =>
      { x with autoDone := false }).setFlag F.GCTL_STATE_FLYWHEEL false).firmwareResumes := by
  have hfly : s.aged.flywheel = false := (s.aged_flywheel).trans h
  have hj : s.judgeAge = s := State.judgeAge_of_young (.inr hy)
  have haged : s.aged = ((s.setFld F.GCTL_ALIVE_AGE_AGE_MS 0).updGctl fun g => { g with everAlive := true, ageNs := 0 }).updMss
      fun x => { x with autoDone := false } := by rw [State.aged, hj]
  unfold State.keepAlive
  extract_lets s1 first s2 s3 up starts s4 s5 s6 s7 s8
  have h3 : s3 = s.aged := rfl
  have hmss : s.aged.mss.fwUp = true := by
    rw [← hu, ← s.judgeAge_mss]
    rfl
  have hstarts : starts = false := by simp only [starts, h3, hmss, Bool.not_true]
  have hfirst : first = false := by simp only [first, s1, hj, ha, Bool.not_true]
  have h7 : s7 = s.aged := by
    simp only [s7, s6, s5, s4, hstarts, hfirst, h3, Bool.false_and, Bool.and_false, Bool.false_eq_true, if_false, State.when_false]
  have h8 : s8 = s.aged.setFlag F.GCTL_STATE_FLYWHEEL false := by simp only [s8, h7, hfly]
  have hfw : s8.fwRuns = true := by
    have : (s.aged.setFlag F.GCTL_STATE_FLYWHEEL false).mss.fwUp = true := hmss
    rw [h8, State.fwRuns, State.setFlag_flywheel, hfly, this]
    rfl
  rw [if_pos hfw, h8, haged]

-- The fence taking effect (R32) ---------------------------------------------------------------------------------

/-- Without the thermal cause the boundary clears the mark of a new cause, and the unit enters the fence where it is not fenced. -/
theorem execFenceTakesEffect_of_no_thermal {s : State} (hc : s.gctl.causeNew = true) (ht : s.recorded .thermal = false) :
    let t := s.updGctl fun g => { g with causeNew := false }
    execFenceTakesEffect s = .next (if !s.fenced then (t.fenceAtSplice (seqNext s.reelSeq)).enterFence
      else if s.pair.joinStep ≠ 0 then t.joinFail St.JOIN_ABORTED
      else match s.pair.change with
        | some c => if c.clears then t.dropChange c else t
        | none => t) := by
  intro t
  have ht' : (s.updGctl fun g => { g with
      causeNew := false, thermalLeft := if s.recorded .thermal && !g.lanesDown && g.thermalLeft == 0 then 2 else g.thermalLeft }) = t := by
    rw [ht]
    rfl
  rw [execFenceTakesEffect, if_neg (by simp [hc]), ht']
  rfl

/-- Settles O18: each clause is the law of the keep-alive, of its age, or of the boundary at which a fence takes effect. -/
theorem flywheel : Obligations.Flywheel := by
  unfold Obligations.Flywheel
  intro s
  refine ⟨fun v hr => Completes.intro rfl ?in_reset, fun v hr _ hu ha hy => ?running, Completes.intro rfl ?shown,
    fun ha hg hr => ?limit, fun h => ?young, Completes.intro rfl ?link, fun hc => ?no_cause, fun hc ht hf => ?enters,
    fun hc ht hf hj hp => ?fenced⟩
  case in_reset =>
    rw [State.keepAlive_of_reset hr]
    refine ⟨?_, rfl, rfl, rfl, State.flag_setFlag _ _ _ rfl rfl, ?_⟩
    · rw [State.fld_setFlag_apart _ _ _ _ (by decide), s.aged_age]
    · rw [← s.judgeAge_mss]
      rfl
  case running => rw [exec_gctlAlive, execGctlAlive, State.keepAlive_of_running hr hu ha hy]
  case shown =>
    exact ⟨State.flag_setFlag _ _ _ rfl rfl, (OnlyFields.refl _ s).setFlag _ _ (by simp)⟩
  case limit => rw [exec_flywheelTimeout, execFlywheelTimeout, State.judgeAge_of_limit ha hg hr]
  case young => rw [exec_flywheelTimeout, execFlywheelTimeout, State.judgeAge_of_young h]
  case link => exact ⟨State.recorded_detect_same _ _, rfl, rfl, rfl, rfl⟩
  case no_cause => rw [exec_fenceTakesEffect, execFenceTakesEffect, if_pos (by simp [hc])]
  case enters => rw [exec_fenceTakesEffect, execFenceTakesEffect_of_no_thermal hc ht, if_pos (by simp [hf])]
  case fenced =>
    rw [exec_fenceTakesEffect, execFenceTakesEffect_of_no_thermal hc ht, if_neg (by simp [hf]), if_neg (not_not_intro hj), hp]

end Sys2Proof.Machine
end

section
/-!
PROOFS. Power-on reset, the start-up tests and the boot ROM's choice.
-/
namespace Sys2Proof.Machine
open Sys2Proof

-- PORST_N (R466) ------------------------------------------------------------------------------------------------

/-- Beside the fuses and the always-on domain a register field has its reset value. -/
theorem State.porst_fld (s : State) (g : Fld) (hg : keptFields.all (·.apart g) = true) : s.porst.fld g = State.reset.fld g := by
  simp only [keptFields, List.all_cons, List.all_nil, Bool.and_true, Bool.and_eq_true] at hg
  obtain ⟨h1, h2, h3, h4⟩ := hg
  have hr : s.porst.regs = (keptFields.foldl (fun r f => r.setFld f (s.fld f)) State.reset).regs := by
    unfold State.porst State.updMss State.updHif
    dsimp only
  rw [State.fld, State.reg, hr, ← State.reg, ← State.fld]
  simp only [keptFields, List.foldl_cons, List.foldl_nil]
  rw [State.fld_setFld_apart _ _ _ _ h4, State.fld_setFld_apart _ _ _ _ h3, State.fld_setFld_apart _ _ _ _ h2,
    State.fld_setFld_apart _ _ _ _ h1]

theorem State.porst_fenced (s : State) : s.porst.fenced = true := by
  rw [State.fenced, State.flag, s.porst_fld _ (by decide)]
  decide

theorem State.porst_recorded_start (s : State) : s.porst.recorded .start = true := by
  rw [State.recorded, State.flag, s.porst_fld _ (by decide)]
  decide

/-- What PORST_N keeps, and what it leaves empty. -/
theorem State.porst_kept (s : State) : s.porst.gctl.porstLow = false ∧ s.porst.log = [] ∧ s.porst.mirror = (s.mirror ++ s.log).drop ((s.mirror ++ s.log).length - 16384)
    ∧ s.porst.hif.hostMem = s.hif.hostMem ∧ s.porst.mss.slotA = s.mss.slotA ∧ s.porst.mss.slotB = s.mss.slotB
    ∧ s.porst.mss.ownerHash = s.mss.ownerHash ∧ s.porst.mss.pairKey = none ∧ s.porst.lanes = [] ∧ s.porst.tai = 0
    ∧ s.porst.reelSeq = 0 ∧ s.porst.pending = s.pending := by
  unfold State.porst State.updMss State.updHif keptFields
  simp only [List.foldl_cons, List.foldl_nil]
  exact ⟨rfl, rfl, trivial, trivial, trivial, trivial, trivial, rfl, rfl, rfl, rfl, trivial⟩

/-- The device after PORST_N at the release, which resets a test access port that drives pins and samples the straps. -/
def State.released (s : State) (ir : Nat) (straps : BitVec 4) : State :=
  (((s.when (drivesPins ir) State.tapReset).setFld F.GCTL_STRAP_STRAP straps.toNat).setFld F.MSS_BOOT_BOOT_SRC
    (straps.toNat / 4)).setFld F.I3CT_STAT_STATIC_ADDR (0x58 + straps.toNat % 4)

theorem execPorstNRelease_of_low {s : State} (h : s.gctl.porstLow = true) (straps : BitVec 4) (low : Bool) :
    execPorstNRelease straps low s = .next ((s.porst.released s.jtag.ir straps).when low State.tamper) := by
  unfold execPorstNRelease
  rw [if_neg (by simp [h])]
  rfl

theorem execPorstNRelease_of_high {s : State} (h : s.gctl.porstLow = false) (straps : BitVec 4) (low : Bool) :
    execPorstNRelease straps low s = .next s := by
  unfold execPorstNRelease
  rw [if_pos (by simp [h])]

/-- Resetting the test access port leaves everything else. -/
theorem State.when_tapReset (s : State) (b : Bool) : (s.when b State.tapReset).gctl = s.gctl
    ∧ (s.when b State.tapReset).hif = s.hif ∧ (s.when b State.tapReset).pending = s.pending
    ∧ (s.when b State.tapReset).fenced = s.fenced := by
  cases b <;> exact ⟨rfl, rfl, rfl, rfl⟩

/-- What a released unit has beside the straps. -/
theorem State.released_kept (s : State) (ir : Nat) (straps : BitVec 4) : (s.released ir straps).gctl = s.gctl
    ∧ (s.released ir straps).hif = s.hif ∧ (s.released ir straps).pending = s.pending := by
  obtain ⟨hg, hh, hp, -⟩ := s.when_tapReset (drivesPins ir)
  exact ⟨hg, hh, hp⟩

/-- What a released unit has of the straps in its registers. -/
theorem State.released_fields (s : State) (ir : Nat) (straps : BitVec 4) : (s.released ir straps).fenced = s.fenced
    ∧ (s.released ir straps).fld F.GCTL_STRAP_STRAP = straps.toNat
    ∧ (s.released ir straps).fld F.MSS_BOOT_BOOT_SRC = straps.toNat / 4
    ∧ (s.released ir straps).fld F.I3CT_STAT_STATIC_ADDR = 0x58 + straps.toNat % 4 := by
  have hs := straps.isLt
  obtain ⟨-, -, -, hf⟩ := s.when_tapReset (drivesPins ir)
  unfold State.released
  refine ⟨?_, ?_, ?_, ?_⟩
  · rw [State.fenced, State.flag_setFld_apart _ _ _ _ (by decide), State.flag_setFld_apart _ _ _ _ (by decide),
      State.flag_setFld_apart _ _ _ _ (by decide), ← State.fenced, hf]
  · rw [State.fld_setFld_apart _ _ _ _ (by decide), State.fld_setFld_apart _ _ _ _ (by decide),
      State.fld_setFld_fits _ _ _ rfl hs]
  · rw [State.fld_setFld_apart _ _ _ _ (by decide), State.fld_setFld_fits _ _ _ rfl (show straps.toNat / 4 < 4 by omega)]
  · refine State.fld_setFld_fits _ _ _ rfl ?_
    change 0x58 + straps.toNat % 4 < 128
    omega

/-- Settles O19: each clause reads what `State.porst` leaves, with the straps of the release beside it. -/
theorem powerOn : Obligations.PowerOn := by
  unfold Obligations.PowerOn
  intro s
  obtain ⟨hlow, hlog, hmir, hmem, ha, hb, hown, hkey, hlan, htai, hseq, hpend⟩ := s.porst_kept
  have hfen := s.porst_fenced
  have hstart := s.porst_recorded_start
  refine ⟨⟨_, rfl, ?low⟩, fun straps hl => ⟨_, (exec_porstNRelease s).trans (execPorstNRelease_of_low hl straps false), ?released⟩, fun straps hl => ?tampered,
    fun straps low hh => ?high⟩
  case low =>
    generalize s.porst = p at *
    exact ⟨rfl, hfen, hstart, hlog, hmir, hmem, ha, hb, hown, hkey, hlan, htai, hseq, hpend⟩
  case released =>
    generalize s.porst = p at *
    obtain ⟨hg, hhif, hp⟩ := p.released_kept s.jtag.ir straps
    obtain ⟨hf, hstrap, hsrc, hadr⟩ := p.released_fields s.jtag.ir straps
    exact ⟨by rw [State.when_false, hg, hlow], hf.trans hfen, hstrap, hsrc, hadr, by rw [State.when_false, hhif, hmem],
      by rw [State.when_false, hp, hpend]⟩
  case tampered => rw [exec_porstNRelease, execPorstNRelease_of_low hl, State.when_true, State.released]
  case high => exact execPorstNRelease_of_high hh straps low

-- Start-up tests (R163, R392) -----------------------------------------------------------------------------------

/-- Where no facet has left UNTESTED, all 272 are to be tested. -/
theorem State.untested_of_none {s : State} (h : s.facetCount (fun x => x != 0) = 0) :
    ((List.range 272).filter fun f => s.facetState f == 0) = List.range 272 := by
  have hempty := List.length_eq_zero_iff.mp h
  rw [List.filter_eq_nil_iff] at hempty
  exact List.filter_eq_self.mpr fun f hf => by simpa using hempty f hf

theorem execStartupFacetTest_of_pass {s : State} (h : s.facetCount (fun x => x != 0) = 0) :
    execStartupFacetTest [] s = .next
      ((List.range 272).foldl (fun s f => s.icEdge (288 + f)) (s.bindColours (List.range 272)).refreshFacets).judgeFacets := by
  have hall : ((List.range 272).filter fun f => !([] : List Nat).contains f) = List.range 272 :=
    List.filter_eq_self.mpr fun f _ => by simp
  unfold execStartupFacetTest
  rw [s.untested_of_none h]
  extract_lets untested bad s1 s2 s3 s4
  have hbad : bad = [] := by simp [bad]
  have h4 : s4 = (List.range 272).foldl (fun s f => s.icEdge (288 + f)) (s.bindColours (List.range 272)).refreshFacets := by
    simp only [s4, s3, s2, s1, untested, hbad, hall, List.foldl_nil]
  rw [if_neg (by simp [untested]), h4]

theorem execStartupFacetTest_of_tested {s : State} (h : ∀ f < 272, s.facetState f ≠ 0) (l : List (Fin 272)) :
    execStartupFacetTest l s = .next s := by
  have hnone : ((List.range 272).filter fun f => s.facetState f == 0) = [] :=
    List.filter_eq_nil_iff.mpr fun f hf => by simpa using h f (List.mem_range.mp hf)
  unfold execStartupFacetTest
  rw [hnone]
  rfl

-- The boot ROM's choice (R445) ----------------------------------------------------------------------------------

/-- An event leaves the images, and what they are checked against. -/
theorem Signals.imageFault {s t : State} (h : Signals s t) (img : List Byte) : t.imageFault img = s.imageFault img := by
  have hown : t.mss.ownerHash = s.mss.ownerHash := by rw [h.mss]
  have hlc : t.lifeCycle = s.lifeCycle := h.fld _ (by decide)
  rw [State.imageFault, State.imageFault, State.imageKeyHash, State.imageKeyHash, hown, hlc, h.fld _ (by decide)]

theorem Signals.slotImage {s t : State} (h : Signals s t) (k : Nat) : t.slotImage k = s.slotImage k := by
  rw [State.slotImage, State.slotImage, h.mss]

/-- The state in which the boot ROM chooses. -/
def State.bootCleared (s : State) : State := ((s.setFld F.MSS_BOOT_IMAGE 0).setReg R.MSS_FW_VERSION 0).setRcv 0

theorem State.setRcv_fld (s : State) (n : Nat) (g : Fld) (hg : F.I3CT_RCV_STAT_STATE.apart g = true)
    (hg' : signalReg g.reg = false) : (s.setRcv n).fld g = s.fld g := by
  unfold State.setRcv
  split
  · rfl
  · exact ((State.raiseIbi_signals (Signals.refl _) 4).fld g hg').trans (State.fld_setFld_apart _ _ _ _ hg)

theorem State.raiseIbi_mss (s : State) (b : Nat) : (s.raiseIbi b).mss = s.mss := by
  unfold State.raiseIbi
  split
  · rw [State.setFld_mss]
  · rfl

theorem State.setRcv_mss (s : State) (n : Nat) : (s.setRcv n).mss = s.mss := by
  rw [State.setRcv, apply_ite State.mss, State.raiseIbi_mss, State.setFld_mss, ite_self]

theorem State.bootCleared_fld (s : State) (g : Fld) (h1 : F.I3CT_RCV_STAT_STATE.apart g = true) (h2 : signalReg g.reg = false)
    (h3 : R.MSS_FW_VERSION ≠ g.reg) (h4 : F.MSS_BOOT_IMAGE.apart g = true) : s.bootCleared.fld g = s.fld g := by
  rw [State.bootCleared, State.setRcv_fld _ _ _ h1 h2, State.fld_setReg_ne _ _ _ _ h3, State.fld_setFld_apart _ _ _ _ h4]

theorem State.bootCleared_mss (s : State) : s.bootCleared.mss = s.mss := State.setRcv_mss _ _

/-- Without a trial the boot ROM starts the preferred slot, else the other, else recovery or nothing. -/
theorem State.boot_of_no_trial {s : State} {k : Nat} (hs : s.fld F.MSS_BOOT_BOOT_SRC ≠ 1) (ha : s.flag F.MSS_FW_TRIAL_ARMED = false)
    (hk : s.mss.preferred = k) :
    let u := s.bootCleared
    s.boot = if u.imageFault (u.slotImage k) = 0 then u.bootSlot k
      else if u.imageFault (u.slotImage (3 - k)) = 0 then (u.logEvent Ev.BOOT_IMAGE_BAD noSource []).bootSlot (3 - k)
      else if u.fld F.MSS_BOOT_BOOT_SRC = 0 then (u.logEvent Ev.BOOT_IMAGE_BAD noSource []).enterRecovery
      else (u.logEvent Ev.BOOT_IMAGE_BAD noSource []).updMss fun x => { x with booted := true } := by
  intro u
  have hsrc : u.fld F.MSS_BOOT_BOOT_SRC ≠ 1 := by
    rwa [s.bootCleared_fld _ (by decide) (by decide) (by decide) (by decide)]
  have harm : u.flag F.MSS_FW_TRIAL_ARMED = false := by
    rw [← ha]
    exact State.flag_congr (s.bootCleared_fld _ (by decide) (by decide) (by decide) (by decide))
  have hchoice : u.chosenSlot = (u, k) := by
    rw [State.chosenSlot, harm, s.bootCleared_mss, hk]
    rfl
  have hlog := State.logEvent_signals (Signals.refl u) Ev.BOOT_IMAGE_BAD noSource []
  unfold State.boot
  extract_lets s1 src
  have hs1 : s1 = u := rfl
  have hsrc1 : src = u.fld F.MSS_BOOT_BOOT_SRC := rfl
  rw [hsrc1, if_neg hsrc, hs1, hchoice]
  dsimp only
  rw [hlog.imageFault, hlog.slotImage]

/-- What booting a slot shows and starts. -/
theorem State.bootSlot_started (s : State) {k : Nat} (hk : k < 4) : (s.bootSlot k).fld F.MSS_BOOT_IMAGE = k
    ∧ (s.bootSlot k).mss.booted = true ∧ (s.bootSlot k).reg R.MSS_FW_VERSION = BitVec.ofNat 32 (leAt (s.slotImage k) 8 4)
    ∧ ((s.bootSlot k).core 0).r.pc = BitVec.ofNat 32 (leAt (s.slotImage k) 20 4) := by
  unfold State.bootSlot
  extract_lets img code at_ s1 s2
  refine ⟨?_, ?_, ?_, ?_⟩
  · rw [State.fld_updCore]
    exact (State.fld_setReg_ne _ _ _ _ (by decide)).trans (State.fld_setFld_fits _ _ _ rfl hk)
  · unfold State.updCore
    dsimp only [s2, State.updMss]
  · rw [State.reg_updCore]
    exact State.reg_setReg_same _ _ _
  · rw [State.core_updCore_same]

/-- Settles O20: each clause is the law of a start-up test or of the boot ROM in the state the clause names. -/
theorem startUp : Obligations.StartUp := by
  unfold Obligations.StartUp
  intro s
  refine ⟨fun h => ?passed, fun l h => ?tested, fun h => ?sram, fun l h => ?sram_done, fun k hon hb hs ha hk => ?choice,
    fun k hk => ?booted, fun h => ?once⟩
  case passed => exact execStartupFacetTest_of_pass h
  case tested => exact execStartupFacetTest_of_tested h l
  case sram =>
    refine Completes.intro (t := ((s.updMss fun x => { x with started := true, sram := [], imageBytes := [] }).setFlag
      F.GCTL_STATE_MGMT_IN_RESET false).setFld (coreStat 0) 1) ?_ ⟨rfl, ?_, ?_, rfl⟩
    · rw [exec_sramStartupTest, execSramStartupTest, if_neg (by simp [h])]
      rfl
    · rw [State.flag_setFld_apart _ _ _ _ (by decide)]
      exact State.flag_setFlag _ _ _ rfl rfl
    · rw [State.coreOn, State.fld_setFld_fits _ _ _ rfl (by decide)]
      rfl
  case sram_done => rw [exec_sramStartupTest, execSramStartupTest, if_pos h]
  case choice =>
    rw [exec_bootImageChoice, execBootImageChoice, hon, hb]
    exact congrArg _ (State.boot_of_no_trial hs ha hk)
  case booted => exact s.bootSlot_started hk
  case once => rw [exec_bootImageChoice, execBootImageChoice, h, Bool.not_true, Bool.and_false, if_neg Bool.false_ne_true]

end Sys2Proof.Machine
end

section
/-!
PROOFS. The overhead words of a block in REEL_SYNC.
-/
namespace Sys2Proof.Machine
open Sys2Proof

section
variable {n : LaneNo} {s : State} {b : RxBlock}

theorem execTimingWords_of_unreadable (hb : (s.lane n).blk = some b) (hu : b.used = false) (hs : s.sync n = 2) (hn : b.no = 1)
    (hl : s.looped n = false) (hc : b.cls = .uncorrectable) :
    execTimingWords n s = .next ((s.updLane n fun l => { l with blk := some { b with used := true } }).incFld
      (F.LANE_TT_DISC_OTHER n)) := by
  simp only [execTimingWords, hb, hn, hu, hs, hl, hc, ne_eq, not_true_eq_false, Bool.false_eq_true, or_self, if_false,
    bne_self_eq_false, Bool.and_false, Bool.false_and]

theorem execClaimAndWitnessWords_of_readable (hb : (s.lane n).blk = some b) (hu : b.used = false) (hs : s.sync n = 2)
    (hn : b.no = 2) (hl : s.looped n = false) (hc : b.cls ≠ .uncorrectable) :
    let u := s.updLane n fun l => { l with blk := some { b with used := true } }
    execClaimAndWitnessWords n s = .next (if 128 ≤ n.val then u.mateWords n (dataOverhead b.data)
      else if s.isWitness n then u.witnessWords n (dataOverhead b.data) else u).refreshEvidence := by
  intro u
  have hgo : ¬ (b.no ≠ 2 ∨ b.used = true ∨ s.sync n ≠ 2 ∨ s.looped n = true) := by simp [hn, hu, hs, hl]
  simp only [execClaimAndWitnessWords, hb, if_neg hgo, if_neg hc]
  rfl

theorem execDefectReport_of_unused (hb : (s.lane n).blk = some b) (hu : b.used = false) (hs : s.sync n = 2) (hn : b.no = 3)
    (hl : s.looped n = false) :
    let u := s.updLane n fun l => { l with blk := some { b with used := true } }
    let oh := if b.cls = .uncorrectable then none else some (dataOverhead b.data)
    execDefectReport n s = .next ((u.farReport n oh).traceSegment n
      ((s.fld (F.LANE_SEQ_LAST_SEQ n) + (s.lane n).reelsSince) % 2 ^ 32) oh) := by
  intro u oh
  have hgo : ¬ (b.no ≠ 3 ∨ b.used = true ∨ s.sync n ≠ 2) := by simp [hn, hu, hs]
  have hlf : u.looped n = false := hl
  have hlu : ¬ u.looped n = true := by rw [hlf]; exact Bool.false_ne_true
  simp only [execDefectReport, hb, if_neg hgo]
  rw [if_neg hlu, State.lane_updLane_same]
  rfl

theorem execCmcSlice_of_unused (hb : (s.lane n).blk = some b) (hu : b.used = false) (hs : s.sync n = 2) (hn : 4 ≤ b.no) :
    let u := s.updLane n fun l => { l with blk := some { b with used := true } }
    execCmcSlice n s = .next (if b.cls = .uncorrectable then u.cmcLostSlice n else u.cmcSlice n (dataOverhead b.data)) := by
  intro u
  have hgo : ¬ (b.no < 4 ∨ b.used = true ∨ s.sync n ≠ 2) := by simp [Nat.not_lt.mpr hn, hu, hs]
  simp only [execCmcSlice, hb, if_neg hgo]
  split <;> rfl

/-- A slice that cannot be read ends the record in progress, and writes no register. -/
theorem State.cmcLostSlice_of_sync {s : State} {k : Nat} (h : (s.lane k).cmc.rxSync = true) :
    ((s.cmcLostSlice k).lane k).cmc.rxSync = false ∧ ((s.cmcLostSlice k).lane k).cmc.rxPart = []
      ∧ (s.cmcLostSlice k).regs = s.regs := by
  unfold State.cmcLostSlice State.cmcDesync State.updCmc State.when
  extract_lets c
  rw [if_pos h]
  refine ⟨?_, ?_, ?_⟩
  · rw [State.lane_updLane_same]
  · rw [State.lane_updLane_same]
  · split <;> rfl

end

/-- Settles O29: each clause is the law of its words for the class the block was decoded under. -/
theorem laneOverhead : Obligations.LaneOverhead := by
  unfold Obligations.LaneOverhead
  intro n s b hb hu hs u
  refine ⟨fun hn hl hc => ?timing, fun hn hl hc hm => ?mate, fun hn hl hc hm hw => ?witness, fun hn hl hc => ?report,
    fun hn hl hc => ?no_report, fun hn hc => ?slice, fun hn hc hr => ?lost⟩
  case timing => exact execTimingWords_of_unreadable hb hu hs hn hl hc
  case mate => rw [exec_claimAndWitnessWords, execClaimAndWitnessWords_of_readable hb hu hs hn hl hc, if_pos hm]
  case witness =>
    rw [exec_claimAndWitnessWords, execClaimAndWitnessWords_of_readable hb hu hs hn hl hc, if_neg (by omega), if_pos hw]
  case report => rw [exec_defectReport, execDefectReport_of_unused hb hu hs hn hl, if_neg hc]
  case no_report => rw [exec_defectReport, execDefectReport_of_unused hb hu hs hn hl, if_pos hc]
  case slice => rw [exec_cmcSlice, execCmcSlice_of_unused hb hu hs hn, if_neg hc]
  case lost =>
    have hsync : (u.lane n).cmc.rxSync = true := by simpa only [u, State.lane_updLane_same] using hr
    obtain ⟨h1, h2, h3⟩ := State.cmcLostSlice_of_sync hsync
    refine Completes.intro (c := .cmcSlice n) ?_ ⟨h1, h2, h3⟩
    rw [exec_cmcSlice, execCmcSlice_of_unused hb hu hs hn, if_pos hc]

-- The two-way exchange (R263 to R265) --------------------------------------------------------------------------

/-- What shows an exchange further: of lane `n` it leaves the status register, and the samples of its means. -/
structure TtKept (n : Nat) (s t : State) : Prop where
  stat : t.reg (R.LANE_TT_STAT n) = s.reg (R.LANE_TT_STAT n)
  latest : (t.lane n).tt.latest = (s.lane n).tt.latest
  delay : (t.lane n).tt.delay = (s.lane n).tt.delay
  ofs : (t.lane n).tt.ofs = (s.lane n).tt.ofs
  epoch : (t.lane n).tt.epoch = (s.lane n).tt.epoch

namespace TtKept
variable {n : Nat} {s t : State}

theorem refl (n : Nat) (s : State) : TtKept n s s := ⟨rfl, rfl, rfl, rfl, rfl⟩

theorem trans {a b c : State} (h : TtKept n a b) (k : TtKept n b c) : TtKept n a c :=
  ⟨k.stat.trans h.stat, k.latest.trans h.latest, k.delay.trans h.delay, k.ofs.trans h.ofs, k.epoch.trans h.epoch⟩

theorem setFld (h : TtKept n s t) (f : Fld) (v : Nat) (hf : f.reg ≠ R.LANE_TT_STAT n) : TtKept n s (t.setFld f v) :=
  h.trans ⟨State.reg_setFld_ne t f v _ hf, rfl, rfl, rfl, rfl⟩

theorem setFldI (h : TtKept n s t) (f : Fld) (v : Int) (hf : f.reg ≠ R.LANE_TT_STAT n) : TtKept n s (t.setFldI f v) :=
  h.setFld f _ hf

theorem setFlag (h : TtKept n s t) (f : Fld) (b : Bool) (hf : f.reg ≠ R.LANE_TT_STAT n) : TtKept n s (t.setFlag f b) :=
  h.setFld f _ hf

theorem updRef (h : TtKept n s t) (f : Ref → Ref) : TtKept n s (t.updRef f) := h.trans ⟨rfl, rfl, rfl, rfl, rfl⟩

theorem updCand (h : TtKept n s t) (k : Nat) (f : Cand → Cand) : TtKept n s (t.updCand k f) := h.updRef _

theorem ite {a b : State} {c : Prop} [Decidable c] (ha : TtKept n s a) (hb : TtKept n s b) : TtKept n s (if c then a else b) := by
  split <;> assumption

theorem foldl {α : Type} {f : State → α → State} (hf : ∀ u a, TtKept n s u → TtKept n s (f u a)) (l : List α)
    (h : TtKept n s t) : TtKept n s (l.foldl f t) := by
  induction l generalizing t with
  | nil => exact h
  | cons a l ih => exact ih (hf t a h)

/-- A change of a lane that leaves the samples of its means. -/
theorem updLane (h : TtKept n s t) (m : Nat) (f : Lane → Lane) (hf : ∀ l, (f l).tt.latest = l.tt.latest ∧
    (f l).tt.delay = l.tt.delay ∧ (f l).tt.ofs = l.tt.ofs ∧ (f l).tt.epoch = l.tt.epoch) : TtKept n s (t.updLane m f) := by
  refine h.trans ?_
  by_cases hm : m = n
  · subst hm
    obtain ⟨h1, h2, h3, h4⟩ := hf (t.lane m)
    exact ⟨rfl, by rw [State.lane_updLane_same, h1], by rw [State.lane_updLane_same, h2], by rw [State.lane_updLane_same, h3],
      by rw [State.lane_updLane_same, h4]⟩
  · have hl : (t.updLane m f).lane n = t.lane n := State.lane_updLane_ne _ _ _ _ hm
    exact ⟨rfl, by rw [hl], by rw [hl], by rw [hl], by rw [hl]⟩

theorem signals (h : TtKept n s t) {u : State} (hu : Signals t u) (hn : signalReg (R.LANE_TT_STAT n) = false) : TtKept n s u :=
  h.trans ⟨hu.reg _ hn, by rw [hu.lane], by rw [hu.lane], by rw [hu.lane], by rw [hu.lane]⟩

end TtKept

section
variable {n : LaneNo} {s t : State} (h : TtKept n s t)

/-- The status register of a lane lies apart from the platform's, the pair's and the candidates'. -/
theorem ne_LANE_TT_STAT (n : LaneNo) {o : Nat} (ho : o < 0x100000 ∨ 0x182000 ≤ o) : o ≠ R.LANE_TT_STAT n := by
  have := laneBase_bounds n
  unfold R.LANE_TT_STAT
  omega

theorem signalReg_LANE_TT_STAT (n : LaneNo) : signalReg (R.LANE_TT_STAT n) = false := by
  have := laneBase_bounds n
  apply signalReg_of_lt <;> unfold R.LANE_TT_STAT <;> omega

include h

theorem State.refreshMateDelay_ttKept : TtKept n s t.refreshMateDelay := by
  unfold State.refreshMateDelay
  extract_lets v old now late s1
  have h1 : TtKept n s s1 := h.setFld _ _ (ne_LANE_TT_STAT n (.inr (by decide)))
  exact TtKept.ite (h1.signals (State.logEvent_signals (Signals.refl _) _ _ _) (signalReg_LANE_TT_STAT n)) h1

theorem State.keepGood_ttKept (m : Nat) (v : Int) : TtKept n s (t.updLane m fun l =>
    { l with tt := { l.tt with good := if l.tt.suspect then l.tt.good else some v } }) :=
  h.updLane m _ fun _ => ⟨rfl, rfl, rfl, rfl⟩

theorem State.noteGood_ttKept (m : Nat) : TtKept n s (t.noteGood m) := by
  unfold State.noteGood
  split
  · exact h
  · extract_lets keep s1
    have hkeep : ∀ u k v, TtKept n s u → TtKept n s (keep u k v) := fun u k v hu => State.keepGood_ttKept hu k v
    have h1 : TtKept n s s1 := by
      refine TtKept.foldl (fun u k hu => ?_) _ h
      split
      · exact TtKept.ite (hkeep _ _ _ (hkeep _ _ _ hu)) hu
      · exact hu
    split
    · exact TtKept.ite ((hkeep _ _ _ h1).updLane _ _ fun _ => ⟨rfl, rfl, rfl, rfl⟩) h1
    · exact h1

theorem State.showAsymEst_ttKept : TtKept n s (t.showAsymEst n) := by
  have hr : R.LANE_TT_ASYM_EST n ≠ R.LANE_TT_STAT n := by unfold R.LANE_TT_ASYM_EST R.LANE_TT_STAT; omega
  unfold State.showAsymEst
  extract_lets x
  split
  · exact h.setFldI _ _ hr
  · exact h.setFld _ _ hr

theorem State.showMeans_ttKept : TtKept n s (t.showMeans n) := by
  have hofs : R.LANE_TT_OFS n ≠ R.LANE_TT_STAT n := by unfold R.LANE_TT_OFS R.LANE_TT_STAT; omega
  have hdel : R.LANE_TT_DELAY n ≠ R.LANE_TT_STAT n := by unfold R.LANE_TT_DELAY R.LANE_TT_STAT; omega
  unfold State.showMeans
  extract_lets x s1 s2 s3
  have h1 : TtKept n s s1 := TtKept.ite (h.setFld _ _ hofs) (h.setFldI _ _ hofs)
  have h2 : TtKept n s s2 := TtKept.ite (h1.setFld _ _ hdel) (h1.setFldI _ _ hdel)
  have h3 : TtKept n s s3 := TtKept.ite (State.refreshMateDelay_ttKept h2) h2
  exact State.showAsymEst_ttKept (State.noteGood_ttKept h3 n)

theorem State.clearWindow_ttKept (k : Nat) : TtKept n s (t.clearWindow k) := by
  refine (((h.updCand _ _).setFlag _ _ ?_).setFld _ _ ?_).setFlag _ _ ?_ <;> refine ne_LANE_TT_STAT n (.inr ?_)
  · exact Nat.le_trans (by decide) (Nat.le_add_right 0x48010c _)
  · exact Nat.le_trans (by decide) (Nat.le_add_right 0x480110 _)
  · exact Nat.le_trans (by decide) (Nat.le_add_right 0x48010c _)

theorem State.phaseSample_ttKept (k : Nat) (p : Int) : TtKept n s (t.phaseSample k p) := by
  unfold State.phaseSample
  extract_lets u c off first size s1 s2 s3
  have h2 : TtKept n s s2 := (State.clearWindow_ttKept h k).updCand _ _
  have h3 : TtKept n s s3 := h2.signals (State.logEvent_signals (Signals.refl _) _ _ _) (signalReg_LANE_TT_STAT n)
  refine TtKept.ite (TtKept.ite (h.updCand _ _) (TtKept.ite ?_ h3)) (h.updCand _ _)
  exact ((h3.updRef _).setFldI _ _ (ne_LANE_TT_STAT n (.inr (by decide)))).setFld _ _ (ne_LANE_TT_STAT n (.inr (by decide)))

theorem State.offsetSample_ttKept (k : Nat) (o : Int) : TtKept n s (t.offsetSample k o) := by
  unfold State.offsetSample
  extract_lets s1
  have h1 : TtKept n s s1 := h.updCand _ _
  refine TtKept.ite h1 (State.phaseSample_ttKept ((h1.setFldI _ _ ?_).updCand _ _) _ _)
  exact ne_LANE_TT_STAT n (.inr (Nat.le_trans (by decide) (Nat.le_add_right 0x480114 _)))

theorem State.feedCands_ttKept (k : Nat) (o : Int) (b : Bool) : TtKept n s (t.feedCands k o b) := by
  unfold State.feedCands
  extract_lets sus s1 use
  have h1 : TtKept n s s1 := by
    refine TtKept.foldl (fun u c hu => ?_) _ h
    exact TtKept.ite (TtKept.ite (hu.updCand _ _) (State.offsetSample_ttKept (hu.updCand _ _) _ _)) hu
  exact TtKept.ite h1 (TtKept.ite h1 (State.offsetSample_ttKept h1 _ _))

end

/-- The state after what a far end says of itself in timing words. -/
def State.farShown (s : State) (n : Nat) (oh : List Byte) : State :=
  (((s.setFlag (F.LANE_TT_STAT_FAR_TRACEABLE n) ((beAt oh 19 1).testBit 5)).setFlag (F.LANE_TT_STAT_FAR_HOLDOVER n)
    ((beAt oh 19 1).testBit 4)).setFlag (F.LANE_TT_STAT_FAR_FREE_RUN n) ((beAt oh 19 1).testBit 3)).setFld
      (F.LANE_TT_STAT_FAR_EPOCH n) (beAt oh 18 1)

theorem State.farShown_lane (s : State) (n m : Nat) (oh : List Byte) : (s.farShown n oh).lane m = s.lane m := by
  unfold State.farShown
  rw [State.lane_setFld, State.lane_setFlag, State.lane_setFlag, State.lane_setFlag]

/-- A field of one byte. -/
theorem beAt_one_lt (bs : List Byte) (k : Nat) : beAt bs k 1 < 2 ^ 8 := by
  simp only [beAt, bytesAt, beNat, List.range_one, List.map_cons, List.map_nil, List.foldl_cons, List.foldl_nil, Nat.zero_mul,
    Nat.zero_add]
  exact BitVec.isLt _

theorem State.farShown_fields (s : State) (n : Nat) (oh : List Byte) : (s.farShown n oh).fld (F.LANE_TT_STAT_FAR_EPOCH n) = beAt oh 18 1
    ∧ (s.farShown n oh).flag (F.LANE_TT_STAT_FAR_TRACEABLE n) = (beAt oh 19 1).testBit 5 := by
  refine ⟨State.fld_setFld_fits _ _ _ rfl (beAt_one_lt oh 18), ?_⟩
  rw [State.farShown, State.flag_setFld_apart _ _ _ _ (Fld.apart_of_bits rfl), State.flag_setFlag_apart _ _ _ _ (Fld.apart_of_bits rfl),
    State.flag_setFlag_apart _ _ _ _ (Fld.apart_of_bits rfl), State.flag_setFlag _ _ _ rfl rfl]

theorem TtKept.fld {n : Nat} {s t : State} (h : TtKept n s t) (g : Fld) (hg : g.reg = R.LANE_TT_STAT n) : t.fld g = s.fld g := by
  rw [State.fld, State.fld, hg, h.stat]

/-- A first exchange enters the empty means, which do not judge it. -/
theorem State.takeExchange_of_first {s : State} {n : Nat} (h : (s.lane n).tt.delay = []) (delay ofs : Int) (traceable : Bool) :
    s.takeExchange n delay ofs traceable = ((s.updLane n fun l => { l with tt := { l.tt with
      ofs := ofs :: l.tt.ofs.take 4095, delay := delay :: l.tt.delay.take 4095, badRun := 0
      latest := some ofs, lastReel := some s.reelSeq } }).showMeans n).feedCands n ofs traceable := by
  unfold State.takeExchange
  extract_lets x mean far
  have hfar : far = false := by
    have hm : mean = none := if_pos (by rw [h]; decide)
    simp only [far, hm]
  rw [hfar]
  exact if_neg Bool.false_ne_true

section
variable {n : LaneNo} {s : State} {b : RxBlock} {a d : Stamp}

/-- The exchange that the timing words of a block complete, where R263 admits it and no epoch is known yet. -/
theorem execTimingWords_of_first (hb : (s.lane n).blk = some b) (hn : b.no = 1) (hu : b.used = false) (hs : s.sync n = 2)
    (hl : s.looped n = false) (hch : (s.lane n).chassis = false) (hen : s.flag (F.LANE_TT_CTL_EN n) = true)
    (hrs : (s.lane n).reelsSince = 0) (hc : b.cls = .clean) (hcap : (s.lane n).ttCap = true)
    (h7 : (beAt (dataOverhead b.data) 19 1).testBit 7 = true) (h6 : (beAt (dataOverhead b.data) 19 1).testBit 6 = true)
    (ha : (s.lane n).arrivals.find? (fun a => a.seq == beAt (dataOverhead b.data) 0 4) = some a)
    (hd : s.time.departures.find? (fun a => a.seq == beAt (dataOverhead b.data) 9 4) = some d) (he : a.epoch = d.epoch)
    (hep : (s.lane n).tt.epoch = none) :
    let oh := dataOverhead b.data
    let u := (s.updLane n fun l => { l with blk := some { b with used := true } }).updLane n fun l =>
      { l with tt := { l.tt with epoch := some (beAt oh 18 1) } }
    let x := exchange (beAt oh 4 5) a.time (256 * d.time) (beAt oh 13 5) (beAt oh 20 4) (s.fldI (F.LANE_TT_ASYM_ASYM n))
    execTimingWords n s = .next ((u.farShown n oh).takeExchange n x.1 x.2 ((beAt oh 19 1).testBit 5)) := by
  intro oh u x
  have hgo : ¬ (b.no ≠ 1 ∨ b.used = true ∨ s.sync n ≠ 2 ∨ s.looped n = true) := by simp [hn, hu, hs, hl]
  unfold execTimingWords
  extract_lets k
  have hk : (s.lane k).blk = some b := hb
  rw [hk]
  refine (if_neg hgo).trans ?_
  extract_lets v l flags ok t2 t3 ep s1 s2 s3 s4
  have hlane : l = { s.lane n with blk := some { b with used := true } } := State.lane_updLane_same _ _ _
  have hok : ok = true := by
    have hfl : v.flag (F.LANE_TT_CTL_EN k) = true := hen
    have hl7 : flags.testBit 7 = true := h7
    have hl6 : flags.testBit 6 = true := h6
    simp only [ok, hfl, hl7, hl6, hlane, hch, hrs, hc, hcap]
    rfl
  have ht2 : t2 = some a := by
    rw [← ha]
    simp only [t2, hlane]
    rfl
  have ht3 : t3 = some d := hd
  have hnone : ¬ (l.tt.epoch.isSome = true ∧ l.tt.epoch ≠ some (beAt oh 18 1)) := by
    have : l.tt.epoch = none := by rw [hlane]; exact hep
    rw [this]
    simp
  rw [hok, ht2, ht3]
  refine (if_neg (not_not_intro he)).trans ?_
  have h1 : s1 = v := if_neg hnone
  have h2 : s2 = u := by rw [← show v.updLane k _ = u from rfl, ← h1]
  have h4 : s4 = u.farShown n oh := by rw [← h2]; rfl
  rw [h4, h2]
  rfl

end

/-- Settles O30: the exchange enters the empty means, and nothing that they then show or feed touches what it left. -/
theorem timingExchange : Obligations.TimingExchange := by
  unfold Obligations.TimingExchange
  intro n s b a d oh hb hn hu hs hl hch hen hrs hc hcap h7 h6 ha hd he hep hdel
  have hgo := execTimingWords_of_first hb hn hu hs hl hch hen hrs hc hcap h7 h6 ha hd he hep
  have hlane : (((s.updLane n fun l => { l with blk := some { b with used := true } }).updLane n fun l =>
      { l with tt := { l.tt with epoch := some (beAt oh 18 1) } }).farShown n oh).lane n =
      { s.lane n with blk := some { b with used := true }, tt := { (s.lane n).tt with epoch := some (beAt oh 18 1) } } := by
    rw [State.farShown_lane, State.lane_updLane_same, State.lane_updLane_same]
  obtain ⟨hfe, hft⟩ := State.farShown_fields ((s.updLane n fun l => { l with blk := some { b with used := true } }).updLane n fun l =>
      { l with tt := { l.tt with epoch := some (beAt oh 18 1) } }) n oh
  refine Completes.intro (c := .timingWords n) hgo ?_
  generalize ((s.updLane n fun l => { l with blk := some { b with used := true } }).updLane n fun l =>
      { l with tt := { l.tt with epoch := some (beAt oh 18 1) } }).farShown n oh = v at hlane hfe hft ⊢
  rw [State.takeExchange_of_first (by rw [hlane]; exact hdel)]
  intro x
  generalize hw : (v.updLane n fun l => { l with tt := { l.tt with
    ofs := x.2 :: l.tt.ofs.take 4095, delay := x.1 :: l.tt.delay.take 4095, badRun := 0
    latest := some x.2, lastReel := some v.reelSeq } }) = w
  have hwl : w.lane n = { v.lane n with tt := { (v.lane n).tt with
      ofs := x.2 :: (v.lane n).tt.ofs.take 4095, delay := x.1 :: (v.lane n).tt.delay.take 4095, badRun := 0
      latest := some x.2, lastReel := some v.reelSeq } } := by rw [← hw, State.lane_updLane_same]
  have hwf : ∀ g, w.fld g = v.fld g := fun g => by rw [← hw, State.fld_updLane]
  have hk := State.feedCands_ttKept (State.showMeans_ttKept (TtKept.refl n w)) n x.2 ((beAt oh 19 1).testBit 5)
  refine ⟨?_, ?_, ?_, ?_, ?_, ?_⟩
  · rw [hk.latest, hwl]
  · rw [hk.delay, hwl]; rfl
  · rw [hk.ofs, hwl]; rfl
  · rw [hk.epoch, hwl, hlane]
  · rw [hk.fld _ rfl, hwf, hfe]
  · rw [State.flag_congr (hk.fld _ rfl), State.flag_congr (hwf _), hft]

end Sys2Proof.Machine
end

section
/-!
PROOFS. The test access port, test loops, generators and checkers.
-/
namespace Sys2Proof.Machine
open Sys2Proof

-- The test access port (R491 to R495) ---------------------------------------------------------------------------

/-- The IDCODE word ends in a 1, and holds the part number above the manufacturer's. -/
theorem State.idcode_parts (s : State) : s.idcode % 2 = 1 ∧ s.idcode / 2 ^ 12 % 2 ^ 16 = 0x7128 := by
  have hj := Config.jedecIdentity.isLt
  unfold State.idcode
  omega

theorem execTimingPortBlockLock_fields (s : State) (lock fault : Bool) : Completes (.timingPortBlockLock lock fault) s fun t =>
    t.flag F.TIME_PTP_STAT_BLOCK_LOCK = lock ∧ t.flag F.TIME_PTP_STAT_LINK_FAULT = fault
      ∧ OnlyFields [F.TIME_PTP_STAT_BLOCK_LOCK, F.TIME_PTP_STAT_LINK_FAULT] s t := by
  refine Completes.intro rfl ⟨?_, ?_, ((OnlyFields.refl _ s).setFlag _ _ (by simp)).setFlag _ _ (by simp)⟩
  · rw [State.flag_setFlag_apart _ _ _ _ (by decide), State.flag_setFlag _ _ _ rfl rfl]
  · rw [State.flag_setFlag _ _ _ rfl rfl]

/-- Settles O60: each instruction makes itself current with the register it selects, which is its definition. -/
theorem testAccessPort : Obligations.TestAccessPort := by
  unfold Obligations.TestAccessPort
  intro s pins sel cap
  obtain ⟨hlow, hpart⟩ := s.idcode_parts
  refine ⟨rfl, hlow, hpart, rfl, rfl, rfl, rfl, rfl, rfl, rfl, rfl, rfl, fun op h1 h2 hlc => ?current, fun op h => ?bypass, rfl,
    execTimingPortBlockLock_fields s⟩
  case current =>
    rw [exec_productionTestOpcode, execProductionTestOpcode]
    exact congrArg _ (if_pos ⟨h1, h2, hlc⟩)
  case bypass =>
    rw [exec_productionTestOpcode, execProductionTestOpcode]
    refine congrArg _ (if_neg ?_)
    rintro ⟨h1, -, hlc⟩
    unfold State.lifeCycle at h
    omega

-- Test loops and generators (R481 to R485) ----------------------------------------------------------------------

section
variable {n : LaneNo} {s : State}

theorem State.writeTestLoop_of_in_use {v : Word} (hv : v.toNat % 4 ≠ 0) (hu : s.laneInUse n = true) (hf : s.fenced = false) :
    s.writeTestLoop n v = s.setFld (F.TEST_LOOP_STATUS n) 2 :=
  if_pos ⟨hv, hu, by rw [hf]; rfl⟩

theorem State.writeTestLoop_of_free {v : Word} (hu : s.laneInUse n = false) :
    s.writeTestLoop n v = (s.setFld (F.TEST_LOOP_MODE n) (v.toNat % 4)).testRequest n :=
  if_neg (by simp [hu])

/-- A request that is refused shows it, and changes nothing else. -/
theorem State.testRefused (s : State) (n : Nat) : (s.setFld (F.TEST_LOOP_STATUS n) 2).fld (F.TEST_LOOP_STATUS n) = 2
    ∧ OnlyFields [F.TEST_LOOP_STATUS n] s (s.setFld (F.TEST_LOOP_STATUS n) 2) :=
  ⟨State.fld_setFld_fits _ _ _ rfl (show 2 < 2 ^ 2 by decide), (OnlyFields.refl _ s).setFld _ _ (by simp)⟩

theorem execLoopEnd_of_condition (ha : (s.testLane n).active ≠ 0) (he : s.loopEnds n = true) (b : Bool) :
    execLoopEnd n b s = .next (((((s.setFld (F.TEST_LOOP_MODE n) 0).setFlag (F.TEST_PRBS_GEN_EN n) false).setFlag
      (F.TEST_PRBS_GEN_SENDING n) false).setFld (F.TEST_LOOP_STATUS n) 3).updTest n fun t =>
      { t with active := 0, notice := none, inject := false, flip := false }) := by
  unfold execLoopEnd
  exact if_pos (by simp [ha, he])

theorem execLoopEnd_of_no_condition (he : s.loopEnds n = false) : execLoopEnd n false s = .next s := by
  unfold execLoopEnd
  exact if_neg (by simp [he])

theorem State.writePrbsGen_of_in_use {v : Word} (hv : v.toNat.testBit 31 = true) (hu : s.laneInUse n = true)
    (hf : s.fenced = false) : s.writePrbsGen n v = s.setFld (F.TEST_LOOP_STATUS n) 2 :=
  if_pos (by simp [hv, hu, hf])

theorem State.writePrbsGen_of_off {v : Word} (hv : v.toNat.testBit 31 = false) (hi : v.toNat.testBit 30 = false) :
    s.writePrbsGen n v = ((s.setFlag (F.TEST_PRBS_GEN_EN n) false).setFld (F.TEST_PRBS_GEN_PATTERN n) v.toNat).testRequest n := by
  unfold State.writePrbsGen
  simp only [hv, hi, Bool.false_and, Bool.false_eq_true, if_false, State.when_false]

/-- The loop and the generator of a lane have registers of their own. -/
theorem Fld.apart_loop_gen {f g : Fld} {n : Nat} (hf : f.reg = R.TEST_LOOP n) (hg : g.reg = R.TEST_PRBS_GEN n) :
    f.apart g = true ∧ g.apart f = true := by
  have h : f.reg ≠ g.reg := by
    rw [hf, hg]
    unfold R.TEST_LOOP R.TEST_PRBS_GEN
    omega
  exact ⟨Fld.apart_of_reg h, Fld.apart_of_reg h.symm⟩

-- The checker (R486, R487) --------------------------------------------------------------------------------------

theorem State.prbsCount_of_locked (hl : s.flag (F.TEST_PRBS_CHK_LOCKED n) = true) (hr : s.rxState n = 0) (b e : Nat) :
    s.prbsCount n b e = s.updTest n fun t => { t with chkBits := satAdd 48 t.chkBits b, chkErrs := satAdd 48 t.chkErrs e } :=
  if_pos (by simp [hl, hr])

theorem State.prbsCount_of_unlocked (h : s.flag (F.TEST_PRBS_CHK_LOCKED n) = false ∨ s.rxState n ≠ 0) (b e : Nat) :
    s.prbsCount n b e = s := by
  refine if_neg ?_
  rcases h with h | h <;> simp [h]

theorem execLockLost_of_bad {w : Nat} (hl : s.flag (F.TEST_PRBS_CHK_LOCKED n) = true) (hr : s.rxState n = 0) (hw : 16384 < w)
    (b e : Nat) : execLockLost n b e w s = .next (((s.updTest n fun t => { t with
      chkBits := satAdd 48 t.chkBits b, chkErrs := satAdd 48 t.chkErrs e }).setFlag (F.TEST_PRBS_CHK_LOCKED n) false).setFlag
        (F.TEST_PRBS_CHK_LOCK_LOST n) true) := by
  have h : execLockLost n b e w s = .next (((s.prbsCount n b e).setFlag (F.TEST_PRBS_CHK_LOCKED n) false).setFlag
      (F.TEST_PRBS_CHK_LOCK_LOST n) true) := if_pos ⟨hw, hl, hr⟩
  rw [h, State.prbsCount_of_locked hl hr]

theorem execLockLost_of_good {w : Nat} (h : w ≤ 16384 ∨ s.rxState n ≠ 0) (b e : Nat) : execLockLost n b e w s = .next s := by
  refine if_neg ?_
  rintro ⟨hw, -, hr⟩
  rcases h with h | h
  · omega
  · exact h hr

/-- Disabling the checker without CLEAR or LOCK_LOST unlocks it, and keeps its counts. -/
theorem State.writePrbsChk_off (s : State) (k : Nat) {v : Word} (h31 : v.toNat.testBit 31 = false) (h26 : v.toNat.testBit 26 = false)
    (h30 : v.toNat.testBit 30 = false) : (s.writePrbsChk k v).flag (F.TEST_PRBS_CHK_EN k) = false
      ∧ (s.writePrbsChk k v).flag (F.TEST_PRBS_CHK_LOCKED k) = false
      ∧ (s.writePrbsChk k v).flag (F.TEST_PRBS_CHK_LOCK_LOST k) = s.flag (F.TEST_PRBS_CHK_LOCK_LOST k)
      ∧ (s.writePrbsChk k v).test = s.test := by
  unfold State.writePrbsChk
  simp only [h31, h26, h30, Bool.false_and, Bool.false_eq_true, if_false, State.when_false]
  refine ⟨?_, State.flag_setFlag _ _ _ rfl rfl, ?_, ?_⟩
  · rw [State.flag_setFlag_apart _ _ _ _ (Fld.apart_of_bits rfl), State.flag_setFld_apart _ _ _ _ (Fld.apart_of_bits rfl),
      State.flag_setFld_apart _ _ _ _ (Fld.apart_of_bits rfl), State.flag_setFlag _ _ _ rfl rfl]
  · rw [State.flag_setFlag_apart _ _ _ _ (Fld.apart_of_bits rfl), State.flag_setFld_apart _ _ _ _ (Fld.apart_of_bits rfl),
      State.flag_setFld_apart _ _ _ _ (Fld.apart_of_bits rfl), State.flag_setFlag_apart _ _ _ _ (Fld.apart_of_bits rfl)]
  · rw [State.setFlag_test, State.setFld_test, State.setFld_test, State.setFlag_test]

/-- Reading the counts gives the reader the low word, and writes no register. -/
theorem State.readPrbs_fields (u : State) (m : Master) (k : Nat) :
    ((u.readPrbs m k).2.setRdata m (u.readPrbs m k).1).test = u.test
      ∧ ((u.readPrbs m k).2.setRdata m (u.readPrbs m k).1).rdataOf m = BitVec.ofNat 32 (u.testLane k).chkBits
      ∧ ((u.readPrbs m k).2.setRdata m (u.readPrbs m k).1).regs = u.regs :=
  ⟨rfl, State.rdataOf_setRdata _ _ _, rfl⟩

end

/-- Settles O59: each clause is the law of its write, or of the condition it names. -/
theorem testLanes : Obligations.TestLanes := by
  unfold Obligations.TestLanes
  intro n s
  refine ⟨fun v hv hu hf => ?loop_refused, fun v hu => ?loop, fun ha he b => ?loop_end, fun he => execLoopEnd_of_no_condition he,
    fun v hv hu hf => ?gen_refused, fun v hv hi => ?gen_off, ?inject, fun v h31 h26 h30 => ?check, ?clear, fun hen hr => ?locked,
    fun hen => ?disabled, fun b e w hl hr hw => ?lost, fun b e w h => execLockLost_of_good h b e, fun m b e hl hr => ?read,
    fun m b e h => ?read_held⟩
  case loop_refused =>
    refine Completes.intro (c := .testLoopWrite n v) ?_ (s.testRefused n)
    rw [exec_testLoopWrite, execTestLoopWrite, State.writeTestLoop_of_in_use hv hu hf]
  case loop => rw [exec_testLoopWrite, execTestLoopWrite, State.writeTestLoop_of_free hu]
  case loop_end =>
    have ⟨hms, hsm⟩ := Fld.apart_loop_gen (f := F.TEST_LOOP_MODE n) (g := F.TEST_PRBS_GEN_SENDING n) rfl rfl
    have ⟨hme, hem⟩ := Fld.apart_loop_gen (f := F.TEST_LOOP_MODE n) (g := F.TEST_PRBS_GEN_EN n) rfl rfl
    have ⟨hse, hes⟩ := Fld.apart_loop_gen (f := F.TEST_LOOP_STATUS n) (g := F.TEST_PRBS_GEN_EN n) rfl rfl
    have ⟨hss, hss'⟩ := Fld.apart_loop_gen (f := F.TEST_LOOP_STATUS n) (g := F.TEST_PRBS_GEN_SENDING n) rfl rfl
    refine Completes.intro (c := .loopEnd n b) (execLoopEnd_of_condition ha he b) ⟨?_, ?_, ?_, ?_, ?_, ?_, fun m hm => ?_⟩
    · rw [State.fld_updTest, State.fld_setFld_apart _ _ _ _ (Fld.apart_of_bits rfl), State.fld_setFlag_apart _ _ _ _ hsm,
        State.fld_setFlag_apart _ _ _ _ hem, State.fld_setFld_fits _ _ _ rfl (show 0 < 2 ^ 2 by decide)]
    · rw [State.flag_updTest, State.flag_setFld_apart _ _ _ _ hse, State.flag_setFlag_apart _ _ _ _ (Fld.apart_of_bits rfl),
        State.flag_setFlag _ _ _ rfl rfl]
    · rw [State.flag_updTest, State.flag_setFld_apart _ _ _ _ hss, State.flag_setFlag _ _ _ rfl rfl]
    · rw [State.fld_updTest, State.fld_setFld_fits _ _ _ rfl (show 3 < 2 ^ 2 by decide)]
    · rw [State.testLane_updTest_same]
    · rw [State.testLane_updTest_same]
    · rw [State.testLane_updTest_ne _ _ _ _ hm.symm]
      rw [State.testLane_setFld, State.testLane_setFlag, State.testLane_setFlag, State.testLane_setFld]
  case gen_refused =>
    refine Completes.intro (c := .prbsGenEn n v) ?_ (s.testRefused n)
    rw [exec_prbsGenEn, execPrbsGenEn, State.writePrbsGen_of_in_use hv hu hf]
  case gen_off => rw [exec_prbsGenEn, execPrbsGenEn, State.writePrbsGen_of_off hv hi]
  case inject =>
    refine Completes.intro rfl ⟨State.testLane_updTest_same _ _ _, fun m hm => State.testLane_updTest_ne _ _ _ _ hm.symm, rfl⟩
  case check => exact Completes.intro (c := .prbsChkEn n v) rfl (State.writePrbsChk_off s n h31 h26 h30)
  case clear =>
    refine Completes.intro rfl ⟨?_, ?_, rfl⟩ <;> rw [State.testLane_updTest_same]
  case locked =>
    have h : exec (.checkerLocked n) s = .next (s.setFlag (F.TEST_PRBS_CHK_LOCKED n) true) := by
      rw [exec_checkerLocked, execCheckerLocked, hen, hr]
      exact congrArg _ (if_pos rfl)
    exact Completes.intro h ⟨State.flag_setFlag _ _ _ rfl rfl, (OnlyFields.refl _ s).setFlag _ _ (by simp)⟩
  case disabled =>
    rw [exec_checkerLocked, execCheckerLocked, hen, Bool.false_and]
    rfl
  case lost =>
    refine Completes.intro (c := .lockLost n b e w) (execLockLost_of_bad hl hr hw b e) ⟨?_, State.flag_setFlag _ _ _ rfl rfl, ?_, ?_⟩
    · rw [State.flag_setFlag_apart _ _ _ _ (Fld.apart_of_bits rfl), State.flag_setFlag _ _ _ rfl rfl]
    · rw [State.testLane_setFlag, State.testLane_setFlag, State.testLane_updTest_same]
    · rw [State.testLane_setFlag, State.testLane_setFlag, State.testLane_updTest_same]
  case read =>
    obtain ⟨htest, hdata, hregs⟩ := (s.prbsCount n b e).readPrbs_fields m n
    rw [State.prbsCount_of_locked hl hr] at htest hdata hregs
    rw [State.testLane_updTest_same] at hdata
    refine Completes.intro (c := .prbsCountRead m n b e) (t := _) rfl ?_
    rw [State.prbsCount_of_locked hl hr]
    refine ⟨?_, hdata, hregs⟩
    rw [State.testLane, htest, ← State.testLane, State.testLane_updTest_same]
  case read_held =>
    obtain ⟨htest, hdata, hregs⟩ := s.readPrbs_fields m n
    refine Completes.intro (c := .prbsCountRead m n b e) (t := _) rfl ?_
    rw [State.prbsCount_of_unlocked h]
    exact ⟨hdata, htest, hregs⟩

end Sys2Proof.Machine
end

section
/-!
PROOFS. Tamper, zeroisation and sensors.
-/
namespace Sys2Proof.Machine
open Sys2Proof

-- Tamper and zeroisation (R441 to R443) -------------------------------------------------------------------------

theorem State.tamper_of_first {s : State} (h : s.mss.tamperDone = false) : s.tamper =
    (((((s.updMss fun x => { x with tamperDone := true }).setFlag F.MSS_ZEROISE_TAMPER_SEEN true).zeroise.logEvent Ev.TAMPER
      noSource []).detect .tamper).icPend 276) := if_neg (by simp [h])

theorem State.tamper_of_later {s : State} (h : s.mss.tamperDone = true) : s.tamper = s := if_pos h

/-- What the end of zeroisation leaves: nothing is busy, and the outcome shows. -/
theorem State.zeroiseOutcome (s : State) (f : Fld) (hf : Fld.apart f F.MSS_ZEROISE_BUSY = true) (hw : f.width = 1)
    (hlo : f.lo + 1 ≤ 32) (hs : signalReg f.reg = false) (code : Nat) :
    let u := ((s.setFlag F.MSS_ZEROISE_BUSY false).setFlag f true).logEvent code noSource []
    u.flag F.MSS_ZEROISE_BUSY = false ∧ u.flag f = true
      ∧ ∀ g, signalReg g.reg = false → u.flag g = ((s.setFlag F.MSS_ZEROISE_BUSY false).setFlag f true).flag g := by
  intro u
  have hu := State.logEvent_signals (Signals.refl ((s.setFlag F.MSS_ZEROISE_BUSY false).setFlag f true)) code noSource []
  refine ⟨?_, ?_, fun g hg => hu.flag g hg⟩
  · rw [hu.flag _ rfl, State.flag_setFlag_apart _ _ _ _ hf, State.flag_setFlag _ _ _ rfl rfl]
  · rw [hu.flag _ hs, State.flag_setFlag_same _ _ _ hlo hw]

/-- The state after the end of zeroisation, before its denial of the scratch SRAM is settled. -/
def State.zeroised (s : State) (ok : Bool) : State :=
  if ok then ((s.setFlag F.MSS_ZEROISE_BUSY false).setFlag F.MSS_ZEROISE_ZEROISED true).logEvent Ev.ZEROISED noSource []
  else ((s.setFlag F.MSS_ZEROISE_BUSY false).setFlag F.MSS_ZEROISE_ZEROISE_FAIL true).logEvent Ev.ZEROISE_FAILED noSource []

theorem execZeroisationEnd_of_busy {s : State} (hb : s.flag F.MSS_ZEROISE_BUSY = true) (ok : Bool) :
    exec (.zeroisationEnd ok) s = .next ((s.zeroised ok).updMss fun x =>
      { x with scratchDenied := (s.zeroised ok).flag F.MSS_ZEROISE_ZEROISE_FAIL }) := by
  rw [exec_zeroisationEnd, execZeroisationEnd, hb]
  exact congrArg _ (if_neg (by decide))

theorem zeroisationEnd_passed {s : State} (hb : s.flag F.MSS_ZEROISE_BUSY = true)
    (hf : s.flag F.MSS_ZEROISE_ZEROISE_FAIL = false) : Completes (.zeroisationEnd true) s fun t =>
      t.flag F.MSS_ZEROISE_BUSY = false ∧ t.flag F.MSS_ZEROISE_ZEROISED = true ∧ t.mss.scratchDenied = false := by
  obtain ⟨hbusy, hdone, hrest⟩ := s.zeroiseOutcome F.MSS_ZEROISE_ZEROISED (by decide) rfl (by decide) rfl Ev.ZEROISED
  refine Completes.intro (execZeroisationEnd_of_busy hb true) ⟨hbusy, hdone, (hrest F.MSS_ZEROISE_ZEROISE_FAIL rfl).trans ?_⟩
  rw [State.flag_setFlag_apart _ _ _ _ (by decide), State.flag_setFlag_apart _ _ _ _ (by decide), hf]

theorem zeroisationEnd_failed {s : State} (hb : s.flag F.MSS_ZEROISE_BUSY = true) :
    Completes (.zeroisationEnd false) s fun t =>
      t.flag F.MSS_ZEROISE_BUSY = false ∧ t.flag F.MSS_ZEROISE_ZEROISE_FAIL = true ∧ t.mss.scratchDenied = true := by
  obtain ⟨hbusy, hfail, -⟩ := s.zeroiseOutcome F.MSS_ZEROISE_ZEROISE_FAIL (by decide) rfl (by decide) rfl Ev.ZEROISE_FAILED
  exact Completes.intro (execZeroisationEnd_of_busy hb false) ⟨hbusy, hfail, hfail⟩

-- Sensors (R451, R452) ------------------------------------------------------------------------------------------

/-- What every step of a fold keeps, the fold keeps. -/
theorem foldl_keeps {α β : Type} {f : State → α → State} (p : State → β) (l : List α) (h : ∀ s, ∀ i ∈ l, p (f s i) = p s) (s : State) :
    p (l.foldl f s) = p s := by
  induction l generalizing s with
  | nil => rfl
  | cons i l ih => exact (ih (fun s i hi => h s i (List.mem_cons_of_mem _ hi)) _).trans (h s i List.mem_cons_self)

/-- A number that fits reads back from its two's complement. -/
theorem toSigned_ofSigned {w : Nat} {i : Int} (hw : 0 < w) (hl : -(2 ^ (w - 1) : Nat) ≤ i) (hr : i < (2 ^ (w - 1) : Nat)) :
    toSigned w (ofSigned w i) = i := by
  obtain ⟨k, rfl⟩ : ∃ k, w = k + 1 := ⟨w - 1, by omega⟩
  simp only [Nat.add_sub_cancel] at hl hr
  have hp : 2 ^ (k + 1) = 2 * 2 ^ k := by rw [Nat.pow_succ]; omega
  have hpos := Nat.two_pow_pos k
  simp only [toSigned, ofSigned, Nat.add_sub_cancel, hp]
  generalize 2 ^ k = m at *
  rcases Int.lt_or_le i 0 with h | h
  · have he : i % ((2 * m : Nat) : Int) = i + (2 * m : Nat) := by
      rw [← Int.add_emod_right, Int.emod_eq_of_lt] <;> omega
    rw [he, Nat.mod_eq_of_lt (by omega), if_neg (by omega)]
    omega
  · have he : i % ((2 * m : Nat) : Int) = i := Int.emod_eq_of_lt h (by omega)
    rw [he, Nat.mod_eq_of_lt (by omega), if_pos (by omega)]
    omega

theorem State.fldI_setFldI_fits (s : State) (f : Fld) {i : Int} (h : f.lo + f.width ≤ 32) (hw : 0 < f.width)
    (hl : -(2 ^ (f.width - 1) : Nat) ≤ i) (hr : i < (2 ^ (f.width - 1) : Nat)) : (s.setFldI f i).fldI f = i := by
  have hlt : ofSigned f.width i < 2 ^ f.width := by
    have := Nat.two_pow_pos f.width
    have := Int.emod_lt_of_pos i (b := ((2 ^ f.width : Nat) : Int)) (by omega)
    have := Int.emod_nonneg i (b := ((2 ^ f.width : Nat) : Int)) (by omega)
    unfold ofSigned
    omega
  rw [State.fldI, State.setFldI, State.fld_setFld_same _ _ _ h, Nat.mod_eq_of_lt hlt, toSigned_ofSigned hw hl hr]

/-- The registers after the samples of temperatures, voltages and currents. -/
def State.sampled (s : State) (temps : List Int) (volts currs : List Nat) : State :=
  let s := (List.range 24).foldl (fun s i => s.setFldI (F.MSS_TEMP_TEMP i) (temps.getD i (s.fldI (F.MSS_TEMP_TEMP i)))) s
  let s := (List.range 12).foldl (fun s i => s.setFld (F.MSS_VOLT_MV i) (volts.getD i (s.fld (F.MSS_VOLT_MV i)))) s
  (List.range 4).foldl (fun s i => s.setFld (F.MSS_CURR_DA i) (currs.getD i (s.fld (F.MSS_CURR_DA i)))) s

section
variable (s : State) (temps : List Int) (volts currs : List Nat)

/-- What no register holds, sampling keeps. -/
theorem State.sampled_part {α : Type} (p : State → α) (hp : ∀ s f v, p (State.setFld s f v) = p s) :
    p (s.sampled temps volts currs) = p s := by
  unfold State.sampled
  dsimp only
  rw [foldl_keeps p _ fun _ _ _ => hp _ _ _, foldl_keeps p _ fun _ _ _ => hp _ _ _]
  exact foldl_keeps p _ (fun _ _ _ => hp _ _ _) s

/-- Registers outside the sensors' keep their values. -/
theorem State.sampled_reg {o : Nat} (h : o < 0x802100) : (s.sampled temps volts currs).reg o = s.reg o := by
  unfold State.sampled
  dsimp only
  rw [foldl_keeps (·.reg o), foldl_keeps (·.reg o), foldl_keeps (·.reg o)] <;> intro u i _ <;>
    exact State.reg_setFld_ne _ _ _ _ (by simp only [F.MSS_TEMP_TEMP, F.MSS_VOLT_MV, F.MSS_CURR_DA, R.MSS_TEMP, R.MSS_VOLT, R.MSS_CURR]; omega)

end

/-- Sampling every temperature shows each. -/
theorem State.sampledTemps_fldI (s : State) {temps : List Int} (hb : ∀ x ∈ temps, -640 ≤ x ∧ x < 1680) {k : Nat}
    (hk : k ≤ temps.length) {i : Nat} (hi : i < k) :
    ((List.range k).foldl (fun s i => s.setFldI (F.MSS_TEMP_TEMP i) (temps.getD i (s.fldI (F.MSS_TEMP_TEMP i)))) s).fldI
      (F.MSS_TEMP_TEMP i) = temps.getD i 0 := by
  induction k with
  | zero => omega
  | succ k ih =>
    rw [List.range_succ, List.foldl_concat]
    by_cases hik : i = k
    · subst hik
      have hx : temps.getD i 0 = temps[i] := by simp [List.getD_eq_getElem?_getD, List.getElem?_eq_getElem hk]
      have hd : ∀ d, temps.getD i d = temps[i] := fun d => by simp [List.getD_eq_getElem?_getD, List.getElem?_eq_getElem hk]
      obtain ⟨hl, hr⟩ := hb temps[i] (List.getElem_mem _)
      rw [hx, hd]
      exact State.fldI_setFldI_fits _ _ (show 0 + 16 ≤ 32 by omega) (show 0 < 16 by omega)
        (show -((2 ^ 15 : Nat) : Int) ≤ _ by omega) (show _ < ((2 ^ 15 : Nat) : Int) by omega)
    · rw [State.setFldI, State.fldI_setFld_apart _ _ _ _ (Fld.apart_of_reg ?_), ih (by omega) (by omega)]
      simp only [F.MSS_TEMP_TEMP, R.MSS_TEMP]
      omega

theorem State.sampled_fldI_temp (s : State) {temps : List Int} (hn : temps.length = 24)
    (hb : ∀ x ∈ temps, -640 ≤ x ∧ x < 1680) (volts currs : List Nat) {i : Nat} (hi : i < 24) :
    (s.sampled temps volts currs).fldI (F.MSS_TEMP_TEMP i) = temps.getD i 0 := by
  rw [← s.sampledTemps_fldI hb hn.ge hi]
  unfold State.sampled
  dsimp only
  rw [foldl_keeps (·.fldI (F.MSS_TEMP_TEMP i)), foldl_keeps (·.fldI (F.MSS_TEMP_TEMP i))]
  · intro u j hj
    refine State.fldI_setFld_apart _ _ _ _ (Fld.apart_of_reg ?_)
    simp only [F.MSS_TEMP_TEMP, F.MSS_VOLT_MV, R.MSS_TEMP, R.MSS_VOLT]
    omega
  · intro u j hj
    refine State.fldI_setFld_apart _ _ _ _ (Fld.apart_of_reg ?_)
    simp only [F.MSS_TEMP_TEMP, F.MSS_CURR_DA, R.MSS_TEMP, R.MSS_CURR]
    omega

/-- A sample without voltages shows those it had. -/
theorem State.sampled_fld_volt (s : State) (temps : List Int) (currs : List Nat) {i : Nat} (hi : i < 12) :
    (s.sampled temps [] currs).fld (F.MSS_VOLT_MV i) = s.fld (F.MSS_VOLT_MV i) := by
  unfold State.sampled
  dsimp only
  rw [foldl_keeps (·.fld (F.MSS_VOLT_MV i)), foldl_keeps (·.fld (F.MSS_VOLT_MV i)), foldl_keeps (·.fld (F.MSS_VOLT_MV i))]
  · intro u j hj
    rw [List.mem_range] at hj
    refine State.fld_setFld_apart _ _ _ _ (Fld.apart_of_reg ?_)
    simp only [F.MSS_TEMP_TEMP, F.MSS_VOLT_MV, R.MSS_TEMP, R.MSS_VOLT]
    omega
  · intro u j hj
    by_cases hij : j = i
    · subst hij
      exact State.fld_setFld_fits _ _ _ rfl (State.fld_lt _ _)
    · refine State.fld_setFld_apart _ _ _ _ (Fld.apart_of_reg ?_)
      simp only [F.MSS_VOLT_MV, R.MSS_VOLT]
      omega
  · intro u j hj
    refine State.fld_setFld_apart _ _ _ _ (Fld.apart_of_reg ?_)
    simp only [F.MSS_CURR_DA, F.MSS_VOLT_MV, R.MSS_CURR, R.MSS_VOLT]
    omega

/-- Whether a monitor is in alarm depends on its reading and on the core voltage set. -/
theorem State.voltBad_congr {s t : State} {i : Nat} (hv : t.fld (F.MSS_VOLT_MV i) = s.fld (F.MSS_VOLT_MV i))
    (ha : t.fld F.GCTL_AVS_SET_MV = s.fld F.GCTL_AVS_SET_MV) : t.voltBad i = s.voltBad i := by
  unfold State.voltBad State.nominalMv
  rw [hv, ha]

/-- The hottest sensor of a sample. -/
def State.hottest (s : State) : Nat :=
  (List.range 24).foldl (fun k i => if s.fldI (F.MSS_TEMP_TEMP k) < s.fldI (F.MSS_TEMP_TEMP i) then i else k) 0

theorem State.hottest_lt (s : State) : s.hottest < 24 := by
  unfold State.hottest
  refine List.foldlRecOn (motive := (· < 24)) _ _ (by omega) fun k hk i hi => ?_
  split
  · exact List.mem_range.mp hi
  · exact hk

/-- The registers after a sample of the temperatures alone, with the hottest shown. -/
def State.sampleShown (s : State) (temps : List Int) : State :=
  ((s.sampled temps [] []).setFld F.MSS_SENSE_STAT_HOT_SENSOR (s.sampled temps [] []).hottest).setFldI F.MSS_SENSE_STAT_HOT_TEMP
    ((s.sampled temps [] []).fldI (F.MSS_TEMP_TEMP (s.sampled temps [] []).hottest))

theorem State.sampleShown_part {α : Type} (p : State → α) (hp : ∀ s f v, p (State.setFld s f v) = p s) (s : State) (temps : List Int) :
    p (s.sampleShown temps) = p s :=
  (hp _ _ _).trans ((hp _ _ _).trans (s.sampled_part temps [] [] p hp))

/-- Showing the hottest sensor writes MSS_SENSE_STAT alone. -/
theorem State.sampleShown_reg (s : State) (temps : List Int) {o : Nat} (h : R.MSS_SENSE_STAT ≠ o) :
    (s.sampleShown temps).reg o = (s.sampled temps [] []).reg o := by
  unfold State.sampleShown State.setFldI
  rw [State.reg_setFld_ne _ _ _ _ h, State.reg_setFld_ne _ _ _ _ h]

theorem State.sampleShown_fld (s : State) (temps : List Int) {f : Fld} (h : R.MSS_SENSE_STAT ≠ f.reg) :
    (s.sampleShown temps).fld f = (s.sampled temps [] []).fld f := by
  rw [State.fld, s.sampleShown_reg temps h]
  rfl

theorem State.sampleShown_voltBad (s : State) (temps : List Int) {i : Nat} (hi : i < 12) :
    (s.sampleShown temps).voltBad i = s.voltBad i := by
  refine State.voltBad_congr ?_ ?_
  · rw [s.sampleShown_fld temps ?_, s.sampled_fld_volt temps [] hi]
    simp only [F.MSS_VOLT_MV, R.MSS_VOLT, R.MSS_SENSE_STAT]
    omega
  · rw [s.sampleShown_fld temps (by decide), State.fld, s.sampled_reg temps [] [] (by decide)]
    rfl

/-- A sample below the warning, with the voltages as they are and good, shows itself and raises nothing. -/
theorem execSensorSample_of_cool {s : State} {temps : List Int} (hn : temps.length = 24)
    (hb : ∀ x ∈ temps, -640 ≤ x ∧ x < 1680) (hv : ∀ i < 12, s.voltBad i = false) :
    execSensorSample temps [] [] s = .next ((s.sampleShown temps).updMss fun x => { x with hotLast := [] }).showVolt := by
  have hcool : ∀ i < 24, (s.sampled temps [] []).fldI (F.MSS_TEMP_TEMP i) < 1680 := fun i hi => by
    have hlen : i < temps.length := hn ▸ hi
    rw [s.sampled_fldI_temp hn hb [] [] hi, List.getD_eq_getElem _ _ hlen]
    exact (hb _ (List.getElem_mem hlen)).2
  have hcrit : ((List.range 24).filter fun i => decide (1840 ≤ (s.sampled temps [] []).fldI (F.MSS_TEMP_TEMP i))) = [] := by
    rw [List.filter_eq_nil_iff]
    intro i hi h
    have := hcool i (List.mem_range.mp hi)
    have := of_decide_eq_true h
    omega
  have hwarm := hcool _ (s.sampled temps [] []).hottest_lt
  unfold execSensorSample
  extract_lets s1 s2 s3 t hot crit twice warm s4 s5 warned s6 s7 s8 new
  have h3 : crit = [] := hcrit
  have htwice : twice = false := by
    unfold twice
    rw [h3]
    rfl
  have hwarm' : warm = false := decide_eq_false (Int.not_le.mpr hwarm)
  have h6 : s6 = s5 := by
    unfold s6
    rw [if_neg (by simp [hwarm'])]
  have h7 : s7 = s6 := by
    unfold s7
    rw [htwice, State.when_false]
  have h8 : s8 = s7 := by
    unfold s8
    rw [if_neg (by simp [htwice])]
  have h5 : s5 = (s.sampleShown temps).updMss fun x => { x with hotLast := [] } := by
    unfold s5
    rw [h3]
    rfl
  have hnew : new = [] := by
    unfold new
    rw [List.filter_eq_nil_iff, h8, h7, h6, h5]
    intro i hi h
    have hi := List.mem_range.mp hi
    obtain ⟨hbad, -⟩ := Bool.and_eq_true_iff.mp h
    rw [State.voltBad_congr (State.fld_updMss _ _ _) (State.fld_updMss _ _ _), s.sampleShown_voltBad temps hi, hv i hi] at hbad
    exact Bool.noConfusion hbad
  rw [hnew, h8, h7, h6, h5]
  rfl

theorem execVoltageAlarmClear_of_good {s : State} {n : Fin 12} (ha : s.mss.voltAlarms = [n.val]) (hv : s.voltBad n.val = false) :
    exec (.voltageAlarmClear n) s = .next (((s.updMss fun x =>
      { x with voltAlarms := x.voltAlarms.filter (· ≠ n.val) }).logEvent Ev.VOLTAGE_ALARM noSource []).showVolt) := by
  have hc : (s.mss.voltAlarms.contains n.val && !s.voltBad n.val) = true := by simp [ha, hv]
  rw [exec_voltageAlarmClear, execVoltageAlarmClear, if_pos hc]

/-- Settles O22: tamper and the alarms by their first and later cases, and a cool sample by what its registers show. -/
theorem tamperAndSensors : Obligations.TamperAndSensors := by
  unfold Obligations.TamperAndSensors
  intro s
  refine ⟨fun h => congrArg _ (State.tamper_of_first h), fun h => congrArg _ (State.tamper_of_later h),
    zeroisationEnd_passed, zeroisationEnd_failed, fun temps hn hb hv => ?sample, fun hw hc => ?warm,
    fun hw => ?cold, fun n ha hv => ?good, fun n hv => ?bad⟩
  case sample =>
    refine Completes.intro (execSensorSample_of_cool hn hb hv) ⟨fun i hi => ?_, ?_, ?_, ?_⟩
    · have hne : R.MSS_SENSE_STAT ≠ (F.MSS_TEMP_TEMP i).reg := by
        simp only [F.MSS_TEMP_TEMP, R.MSS_TEMP, R.MSS_SENSE_STAT]
        omega
      rw [State.showVolt, State.setFlag, State.fldI_setFld_apart _ _ _ _ (Fld.apart_of_reg hne), State.fldI_updMss, State.fldI,
        s.sampleShown_fld temps hne]
      exact s.sampled_fldI_temp hn hb [] [] hi
    · rw [State.showVolt, State.setFlag_mss]
      rfl
    · rw [State.showVolt, State.setFlag_evq, State.updMss_evq, State.sampleShown_part State.evq fun _ _ _ => rfl]
    · rw [State.showVolt, State.setFlag_log, State.updMss_log, State.sampleShown_part State.log fun _ _ _ => rfl]
  case warm =>
    refine congrArg _ (if_pos ?_)
    rw [hw, Bool.and_true, List.all_eq_true]
    exact fun i hi => decide_eq_true (hc i (List.mem_range.mp hi))
  case cold => exact congrArg _ (if_neg (by simp [hw]))
  case good =>
    have hu := State.logEvent_signals (Signals.refl (s.updMss fun x => { x with voltAlarms := x.voltAlarms.filter (· ≠ n.val) }))
      Ev.VOLTAGE_ALARM noSource []
    have halarms : ((s.updMss fun x => { x with voltAlarms := x.voltAlarms.filter (· ≠ n.val) }).logEvent Ev.VOLTAGE_ALARM
        noSource []).mss.voltAlarms = [] := by
      rw [hu.mss]
      simp [ha]
    refine Completes.intro (execVoltageAlarmClear_of_good ha hv) ⟨?_, ?_⟩
    · rw [State.showVolt, State.setFlag_mss, halarms]
    · rw [State.showVolt, State.flag_setFlag _ _ _ rfl rfl, halarms]
      rfl
  case bad => exact congrArg _ (if_neg (by simp [hv]))

end Sys2Proof.Machine
end

section
/-!
PROOFS. Signal and power states of a lane.
-/
namespace Sys2Proof.Machine
open Sys2Proof

-- Lane windows --------------------------------------------------------------------------------------------------

/-- Registers of different lanes differ. -/
theorem laneBase_add_ne {i j c d : Nat} (hi : i < 130) (hj : j < 130) (h : i ≠ j) (hc : c < 0x1000) (hd : d < 0x1000) :
    laneBase i + c ≠ laneBase j + d := by
  unfold laneBase
  split <;> split <;> omega

-- Taps (R58, R63) -----------------------------------------------------------------------------------------------

section
variable (s : State) (n : Nat)

/-- Making taps live writes the CTLE code and the tap registers alone. -/
theorem State.loadTaps_reg (t : TapSet) {c : Nat} (hc : c < 0x28) : (s.loadTaps n t).reg (laneBase n + c) = s.reg (laneBase n + c) := by
  unfold State.loadTaps
  dsimp only
  rw [State.reg_updLane, foldl_keeps (·.reg (laneBase n + c)), foldl_keeps (·.reg (laneBase n + c))]
  · refine State.reg_setFld_ne _ _ _ _ ?_
    simp only [F.LANE_CTLE_CODE, R.LANE_CTLE]
    omega
  · intro u i _
    refine State.reg_setFld_ne _ _ _ _ ?_
    simp only [ffeFld, R.LANE_FFE_TAPS]
    omega
  · intro u i _
    refine State.reg_setFld_ne _ _ _ _ ?_
    simp only [dfeFld, R.LANE_DFE_TAPS_0, R.LANE_DFE_TAPS_1]
    split <;> omega

theorem State.lane_setFldI (f : Fld) (v : Int) (m : Nat) : (s.setFldI f v).lane m = s.lane m := State.lane_setFld s f _ m

theorem State.loadTaps_lane_ne (t : TapSet) {m : Nat} (h : m ≠ n) : (s.loadTaps n t).lane m = s.lane m := by
  unfold State.loadTaps
  dsimp only
  rw [State.lane_updLane_ne _ _ _ _ h.symm, foldl_keeps (·.lane m) _ fun _ _ _ => State.lane_setFldI _ _ _ _,
    foldl_keeps (·.lane m) _ fun _ _ _ => State.lane_setFldI _ _ _ _, State.lane_setFld]

theorem State.holdTaps_of_held {k : Nat} (h : (s.lane n).held.isSome = true) : s.holdTaps n k = s := if_pos h

theorem State.holdTaps_of_none {k : Nat} (h : (s.lane n).held = none) : ∃ t, s.holdTaps n k =
    ((s.loadTaps n t).setFlag (F.LANE_STATUS_FAST_CONV n) false).updLane n fun l => { l with held := some t } :=
  ⟨_, if_neg (by simp [h])⟩

theorem State.holdTaps_held (k : Nat) : ((s.holdTaps n k).lane n).held.isSome = true := by
  cases h : (s.lane n).held with
  | none =>
    obtain ⟨t, ht⟩ := s.holdTaps_of_none n (k := k) h
    rw [ht, State.lane_updLane_same]
    rfl
  | some t =>
    have hs : (s.lane n).held.isSome = true := by rw [h]; rfl
    rwa [s.holdTaps_of_held n hs]

/-- Holding taps leaves the state of the receiver. -/
theorem State.holdTaps_rxState (k : Nat) : (s.holdTaps n k).rxState n = s.rxState n := by
  cases h : (s.lane n).held with
  | none =>
    obtain ⟨t, ht⟩ := s.holdTaps_of_none n (k := k) h
    rw [ht, State.rxState, State.fld_updLane, State.fld_setFlag_apart _ _ _ _ (Fld.apart_of_base (laneBase n) 0x8 0x4 rfl rfl rfl),
      State.fld, show (F.LANE_STATE_RX_STATE n).reg = laneBase n + 0x4 from rfl, s.loadTaps_reg n t (by decide)]
    rfl
  | some t =>
    have hs : (s.lane n).held.isSome = true := by rw [h]; rfl
    rw [s.holdTaps_of_held n hs]

theorem State.holdTaps_lane_ne (k : Nat) {m : Nat} (hm : m ≠ n) : (s.holdTaps n k).lane m = s.lane m := by
  cases h : (s.lane n).held with
  | none =>
    obtain ⟨t, ht⟩ := s.holdTaps_of_none n (k := k) h
    rw [ht, State.lane_updLane_ne _ _ _ _ hm.symm, State.lane_setFlag, s.loadTaps_lane_ne n t hm]
  | some t =>
    have hs : (s.lane n).held.isSome = true := by rw [h]; rfl
    rw [s.holdTaps_of_held n hs]

end

-- Loss of the signal (R58, R61, R67) ----------------------------------------------------------------------------

/-- Whether the lane has seen the stop notice within the last 10 reels. -/
def State.stopSeen (s : State) (n : Nat) : Bool :=
  match (s.lane n).stopAt with | some a => decide (s.time.clock ≤ a + 25600) | none => false

section
variable {n : LaneNo} {mv : Nat} {s : State}

theorem execSignalLoss_of_active (hm : mv < s.losLevel n) (hr : s.rxState n = 0) (ha : (s.testLane n).active ≠ 2) (k : Nat) :
    exec (.signalLoss n mv k) s = .next (((s.holdTaps n k).updLane n fun l =>
      { l with expectLos := s.stopSeen n, autoQuiet := s.stopSeen n && (s.lane n).ctlAutoQuiet && s.sync n == 2
               sigPresent := false }).when (s.stopSeen n && (s.lane n).ctlAutoQuiet && s.sync n == 2) fun s =>
        s.setFld (F.LANE_STATE_RX_STATE n) 1) := by
  have hgo : ¬ (s.losLevel n ≤ mv ∨ 2 ≤ s.rxState n ∨ (s.testLane n).active = 2) := by omega
  have hq : ∀ b : Bool, (b && s.rxState n == 0) = b := fun b => by rw [hr]; exact Bool.and_true b
  have hg : ∀ b : Bool, (b && s.rxState n == 1) = false := fun b => by rw [hr]; exact Bool.and_false b
  refine (if_neg hgo).trans ?_
  simp only [hq, hg, Bool.false_and, Bool.or_false]
  rfl

theorem execSignalReturn_of_active (hm : s.losLevel n ≤ mv) (hr : s.rxState n = 0) : exec (.signalReturn n mv) s =
    .next ((s.updLane n fun l => { l with sigPresent := true }).resumeTaps n) := by
  have hgo : ¬ (mv < s.losLevel n ∨ 2 ≤ s.rxState n) := by omega
  have hq : ¬ ((s.updLane n fun l => { l with sigPresent := true }).rxState n = 1
      ∧ (!((s.updLane n fun l => { l with sigPresent := true }).lane n).autoQuiet) = true) := by
    rintro ⟨h, -⟩
    have : s.rxState n = 1 := h
    omega
  exact (if_neg hgo).trans (congrArg _ (if_neg hq))

theorem execLos_of_active (hm : mv < s.losLevel n) (hr : s.rxState n = 0) (ha : (s.testLane n).active ≠ 2)
    (hl : s.flag (F.LANE_STATUS_LOS n) = false) : exec (.los n mv) s = .next (((((((s.setFlag (F.LANE_STATUS_LOS n) true).setFlag
      (F.LANE_STATUS_LOL n) true).setFlag (F.LANE_STATUS_LOS_EXPECTED n) (s.lane n).expectLos).setFlag (F.LANE_FLAGS_LOS n)
        true).setFlag (F.LANE_FLAGS_LOL n) true).setFld (F.LANE_SNR_SNR n) 0).loseToHunt n 0 [(.los, true), (.lol, true)]) := by
  have hgo : ¬ (s.losLevel n ≤ mv ∨ (s.testLane n).active = 2 ∨ s.rxState n = 3 ∨ s.rxState n = 4
      ∨ s.flag (F.LANE_STATUS_LOS n) = true) := by
    rw [hl]
    simp only [Bool.false_eq_true, or_false]
    omega
  rw [exec_los, execLos]
  refine (if_neg hgo).trans ?_
  dsimp only
  rw [State.lane_setFlag, State.lane_setFlag]

theorem execLosClear_of_active (hm : 2 * s.losLevel n ≤ mv) (hr : s.rxState n = 0) (hl : s.flag (F.LANE_STATUS_LOS n) = true)
    (hq : (s.lane n).autoQuiet = false) : exec (.losClear n mv) s = .next ((((s.setFlag (F.LANE_STATUS_LOS n) false).updLane n fun l =>
      { l with expectLos := false, autoQuiet := false, stopAt := none }).setRaws n [(.los, false)]).setFlag
        (F.LANE_STATUS_LOS_EXPECTED n) false) := by
  have hgo : ¬ (mv < 2 * s.losLevel n ∨ s.rxState n = 3 ∨ s.rxState n = 4 ∨ (!s.flag (F.LANE_STATUS_LOS n)) = true) := by
    rw [hl]
    simp only [Bool.not_true, Bool.false_eq_true, or_false]
    omega
  rw [exec_losClear, execLosClear]
  refine (if_neg hgo).trans ?_
  dsimp only
  rw [State.lane_setFlag, hq, Bool.false_and, State.when_false]

end

/-- Settles O23: on an ACTIVE receiver each command is its law above; the other clauses are its guards. -/
theorem laneSignal : Obligations.LaneSignal := by
  unfold Obligations.LaneSignal
  intro n mv s
  refine ⟨fun k hm hr ha hc hh => ?held, fun k a hm hr hy ha hc hs ht => ?quiet, fun k hm => ?strong, execSignalReturn_of_active,
    fun hm => ?weak, execLos_of_active, fun hl => ?stands, execLosClear_of_active, fun hm => ?below⟩
  case held =>
    have h := execSignalLoss_of_active hm hr ha k
    rw [hc, Bool.and_false, Bool.false_and, State.when_false] at h
    refine Completes.intro h ⟨?_, ?_, ?_, ?_, ?_, ?_, fun m hne => ?_⟩
    · rw [State.lane_updLane_same]
      rfl
    · rw [State.lane_updLane_same]
    · rw [State.lane_updLane_same]
    · rw [State.lane_updLane_same]
      exact s.holdTaps_held n k
    · rw [State.rxState, State.fld_updLane, ← State.rxState, s.holdTaps_rxState n k, hr]
    · obtain ⟨t, ht⟩ := s.holdTaps_of_none n (k := k) hh
      rw [State.flag_updLane, ht, State.flag_updLane, State.flag_setFlag _ _ _ rfl rfl]
    · rw [State.lane_updLane_ne _ _ _ _ hne.symm, s.holdTaps_lane_ne n k hne]
  case quiet =>
    have hseen : s.stopSeen n = true := by
      unfold State.stopSeen
      rw [hs]
      exact decide_eq_true ht
    have h := execSignalLoss_of_active hm hr ha k
    rw [hseen, hc, hy, show (true && true && (2 == 2 : Bool)) = true from rfl, State.when_true] at h
    refine Completes.intro h ⟨?_, ?_, ?_, ?_⟩
    · exact State.fld_setFld_fits _ _ _ rfl (show 1 < 2 ^ 3 by decide)
    all_goals rw [State.lane_setFld, State.lane_updLane_same]
  case strong => exact if_pos (.inl hm)
  case weak => exact if_pos (.inl hm)
  case stands => exact if_pos (.inr (.inr (.inr (.inr hl))))
  case below => exact if_pos (.inl hm)

-- Power states (R63, R66 to R68) ------------------------------------------------------------------------------------

section
variable {n : LaneNo} {s : State}

theorem State.txStopNow_of_over (hx : s.txState n = 5) (hl : (s.lane n).noticeLeft = 0) (ht : (s.lane n).txTarget ≠ 0) :
    s.txStopNow n = (s.setFld (F.LANE_STATE_TX_STATE n) (s.lane n).txTarget).transitionEnd n := by
  unfold State.txStopNow
  refine (if_pos ⟨hx, hl⟩).trans ?_
  dsimp only
  rw [if_neg ht, if_neg fun h => ht h.1]

theorem State.txStopNow_of_not_stopping (hx : s.txState n ≠ 5) : s.txStopNow n = s := if_neg fun h => hx h.1

/-- The taps a receiver starts with. -/
def State.startTaps (s : State) (n : Nat) (t : Trained) : TapSet :=
  let l := s.lane n
  let mode := s.fld (F.LANE_STATE_START_MODE n)
  let ctle := if s.flag (F.LANE_EQ_CTL_CTLE_MANUAL n) then l.startSet.ctle
    else if mode = 1 then clampNat (l.startSet.ctle - 3) (min 20 (l.startSet.ctle + 3)) t.ctle else min 20 t.ctle
  if mode = 0 then l.startSet else { ctle := ctle, ffe := t.ffe, dfe := t.dfe, cdr := t.cdr }

theorem State.startTaps_direct {k : Nat} (h : s.fld (F.LANE_STATE_START_MODE k) = 0) (t : Trained) :
    s.startTaps k t = (s.lane k).startSet := if_pos h

theorem State.startTaps_seed {k : Nat} (h : s.fld (F.LANE_STATE_START_MODE k) = 1) (hc : s.flag (F.LANE_EQ_CTL_CTLE_MANUAL k) = false)
    (t : Trained) : s.startTaps k t = { ctle := clampNat ((s.lane k).startSet.ctle - 3) (min 20 ((s.lane k).startSet.ctle + 3)) t.ctle
                                        ffe := t.ffe, dfe := t.dfe, cdr := t.cdr } := by
  unfold State.startTaps
  dsimp only
  rw [hc, h, if_neg (by decide), if_neg (by decide), if_pos rfl]

theorem State.startTaps_full {k : Nat} (h : s.fld (F.LANE_STATE_START_MODE k) = 2) (hc : s.flag (F.LANE_EQ_CTL_CTLE_MANUAL k) = false)
    (t : Trained) : s.startTaps k t = { ctle := min 20 t.ctle, ffe := t.ffe, dfe := t.dfe, cdr := t.cdr } := by
  unfold State.startTaps
  dsimp only
  rw [hc, h, if_neg (by decide), if_neg (by decide), if_neg (by decide)]

/-- A receiver that starts takes its taps and enters its target in HUNT, with the signal as it was. -/
theorem execReceiverStart_of_starting (hr : s.rxState n = 6) (tr : Trained) : exec (.receiverStart n tr) s = .next
    ((((((s.loadTaps n (s.startTaps n tr)).setFlag (F.LANE_STATUS_FAST_CONV n) (s.fld (F.LANE_STATE_START_MODE n) == 0)).setFld
      (F.LANE_STATE_RX_STATE n) (s.lane n).rxTarget).updLane n fun l =>
        { l with held := none, snapNew := none, snapOld := none, stopAt := none }).loseToHunt n 0
          [(.los, s.flag (F.LANE_STATUS_LOS n)), (.lol, s.flag (F.LANE_STATUS_LOL n))]).transitionEnd n) := by
  have hkept : ∀ f : Fld, f.reg = R.LANE_STATUS n → Fld.apart (F.LANE_STATUS_FAST_CONV n) f = true →
      ((((s.loadTaps n (s.startTaps n tr)).setFlag (F.LANE_STATUS_FAST_CONV n) (s.fld (F.LANE_STATE_START_MODE n) == 0)).setFld
        (F.LANE_STATE_RX_STATE n) (s.lane n).rxTarget).updLane n fun l =>
          { l with held := none, snapNew := none, snapOld := none, stopAt := none }).flag f = s.flag f := by
    intro f hf ha
    rw [State.flag_updLane, State.flag_setFld_apart _ _ _ _ (Fld.apart_of_base (laneBase n) 0x4 0x8 rfl hf rfl),
      State.flag_setFlag_apart _ _ _ _ ha, State.flag, State.fld, hf, show R.LANE_STATUS n = laneBase n + 0x8 from rfl,
      s.loadTaps_reg n _ (by decide), State.flag, State.fld, hf]
    rfl
  rw [exec_receiverStart, execReceiverStart]
  refine (if_neg (not_not_intro hr)).trans ?_
  rw [← hkept (F.LANE_STATUS_LOS n) rfl (Fld.apart_of_bits rfl), ← hkept (F.LANE_STATUS_LOL n) rfl (Fld.apart_of_bits rfl)]
  rfl

end

-- Path delays (R47, R261) ---------------------------------------------------------------------------------------

/-- Registers that no update of the path delays writes. -/
def offDelays (o : Nat) : Prop := ∀ j < 130, R.LANE_TT_PATHDLY j ≠ o ∧ R.LANE_SNR j ≠ o

/-- A register of a lane other than its delays and its SNR. -/
theorem offDelays_lane {n c : Nat} (hn : n < 130) (hc : c < 0x1000) (h1 : c ≠ 0x320) (h2 : c ≠ 0x84) : offDelays (laneBase n + c) := by
  intro j hj
  simp only [R.LANE_TT_PATHDLY, R.LANE_SNR]
  by_cases hjn : j = n
  · subst hjn
    omega
  · exact ⟨laneBase_add_ne hj hn hjn (by decide) hc, laneBase_add_ne hj hn hjn (by decide) hc⟩

/-- A register above the lanes. -/
theorem offDelays_high {o : Nat} (h : 0x182000 ≤ o) : offDelays o := by
  intro j hj
  have := laneBase_bounds ⟨j, hj⟩
  simp only [R.LANE_TT_PATHDLY, R.LANE_SNR]
  dsimp only at this
  omega

/-- `t` is `s` but for its registers and lanes. -/
def OnlyRegsLanes (s t : State) : Prop := t = { s with regs := t.regs, lanes := t.lanes }

theorem OnlyRegsLanes.refl (s : State) : OnlyRegsLanes s s := rfl
theorem OnlyRegsLanes.trans {s t u : State} (h : OnlyRegsLanes s t) (k : OnlyRegsLanes t u) : OnlyRegsLanes s u := by
  unfold OnlyRegsLanes at *
  rw [k, h]
theorem OnlyRegsLanes.setFld {s t : State} (h : OnlyRegsLanes s t) (f : Fld) (v : Nat) : OnlyRegsLanes s (t.setFld f v) :=
  h.trans rfl
theorem OnlyRegsLanes.updLane {s t : State} (h : OnlyRegsLanes s t) (n : Nat) (f : Lane → Lane) : OnlyRegsLanes s (t.updLane n f) :=
  h.trans rfl

theorem OnlyRegsLanes.lanePathDelay {s t : State} (h : OnlyRegsLanes s t) (snr : List (BitVec 10)) (n : Nat) :
    OnlyRegsLanes s (t.lanePathDelay snr n) := by
  unfold State.lanePathDelay
  exact (((h.setFld _ _).setFld _ _).setFld _ _).updLane _ _

/-- `t` has the registers of `s` that no update of the path delays writes. -/
def DelaysKept (s t : State) : Prop := ∀ o, offDelays o → t.reg o = s.reg o

section
variable {s t : State}

theorem DelaysKept.fld (h : DelaysKept s t) {f : Fld} (hf : offDelays f.reg) : t.fld f = s.fld f := by
  rw [State.fld, h _ hf]
  rfl

theorem DelaysKept.fldI (h : DelaysKept s t) {f : Fld} (hf : offDelays f.reg) : t.fldI f = s.fldI f := by
  rw [State.fldI, h.fld hf]
  rfl

theorem DelaysKept.dieTempSum (h : DelaysKept s t) (g : Nat) : t.dieTempSum g = s.dieTempSum g := by
  have hi : ∀ i, t.fldI (F.MSS_TEMP_TEMP i) = s.fldI (F.MSS_TEMP_TEMP i) := fun i =>
    h.fldI (offDelays_high (by simp only [F.MSS_TEMP_TEMP, R.MSS_TEMP]; omega))
  unfold State.dieTempSum
  simp only [hi]

/-- The two path delays of a lane by the temperature of its die. -/
def State.rxDelay (s : State) (n : Nat) : Nat :=
  pathDelay (s.fld (F.LANE_TT_DBASE_RX_BASE n)) (s.fldI (F.TIME_TSK_K_RX (laneDie n))) (s.dieTempSum (laneDie n))
def State.txDelay (s : State) (n : Nat) : Nat :=
  pathDelay (s.fld (F.LANE_TT_DBASE_TX_BASE n)) (s.fldI (F.TIME_TSK_K_TX (laneDie n))) (s.dieTempSum (laneDie n))

/-- What a lane shows after its update, from the inputs of `s`. -/
structure DelayShown (s t : State) (snr : List (BitVec 10)) (n : Nat) : Prop where
  rx : t.fld (F.LANE_TT_PATHDLY_RXDLY n) = s.rxDelay n % 2 ^ 16
  tx : t.fld (F.LANE_TT_PATHDLY_TXDLY n) = s.txDelay n % 2 ^ 16
  snr : s.raw n .lol = false → s.rxDown n = false → t.fld (F.LANE_SNR_SNR n) = (snr.getD n 0).toNat

variable {n : Nat}

/-- The update of another lane keeps what a lane shows. -/
theorem DelayShown.of_other {u : State} {snr : List (BitVec 10)} (h : DelayShown s t snr n)
    (hd : u.reg (R.LANE_TT_PATHDLY n) = t.reg (R.LANE_TT_PATHDLY n)) (hs : u.reg (R.LANE_SNR n) = t.reg (R.LANE_SNR n)) :
    DelayShown s u snr n := by
  refine ⟨?_, ?_, fun hl hdn => ?_⟩
  · rw [← h.rx, State.fld, State.fld, show (F.LANE_TT_PATHDLY_RXDLY n).reg = R.LANE_TT_PATHDLY n from rfl, hd]
  · rw [← h.tx, State.fld, State.fld, show (F.LANE_TT_PATHDLY_TXDLY n).reg = R.LANE_TT_PATHDLY n from rfl, hd]
  · rw [← h.snr hl hdn, State.fld, State.fld, show (F.LANE_SNR_SNR n).reg = R.LANE_SNR n from rfl, hs]

theorem State.lanePathDelay_reg (t : State) (snr : List (BitVec 10)) {o : Nat} (h1 : R.LANE_TT_PATHDLY n ≠ o) (h2 : R.LANE_SNR n ≠ o) :
    (t.lanePathDelay snr n).reg o = t.reg o := by
  unfold State.lanePathDelay
  dsimp only
  rw [State.reg_updLane, State.reg_setFld_ne _ _ _ _ h2, State.reg_setFld_ne _ _ _ _ h1, State.reg_setFld_ne _ _ _ _ h1]

variable (hn : n < 130)
include hn

theorem DelaysKept.rxDelay (h : DelaysKept s t) : t.rxDelay n = s.rxDelay n := by
  unfold State.rxDelay
  rw [h.fld (offDelays_lane hn (by decide) (by decide) (by decide) : offDelays (laneBase n + 0x31c)), h.dieTempSum,
    h.fldI (offDelays_high (by simp only [F.TIME_TSK_K_RX, R.TIME_TSK]; omega))]

theorem DelaysKept.txDelay (h : DelaysKept s t) : t.txDelay n = s.txDelay n := by
  unfold State.txDelay
  rw [h.fld (offDelays_lane hn (by decide) (by decide) (by decide) : offDelays (laneBase n + 0x31c)), h.dieTempSum,
    h.fldI (offDelays_high (by simp only [F.TIME_TSK_K_TX, R.TIME_TSK]; omega))]

theorem DelaysKept.lanePathDelay (h : DelaysKept s t) (snr : List (BitVec 10)) : DelaysKept s (t.lanePathDelay snr n) :=
  fun o ho => (t.lanePathDelay_reg snr (ho n hn).1 (ho n hn).2).trans (h o ho)

/-- The update of a lane shows its delays and its signal-to-noise ratio. -/
theorem DelaysKept.shows (h : DelaysKept s t) (snr : List (BitVec 10)) : DelayShown s (t.lanePathDelay snr n) snr n := by
  have hps : Fld.apart (F.LANE_SNR_SNR n) (F.LANE_TT_PATHDLY_RXDLY n) = true := Fld.apart_of_base (laneBase n) 0x84 0x320 rfl rfl rfl
  have hpt : Fld.apart (F.LANE_SNR_SNR n) (F.LANE_TT_PATHDLY_TXDLY n) = true := Fld.apart_of_base (laneBase n) 0x84 0x320 rfl rfl rfl
  have hrx := h.rxDelay hn
  have htx := h.txDelay hn
  unfold State.rxDelay at hrx
  unfold State.txDelay at htx
  unfold State.lanePathDelay
  dsimp only
  rw [hrx, htx]
  refine ⟨?_, ?_, fun hl hd => ?_⟩
  · rw [State.fld_updLane, State.fld_setFld_apart _ _ _ _ hps, State.fld_setFld_apart _ _ _ _ (Fld.apart_of_bits rfl),
      State.fld_setFld _ _ _ rfl]
    rfl
  · rw [State.fld_updLane, State.fld_setFld_apart _ _ _ _ hpt, State.fld_setFld _ _ _ rfl]
    rfl
  · have hlol : ∀ x y, ((t.setFld (F.LANE_TT_PATHDLY_RXDLY n) x).setFld (F.LANE_TT_PATHDLY_TXDLY n) y).raw n .lol = false := by
      intro x y
      rw [State.raw, State.flag_setFld_apart _ _ _ _ (Fld.apart_of_base (laneBase n) 0x320 0x104 rfl rfl rfl),
        State.flag_setFld_apart _ _ _ _ (Fld.apart_of_base (laneBase n) 0x320 0x104 rfl rfl rfl)]
      refine (State.flag_congr (h.fld ?_)).trans hl
      exact (offDelays_lane hn (by decide) (by decide) (by decide) : offDelays (laneBase n + 0x104))
    have hdown : ∀ x y, ((t.setFld (F.LANE_TT_PATHDLY_RXDLY n) x).setFld (F.LANE_TT_PATHDLY_TXDLY n) y).rxDown n = false := by
      intro x y
      rw [State.rxDown, State.rxState, State.fld_setFld_apart _ _ _ _ (Fld.apart_of_base (laneBase n) 0x320 0x4 rfl rfl rfl),
        State.fld_setFld_apart _ _ _ _ (Fld.apart_of_base (laneBase n) 0x320 0x4 rfl rfl rfl),
        h.fld (offDelays_lane hn (by decide) (by decide) (by decide) : offDelays (laneBase n + 0x4))]
      exact hd
    rw [State.fld_updLane, hlol, hdown, if_neg (by simp)]
    exact State.fld_setFld_fits _ _ _ rfl (BitVec.isLt _)

end

/-- Updating the first `k` lanes shows each of them. -/
theorem State.pathDelays_show (s : State) (snr : List (BitVec 10)) {k : Nat} (hk : k ≤ 130) :
    let t := (List.range k).foldl (fun s n => s.lanePathDelay snr n) s
    DelaysKept s t ∧ OnlyRegsLanes s t ∧ ∀ n < k, DelayShown s t snr n := by
  induction k with
  | zero => exact ⟨fun _ _ => rfl, .refl s, fun n hn => absurd hn (Nat.not_lt_zero n)⟩
  | succ k ih =>
    intro t
    obtain ⟨hkept, hparts, hshown⟩ := ih (by omega)
    have ht : t = ((List.range k).foldl (fun s n => s.lanePathDelay snr n) s).lanePathDelay snr k := by
      unfold t
      rw [List.range_succ, List.foldl_concat]
    rw [ht]
    refine ⟨hkept.lanePathDelay (by omega) snr, hparts.lanePathDelay snr k, fun n hn => ?_⟩
    rcases Nat.lt_succ_iff_lt_or_eq.mp hn with hlt | rfl
    · have hne : ∀ c < 0x1000, ∀ d < 0x1000, laneBase k + c ≠ laneBase n + d := fun c hc d hd =>
        laneBase_add_ne (by omega) (by omega) (by omega) hc hd
      exact (hshown n hlt).of_other
        (State.lanePathDelay_reg _ snr (hne 0x320 (by decide) 0x320 (by decide)) (hne 0x84 (by decide) 0x320 (by decide)))
        (State.lanePathDelay_reg _ snr (hne 0x320 (by decide) 0x84 (by decide)) (hne 0x84 (by decide) 0x84 (by decide)))
    · exact hkept.shows (by omega) snr

/-- Settles O26: each transition is its law, and the path delays follow lane by lane. -/
theorem lanePower : Obligations.LanePower := by
  unfold Obligations.LanePower
  intro n s
  refine ⟨fun hx hl ht => congrArg _ (State.txStopNow_of_over hx hl ht), fun hx => congrArg _ (State.txStopNow_of_not_stopping hx),
    fun hx => congrArg _ (if_pos hx), fun hx => congrArg _ (if_neg hx), fun hr => congrArg _ (if_pos hr),
    fun hr => congrArg _ (if_neg hr), fun tr taps hr ht => ?start, fun tr hr => if_pos hr, fun snr => ?delays⟩
  case start =>
    have htaps : s.startTaps n tr = taps := by
      rcases ht with ⟨hm, rfl⟩ | ⟨hm, hc, rfl⟩ | ⟨hm, hc, rfl⟩
      · exact State.startTaps_direct hm tr
      · exact State.startTaps_seed hm hc tr
      · exact State.startTaps_full hm hc tr
    rw [execReceiverStart_of_starting hr tr, htaps]
  case delays =>
    obtain ⟨-, hparts, hshown⟩ := s.pathDelays_show snr (Nat.le_refl 130)
    obtain ⟨hrx, htx, hsnr⟩ := hshown n n.isLt
    exact Completes.intro rfl ⟨hrx, htx, hsnr, hparts⟩

end Sys2Proof.Machine
end

section
/-!
PROOFS. Blocks, reel synchronisation, slips and services of a lane.
-/
namespace Sys2Proof.Machine
open Sys2Proof

-- Setting defects (R118, R123) ----------------------------------------------------------------------------------

/-- `t` is `s` after lane `n` has reported its defects, as far as its lanes and the registers beside the report go. -/
structure Reported (n : Nat) (s t : State) : Prop where
  reg : ∀ o, signalReg o = false → o ≠ R.LANE_DEFECT_RPT n → o ≠ R.LANE_DEFECT_FLAGS n → t.reg o = s.reg o
  lane : ∀ m, ∃ b, t.lane m = { s.lane m with blanking := b }

section
variable {n : Nat} {s t u : State}

/-- Reports that leave the lanes alone. -/
theorem Reported.of_lanes (hr : ∀ o, signalReg o = false → o ≠ R.LANE_DEFECT_RPT n → o ≠ R.LANE_DEFECT_FLAGS n → t.reg o = s.reg o)
    (hl : ∀ m, t.lane m = s.lane m) : Reported n s t := ⟨hr, fun m => ⟨(s.lane m).blanking, hl m⟩⟩

theorem Reported.refl (s : State) : Reported n s s := .of_lanes (fun _ _ _ _ => rfl) fun _ => rfl

theorem Reported.trans (h : Reported n s t) (k : Reported n t u) : Reported n s u where
  reg o ho h1 h2 := (k.reg o ho h1 h2).trans (h.reg o ho h1 h2)
  lane m := by
    obtain ⟨b, hb⟩ := h.lane m
    obtain ⟨c, hc⟩ := k.lane m
    exact ⟨c, by rw [hc, hb]⟩

theorem Reported.signals (h : Reported n s t) (k : Signals t u) : Reported n s u :=
  h.trans (.of_lanes (fun o ho _ _ => k.reg o ho) k.lane)

theorem Reported.setReg (h : Reported n s t) (v : Word) : Reported n s (t.setReg (R.LANE_DEFECT_RPT n) v) :=
  h.trans (.of_lanes (fun _ _ h1 _ => State.reg_setReg_ne _ _ _ _ h1.symm) fun _ => State.lane_setReg _ _ _ _)

theorem Reported.setFlags (h : Reported n s t) (lo v : Nat) : Reported n s (t.setFld ⟨R.LANE_DEFECT_FLAGS n, lo, 1⟩ v) :=
  h.trans (.of_lanes (fun _ _ _ h2 => State.reg_setFld_ne _ _ _ _ h2.symm) fun _ => State.lane_setFld _ _ _ _)

theorem Reported.ite {c : Prop} [Decidable c] (ht : Reported n s t) (hu : Reported n s u) : Reported n s (if c then t else u) := by
  split <;> assumption

theorem Reported.foldl {α : Type} (l : List α) {f : State → α → State} (hf : ∀ u a, Reported n s u → Reported n s (f u a))
    (h : Reported n s t) : Reported n s (l.foldl f t) := by
  induction l generalizing t with
  | nil => exact h
  | cons a l ih => exact ih (hf _ a h)

theorem Reported.fld (h : Reported n s t) (f : Fld) (hs : signalReg f.reg = false) (h1 : f.reg ≠ R.LANE_DEFECT_RPT n)
    (h2 : f.reg ≠ R.LANE_DEFECT_FLAGS n) : t.fld f = s.fld f := by
  rw [State.fld, h.reg _ hs h1 h2]
  rfl

end

theorem State.report_reported (s : State) (n : LaneNo) : Reported n s (s.report n) := by
  have hn := n.isLt
  unfold State.report
  extract_lets old new s1 s2
  have h1 : Reported n s s1 := (Reported.refl s).setReg _
  have h2 : Reported n s s2 := by
    refine Reported.foldl _ (fun u d hu => ?_) h1
    refine Reported.ite hu (Reported.signals (?_ : Reported n s (u.when (new.testBit d.bit) _)) (State.logEvent_signals (.refl _) _ _ _))
    cases new.testBit d.bit
    · exact hu
    · exact hu.setFlags _ _
  exact Reported.ite (h2.signals (State.icRaise_signals (.refl _) (by omega))) h2

theorem State.lane_count (s : State) (k x m : Nat) : (s.count k x).lane m = s.lane m := State.lane_updCirc s _ m

theorem State.noteBlanking_reported (s : State) (n : Nat) : Reported n s (s.noteBlanking n) := by
  refine Reported.ite ⟨fun _ _ _ _ => rfl, fun m => ?_⟩ (Reported.refl s)
  rw [State.lane_count]
  by_cases h : n = m
  · subst h
    exact ⟨true, State.lane_updLane_same _ _ _⟩
  · exact ⟨_, State.lane_updLane_ne _ _ _ _ h⟩

/-- The raw states of a lane written, before their report. -/
def State.putRaws (s : State) (n : Nat) (l : List (Defect × Bool)) : State :=
  l.foldl (fun s (d, b) => s.setFld ⟨R.LANE_DEFECT n, d.bit, 1⟩ b.toNat) s

theorem State.setRaws_reported (s : State) (n : LaneNo) (l : List (Defect × Bool)) : Reported n (s.putRaws n l) (s.setRaws n l) :=
  have h := (s.putRaws n l).noteBlanking_reported n
  Reported.ite h (h.trans (State.report_reported _ n))

theorem State.putRaws_reg (s : State) (n : Nat) (l : List (Defect × Bool)) {o : Nat} (h : R.LANE_DEFECT n ≠ o) :
    (s.putRaws n l).reg o = s.reg o :=
  foldl_keeps (·.reg o) l (fun _ _ _ => State.reg_setFld_ne _ _ _ _ h) s

theorem State.putRaws_lane (s : State) (n : Nat) (l : List (Defect × Bool)) (m : Nat) : (s.putRaws n l).lane m = s.lane m :=
  foldl_keeps (·.lane m) l (fun _ _ _ => State.lane_setFld _ _ _ _) s

section
variable (s : State) (n : LaneNo) (l : List (Defect × Bool))

/-- Setting raw states writes no field of another register of the lane. -/
theorem State.fld_setRaws {f : Fld} (c : Nat) (hf : f.reg = laneBase n + c)
    (hc : (Nat.ble 0x1000 c || Nat.beq c 0x104 || Nat.beq c 0x108 || Nat.beq c 0x10c) = false) : (s.setRaws n l).fld f = s.fld f := by
  simp only [Bool.or_eq_false_iff] at hc
  obtain ⟨⟨⟨hlt, h4⟩, h8⟩, h12⟩ := hc
  have h4 := Nat.ne_of_beq_eq_false h4
  have h8 := Nat.ne_of_beq_eq_false h8
  have h12 := Nat.ne_of_beq_eq_false h12
  rw [(s.setRaws_reported n l).fld f (hf ▸ signalReg_lane n hlt) (by rw [hf, R.LANE_DEFECT_RPT]; omega)
    (by rw [hf, R.LANE_DEFECT_FLAGS]; omega), State.fld, s.putRaws_reg n l (by rw [hf, R.LANE_DEFECT]; omega)]
  rfl

/-- The raw states shown are those written. -/
theorem State.raw_setRaws (d : Defect) : (s.setRaws n l).raw n d = (s.putRaws n l).raw n d :=
  State.flag_congr ((s.setRaws_reported n l).fld _ (signalReg_lane n rfl) (by simp only [R.LANE_DEFECT, R.LANE_DEFECT_RPT]; omega)
    (by simp only [R.LANE_DEFECT, R.LANE_DEFECT_FLAGS]; omega))

theorem State.lane_setRaws (m : Nat) : ∃ b, (s.setRaws n l).lane m = { s.lane m with blanking := b } := by
  rw [← s.putRaws_lane n l m]
  exact (s.setRaws_reported n l).lane m

end

theorem Defect.bit_lt (d : Defect) : d.bit + 1 ≤ 32 := by cases d <;> decide

theorem Defect.bit_injective {d e : Defect} (h : d.bit = e.bit) : d = e := by
  revert h
  cases d <;> cases e <;> decide

theorem State.raw_setFld_same (s : State) (n : Nat) (d : Defect) (b : Bool) :
    (s.setFld ⟨R.LANE_DEFECT n, d.bit, 1⟩ b.toNat).raw n d = b :=
  State.flag_setFlag_same s ⟨R.LANE_DEFECT n, d.bit, 1⟩ b d.bit_lt rfl

theorem State.raw_setFld_ne (s : State) (n : Nat) {d e : Defect} (h : d ≠ e) (v : Nat) :
    (s.setFld ⟨R.LANE_DEFECT n, d.bit, 1⟩ v).raw n e = s.raw n e := by
  have hne : d.bit ≠ e.bit := fun he => h (Defect.bit_injective he)
  have hlt := e.bit_lt
  refine State.flag_setFld_apart _ _ _ _ ?_
  simp only [Fld.apart, decide_eq_true_eq]
  omega

-- Blocks and headers (R84, R110 to R116) ------------------------------------------------------------------------

section
variable {n : LaneNo} {s : State}

/-- A header at a free offset opens the first candidate. -/
theorem State.huntHeader_first {h off : Nat} (he : off % 2 = 0) (hlos : s.flag (F.LANE_STATUS_LOS n) = false)
    (hlol : s.flag (F.LANE_STATUS_LOL n) = false) (hr : s.rxState n = 0) (hc : (s.lane n).candidates = [])
    (hb : (s.lane n).barred = none) (hclap : hdrClapper h = clapper) (hm : hdrMatches h = true) :
    s.huntHeader n h off = s.setCandidates n [{ offset := off, blockNo := hdrBlock h, seqByte := hdrSeq h, headers := 1 }] := by
  have hgo : ¬ (s.flag (F.LANE_STATUS_LOS n) || s.flag (F.LANE_STATUS_LOL n) || decide (2 ≤ s.rxState n) || off % 2 == 1) = true := by
    rw [hlos, hlol, hr, he]
    decide
  have hopen : ¬ (hdrClapper h ≠ clapper ∨ (s.lane n).barred = some off) := by simp [hclap, hb]
  unfold State.huntHeader
  rw [if_neg hgo, hc]
  dsimp only [List.find?_nil]
  unfold State.openCandidate
  dsimp only
  rw [if_neg hopen, hc, if_neg (by decide), if_pos hm]
  rfl

theorem execBlockHeader_of_hunt (hs : s.sync n = 0) (hdr : BitVec 80) (prev : Fin 4) (off : Fin 17920) :
    exec (.blockHeader n hdr prev off) s = .next (s.huntHeader n (s.fromLine n prev 80 hdr.toNat) off.val) := if_pos hs

theorem execBlockHeader_of_good (hs : s.sync n ≠ 0) {b : RxBlock} (hb : (s.lane n).blk = some b) (hj : b.headerJudged = false)
    (hg : (s.judgeHeader n b).1 = true) (hdr : BitVec 80) (prev : Fin 4) (off : Fin 17920) :
    exec (.blockHeader n hdr prev off) s = .next (s.updLane n fun l =>
      { l with blk := some { b with headerJudged := true, headerGood := true }, reelByte := (s.judgeHeader n b).2
               badHeaders := 0 }) := by
  rw [exec_blockHeader, execBlockHeader]
  dsimp only
  rw [if_neg hs, hb]
  dsimp only
  rw [if_neg (by simp [hj]), hg]
  rfl

theorem execBlockHeader_of_bad (hs : s.sync n ≠ 0) {b : RxBlock} (hb : (s.lane n).blk = some b) (hj : b.headerJudged = false)
    (hg : (s.judgeHeader n b).1 = false) (hl : (s.lane n).badHeaders < 7) (hdr : BitVec 80) (prev : Fin 4) (off : Fin 17920) :
    exec (.blockHeader n hdr prev off) s = .next ((s.updLane n fun l =>
      { l with blk := some { b with headerJudged := true, headerGood := false }, reelByte := (s.judgeHeader n b).2
               badHeaders := (s.lane n).badHeaders + 1, rptHdr := (l.rptHdr + 1) % 2 ^ 32 }).count (laneCtr n 3)) := by
  rw [exec_blockHeader, execBlockHeader]
  dsimp only
  rw [if_neg hs, hb]
  dsimp only
  rw [if_neg (by simp [hj]), hg]
  refine congrArg _ (if_neg ?_)
  show ¬ 8 ≤ (s.lane n).badHeaders + 1
  omega

/-- Counting a block outside reel sync changes the loupe's counters alone. -/
theorem State.countBlock_of_no_reel {k : Nat} (hs : s.sync k ≠ 2) (d : Decoded) : ∃ c, s.countBlock k d = s.updCirc fun _ => c := by
  unfold State.countBlock
  dsimp only
  cases d.cls with
  | clean => exact ⟨s.circ, if_pos hs⟩
  | corrected => exact ⟨_, if_pos hs⟩
  | uncorrectable => exact ⟨_, if_pos hs⟩

/-- A block received under number `no` that decodes to `d`. -/
def decodedBlock (no : Nat) (raw : RawBlock) (d : Decoded) : RxBlock :=
  { no := no, cls := d.cls, csym := d.csym, data := d.data, rawHeader := BitVec.ofNat 80 (raw.toNat >>> 17840) }

theorem decodedBlock_map (no : Nat) (raw : RawBlock) (d : Decoded) :
    (some (decodedBlock no raw d)).map (fun b => (b.no, b.cls, b.csym)) = some (no, d.cls, d.csym) := rfl

/-- In BLOCK_SYNC a decoded block is kept under the next number, and the alignment buffer waits. -/
theorem execBlockDecode_of_block_sync (hs : s.sync n = 1) (line : RawBlock) (prev : Fin 4) :
    ∃ c, exec (.blockDecode n line prev) s = .next ((s.updLane n fun l => { l with
      blkNo := ((s.lane n).blkNo + 1) % 32
      blk := some (decodedBlock (((s.lane n).blkNo + 1) % 32) (BitVec.ofNat 17920 (s.fromLine n prev 17920 line.toNat))
        (decodeBlock (BitVec.ofNat 17920 (s.fromLine n prev 17920 line.toNat))))
      rx := l.rx }).updCirc fun _ => c) := by
  have h0 : ¬ s.sync n = 0 := by omega
  have h2 : s.sync n ≠ 2 := by omega
  rw [exec_blockDecode, execBlockDecode]
  dsimp only
  rw [if_neg h0]
  simp only [if_pos h2]
  obtain ⟨c, hc⟩ := State.countBlock_of_no_reel (k := n) (s := s.updLane n fun l => { l with
      blkNo := ((s.lane n).blkNo + 1) % 32
      blk := some (decodedBlock (((s.lane n).blkNo + 1) % 32) (BitVec.ofNat 17920 (s.fromLine n prev 17920 line.toNat))
        (decodeBlock (BitVec.ofNat 17920 (s.fromLine n prev 17920 line.toNat))))
      rx := l.rx }) h2 (decodeBlock (BitVec.ofNat 17920 (s.fromLine n prev 17920 line.toNat)))
  exact ⟨c, congrArg _ hc⟩

end

/-- Settles O27: the first header of a hunt, and the good and the bad header of a decoded block, are their laws. -/
theorem laneBlocks : Obligations.LaneBlocks := by
  unfold Obligations.LaneBlocks
  intro n s
  refine ⟨fun hdr prev off => ?hunt, fun hdr prev off b hs hb hj hg => ?good, fun hdr prev off b hs hb hj hg hl => ?bad,
    fun line prev hs => if_pos hs, fun line prev => ?decoded⟩
  case hunt =>
    intro h hs he hlos hlol hr hc hb hclap hm
    refine Completes.intro (execBlockHeader_of_hunt hs hdr prev off) ?_
    rw [State.huntHeader_first he hlos hlol hr hc hb hclap hm]
    refine ⟨?_, ?_, ((OnlyLane.refl n _ s).updLane _).setFld _ _ (by simp)⟩
    · rw [State.setCandidates, State.lane_setFld, State.lane_updLane_same]
    · exact State.fld_setFld_fits _ _ _ rfl (show 1 < 2 ^ 4 by decide)
  case good =>
    refine Completes.intro (execBlockHeader_of_good hs hb hj hg hdr prev off) ⟨?_, ?_, ?_, (OnlyLane.refl n _ s).updLane _⟩ <;>
      rw [State.lane_updLane_same]
  case bad =>
    refine Completes.intro (execBlockHeader_of_bad hs hb hj hg hl hdr prev off) ⟨?_, ?_, rfl⟩ <;>
      rw [State.lane_count, State.lane_updLane_same]
  case decoded =>
    intro raw hs
    obtain ⟨c, hc⟩ := execBlockDecode_of_block_sync hs line prev
    refine Completes.intro hc ⟨?_, ?_, rfl, ?_, fun m hm => ?_⟩
    · rw [State.lane_updCirc, State.lane_updLane_same]
    · rw [State.lane_updCirc, State.lane_updLane_same]
    · rw [State.lane_updCirc, State.lane_updLane_same]
      exact decodedBlock_map _ _ _
    · rw [State.lane_updCirc, State.lane_updLane_ne _ _ _ _ hm.symm]

end Sys2Proof.Machine
end

section
/-!
PROOFS. Reel synchronisation and slips of a lane.
-/
namespace Sys2Proof.Machine
open Sys2Proof

-- Arrivals (R183, R200) -----------------------------------------------------------------------------------------

/-- `t` is `s` but for the arrivals, waits and skews that its lanes keep. -/
structure ArrivalKept (s t : State) : Prop where
  eq : t = { s with lanes := t.lanes }
  lane : ∀ m, ∃ a w k x, t.lane m = { s.lane m with arrivals := a, waits := w, skewStamps := k, skews := x }

section
variable {s t : State}

theorem ArrivalKept.refl (s : State) : ArrivalKept s s := ⟨rfl, fun _ => ⟨_, _, _, _, rfl⟩⟩

/-- One more update of what a lane keeps of arrivals. -/
theorem ArrivalKept.updLane (h : ArrivalKept s t) (n : Nat) {f : Lane → Lane}
    (hf : ∀ l, ∃ a w k x, f l = { l with arrivals := a, waits := w, skewStamps := k, skews := x }) : ArrivalKept s (t.updLane n f) := by
  refine ⟨?_, fun m => ?_⟩
  · conv_lhs => rw [State.updLane, State.setLane, h.eq]
    rfl
  · by_cases hnm : n = m
    · subst hnm
      rw [State.lane_updLane_same]
      obtain ⟨a, w, k, x, ht⟩ := h.lane n
      obtain ⟨a', w', k', x', hl⟩ := hf (t.lane n)
      exact ⟨a', w', k', x', by rw [hl, ht]⟩
    · rw [State.lane_updLane_ne _ _ _ _ hnm]
      exact h.lane m

theorem ArrivalKept.ite {c : Prop} [Decidable c] {u : State} (ht : ArrivalKept s t) (hu : ArrivalKept s u) :
    ArrivalKept s (if c then t else u) := by
  split <;> assumption

theorem ArrivalKept.reg (h : ArrivalKept s t) (o : Nat) : t.reg o = s.reg o := by rw [h.eq]; rfl
theorem ArrivalKept.fld (h : ArrivalKept s t) (f : Fld) : t.fld f = s.fld f := by rw [h.eq]; rfl

end

theorem State.noteArrival_kept (s : State) (n seq arrival : Nat) (good : Bool) : ArrivalKept s (s.noteArrival n seq arrival good) := by
  unfold State.noteArrival
  extract_lets u
  refine (ArrivalKept.refl s).ite ?_
  have hu : ArrivalKept s u := (ArrivalKept.refl s).updLane n fun l => ⟨_, _, l.skewStamps, l.skews, rfl⟩
  split
  next => exact hu
  next p _ =>
    refine hu.ite ?_
    split
    next => exact hu.updLane n fun l => ⟨l.arrivals, l.waits, _, l.skews, rfl⟩
    next =>
      exact (hu.updLane n fun l => ⟨l.arrivals, l.waits, l.skewStamps, _, rfl⟩).updLane p fun l => ⟨l.arrivals, l.waits, _, _, rfl⟩

-- Reel controls (R89, R113, R116, R119) -------------------------------------------------------------------------

/-- The number of the next reel, and the arrival stamp less the receive path delay in force. -/
def State.nextSeq (s : State) (n : Nat) : Nat := (s.fld (F.LANE_SEQ_LAST_SEQ n) + (s.lane n).reelsSince + 1) % 2 ^ 32
def State.arrivalOf (s : State) (n : Nat) (a : BitVec 72) : Nat := (a.toNat + 2 ^ 72 - s.fld (F.LANE_TT_PATHDLY_RXDLY n)) % 2 ^ 72

/-- A reel control taken: its block is used and its arrival kept. -/
def State.reelTaken (s : State) (n : Nat) (b : RxBlock) (seq : Nat) (a : BitVec 72) (good : Bool) : State :=
  (s.updLane n fun l => { l with blk := some { b with used := true } }).noteArrival n seq (s.arrivalOf n a) good

section
variable (s : State) (n : Nat) (b : RxBlock) (seq : Nat) (a : BitVec 72) (good : Bool)

theorem State.reelTaken_fld (f : Fld) : (s.reelTaken n b seq a good).fld f = s.fld f :=
  (State.noteArrival_kept _ _ _ _ _).fld f

theorem State.reelTaken_regs : (s.reelTaken n b seq a good).regs = s.regs := by
  rw [State.reelTaken, (State.noteArrival_kept _ _ _ _ _).eq]
  rfl

theorem State.reelTaken_lane : ∃ r w k x, (s.reelTaken n b seq a good).lane n = { s.lane n with
    blk := some { b with used := true }, arrivals := r, waits := w, skewStamps := k, skews := x } := by
  obtain ⟨r, w, k, x, h⟩ := (State.noteArrival_kept (s.updLane n fun l => { l with blk := some { b with used := true } }) n seq
    (s.arrivalOf n a) good).lane n
  rw [State.lane_updLane_same] at h
  exact ⟨r, w, k, x, h⟩

end

/-- A block 0 whose reel control cannot be used. -/
def RxBlock.unreadable (b : RxBlock) : Bool :=
  b.cls == .uncorrectable || beAt (dataOverhead b.data) 0 4 % 256 != hdrSeq (dataHeader b.data) || beAt (dataOverhead b.data) 17 1 != 1

/-- A block 0 not yet used, of a lane with block sync. -/
structure ReelBlock (s : State) (n : Nat) (b : RxBlock) : Prop where
  blk : (s.lane n).blk = some b
  no : b.no = 0
  used : b.used = false
  sync : s.sync n ≠ 0

/-- What a readable reel control shows of its transmitter. -/
def State.controlRead (s : State) (n : Nat) (b : RxBlock) : State :=
  s.updLane n fun l => { l with
    ttCap := (beAt (dataOverhead b.data) 4 1).testBit 3, timeDisc := (beAt (dataOverhead b.data) 16 1).testBit 7
    farArrival := beAt (dataOverhead b.data) 12 4
    stopAt := if (beAt (dataOverhead b.data) 4 1).testBit 7 then some s.time.clock else l.stopAt }

/-- The state in which a reel control is judged. -/
def State.controlTaken (s : State) (n : Nat) (b : RxBlock) (a : BitVec 72) : State :=
  if b.unreadable then (s.reelTaken n b (s.nextSeq n) a false).count (laneCtr n 4)
  else (s.reelTaken n b (beAt (dataOverhead b.data) 0 4) a true).controlRead n b

/-- A reel control judged in BLOCK_SYNC. -/
def State.controlQualifies (s : State) (n : Nat) (b : RxBlock) : State :=
  let seq := beAt (dataOverhead b.data) 0 4
  let l := s.lane n
  let run := if b.unreadable || !b.headerGood then 0
    else if l.qualRun ≠ 0 ∧ seq = (l.qualSeq + 1) % 2 ^ 32 then l.qualRun + 1 else 1
  let s := s.updLane n fun l => { l with qualRun := run, qualSeq := seq, reelsInBlock := l.reelsInBlock + 1 }
  let s := s.when (!b.unreadable) fun s => s.setFld (F.LANE_SEQ_LAST_SEQ n) seq
  if run = 3 then s.enterReelSync n seq else s

/-- A reel control judged in REEL_SYNC that does not lose the reel. -/
def State.controlKeeps (s : State) (n : Nat) (b : RxBlock) (expected : Nat) : State :=
  let fails := b.unreadable || !b.headerGood
  let s := s.when fails fun s => s.updLane n fun l => { l with badControls := l.badControls + 1 }
  if b.unreadable then s.updLane n fun l => { l with reelsSince := l.reelsSince + 1, rx := { l.rx with seq := expected } }
  else
    let keep := if fails then (s.lane n).badControls else 0
    ((s.goodControl n (beAt (dataOverhead b.data) 0 4) (beAt (dataOverhead b.data) 4 1)).updLane n fun l =>
      { l with badControls := keep }).steerControl n ((beAt (dataOverhead b.data) 4 1).testBit 4) (beAt (dataOverhead b.data) 7 1)

section
variable {n : LaneNo} {s : State} {b : RxBlock} {a : BitVec 72}

theorem State.controlTaken_fld (f : Fld) : (s.controlTaken n b a).fld f = s.fld f := by
  unfold State.controlTaken
  split
  · exact s.reelTaken_fld n b _ a false f
  · exact (State.fld_updLane _ _ _ _).trans (s.reelTaken_fld n b _ a true f)

theorem State.controlTaken_regs : (s.controlTaken n b a).regs = s.regs := by
  unfold State.controlTaken
  split
  · exact s.reelTaken_regs n b _ a false
  · exact s.reelTaken_regs n b _ a true

/-- What the lane keeps when a reel control is taken. -/
theorem State.controlTaken_lane : ((s.controlTaken n b a).lane n).qualRun = (s.lane n).qualRun
    ∧ ((s.controlTaken n b a).lane n).qualSeq = (s.lane n).qualSeq
    ∧ ((s.controlTaken n b a).lane n).badControls = (s.lane n).badControls
    ∧ ((s.controlTaken n b a).lane n).reelsSince = (s.lane n).reelsSince := by
  unfold State.controlTaken
  split
  · obtain ⟨r, w, k, x, hl⟩ := s.reelTaken_lane n b (s.nextSeq n) a false
    rw [State.lane_count, hl]
    exact ⟨rfl, rfl, rfl, rfl⟩
  · obtain ⟨r, w, k, x, hl⟩ := s.reelTaken_lane n b (beAt (dataOverhead b.data) 0 4) a true
    rw [State.controlRead, State.lane_updLane_same, hl]
    exact ⟨rfl, rfl, rfl, rfl⟩

/-- A reel control is taken and then judged by the state of the lane. -/
theorem execReelControl_of_block (hb : ReelBlock s n b) : exec (.reelControl n a) s =
    if s.sync n = 1 then .next ((s.controlTaken n b a).controlQualifies n b)
    else if (b.unreadable || !b.headerGood) = true ∧ (s.lane n).badControls + 1 = 2 then .next ((s.controlTaken n b a).loseReel n)
    else .next ((s.controlTaken n b a).controlKeeps n b (s.nextSeq n)) := by
  have hgo : ¬ (b.no ≠ 0 ∨ b.used = true ∨ s.sync n = 0) := by simp [hb.no, hb.used, hb.sync]
  have hsync : (s.controlTaken n b a).sync n = s.sync n := State.controlTaken_fld _
  obtain ⟨-, -, hbad, -⟩ := State.controlTaken_lane (n := n) (s := s) (b := b) (a := a)
  have hread : (b.cls == .uncorrectable || beAt (dataOverhead b.data) 0 4 % 256 != hdrSeq (dataHeader b.data)
      || beAt (dataOverhead b.data) 17 1 != 1) = b.unreadable := rfl
  rw [exec_reelControl, execReelControl]
  dsimp only
  rw [hb.blk]
  dsimp only
  rw [if_neg hgo, ← hsync, ← hbad, hread]
  unfold State.controlQualifies State.controlKeeps State.controlTaken
  cases b.unreadable with
  | true =>
    simp only [Bool.true_or, Bool.not_true, if_true, State.when_true, State.when_false, State.lane_updLane_same, true_and]
    rfl
  | false =>
    simp only [Bool.false_or, Bool.not_false, if_false, State.when_true, State.when_false, Bool.false_eq_true]
    rfl

end

/-- A number of k bytes. -/
theorem beNat_lt (bs : List Byte) : beNat bs < 256 ^ bs.length := by
  unfold beNat
  induction bs using List.reverseRecOn with
  | nil => decide
  | append_singleton l x ih =>
    have hx : x.toNat < 256 := x.isLt
    rw [List.foldl_append, List.foldl_cons, List.foldl_nil, List.length_append, List.length_singleton, Nat.pow_succ]
    omega

theorem beAt_lt (bs : List Byte) (off k : Nat) : beAt bs off k < 256 ^ k := by
  have h := beNat_lt (bytesAt bs off k)
  rwa [bytesAt, List.length_map, List.length_range] at h

section
variable {n : LaneNo} {s : State} {b : RxBlock}

/-- The third good reel control in a row declares reel sync. -/
theorem State.controlQualifies_third (hc : b.unreadable = false) (hg : b.headerGood = true) (hr : (s.lane n).qualRun = 2)
    (hq : beAt (dataOverhead b.data) 0 4 = ((s.lane n).qualSeq + 1) % 2 ^ 32) :
    ∃ u, s.controlQualifies n b = State.enterReelSync u n (beAt (dataOverhead b.data) 0 4) := by
  have hrun : (s.lane n).qualRun ≠ 0 := by omega
  unfold State.controlQualifies
  dsimp only
  rw [hc, hg, Bool.not_true, Bool.or_self, if_neg Bool.false_ne_true, if_pos (And.intro hrun hq), hr]
  exact ⟨_, if_pos rfl⟩

theorem State.enterReelSync_fields (s : State) (n : LaneNo) {seq : Nat} (h : seq < 2 ^ 32) : (s.enterReelSync n seq).sync n = 2
    ∧ (s.enterReelSync n seq).fld (F.LANE_SEQ_LAST_SEQ n) = seq ∧ (s.enterReelSync n seq).raw n .loa = false := by
  unfold State.enterReelSync
  dsimp only
  refine ⟨?_, ?_, ?_⟩
  · rw [State.sync, State.fld_setRaws _ _ _ 0x100 rfl rfl, State.fld_setFld_apart _ _ _ _ (Fld.apart_of_base (laneBase n) 0x120 0x100 rfl rfl rfl)]
    exact State.fld_setFld_fits _ _ _ rfl (show 2 < 2 ^ 2 by decide)
  · rw [State.fld_setRaws _ _ _ 0x120 rfl rfl]
    exact State.fld_setFld_fits _ _ _ rfl h
  · rw [State.raw_setRaws]
    exact State.raw_setFld_same _ n .loa false

/-- An unreadable first reel control is counted, and the reel runs on. -/
theorem State.controlKeeps_of_unreadable (hc : b.unreadable = true) (expected : Nat) :
    ((s.controlKeeps n b expected).lane n).badControls = (s.lane n).badControls + 1
      ∧ ((s.controlKeeps n b expected).lane n).reelsSince = (s.lane n).reelsSince + 1
      ∧ (s.controlKeeps n b expected).regs = s.regs := by
  unfold State.controlKeeps
  simp only [hc, Bool.true_or, if_true, State.when_true, State.lane_updLane_same]
  exact ⟨trivial, trivial, rfl⟩

/-- A good reel control in REEL_SYNC moves the last sequence number. -/
theorem State.goodControl_fields (s : State) (n : LaneNo) {seq : Nat} (h : seq < 2 ^ 32) (flags : Nat) :
    (s.goodControl n seq flags).sync n = s.sync n ∧ (s.goodControl n seq flags).fld (F.LANE_SEQ_LAST_SEQ n) = seq
      ∧ (s.goodControl n seq flags).steerState n = s.steerState n ∧ ((s.goodControl n seq flags).lane n).reelsSince = 0 := by
  unfold State.goodControl
  dsimp only
  refine ⟨?_, ?_, ?_, ?_⟩
  · rw [State.sync, State.fld_setRaws _ _ _ 0x100 rfl rfl, State.fld_setFld_apart _ _ _ _ (Fld.apart_of_base (laneBase n) 0x120 0x100 rfl rfl rfl)]
    rfl
  · rw [State.fld_setRaws _ _ _ 0x120 rfl rfl]
    exact State.fld_setFld_fits _ _ _ rfl h
  · rw [State.steerState, State.fld_setRaws _ _ _ 0x208 rfl rfl, State.fld_setFld_apart _ _ _ _ (Fld.apart_of_base (laneBase n) 0x120 0x208 rfl rfl rfl)]
    rfl
  · obtain ⟨x, hx⟩ := State.lane_setRaws ((s.updLane n _).setFld _ _) n _ n
    rw [hx, State.lane_setFld, State.lane_updLane_same]

/-- With the steering state OFF a reel control moves no other register of the lane than its acknowledgement. -/
theorem State.steerControl_of_off (h : s.steerState n = 0) (cap : Bool) (ack : Nat) :
    (∀ f : Fld, Fld.apart (F.LANE_STEER_STAT_ACK n) f = true → (s.steerControl n cap ack).fld f = s.fld f)
      ∧ ((s.steerControl n cap ack).lane n).reelsSince = (s.lane n).reelsSince
      ∧ ((s.steerControl n cap ack).lane n).badControls = (s.lane n).badControls := by
  unfold State.steerControl
  split
  · exact ⟨fun _ _ => rfl, rfl, rfl⟩
  · extract_lets u v l w
    have hv : v.lane n = { s.lane n with steerCap := cap, capRun := (v.lane n).capRun, ackRun := (v.lane n).ackRun } := by
      unfold v u
      rw [State.lane_updLane_same, State.lane_setFld]
    have hw : (∀ f, w.fld f = v.fld f) ∧ (w.lane n).reelsSince = (v.lane n).reelsSince
        ∧ (w.lane n).badControls = (v.lane n).badControls := by
      unfold w
      cases l.ackRun == 3 && l.steerTail == 0 with
      | false => simp only [State.when_false, implies_true, and_self]
      | true => simp only [State.when_true, State.fld_updLane, State.lane_updLane_same, implies_true, and_self]
    obtain ⟨hfld, hsince, hbad⟩ := hw
    have hfld : ∀ f : Fld, Fld.apart (F.LANE_STEER_STAT_ACK n) f = true → w.fld f = s.fld f := by
      intro f hf
      rw [hfld f]
      unfold v u
      rw [State.fld_updLane, State.fld_setFld_apart _ _ _ _ hf]
    have hoff : w.steerState n = 0 := (hfld _ (Fld.apart_of_bits rfl)).trans h
    rw [hv] at hsince hbad
    have hno : ¬ ((!cap) = true ∧ (0 = 2 ∨ 0 = 3)) := by simp
    rw [hoff, if_neg fun h => absurd h.1 (by decide), if_neg fun h => absurd h.1 (by decide), if_neg hno]
    exact ⟨hfld, hsince, hbad⟩

/-- A good reel control in REEL_SYNC with the steering state OFF. -/
theorem State.controlKeeps_of_good (hc : b.unreadable = false) (hg : b.headerGood = true) (h : s.steerState n = 0) (expected : Nat) :
    (s.controlKeeps n b expected).sync n = s.sync n
      ∧ (s.controlKeeps n b expected).fld (F.LANE_SEQ_LAST_SEQ n) = beAt (dataOverhead b.data) 0 4
      ∧ ((s.controlKeeps n b expected).lane n).reelsSince = 0 ∧ ((s.controlKeeps n b expected).lane n).badControls = 0 := by
  obtain ⟨hsync, hseq, hsteer, hsince⟩ := s.goodControl_fields n (beAt_lt (dataOverhead b.data) 0 4) (beAt (dataOverhead b.data) 4 1)
  unfold State.controlKeeps
  simp only [hc, hg, Bool.not_true, Bool.or_self, Bool.false_eq_true, if_false, State.when_false]
  generalize s.goodControl n (beAt (dataOverhead b.data) 0 4) (beAt (dataOverhead b.data) 4 1) = u at *
  obtain ⟨hfld, hs, hb⟩ := State.steerControl_of_off (n := n) (s := u.updLane n fun l => { l with badControls := 0 })
    (hsteer.trans h) ((beAt (dataOverhead b.data) 4 1).testBit 4) (beAt (dataOverhead b.data) 7 1)
  refine ⟨?_, ?_, hs.trans ?_, hb.trans ?_⟩
  · exact (hfld _ (Fld.apart_of_base (laneBase n) 0x208 0x100 rfl rfl rfl)).trans hsync
  · exact (hfld _ (Fld.apart_of_base (laneBase n) 0x208 0x120 rfl rfl rfl)).trans hseq
  · rw [State.lane_updLane_same, hsince]
  · rw [State.lane_updLane_same]

-- Windows, bars and slips (R16, R114, R119) ---------------------------------------------------------------------

/-- What is written to the raw states of two defects. -/
theorem State.putRaws_pair (s : State) (n : Nat) {d e : Defect} (h : d ≠ e) (x y : Bool) :
    (s.putRaws n [(d, x), (e, y)]).raw n d = x ∧ (s.putRaws n [(d, x), (e, y)]).raw n e = y :=
  ⟨(State.raw_setFld_ne _ n h.symm _).trans (State.raw_setFld_same _ n d x), State.raw_setFld_same _ n e y⟩

/-- The next window with the thresholds of the registers, and no run of DEG. -/
def State.windowOpened (s : State) (n : Nat) : State :=
  s.updLane n fun l => { l with
    ucbCount := 0, csymCount := 0, ucbLowRun := 0, degHighRun := 0, degLowRun := 0
    ucbSet := s.fld (F.LANE_UCB_CTL_SET n), ucbClr := s.fld (F.LANE_UCB_CTL_CLR n)
    degSet := s.fld (F.LANE_DEG_SET_SET n), degClr := s.fld (F.LANE_DEG_CLR_CLR n) }

/-- A window with more uncorrectable blocks than the clear threshold, and between the thresholds of DEG, changes no defect. -/
theorem execDefectWindowEnd_of_between (hs : s.sync n = 2) (hu : (s.lane n).ucbClr < (s.lane n).ucbCount) (hd : (s.lane n).degSet = 0)
    (hc : (s.lane n).degClr < (s.lane n).csymCount) : exec (.defectWindowEnd n) s = .next ((s.windowOpened n).setRaws n
        [(.ucb, s.raw n .ucb), (.deg, s.raw n .deg)]) := by
  have hlow : (if (s.lane n).ucbCount ≤ (s.lane n).ucbClr then (s.lane n).ucbLowRun + 1 else 0) = 0 := if_neg (by omega)
  have hhi : (if (s.lane n).degSet ≠ 0 ∧ (s.lane n).degSet ≤ (s.lane n).csymCount then min 10 ((s.lane n).degHighRun + 1) else 0) = 0 :=
    if_neg (by omega)
  have hlo : (if (s.lane n).csymCount ≤ (s.lane n).degClr then min 10 ((s.lane n).degLowRun + 1) else 0) = 0 := if_neg (by omega)
  rw [exec_defectWindowEnd, execDefectWindowEnd]
  dsimp only
  rw [if_neg (by omega), hlow, hhi, hlo, if_neg (by decide), if_neg (by decide), decide_eq_true (by decide), Bool.and_true]
  rfl

end

/-- Settles O28: reel controls by how they are judged, windows between the thresholds, and slips by their direction. -/
theorem laneReels : Obligations.LaneReels := by
  unfold Obligations.LaneReels
  intro n s
  refine ⟨fun b a hb hno hu hs _ hc h1 => ?second, fun b a hb hno hu hg hc => ?good, fun b a hb hno hu hs hc h0 => ?first,
    fun a hb => ?none, fun hs h8 => ?timeout, fun hs => if_pos (.inl hs), ?bar, fun hs => if_pos hs,
    fun hs hu hd hc => ?window, fun hs => ?fast, fun hs => ?slow, fun fast hs => if_pos hs⟩
  case second =>
    have hbad : b.unreadable = true := by simp [RxBlock.unreadable, hc]
    rw [execReelControl_of_block ⟨hb, hno, hu, by omega⟩, if_neg (by omega), if_pos ⟨by rw [hbad]; rfl, by omega⟩,
      State.controlTaken, if_pos hbad]
    rfl
  case good =>
    intro oh hseq hver
    have hread : b.unreadable = false := by
      have hc : (b.cls == .uncorrectable) = false := by rw [hc]; rfl
      rw [RxBlock.unreadable, hc, hseq, hver]
      simp
    obtain ⟨hrun, hqs, hbc, -⟩ := State.controlTaken_lane (n := n) (s := s) (b := b) (a := a)
    have hlt : beAt oh 0 4 < 2 ^ 32 := beAt_lt oh 0 4
    refine ⟨fun hs hr hq => ?_, fun hs hst => ?_⟩
    · have h := execReelControl_of_block (n := n) (s := s) (b := b) (a := a) ⟨hb, hno, hu, by omega⟩
      obtain ⟨u, hq⟩ := State.controlQualifies_third (s := s.controlTaken n b a) hread hg (hrun.trans hr) (by rw [hqs]; exact hq)
      rw [if_pos hs, hq] at h
      exact Completes.intro h (u.enterReelSync_fields n hlt)
    · have h := execReelControl_of_block (n := n) (s := s) (b := b) (a := a) ⟨hb, hno, hu, by omega⟩
      rw [if_neg (by omega), if_neg (by simp [hread, hg])] at h
      obtain ⟨hsync, hlast, hsince, hbad⟩ := State.controlKeeps_of_good (s := s.controlTaken n b a) hread hg
        ((State.controlTaken_fld _).trans hst) (s.nextSeq n)
      exact Completes.intro h ⟨hsync.trans ((State.controlTaken_fld _).trans hs), hlast, hsince, hbad⟩
  case first =>
    have hbad : b.unreadable = true := by simp [RxBlock.unreadable, hc]
    obtain ⟨-, -, hbc, hsince⟩ := State.controlTaken_lane (n := n) (s := s) (b := b) (a := a)
    have h := execReelControl_of_block (n := n) (s := s) (b := b) (a := a) ⟨hb, hno, hu, by omega⟩
    rw [if_neg (by omega), if_neg (by omega)] at h
    obtain ⟨hb', hr', hregs⟩ := State.controlKeeps_of_unreadable (n := n) (s := s.controlTaken n b a) hbad (s.nextSeq n)
    exact Completes.intro h ⟨by rw [hb', hbc, h0], by rw [hr', hsince], hregs.trans State.controlTaken_regs⟩
  case none =>
    rw [exec_reelControl, execReelControl]
    dsimp only
    rw [hb]
  case timeout => exact if_neg (by omega)
  case bar =>
    refine Completes.intro rfl ⟨?_, State.flag_setFlag _ _ _ rfl rfl, ((OnlyLane.refl n _ s).updLane _).setFlag _ _ (by simp)⟩
    rw [State.lane_setFlag, State.lane_updLane_same]
  case window =>
    refine Completes.intro (execDefectWindowEnd_of_between hs hu hd hc) ?_
    obtain ⟨x, hx⟩ := State.lane_setRaws (s.windowOpened n) n
        [(.ucb, s.raw n .ucb), (.deg, s.raw n .deg)] n
    rw [State.windowOpened, State.lane_updLane_same, ← State.windowOpened] at hx
    obtain ⟨hucb, hdeg⟩ := State.putRaws_pair (s.windowOpened n) n (show Defect.ucb ≠ .deg by decide)
        (s.raw n .ucb) (s.raw n .deg)
    exact ⟨by rw [hx], by rw [hx], by rw [hx], by rw [hx], by rw [hx], (State.raw_setRaws _ n _ _).trans hucb,
      (State.raw_setRaws _ n _ _).trans hdeg⟩
  case fast => exact if_neg (by omega)
  case slow => exact if_neg (by omega)

end Sys2Proof.Machine
end

section
/-!
PROOFS. Terminated CMC, trail trace, thresholds and arrival steering of a lane.
-/
namespace Sys2Proof.Machine
open Sys2Proof

-- CMC buffers (R347 to R350) ------------------------------------------------------------------------------------

/-- The length of the oldest CMC buffer written to its entry. -/
def State.cmcMarked (s : State) (b : CmcBuffer) : State :=
  s.hostWrite (s.addr64 R.HIF_CMC_BASE_LO R.HIF_CMC_BASE_HI + 16 * b.entry + 12) (leBytes 4 (2 ^ 31 + s.hif.cmcFill))

/-- The state in which the oldest CMC buffer has been given back. -/
def State.cmcReturned (s : State) (b : CmcBuffer) (rest : List CmcBuffer) : State :=
  (s.cmcMarked b).updHif fun h => { h with cmcPosted := rest, cmcFill := 0, cmcCons := (b.entry + 1) % (s.cmcMarked b).cmcSize }

theorem State.closeCmcBuffer_of_posted {s : State} {b : CmcBuffer} {rest : List CmcBuffer} (h : s.hif.cmcPosted = b :: rest) :
    s.closeCmcBuffer = (s.cmcReturned b rest).writeStatusPage.msix ((s.cmcReturned b rest).fld F.HIF_CMC_CTL_VECTOR) := by
  unfold State.closeCmcBuffer
  rw [h]
  rfl

theorem State.closeCmcBuffer_fields {s : State} {b : CmcBuffer} {rest : List CmcBuffer} (h : s.hif.cmcPosted = b :: rest) :
    s.closeCmcBuffer.hif.cmcPosted = rest ∧ s.closeCmcBuffer.hif.cmcFill = 0
      ∧ s.closeCmcBuffer.hif.cmcCons = (b.entry + 1) % s.cmcSize := by
  have hm : Signals s (s.cmcMarked b) := State.hostWrite_signals (.refl s) _ _
  have hsize : (s.cmcMarked b).cmcSize = s.cmcSize := by
    unfold State.cmcSize
    rw [hm.fld F.HIF_CMC_CTL_SIZE_LOG2 rfl]
  have ht := State.msix_signals (State.writeStatusPage_signals (.refl (s.cmcReturned b rest)))
    (State.fld_lt (s.cmcReturned b rest) F.HIF_CMC_CTL_VECTOR)
  rw [State.closeCmcBuffer_of_posted h, ht.hif, State.cmcReturned, hsize]
  exact ⟨rfl, rfl, rfl⟩

-- Trail trace and thresholds (R132) -----------------------------------------------------------------------------

section
variable {n : LaneNo} {s : State}

theorem State.writeTimCtl_of_mode {v : Word} (h : v.toNat % 4 ≠ 0) : s.writeTimCtl n v = s.setFld (F.LANE_TIM_CTL_MODE n) (v.toNat % 4) :=
  if_neg h

theorem State.writeTimCtl_of_off {v : Word} (h : v.toNat % 4 = 0) : s.writeTimCtl n v =
    ((s.setFld (F.LANE_TIM_CTL_MODE n) 0).updLane n fun l => { l with timMode := 0 }).setRaws n [(.tim, false)] := by
  unfold State.writeTimCtl
  dsimp only
  rw [h, if_pos rfl]

theorem State.writeThreshold_of_window {off : Nat} (h : off = 0x110 ∨ off = 0x114 ∨ off = 0x118) (v : Word) :
    s.writeThreshold n off v = s.setReg (laneBase n + off) v := if_pos h

theorem State.writeThreshold_of_trace {off : Nat} (h1 : 0x140 ≤ off) (h2 : off < 0x180) (h3 : off % 4 = 0) (v : Word) :
    s.writeThreshold n off v = (s.setReg (laneBase n + off) v).updLane n fun l => { l with traceExpTouched := true } :=
  (if_neg (by omega)).trans (if_pos ⟨h1, h2, h3⟩)

-- Arrival steering (R183 to R187) -------------------------------------------------------------------------------

theorem State.issueSteer_fields (s : State) (n : LaneNo) : (s.issueSteer n).steerState n = 4
    ∧ ((s.issueSteer n).lane n).steerId = (s.lane n).steerNext
    ∧ ((s.issueSteer n).lane n).steerNext = (if (s.lane n).steerNext = 255 then 1 else (s.lane n).steerNext + 1)
    ∧ OnlyLane n [F.LANE_STEER_STAT_ID n, F.LANE_STEER_ADV_ADV n, F.LANE_STEER_STAT_STATE n] s (s.issueSteer n) := by
  unfold State.issueSteer
  dsimp only
  refine ⟨State.fld_setFld_fits _ _ _ rfl (show 4 < 2 ^ 3 by decide), ?_, ?_,
    ((((OnlyLane.refl n _ s).updLane _).setFld _ _ (by simp)).setFld _ _ (by simp)).setFld _ _ (by simp)⟩
  all_goals rw [State.lane_setFld, State.lane_setFldI, State.lane_setFld, State.lane_updLane_same]

theorem execSteerFailed_of_requested (h4 : s.steerState n = 4) (h2 : s.sync n = 2) (hb : s.raw n .bdiRx = false) :
    exec (.steerFailed n) s = .next ((((s.updLane n fun l => { l with steerId := 0 }).setFld (F.LANE_STEER_STAT_ID n) 0).setFld
      (F.LANE_STEER_STAT_STATE n) 5).logEvent Ev.STEER_FAILED n
        (leBytes 1 (s.lane n).steerId ++ leBytes 4 (s.fld (F.LANE_STEER_ADV_ADV n)))) := by
  rw [exec_steerFailed, execSteerFailed]
  exact if_neg (by simp [h4, h2, hb])

/-- The lane with the mean wait shown, and the guard and tolerance of the registers in force. -/
def State.waitShown (s : State) (n : Nat) : State :=
  (s.setFld (F.LANE_ARRIVAL_WAIT n) (roundDiv ((s.lane n).waits.foldl (· + ·) 0 : Nat) 256).toNat).updLane n fun l =>
    { l with steerG := s.fld (F.LANE_STEER_CTL_GUARD n), steerT := s.fld (F.LANE_STEER_CTL_TOL n) }

/-- A mean wait with the steering off shows itself. -/
theorem execArrivalMean_of_off (hn : n.val < 128) (hs : s.sync n = 2) (hw : (s.lane n).waits.length = 256) (hk : (s.lane n).skews = [])
    (h0 : s.steerState n = 0) (he : s.flag (F.LANE_STEER_CTL_EN n) = false) :
    exec (.arrivalMean n) s = .next (s.waitShown n) := by
  have hst : (s.waitShown n).steerState n = 0 := by
    rw [State.steerState, State.waitShown, State.fld_updLane,
      State.fld_setFld_apart _ _ _ _ (Fld.apart_of_base (laneBase n) 0x204 0x208 rfl rfl rfl)]
    exact h0
  have hen : (s.waitShown n).flag (F.LANE_STEER_CTL_EN n) = false := by
    rw [State.waitShown, State.flag_updLane, State.flag_setFld_apart _ _ _ _ (Fld.apart_of_base (laneBase n) 0x204 0x200 rfl rfl rfl), he]
  rw [exec_arrivalMean, execArrivalMean]
  dsimp only
  have hlen : (s.lane n).skews.length < 256 := by rw [hk]; decide
  unfold State.waitShown at hst hen ⊢
  rw [if_pos (Or.inl hlen), if_neg (by omega), hst]
  rw [hen]
  exact if_pos rfl

end

/-- Settles O31: each write and each condition of the steering is its law; a held buffer goes back by the status page. -/
theorem laneServices : Obligations.LaneServices := by
  unfold Obligations.LaneServices
  intro n v s
  refine ⟨fun h => congrArg _ (if_pos h), fun b rest hb hf => ?buffer, fun h => congrArg _ (if_neg (by omega)), fun h => ?mode,
    fun h => congrArg _ (State.writeTimCtl_of_off h), fun off h => ?window,
    fun off h1 h2 h3 => congrArg _ (State.writeThreshold_of_trace h1 h2 h3 v), fun h3 hd hn => ?request,
    fun h => congrArg _ (if_neg fun hx => h hx.1), execSteerFailed_of_requested, fun h => if_pos (.inl h),
    fun hn hs hw hk h0 he => ?mean⟩
  case buffer =>
    have h : exec .cmcBufferHold s = .next s.closeCmcBuffer := congrArg _ (if_pos hf)
    exact Completes.intro h (State.closeCmcBuffer_fields hb)
  case mode =>
    have ht : exec (.laneTimCtlWrite n v) s = .next (s.setFld (F.LANE_TIM_CTL_MODE n) (v.toNat % 4)) :=
      congrArg _ (State.writeTimCtl_of_mode h)
    exact Completes.intro ht ⟨State.fld_setFld_fits _ _ _ rfl (show v.toNat % 4 < 2 ^ 2 by omega),
      (OnlyFields.refl _ s).setFld _ _ (by simp)⟩
  case window =>
    have hoff : off.toNat = 0x110 ∨ off.toNat = 0x114 ∨ off.toNat = 0x118 := by
      rcases h with rfl | rfl | rfl <;> decide
    have ht : exec (.laneThresholdWrite n off v) s = .next (s.setReg (laneBase n + off.toNat) v) :=
      congrArg _ (State.writeThreshold_of_window hoff v)
    exact Completes.intro ht ⟨State.reg_setReg_same _ _ _, fun o ho => State.reg_setReg_ne _ _ _ _ ho.symm, rfl⟩
  case request =>
    have ht : exec (.steerRequest n) s = .next (s.issueSteer n) := by
      rw [exec_steerRequest, execSteerRequest]
      exact congrArg _ (if_pos ⟨h3, hd, hn⟩)
    exact Completes.intro ht (s.issueSteer_fields n)
  case mean =>
    refine Completes.intro (execArrivalMean_of_off hn hs hw hk h0 he) ⟨?_, ?_⟩
    · rw [State.waitShown, State.fld_updLane, State.fld_setFld _ _ _ rfl]
      rfl
    · unfold State.waitShown
      exact ((OnlyLane.refl n _ s).setFld _ _ (by simp)).updLane _

end Sys2Proof.Machine
end

section
/-!
PROOFS. Splices and resync: an image that waits is admitted where no resync has run.
-/
namespace Sys2Proof.Machine
open Sys2Proof

/-- The unit after reset with its standby a mirror, the continuity port enabled and an image waiting for them (R155). -/
def imageWaits : State :=
  ((State.reset.setSby 1).setFlag F.SSW_SBY_PORT_CONTINUITY_EN true).updPair fun p => { p with imageWaiting := true }

theorem imageWaits_resync : imageWaits.flag F.SSW_COL_STATE_RESYNC = false := by decide

theorem imageWaits_admitted : imageWaits.admitWaiting = imageWaits.openImage := if_pos (by decide)

/-- The image is admitted, and its pieces are still to come. -/
theorem imageWaits_placed : imageWaits.placeImage = imageWaits.openImage := by
  unfold State.placeImage
  rw [imageWaits_admitted]
  exact if_pos (by decide)

theorem execResyncDone_imageWaits : exec (.resyncDone []) imageWaits = .next imageWaits.openImage := by
  rw [exec_resyncDone, execResyncDone, State.resyncDone, if_pos (.inl (by rw [imageWaits_resync]; rfl)), imageWaits_placed]

/-- Refutes O32: RESYNC_DONE with no resync under way still admits an image that waits for the standby and its port (R155), so with
RESYNC 0 the state does not always stay as it is. -/
theorem not_splices : ¬ Obligations.Splices := by
  unfold Obligations.Splices
  intro h
  obtain ⟨-, -, -, -, -, -, -, hidle, -⟩ := h imageWaits
  have hsame : imageWaits.openImage = imageWaits :=
    Host.Outcome.next.inj (execResyncDone_imageWaits.symm.trans (hidle [] imageWaits_resync rfl))
  have hwait : imageWaits.openImage.pair.imageWaiting = true := congrArg (·.pair.imageWaiting) hsame
  exact absurd hwait (by decide)

end Sys2Proof.Machine
end

section
/-!
PROOFS. Colourist jobs and facets.
-/
namespace Sys2Proof.Machine
open Sys2Proof

-- Page sets -----------------------------------------------------------------------------------------------------

/-- The active and the standby set depend on the two sets and on which of them is active. -/
theorem State.active_congr {s t : State} (hb : t.activeIsB = s.activeIsB) (hA : t.ssw.setA = s.ssw.setA)
    (hB : t.ssw.setB = s.ssw.setB) : t.active = s.active := by
  rw [State.active, State.active, hb, hA, hB]

theorem State.standby_congr {s t : State} (hb : t.activeIsB = s.activeIsB) (hA : t.ssw.setA = s.ssw.setA)
    (hB : t.ssw.setB = s.ssw.setB) : t.standby = s.standby := by
  rw [State.standby, State.standby, hb, hA, hB]

theorem State.activeIsB_setFld (s : State) (f : Fld) (v : Nat) (h : f.apart F.SSW_PAGE_STATE_ACTIVE_SET = true) :
    (s.setFld f v).activeIsB = s.activeIsB := State.flag_setFld_apart _ _ _ _ h

theorem State.activeIsB_setFlag (s : State) (f : Fld) (b : Bool) (h : f.apart F.SSW_PAGE_STATE_ACTIVE_SET = true) :
    (s.setFlag f b).activeIsB = s.activeIsB := State.flag_setFlag_apart _ _ _ _ h

theorem State.activeIsB_setSby (s : State) (v : Nat) : (s.setSby v).activeIsB = s.activeIsB :=
  State.activeIsB_setFld _ _ _ (by decide)

theorem State.activeIsB_updSsw (s : State) (f : Ssw → Ssw) : (s.updSsw f).activeIsB = s.activeIsB := rfl

theorem State.setSby_ssw (s : State) (v : Nat) : (s.setSby v).ssw = s.ssw := State.setFld_ssw _ _ _

theorem State.writeImage_ssw (s : State) : s.writeImage.ssw = s.ssw := rfl

/-- Writing the standby changes no field of the colourist but the sets. -/
theorem State.setStandby_retires (s : State) (p : PageSet) : (s.setStandby p).ssw.retires = s.ssw.retires := by
  unfold State.setStandby
  split <;> rfl

theorem State.sby_setSby (s : State) {v : Nat} (h : v < 2 ^ 4) : (s.setSby v).sby = v := State.fld_setFld_fits _ _ _ rfl h

-- Jobs (R141, R153, R157) ---------------------------------------------------------------------------------------

section
variable {s : State}

/-- The state in which a whole compile has started. -/
def State.fullStarted (s : State) (j : Job) : State :=
  (((((s.setSby 2).endResync).setFld F.SSW_STANDBY_TAKE_TAKE j.take).setFld F.SSW_COL_STATE_HOST_JOB 1).updSsw fun x =>
    { x with hostJob := some j, moreJobs := [] })

theorem State.startJobs_full {j : Job} (hw : s.ssw.repairWaiting = false) (hj : s.ssw.hostJob = some j) (hm : s.ssw.moreJobs = [])
    (hk : j.kind = .full) (hs : s.sby = 1) (hr : s.jobRunning = false) (hf : s.fwRuns = true) : s.startJobs = s.fullStarted j := by
  have hin : j.startsIn s.sby = true := by
    unfold Job.startsIn
    rw [hk, hs]
    rfl
  unfold State.startJobs
  rw [hf, hw, hr, hj, hm]
  simp only [Bool.not_true, Bool.false_eq_true, if_false, false_and, Option.toList_some, List.append_nil, List.find?_cons, hin,
    hk, if_true, List.filter_cons, bne_self_eq_false, List.filter_nil, List.foldl_nil]
  rfl

theorem State.startJobs_none (hw : s.ssw.repairWaiting = false) (hj : s.ssw.hostJob = none) (hm : s.ssw.moreJobs = []) :
    s.startJobs = s := by
  unfold State.startJobs
  rw [hw, hj, hm]
  simp only [Bool.false_eq_true, if_false, false_and, Option.toList_none, List.append_nil, List.find?_nil, ite_self]

theorem State.fullStarted_fields (s : State) (j : Job) : (s.fullStarted j).sby = 2 ∧ (s.fullStarted j).fld F.SSW_COL_STATE_HOST_JOB = 1
    ∧ (s.fullStarted j).fld F.SSW_STANDBY_TAKE_TAKE = j.take % 2 ^ 32 ∧ (s.fullStarted j).ssw.hostJob = some j
    ∧ (s.fullStarted j).active = s.active ∧ (s.fullStarted j).lanes = s.lanes := by
  unfold State.fullStarted State.endResync
  refine ⟨?_, ?_, ?_, rfl, State.active_congr ?_ rfl rfl, ?_⟩
  · unfold State.sby
    simp (disch := decide) only [State.fld_updSsw, State.fld_setFld_apart, State.fld_setFlag_apart]
    exact State.sby_setSby s (by decide)
  · rw [State.fld_updSsw]
    exact State.fld_setFld_fits _ _ _ rfl (show 1 < 2 ^ 4 by decide)
  · rw [State.fld_updSsw, State.fld_setFld_apart _ _ _ _ (by decide), State.fld_setFld _ _ _ rfl]
    rfl
  · rw [State.activeIsB_updSsw, State.activeIsB_setFld _ _ _ (by decide), State.activeIsB_setFld _ _ _ (by decide),
      State.activeIsB_updSsw, State.activeIsB_setFlag _ _ _ (by decide), State.activeIsB_setSby]
  · rw [State.updSsw_lanes, State.setFld_lanes, State.setFld_lanes, State.updSsw_lanes, State.setFlag_lanes, State.setSby,
      State.setFld_lanes]

theorem State.collide_nil (s : State) : s.collide [] = s := if_neg (by simp)

theorem State.collide_of_enabled {ws : List (MemKind × Nat)} (hw : ws ≠ []) (hc : s.flag F.SSW_SBY_PORT_COLOURIST_EN = true)
    (he : s.flag F.SSW_SBY_PORT_CONTINUITY_EN = true) :
    s.collide ws = (s.incFld F.SSW_SBY_COLLIDE_COUNT ws.length).setDirty (s.ssw.dirty ++ ws).eraseDups :=
  if_pos (by simp [hw, hc, he])

/-- A saturated sum fits its field. -/
theorem satAdd_lt (w v k : Nat) : satAdd w v k < 2 ^ w := by
  have := Nat.two_pow_pos w
  unfold satAdd
  omega

/-- The state once a compile has ended and shown its result. -/
def State.compileShown (s : State) (r : JobResult) (time : Nat) : State :=
  ((((s.updSsw fun x => { x with hostJob := none }).setFld F.SSW_COL_STATE_HOST_JOB 0).setFld F.SSW_COL_TIME_TIME time).showResult
    r).icEdge 37

/-- A running compile ends with its result: it fails, or its take stands in the standby. -/
theorem execCompileDone_of_running {j : Job} (hj : s.ssw.hostJob = some j) (hr : s.jobRunning = true) (hf : s.fwRuns = true) (time : Nat) :
    exec (.compileDone time []) s =
      if (s.compile j time).1.code ≠ 0 then
        .next (((s.compileShown (s.compile j time).1 time).startResync 5).failJob j.handle (s.compile j time).1)
      else
        let u := (((s.compileShown (s.compile j time).1 time).setStandby (s.compile j time).2).setSby 3).writeImage
        .next ((((u.ssw.retires.filter fun x => !x.written).foldl (fun s x => s.writeBinding x.facet) u).updSsw fun x =>
          { x with repairWaiting := false }).compiled j (s.compile j time).2) := by
  rw [exec_compileDone, execCompileDone, hj]
  dsimp only
  rw [if_neg (by simp [hr, hf]), State.collide_nil]
  rfl

theorem execCompileDone_of_idle {time : Nat} {ws : List (MemKind × Nat)}
    (h : s.ssw.hostJob = none ∨ s.jobRunning = false ∨ s.fwRuns = false) : exec (.compileDone time ws) s = .next s := by
  rw [exec_compileDone, execCompileDone]
  cases hj : s.ssw.hostJob with
  | none => rfl
  | some j =>
    refine if_pos ?_
    rcases h with h | h | h
    · rw [hj] at h
      cases h
    · exact .inl (by rw [h]; rfl)
    · exact .inr (by rw [h]; rfl)

/-- The retirements that still wait for their binding: none where none are under way. -/
theorem State.bindings_of_no_retires {u : State} (h : u.ssw.retires = []) :
    (u.ssw.retires.filter fun x => !x.written).foldl (fun s x => s.writeBinding x.facet) u = u := by
  rw [h]
  rfl

theorem State.compileShown_ssw (s : State) (r : JobResult) (time : Nat) :
    (s.compileShown r time).ssw = { s.ssw with hostJob := none } := by
  have h := State.icEdge_signals (.refl ((((s.updSsw fun x => { x with hostJob := none }).setFld F.SSW_COL_STATE_HOST_JOB 0).setFld
    F.SSW_COL_TIME_TIME time).showResult r)) (show 37 < 1280 by decide)
  rw [State.compileShown, h.ssw]
  unfold State.showResult
  rw [State.setFld_ssw, State.setFld_ssw, State.setFld_ssw, State.setFld_ssw, State.setFld_ssw]
  rfl

/-- The take that leaves the active one as it is but for its repair flag and its time. -/
theorem execRepairPassDone_of_running (hr : s.ssw.repairRunning = true) (hs : s.sby = 2) (hf : s.fwRuns = true)
    (hn : s.ssw.retires = []) (time : Nat) : exec (.repairPassDone time) s =
    .next (((((((((s.updSsw fun x => { x with repairRunning := false }).setFlag F.SSW_COL_STATE_REPAIR false).setStandby
      { s.active with repair := true, compileTime := time }).setSby 3).writeImage).showResult { code := 0 }).setFld
        F.SSW_COL_TIME_TIME time).icEdge 37).armRepair) := by
  have hact : ((s.updSsw fun x => { x with repairRunning := false }).setFlag F.SSW_COL_STATE_REPAIR false).active = s.active := by
    refine State.active_congr ?_ (by rw [State.setFlag_ssw]; rfl) (by rw [State.setFlag_ssw]; rfl)
    rw [State.activeIsB_setFlag _ _ _ (by decide), State.activeIsB_updSsw]
  rw [exec_repairPassDone, execRepairPassDone, if_neg (by simp [hr, hs, hf])]
  dsimp only
  rw [hact, State.bindings_of_no_retires]
  rw [State.writeImage_ssw, State.setSby_ssw, State.setStandby_retires, State.setFlag_ssw]
  exact hn

end

/-- Settles O33: a compile starts and ends by the laws of its job, and so does a repair pass. -/
theorem colouristJobs : Obligations.ColouristJobs := by
  unfold Obligations.ColouristJobs
  intro s
  refine ⟨fun j hw hj hm hk hs hr hf => ?start, fun hw hj hm => congrArg _ (State.startJobs_none hw hj hm),
    fun time ws h => execCompileDone_of_idle h, fun time j hj hr hf hc => ?failed, fun time j hj hr hf hc hn => ?compiled,
    fun ws hw hc he => ?collided, fun time hr hs hf hn => execRepairPassDone_of_running hr hs hf hn time,
    fun time hr => if_pos (.inl (by rw [hr]; rfl))⟩
  case start =>
    have h : exec .compileStart s = .next (s.fullStarted j) := congrArg _ (State.startJobs_full hw hj hm hk hs hr hf)
    exact Completes.intro h (s.fullStarted_fields j)
  case failed =>
    rw [execCompileDone_of_running hj hr hf, if_pos hc]
    rfl
  case compiled =>
    rw [execCompileDone_of_running hj hr hf, if_neg (not_not_intro hc)]
    dsimp only
    rw [State.bindings_of_no_retires]
    · rfl
    · rw [State.writeImage_ssw, State.setSby_ssw, State.setStandby_retires, State.compileShown_ssw]
      exact hn
  case collided =>
    intro t
    have ht : t = (s.incFld F.SSW_SBY_COLLIDE_COUNT ws.length).setDirty (s.ssw.dirty ++ ws).eraseDups :=
      State.collide_of_enabled hw hc he
    rw [ht]
    refine ⟨?_, ?_⟩
    · rw [State.setDirty, State.fld_setFld_apart _ _ _ _ (by decide), State.fld_updSsw]
      exact State.fld_setFld_fits _ _ _ rfl (satAdd_lt _ _ _)
    · rw [State.setDirty, State.setFld_ssw]
      rfl

-- Facets (R163 to R169) ----------------------------------------------------------------------------------------

section
variable {s : State}

/-- The number written is the facet. -/
theorem facetWritten (f : BitVec 9) : (f.zeroExtend 32).toNat % 512 = f.toNat := by
  have := f.isLt
  have h : (f.zeroExtend 32).toNat = f.toNat % 2 ^ 32 := BitVec.toNat_setWidth 32 f
  omega

theorem State.writeFacetBar_of_open (hk : s.keyOpen .ssw = true) (f : BitVec 9) : s.writeFacetBar (f.zeroExtend 32) =
    if 271 < f.toNat then s.setKey .ssw false
    else ((s.setKey .ssw false).setFld F.SSW_FACET_BAR_FACET f.toNat).barFacet f.toNat := by
  unfold State.writeFacetBar
  rw [State.wkWrite_of_open hk, facetWritten]

theorem State.writeFacetBar_of_closed (hk : s.keyOpen .ssw = false) {f : BitVec 9} (hf : f.toNat ≠ s.fld F.SSW_FACET_BAR_FACET) :
    s.writeFacetBar (f.zeroExtend 32) = s.logEvent Ev.KEY_REFUSED noSource [] := by
  unfold State.writeFacetBar
  rw [State.wkWrite_of_closed hk, facetWritten, if_pos (by simpa using hf)]

/-- A write of a field keeps all but the registers. -/
theorem State.setFld_of_regs {s t : State} (h : t = { s with regs := t.regs }) (f : Fld) (v : Nat) :
    t.setFld f v = { s with regs := (t.setFld f v).regs } := by
  conv_lhs => rw [State.setFld, State.setReg, h]
  rfl

/-- The first `k` error windows shown as empty. -/
def State.windowsCleared (s : State) (k : Nat) : State :=
  (List.range k).foldl (fun s f => (s.setFld (F.SSW_FACET_ERR_CE_WIN f) 0).setFld (F.SSW_FACET_ERR_UE_WIN f) 0) s

theorem State.windowsCleared_succ (s : State) (k : Nat) : s.windowsCleared (k + 1) =
    ((s.windowsCleared k).setFld (F.SSW_FACET_ERR_CE_WIN k) 0).setFld (F.SSW_FACET_ERR_UE_WIN k) 0 := by
  unfold State.windowsCleared
  rw [List.range_succ, List.foldl_concat]

/-- Clearing the windows writes registers alone, and shows each as empty. -/
theorem State.windowsCleared_fields (s : State) (k : Nat) :
    (∀ f < k, (s.windowsCleared k).fld (F.SSW_FACET_ERR_CE_WIN f) = 0 ∧ (s.windowsCleared k).fld (F.SSW_FACET_ERR_UE_WIN f) = 0)
      ∧ s.windowsCleared k = { s with regs := (s.windowsCleared k).regs } := by
  induction k with
  | zero => exact ⟨fun f hf => absurd hf (Nat.not_lt_zero f), rfl⟩
  | succ k ih =>
    obtain ⟨hshown, hparts⟩ := ih
    rw [State.windowsCleared_succ]
    refine ⟨fun f hf => ?_, ?_⟩
    · rcases Nat.lt_succ_iff_lt_or_eq.mp hf with hlt | rfl
      · have hne : ∀ a b : Fld, a.reg = R.SSW_FACET_ERR k → b.reg = R.SSW_FACET_ERR f → a.apart b = true := fun a b ha hb =>
          Fld.apart_of_reg (by rw [ha, hb]; unfold R.SSW_FACET_ERR; omega)
        rw [State.fld_setFld_apart _ _ _ _ (hne _ _ rfl rfl), State.fld_setFld_apart _ _ _ _ (hne _ _ rfl rfl),
          State.fld_setFld_apart _ _ _ _ (hne _ _ rfl rfl), State.fld_setFld_apart _ _ _ _ (hne _ _ rfl rfl)]
        exact hshown f hlt
      · refine ⟨?_, State.fld_setFld_fits _ _ _ rfl (show 0 < 2 ^ 8 by decide)⟩
        rw [State.fld_setFld_apart _ _ _ _ (Fld.apart_of_bits rfl)]
        exact State.fld_setFld_fits _ _ _ rfl (show 0 < 2 ^ 16 by decide)
    · exact State.setFld_of_regs (State.setFld_of_regs hparts _ _) _ _

theorem execFacetErrorWindow_of_empty (h : s.ssw.errWin = []) : exec .facetErrorWindow s = .next (s.windowsCleared 272) := by
  have hs : (s.updSsw fun x => { x with errWin := [] }) = s := by
    unfold State.updSsw
    rw [← h]
  rw [exec_facetErrorWindow, execFacetErrorWindow]
  dsimp only
  rw [hs, h, List.foldl_nil]
  generalize 272 = k
  rfl

end

/-- Settles O34: barring by the key, and the windows and tests of facets by the cases of R163 to R169. -/
theorem facets : Obligations.Facets := by
  unfold Obligations.Facets
  intro s
  refine ⟨fun f hk hf => ?bar, fun f hk hf => ?none, fun f hk hf => congrArg _ (State.writeFacetBar_of_closed hk hf), fun h => ?window,
    fun f hf => ?failed, fun f => ?passed, fun f h4 h24 => ?clean, fun f h => ?unclean⟩
  case bar => exact congrArg _ ((State.writeFacetBar_of_open hk f).trans (if_neg (by omega)))
  case none => exact congrArg _ ((State.writeFacetBar_of_open hk f).trans (if_pos hf))
  case window =>
    exact Completes.intro (execFacetErrorWindow_of_empty h) (s.windowsCleared_fields 272)
  case failed => exact congrArg _ (if_pos ⟨rfl, .inl hf⟩)
  case passed =>
    rw [exec_facetTestPass, execFacetTestPass]
    exact congrArg Host.Outcome.next (if_neg fun h => Bool.false_ne_true h.1)
  case clean => exact congrArg _ (if_pos ⟨h4, h24⟩)
  case unclean => exact congrArg _ (if_neg (by omega))

end Sys2Proof.Machine
end

section
/-!
PROOFS. Circuit changes, loupe captures, yield and takeover.
-/
namespace Sys2Proof.Machine
open Sys2Proof

section
variable {s : State}

-- Circuit changes (R195) ----------------------------------------------------------------------------------------

theorem State.updCirc_congr {f g : Circ → Circ} (h : f s.circ = g s.circ) : s.updCirc f = s.updCirc g := by
  unfold State.updCirc
  rw [h]

theorem State.updCirc_self {f : Circ → Circ} (h : f s.circ = s.circ) : s.updCirc f = s := State.updCirc_congr (g := id) h

/-- Replacing the changes by themselves changes nothing. -/
theorem Circ.changes_self (c : Circ) {l : List CircChange} (h : c.changes = l) : { c with changes := l } = c := by rw [← h]

/-- A single change that does not wait is not restarted. -/
theorem State.restartChanges_of_one {x : CircChange} (hc : s.circ.changes = [x]) (hw : x.waits = false) : s.restartChanges = s := by
  unfold State.restartChanges
  simp only [hc, List.filter_cons, hw, List.filter_nil, Bool.false_eq_true, if_false, List.foldl_nil]
  refine State.updCirc_self (Circ.changes_self _ ?_)
  simp only [hc, List.map_cons, List.map_nil, hw, Bool.false_eq_true, if_false]

/-- Whether a change is due at reel `q`. -/
def CircChange.due (q : Nat) (x : CircChange) : Bool := x.reel == q || seqLater q x.reel

theorem execEffectReel_of_busy {x : CircChange} (hs : s.sby = 2 ∨ s.sby = 6) (hc : s.circ.changes = [x])
    (hd : x.due (seqNext (s.reg R.SSW_REEL_NOW).toNat) = true) :
    exec .effectReel s = .next (s.updCirc fun c => { c with changes := [{ x with waits := true }] }) := by
  unfold CircChange.due at hd
  rw [exec_effectReel, execEffectReel]
  refine (if_pos hs).trans (congrArg _ (State.updCirc_congr ?_))
  simp only [hc, List.map_cons, List.map_nil, hd, if_true]

theorem execEffectReel_of_due {x : CircChange} (h2 : s.sby ≠ 2) (h6 : s.sby ≠ 6) (hc : s.circ.changes = [x]) (hw : x.waits = false)
    (hd : x.due (seqNext (s.reg R.SSW_REEL_NOW).toNat) = true) :
    exec .effectReel s = .next ((s.updCirc fun c => { c with changes := [] }).applyChange x) := by
  have hgo : ¬ (s.sby = 2 ∨ s.sby = 6) := by omega
  unfold CircChange.due at hd
  rw [exec_effectReel, execEffectReel]
  dsimp only
  rw [if_neg hgo, State.restartChanges_of_one hc hw]
  have hu : (s.updCirc fun c => { c with changes := c.changes.filter fun x =>
      !(x.reel == seqNext (s.reg R.SSW_REEL_NOW).toNat || seqLater (seqNext (s.reg R.SSW_REEL_NOW).toNat) x.reel) }) =
      s.updCirc fun c => { c with changes := [] } := State.updCirc_congr (by
    simp only [hc, List.filter_cons, hd, Bool.not_true, Bool.false_eq_true, if_false, List.filter_nil])
  rw [hu, hc]
  simp only [List.filter_cons, hd, if_true, List.filter_nil, List.foldl_cons, List.foldl_nil]

theorem execEffectReel_of_later {x : CircChange} (h2 : s.sby ≠ 2) (h6 : s.sby ≠ 6) (hc : s.circ.changes = [x]) (hw : x.waits = false)
    (hd : x.due (seqNext (s.reg R.SSW_REEL_NOW).toNat) = false) : exec .effectReel s = .next s := by
  have hgo : ¬ (s.sby = 2 ∨ s.sby = 6) := by omega
  unfold CircChange.due at hd
  rw [exec_effectReel, execEffectReel]
  dsimp only
  rw [if_neg hgo, State.restartChanges_of_one hc hw]
  have hu : (s.updCirc fun c => { c with changes := c.changes.filter fun x =>
      !(x.reel == seqNext (s.reg R.SSW_REEL_NOW).toNat || seqLater (seqNext (s.reg R.SSW_REEL_NOW).toNat) x.reel) }) = s :=
    State.updCirc_self (Circ.changes_self _ (by simp only [hc, List.filter_cons, hd, Bool.not_false, if_true, List.filter_nil]))
  rw [hu, hc]
  simp only [List.filter_cons, hd, Bool.false_eq_true, if_false, List.filter_nil, List.foldl_nil]

-- Captures (R212, R213) -----------------------------------------------------------------------------------------

theorem State.notePresent_dailies (s : State) : s.notePresent.dailies = s.dailies := rfl

theorem State.notePresent_circ (s : State) : s.notePresent.circ = { s.circ with live := { s.circ.live with
    present := s.circ.live.present ++ (s.active.circs.map (·.1)).filter fun x => !s.circ.live.present.contains x } } := rfl

/-- What a swap of the banks leaves where no seam reel ends. -/
theorem State.swapBanks_fields (h7 : s.sby ≠ 7) (f h : Nat) : (s.swapBanks f h).circ.frozen.counts = s.circ.live.counts
    ∧ (s.swapBanks f h).circ.live.counts = [] ∧ (s.swapBanks f h).circ.live.startReel = seqNext (s.reg R.SSW_REEL_NOW).toNat
    ∧ (s.swapBanks f h).circ.wanted = none ∧ (s.swapBanks f h).dailies = 1 ∧ (s.swapBanks f h).circ.copying = true := by
  have hseam : (s.sby == 7 && (s.reg R.SSW_LAST_SPLICE).toNat == seqNext (s.reg R.SSW_REEL_NOW).toNat) = false := by
    rw [beq_eq_false_iff_ne.mpr h7, Bool.false_and]
  unfold State.swapBanks
  dsimp only
  simp only [hseam, Bool.false_eq_true, if_false]
  refine ⟨?_, ?_, ?_, ?_, ?_, ?_⟩
  case refine_5 =>
    rw [State.notePresent_dailies]
    exact State.fld_setFld_fits _ _ _ rfl (show 1 < 2 ^ 2 by decide)
  all_goals rw [State.notePresent_circ, State.setFld_circ, State.updCirc_circ]

theorem execDeferredCapture_of_one {f h : Nat} (hd : s.circ.deferred = [(f, h)]) (h0 : s.dailies = 0) (hw : s.circ.wanted = none) :
    exec .deferredCapture s = .next (((s.updCirc fun c => { c with deferred := [] }).setFlag F.CIRC_DAILIES_STAT_DEFERRED
      false).swapBanks f h) := by
  rw [exec_deferredCapture, execDeferredCapture, hd]
  exact congrArg _ (if_neg (by simp [h0, hw]))

theorem execDeferredCapture_of_none (h : s.circ.deferred = [] ∨ s.dailies ≠ 0 ∨ s.circ.wanted.isSome = true) :
    exec .deferredCapture s = .next s := by
  rw [exec_deferredCapture, execDeferredCapture]
  cases hd : s.circ.deferred with
  | nil => rfl
  | cons x rest =>
    rcases h with h | h
    · rw [hd] at h
      cases h
    · exact congrArg _ (if_pos h)

/-- The number of the record that a copy completes. -/
def State.recordSeq (s : State) : Nat := ((s.reg R.CIRC_DAILIES_SEQ).toNat + 1) % 2 ^ 32

/-- The frozen bank has been copied to the shadow. -/
def State.shadowed (s : State) : State :=
  s.updCirc fun c => { c with shadow := c.frozen, frozen := {}, copying := false, head := { c.head with seq := s.recordSeq } }

/-- The record stands in the shadow, and no command waits for it. -/
def State.captureCopied (s : State) : State :=
  ((s.shadowed.setFld F.CIRC_DAILIES_SEQ_SEQ s.recordSeq).setFld F.CIRC_DAILIES_STAT_STATE 2).icRaise 38

theorem State.captureCopied_signals (s : State) :
    Signals ((s.shadowed.setFld F.CIRC_DAILIES_SEQ_SEQ s.recordSeq).setFld F.CIRC_DAILIES_STAT_STATE 2) s.captureCopied :=
  State.icRaise_signals (.refl _) (by decide)

theorem State.captureCopied_circ (s : State) : s.captureCopied.circ = s.shadowed.circ := by
  rw [s.captureCopied_signals.circ, State.setFld_circ, State.setFld_circ]

theorem State.shadowed_circ (s : State) : s.shadowed.circ = { s.circ with
    shadow := s.circ.frozen, frozen := {}, copying := false, head := { s.circ.head with seq := s.recordSeq } } := rfl

theorem State.captureCopied_dailies (s : State) : s.captureCopied.dailies = 2 := by
  rw [State.dailies, s.captureCopied_signals.fld _ rfl]
  exact State.fld_setFld_fits _ _ _ rfl (show 2 < 2 ^ 2 by decide)

theorem State.captureCopied_seq (s : State) : s.captureCopied.fld F.CIRC_DAILIES_SEQ_SEQ = s.recordSeq := by
  rw [s.captureCopied_signals.fld _ rfl, State.fld_setFld_apart _ _ _ _ (by decide)]
  exact State.fld_setFld_fits _ _ _ rfl (Nat.mod_lt _ (Nat.two_pow_pos 32))

theorem execCaptureCopyDone_of_copying (hc : s.circ.copying = true) (hh : s.circ.copyHandle = 0) :
    exec .captureCopyDone s = .next s.captureCopied := by
  have hd : s.captureCopied.deliverCapture = s.captureCopied := by
    refine if_pos (.inl ?_)
    rw [State.captureCopied_circ, State.shadowed_circ]
    exact hh
  rw [exec_captureCopyDone, execCaptureCopyDone, if_neg (by simp [hc])]
  exact congrArg _ hd

end

/-- Settles O35: a change by its reel, and a capture by the state of the loupe. -/
theorem circuitsAndDailies : Obligations.CircuitsAndDailies := by
  unfold Obligations.CircuitsAndDailies
  intro s q
  refine ⟨fun x h2 h6 hc hw hr => ?due, fun x hs hc hr => ?busy, fun x h2 h6 hc hw _ hl hr => ?later, fun f hf => ?wanted,
    fun hf => ?idle, fun f hf h7 => ?swap, fun hp hd => congrArg _ (if_pos ⟨hp, hd⟩), fun hp => ?unperiodic,
    fun f h hd h0 hw => execDeferredCapture_of_one hd h0 hw, execDeferredCapture_of_none, fun hc hh => ?copied, fun hc => ?uncopied,
    fun h2 => ?release, fun h2 => congrArg _ (if_neg h2)⟩
  case due => exact execEffectReel_of_due h2 h6 hc hw (by unfold CircChange.due; rw [hr, beq_self_eq_true, Bool.true_or])
  case busy => exact execEffectReel_of_busy hs hc (by unfold CircChange.due; rw [hr, beq_self_eq_true, Bool.true_or])
  case later =>
    refine execEffectReel_of_later h2 h6 hc hw ?_
    unfold CircChange.due
    rw [beq_eq_false_iff_ne.mpr hr, Bool.false_or]
    exact hl
  case wanted => rw [exec_dailiesBoundary, execDailiesBoundary, hf]
  case idle => rw [exec_dailiesBoundary, execDailiesBoundary, hf]
  case swap =>
    have h : exec .dailiesBoundary s = .next (s.swapBanks f s.circ.wantedHandle) := by
      rw [exec_dailiesBoundary, execDailiesBoundary, hf]
    exact Completes.intro h (State.swapBanks_fields h7 f _)
  case unperiodic =>
    rw [exec_periodicCapture, execPeriodicCapture, hp]
    exact congrArg Host.Outcome.next (if_neg fun h => Bool.false_ne_true h.1)
  case copied =>
    refine Completes.intro (execCaptureCopyDone_of_copying hc hh) ⟨?_, ?_, ?_, s.captureCopied_dailies, s.captureCopied_seq⟩ <;>
      rw [State.captureCopied_circ, State.shadowed_circ]
  case uncopied =>
    rw [exec_captureCopyDone, execCaptureCopyDone, hc]
    rfl
  case release =>
    have h : exec .release s = .next s.releaseRecord := congrArg _ (if_pos h2)
    exact Completes.intro h ⟨State.fld_setFld_fits _ _ _ rfl (show 0 < 2 ^ 2 by decide), (OnlyFields.refl _ s).setFld _ _ (by simp)⟩

-- Yield and takeover (R219, R220, R224) ------------------------------------------------------------------------

section
variable {s : State}

/-- A follower may take over: no evidence for 20 ms, AUTO_TAKEOVER and a witness. -/
theorem execTakeover_of_alone (hr : s.role = 2) (ha : s.allAbsent = true) (ht : 20000000 ≤ s.pair.absentNs)
    (hf : s.flag F.PAIR_CFG_AUTO_TAKEOVER = true) (hw : s.witnessLanes ≠ []) :
    ¬ (s.role ≠ 2 ∨ (!s.allAbsent) = true ∨ s.pair.absentNs < 20000000 ∨ (!s.flag F.PAIR_CFG_AUTO_TAKEOVER) = true
      ∨ s.witnessLanes = []) := by
  simp only [hr, ha, hf, hw, ne_eq, not_true_eq_false, Bool.not_true, Bool.false_eq_true, false_or, or_false]
  omega

end

/-- Settles O36: the cases of a yield and of a takeover. -/
theorem pairRoles : Obligations.PairRoles := by
  unfold Obligations.PairRoles
  intro s
  refine ⟨?yield, fun h => if_pos (.inr h), fun h3 h4 => if_pos (.inl ⟨h3, h4⟩), fun hr ha ht hf hw => ⟨fun e he => ?takeover, fun he => ?exhausted⟩,
    fun h => ?stays⟩
  case yield =>
    intro u hr hc
    exact if_neg (by omega)
  case takeover =>
    intro u
    rw [exec_takeover, execTakeover, if_neg (execTakeover_of_alone hr ha ht hf hw), he]
  case exhausted => rw [exec_takeover, execTakeover, if_neg (execTakeover_of_alone hr ha ht hf hw), he]
  case stays =>
    refine if_pos ?_
    rcases h with h | h
    · exact .inl h
    · exact .inr (.inr (.inl h))

end Sys2Proof.Machine
end

section
/-!
PROOFS. The heartbeat, authentication and records refused.
-/
namespace Sys2Proof.Machine
open Sys2Proof

-- The heartbeat (R222, R226, R227) ------------------------------------------------------------------------------

/-- A field counted once more, within its width. -/
theorem State.fld_incFld (s : State) (f : Fld) (k : Nat) (h : Nat.ble (f.lo + f.width) 32 = true) :
    (s.incFld f k).fld f = satAdd f.width (s.fld f) k := State.fld_setFld_fits _ _ _ h (satAdd_lt _ _ _)

section
variable {s : State} {f : BitVec 64}

/-- The bytes of a frame. -/
def frameBytes (f : BitVec 64) : List Byte := beBytes 8 f.toNat

/-- The second good frame in a row, without the sign of a fence and with no order under way. -/
theorem execHeartbeatFrame_second (hr : s.flag F.MATE_HB_CTL_RX_EN = true) (h0 : beAt (frameBytes f) 0 1 = 0xA5)
    (hc : crc8 ((frameBytes f).take 7) = beAt (frameBytes f) 7 1) (ho : s.pair.order = none)
    (hf : (beAt (frameBytes f) 1 1).testBit 7 = false) (hg : s.pair.hbGoodRun = 1) :
    exec (.heartbeatFrame f) s = .next ((((((((s.updPair fun p =>
      { p with hbGoodRun := 2, hbBadRun := 0, hbFencedSign := false, hbAt := s.time.clock }).setFlag F.MATE_HB_STAT_LOCKED true).setFld
        F.MATE_HB_STAT_FLAGS (beAt (frameBytes f) 1 1)).setFld F.MATE_HB_STAT_ACK_TAG (beAt (frameBytes f) 6 1)).setFld
          F.MATE_HB_CLAIM_CLAIM (beAt (frameBytes f) 2 4)).seeClaim (beAt (frameBytes f) 2 4)).setFlag
            F.PAIR_STATE_EV_HEARTBEAT true).refreshEvidence) := by
  unfold frameBytes at *
  have hgood : (beAt (beBytes 8 f.toNat) 0 1 == 0xA5 && crc8 ((beBytes 8 f.toNat).take 7) == beAt (beBytes 8 f.toNat) 7 1) = true := by
    rw [h0, hc, beq_self_eq_true, beq_self_eq_true]
    rfl
  rw [exec_heartbeatFrame, execHeartbeatFrame, hr]
  refine (if_neg (by decide)).trans ((if_pos hgood).trans ?_)
  dsimp only
  have horder : (((((((s.updPair fun p => { p with hbGoodRun := 2, hbBadRun := 0, hbFencedSign := false, hbAt := s.time.clock }).setFlag
      F.MATE_HB_STAT_LOCKED true).setFld F.MATE_HB_STAT_FLAGS (beAt (beBytes 8 f.toNat) 1 1)).setFld F.MATE_HB_STAT_ACK_TAG
        (beAt (beBytes 8 f.toNat) 6 1)).setFld F.MATE_HB_CLAIM_CLAIM (beAt (beBytes 8 f.toNat) 2 4)).seeClaim
          (beAt (beBytes 8 f.toNat) 2 4)).setFlag F.PAIR_STATE_EV_HEARTBEAT true).pair.order = none := by
    rw [State.setFlag_pair, State.seeClaim, State.updPair_pair, State.setFld_pair, State.setFld_pair, State.setFld_pair,
      State.setFlag_pair, State.updPair_pair]
    exact ho
  simp only [hg, hf, Nat.reduceAdd, Nat.le_refl, Nat.min_self, Bool.false_eq_true, if_false, if_true]
  rw [horder]

/-- A frame that is not good, without its synchronisation byte or with a bad CRC. -/
theorem execHeartbeatFrame_bad (hr : s.flag F.MATE_HB_CTL_RX_EN = true) {sync crc : Bool}
    (h0 : (beAt (frameBytes f) 0 1 == 0xA5) = sync) (hc : (crc8 ((frameBytes f).take 7) == beAt (frameBytes f) 7 1) = crc)
    (hb : (sync && crc) = false) : exec (.heartbeatFrame f) s =
      let u := (s.when (sync && !crc) fun s => s.incFld F.MATE_HB_ERR_CRC_ERR).updPair fun p =>
        { p with hbGoodRun := 0, hbBadRun := min 4 (s.pair.hbBadRun + 1) }
      if 4 ≤ s.pair.hbBadRun + 1 ∧ u.flag F.MATE_HB_STAT_LOCKED = true then
        .next (((u.updPair fun p => { p with hbFencedSign := false }).setFlag F.MATE_HB_STAT_LOCKED false).incFld F.MATE_HB_ERR_LOCK_LOSS)
      else .next u := by
  unfold frameBytes at *
  have hpair : (s.when (sync && !crc) fun s => s.incFld F.MATE_HB_ERR_CRC_ERR).pair = s.pair := by
    cases sync && !crc
    · rfl
    · rw [State.when_true, State.incFld, State.setFld_pair]
  rw [exec_heartbeatFrame, execHeartbeatFrame, hr]
  refine (if_neg (by decide)).trans ?_
  dsimp only
  rw [h0, hc, hb, hpair]
  rfl

end

/-- Settles O37: a good frame by its law, a bad one by its two cases, and absence by RX_EN. -/
theorem heartbeat : Obligations.Heartbeat := by
  unfold Obligations.Heartbeat
  intro s f b
  refine ⟨fun hr => if_pos (by rw [hr]; rfl), fun hr h0 hc ho hf hg => execHeartbeatFrame_second hr h0 hc ho hf hg,
    fun hr h0 hb hl => ?lost, fun hr h0 hc hb => ?crc, fun hr => ?absent, fun hr => ?off⟩
  case lost =>
    have h := execHeartbeatFrame_bad (f := f) hr (beq_eq_false_iff_ne.mpr h0) rfl (Bool.false_and _)
    rw [Bool.false_and, State.when_false, hb] at h
    dsimp only at h
    rw [State.flag_updPair, if_pos ⟨by decide, hl⟩] at h
    refine Completes.intro h ⟨?_, ?_, ?_, ?_⟩
    · rw [State.incFld, State.flag_setFld_apart _ _ _ _ (by decide), State.flag_setFlag _ _ _ rfl rfl]
    · rw [State.incFld, State.setFld_pair, State.setFlag_pair]
      rfl
    · rw [State.incFld, State.setFld_pair, State.setFlag_pair]
      rfl
    · rw [State.fld_incFld _ _ _ rfl, State.fld_setFlag_apart _ _ _ _ (by decide)]
      rfl
  case crc =>
    have h := execHeartbeatFrame_bad (f := f) hr (beq_iff_eq.mpr h0) (beq_eq_false_iff_ne.mpr hc) rfl
    rw [show (true && !false) = true from rfl, State.when_true, hb] at h
    dsimp only at h
    rw [if_neg (by simp)] at h
    refine Completes.intro h ⟨?_, ?_, ?_, ?_⟩
    · rw [State.fld_updPair, State.fld_incFld _ _ _ rfl]
    · rfl
    · rfl
    · rw [State.flag_updPair, State.incFld, State.flag_setFld_apart _ _ _ _ (by decide)]
  case absent =>
    rw [exec_heartbeatAbsent, execHeartbeatAbsent, State.heartbeatAbsent, hr]
    rfl
  case off =>
    rw [exec_heartbeatAbsent, execHeartbeatAbsent, State.heartbeatAbsent, hr]
    rfl

-- Authentication (R230, R244, R245) -----------------------------------------------------------------------------

section
variable {s : State} {w : Wire}

/-- A hello with a good header, without session, counter or tag, and of its length. -/
structure GoodHello (s : State) (w : Wire) : Prop where
  takes : s.takesRecords = true
  kind : wireKind w = 0x01
  header : wireHeaderOk w = true
  session : wireSession w = 0
  counter : wireCounter w = 0
  length : wireLength w = 52

/-- What a good hello does: the joining unit judges it, the lead answers it, and any other unit ignores it. -/
theorem execAuthHello_of_good (h : GoodHello s w) : exec (.authHello w) s =
    if s.role = 1 ∧ s.pair.joinStep = 1 then
      if (beAt w.body 4 4 != (s.reg R.PAIR_ID).toNat) = true then .next (s.joinFail St.PAIR_ID_MISMATCH)
      else if (beAt w.body 0 1 == s.unit) = true then .next (s.joinFail St.UNIT_CLASH)
      else .next ((s.updPair fun p => { p with nonceMate := bytesAt w.body 16 32, joinStep := 2 }).deriveSession.sendProof)
    else if (s.role = 3 ∨ s.role = 4) ∧ s.session ≤ 1 ∧ s.pair.joinStep = 0 ∧ s.mss.pairKey.isSome = true then
      .next ((s.updPair fun p => { p with nonceMate := bytesAt w.body 16 32 }).answerHello
        (beAt w.body 4 4 != (s.reg R.PAIR_ID).toNat) (beAt w.body 0 1 == s.unit))
    else .next s := by
  rw [exec_authHello, execAuthHello, if_neg (by simp [h.kind, h.takes]),
    if_neg (by simp [h.header, h.session, h.counter, h.length])]

end

/-- Settles O38: a hello by the unit that takes it, and a proof by its tag and nonces. -/
theorem authentication : Obligations.Authentication := by
  unfold Obligations.Authentication
  intro s w
  refine ⟨fun ht hk hh hs hc hl => ⟨fun hr hj hid hu => ?join, fun hr hj hid => ?mismatch, fun hr hj hid hu => ?clash,
    fun hr hup hj hp => ?solo⟩, fun ht => ⟨if_pos (.inr (by rw [ht]; rfl)), if_pos (.inr (by rw [ht]; rfl))⟩,
    fun ht hk hh hs hj hc => ?proof⟩
  case join =>
    rw [execAuthHello_of_good ⟨ht, hk, hh, hs, hc, hl⟩, if_pos ⟨hr, hj⟩, if_neg (by simp [hid]), if_neg (by simp [hu])]
  case mismatch =>
    rw [execAuthHello_of_good ⟨ht, hk, hh, hs, hc, hl⟩, if_pos ⟨hr, hj⟩, if_pos (by simp [hid])]
  case clash =>
    rw [execAuthHello_of_good ⟨ht, hk, hh, hs, hc, hl⟩, if_pos ⟨hr, hj⟩, if_neg (by simp [hid]), if_pos (by simp [hu])]
  case solo =>
    rw [execAuthHello_of_good ⟨ht, hk, hh, hs, hc, hl⟩, if_neg (by omega), if_pos ⟨.inr hr, by omega, hj, hp⟩]
  case proof =>
    intro nonces
    rw [exec_authProof, execAuthProof, if_neg (by simp [hk, ht]), if_neg (by simp [hs, hj, hh, hc])]
    by_cases h : s.acceptable w = true ∧ s.plain w = nonces
    · rw [if_pos h]
      exact if_neg (by simp [h.1, h.2, nonces])
    · rw [if_neg h]
      refine if_pos ?_
      rw [Bool.not_eq_true', ← Bool.not_eq_true, ← not_and_or]
      exact h

-- Records refused (R231, R233) ----------------------------------------------------------------------------------

section
variable {s : State} {w : Wire} {kind : Nat}

theorem State.receiveRecord_of_deaf (ht : s.takesRecords = false) : s.receiveRecord kind w = s := if_pos (by rw [ht]; rfl)

theorem State.receiveRecord_of_unacceptable (ht : s.takesRecords = true) (hk : wireKind w = kind) (ha : s.acceptable w = false) :
    s.receiveRecord kind w = s.discard := by
  unfold State.receiveRecord State.accept
  rw [if_neg (by simp [ht]), if_neg (not_not_intro hk), if_pos (by simp [ha])]

theorem State.receiveRecord_of_later (ht : s.takesRecords = true) (hk : wireKind w = kind) (ha : s.acceptable w = true)
    (hr : wireApply w ≠ 0) : s.receiveRecord kind w = s.counted fun u => u.holdRecord (wireApply w) kind (s.plain w) := by
  unfold State.receiveRecord State.accept
  rw [if_neg (by simp [ht]), if_neg (not_not_intro hk), if_neg (by simp [ha])]
  simp only [if_neg hr]

/-- Without a session key nothing is sent, so a discarded record is counted alone. -/
theorem State.discard_of_no_key (hk : s.pair.key = []) : s.discard = s.incFld F.PAIR_CONT_ERR_DISCARDED := by
  refine if_pos ?_
  rw [State.incFld, State.setFld_pair, hk]
  rfl

/-- Without a session key no record is acceptable. -/
theorem State.receiveRecord_of_no_key (hk : s.pair.key = []) : s.receiveRecord kind w = s
    ∨ s.receiveRecord kind w = s.incFld F.PAIR_CONT_ERR_DISCARDED := by
  have ha : s.acceptable w = false := by simp [State.acceptable, hk]
  unfold State.receiveRecord State.accept
  rw [State.discard_of_no_key hk, if_pos (show (!s.acceptable w) = true by rw [ha]; rfl)]
  split
  · exact .inl rfl
  · split
    · split
      · exact .inl rfl
      · exact .inr rfl
    · exact .inr rfl

end

/-- Settles O40: the branches of accepting a record, with none acceptable without a key. -/
theorem recordsRefused : Obligations.RecordsRefused := by
  unfold Obligations.RecordsRefused
  intro s w
  refine ⟨fun ht => ⟨congrArg _ (State.receiveRecord_of_deaf ht), congrArg _ (State.receiveRecord_of_deaf ht)⟩,
    fun ht hk ha => congrArg _ (State.receiveRecord_of_unacceptable ht hk ha),
    fun ht hk ha hr => congrArg _ (State.receiveRecord_of_later ht hk ha hr), fun hk => ?_⟩
  exact Completes.intro (c := .order w) rfl (State.receiveRecord_of_no_key hk)

end Sys2Proof.Machine
end


section
/-!
PROOFS. The timers of the continuity stream and of the pair (R229 to R231, R233, R236 to R250).
-/
namespace Sys2Proof.Machine
open Sys2Proof

-- Records sent again and acknowledgements -----------------------------------------------------------------------

/-- What asks for a resend leaves besides the count of the resends. -/
theorem Pair.resend_unacked (p : Pair) : p.resend.unacked = p.unacked.map fun r => { r with resent := true } := rfl

theorem Pair.resend_txQueue_of_none_started (p : Pair) (h : p.txPos = 0) :
    p.resend.txQueue = p.unacked.map fun r =>
      { record := { r with resent := true }, key := p.key, session := p.session } := by
  unfold Pair.resend
  dsimp only
  rw [if_pos h, List.nil_append, List.map_map]
  rfl

theorem execRetransmit_of_unacked {s : State} (hk : s.pair.key ≠ []) (hu : s.pair.unacked ≠ []) :
    exec .retransmit s =
      .next ((s.updPair Pair.resend).incFld F.PAIR_CONT_ERR_RETRANSMITS s.pair.unacked.length) := by
  rw [exec_retransmit, execRetransmit]
  refine congrArg _ (if_neg ?_)
  rintro (h | h)
  · exact hk (List.isEmpty_iff.mp h)
  · exact hu h

/-- What an acknowledgement leaves: the next counter, no record since, and itself as the newest not acknowledged. -/
theorem State.sendAck_pair {s : State} (nack : Bool) (hk : s.pair.key ≠ []) (hses : s.session ≠ 0) :
    (s.sendAck nack).pair.txNext = s.pair.txNext + 1 ∧ (s.sendAck nack).pair.sinceAck = 0 ∧
      ((s.sendAck nack).pair.unacked.getLast?.map fun r => (r.kind, r.counter)) = some (0x03, s.pair.txNext) := by
  have hne : ¬ s.pair.key.isEmpty = true := fun h => hk (List.isEmpty_iff.mp h)
  rw [State.sendAck, if_neg hne, State.sendRecord, if_neg hses, State.showOutstanding]
  simp only [State.updPair_pair, State.setFld_pair]
  exact ⟨trivial, trivial, by rw [List.getLast?_concat]; rfl⟩

-- The obligation ------------------------------------------------------------------------------------------------

/-- A journal entry acts at the start of reel `q`: its reel is `q` or past (R231). -/
def JournalEntry.dueAt (q : Nat) (x : JournalEntry) : Bool := x.reel == q || seqLater q x.reel

theorem JournalEntry.dueAt_reel (x : JournalEntry) : x.dueAt x.reel = true := by
  rw [JournalEntry.dueAt, beq_self_eq_true, Bool.true_or]

/-- The records that act at the next reel start leave the journal and act in order. -/
theorem execJournalApply_of_not_receiving {s : State} (hr : ¬ (s.role = 1 ∧ s.pair.joinStep ≤ 3)) :
    exec .journalApply s =
      .next ((s.pair.journal.filter (JournalEntry.dueAt (seqNext (s.reg R.SSW_REEL_NOW).toNat))).foldl
        (fun s x => s.actRecord x.kind x.body) (s.updPair fun p => { p with
          journal := p.journal.filter fun x => !(x.dueAt (seqNext (s.reg R.SSW_REEL_NOW).toNat)) })) := by
  rw [exec_journalApply, execJournalApply, if_neg hr]
  rfl

theorem execJournalApply_of_due {s : State} {x : JournalEntry} (hr : ¬ (s.role = 1 ∧ s.pair.joinStep ≤ 3))
    (hj : s.pair.journal = [x]) (hx : x.reel = seqNext (s.reg R.SSW_REEL_NOW).toNat) :
    exec .journalApply s = .next ((s.updPair fun p => { p with journal := [] }).actRecord x.kind x.body) := by
  have hleft : (s.updPair fun p => { p with journal := p.journal.filter fun y => !y.dueAt x.reel }) =
      s.updPair fun p => { p with journal := [] } := by
    unfold State.updPair
    dsimp only
    rw [hj, List.filter_cons_of_neg (by rw [x.dueAt_reel]; exact Bool.false_ne_true), List.filter_nil]
  rw [execJournalApply_of_not_receiving hr, ← hx, hleft, hj, List.filter_cons_of_pos x.dueAt_reel, List.filter_nil,
    List.foldl_cons, List.foldl_nil]

/-- Settles O41: each timer acts where its condition holds and leaves the state where it does not. -/
theorem continuityTimers : Obligations.ContinuityTimers := by
  unfold Obligations.ContinuityTimers
  intro s
  refine ⟨fun x hr hj hx => execJournalApply_of_due (by rw [hr]; omega) hj hx, fun hr hj => ?receiving,
    fun hf hr => ?ownDigest, fun hf hr => ?sentDigest, fun hf => ?noDigest, fun hk hu => ?again, fun hu => ?noneUnacked,
    fun ht hk hses => ?ack, fun ht => ?noRecords, fun hses hu => ?stalled, fun hses => ?notUp⟩
  case receiving =>
    rw [exec_journalApply, execJournalApply]
    exact if_pos ⟨hr, hj⟩
  case ownDigest =>
    have h : exec .pairDigest s = .next (s.updPair fun p =>
        { p with digestOwn := some ((s.reg R.SSW_REEL_NOW).toNat, s.active.pairDigest) }) := by
      rw [exec_pairDigest, execPairDigest]
      refine congrArg _ ((if_pos ⟨hf, Or.inl hr⟩).trans ?_)
      unfold State.sendDigest
      refine if_neg ?_
      change ¬ (s.role = 3 ∨ s.role = 4)
      omega
    exact Completes.intro h ⟨rfl, rfl⟩
  case sentDigest =>
    rw [exec_pairDigest, execPairDigest]
    exact congrArg _ (if_pos ⟨hf, Or.inr hr⟩)
  case noDigest =>
    rw [exec_pairDigest, execPairDigest]
    exact congrArg _ (if_neg fun h => by rw [hf] at h; exact Bool.false_ne_true h.1)
  case again =>
    refine Completes.intro (execRetransmit_of_unacked hk hu) ⟨?_, fun hp => ?_, ?_, ?_⟩
    · rw [State.incFld_pair, State.updPair_pair, Pair.resend_unacked]
    · rw [State.incFld_pair, State.updPair_pair, Pair.resend_txQueue_of_none_started _ hp]
    · rw [State.fld_incFld _ _ _ rfl]
      rfl
    · rfl
  case noneUnacked =>
    rw [exec_retransmit, execRetransmit]
    exact congrArg _ (if_pos (Or.inr hu))
  case ack =>
    have h : exec .ackInterval s = .next (s.sendAck false) := by
      rw [exec_ackInterval, execAckInterval]
      exact congrArg _ (if_pos ht)
    exact Completes.intro h (s.sendAck_pair false hk hses)
  case noRecords =>
    rw [exec_ackInterval, execAckInterval]
    exact congrArg _ (if_neg (by rw [ht]; exact Bool.false_ne_true))
  case stalled =>
    rw [exec_contStalled, execContStalled]
    exact congrArg _ (if_pos ⟨hses, hu⟩)
  case notUp =>
    rw [exec_contStalled, execContStalled]
    exact congrArg _ (if_neg fun h => hses h.1)

-- Timeouts of the pair ------------------------------------------------------------------------------------------

theorem execPrepareTimeout_of_no_compile {s : State} (hp : s.pair.prepareTake ≠ 0) (hh : s.hif.handles = []) :
    exec .prepareTimeout s = .next (s.updPair fun p => { p with prepareTake := 0 }) := by
  rw [exec_prepareTimeout, execPrepareTimeout, if_neg hp]
  dsimp only
  rw [State.updPair_hif, hh, List.find?_nil]

theorem execPrepareTimeout_of_compile {s : State} {e : Handle} (hp : s.pair.prepareTake ≠ 0)
    (hh : s.hif.handles.find? (fun e => Op.isCompile e.opcode && e.state == .running && e.ctx == 1) = some e) :
    exec .prepareTimeout s = .next ((s.updPair fun p => { p with prepareTake := 0 }).fail e.handle St.NO_ACK 0) := by
  rw [exec_prepareTimeout, execPrepareTimeout, if_neg hp]
  dsimp only
  rw [State.updPair_hif, hh]

theorem execOrderTimeout_of_near {s : State} {o : Order} (ho : s.pair.order = some o) (ha : o.acked = false)
    (hd : seqDiff o.reel (s.reg R.SSW_REEL_NOW).toNat ≤ 64) :
    exec .orderTimeout s = .next ((((s.setFld F.PAIR_ORDER_STAT_TAG o.tag).setFld F.PAIR_ORDER_STAT_RESULT 3).sendDiscard
      o.take).endOrder o St.NO_ACK) := by
  rw [exec_orderTimeout, execOrderTimeout, ho]
  refine if_neg ?_
  rw [ha]
  rintro (h | ⟨h, -⟩)
  · exact Bool.false_ne_true h
  · exact absurd hd (Nat.not_le.mpr h)

theorem State.joinFail_of_lead {s : State} (status : Nat) (hj : s.pair.joinStep ≠ 0) (hl : s.pair.joinLead = true) :
    s.joinFail status =
      (s.updPair fun p => { p with joinStep := 0, joinLead := false, snapWaiting := false }).closeSession.logEvent
        Ev.JOIN_FAILED noSource (leBytes 1 s.pair.joinStep ++ leBytes 2 status) := by
  unfold State.joinFail
  dsimp only
  rw [if_neg hj, if_pos hl]

-- What the second's lanes showed --------------------------------------------------------------------------------

/-- Lane `n` has shown neither a far-end error nor a rescue in the second that begins. -/
def State.Unrisen (s : State) (n : Nat) : Prop := (s.lane n).ucbRose = false ∧ (s.lane n).rescuedRose = false

/-- What the second's end does to each lane. -/
def State.unrise (s : State) (n : Nat) : State := s.updLane n fun l => { l with ucbRose := false, rescuedRose := false }

theorem State.unrise_unrisen (s : State) (n : Nat) : (s.unrise n).Unrisen n := by
  unfold State.Unrisen State.unrise
  rw [State.lane_updLane_same]
  exact ⟨rfl, rfl⟩

theorem State.Unrisen.unrise {s : State} {n : Nat} (h : s.Unrisen n) (m : Nat) : (s.unrise m).Unrisen n := by
  by_cases hm : n = m
  · rw [hm]
    exact s.unrise_unrisen m
  · unfold State.Unrisen State.unrise
    rw [State.lane_updLane_ne _ _ _ _ (Ne.symm hm)]
    exact h

/-- Of the lanes handled, and of those that had shown nothing before, none shows anything. -/
theorem State.foldl_unrise {n : Nat} (ns : List Nat) (s : State) (h : s.Unrisen n ∨ n ∈ ns) :
    (ns.foldl State.unrise s).Unrisen n := by
  induction ns generalizing s with
  | nil => exact h.resolve_right List.not_mem_nil
  | cons m ms ih =>
    refine ih (s.unrise m) ?_
    rcases h with h | h
    · exact Or.inl (h.unrise m)
    · rcases List.mem_cons.mp h with rfl | h
      · exact Or.inl (s.unrise_unrisen n)
      · exact Or.inr h

theorem State.fld_foldl_unrise (ns : List Nat) (s : State) (f : Fld) : (ns.foldl State.unrise s).fld f = s.fld f :=
  foldl_keeps (f := State.unrise) (fun t => t.fld f) ns (fun _ _ _ => rfl) s

/-- A count over the witness lanes has its eight bits. -/
theorem State.witnessLanes_count_lt (s : State) (p : Nat → Bool) : (s.witnessLanes.filter p).length < 2 ^ 8 := by
  have h1 := List.length_filter_le p s.witnessLanes
  have h2 : s.witnessLanes.length ≤ 128 := (List.length_filter_le _ _).trans (by rw [List.length_range])
  omega

theorem execPairProve_completes (s : State) : Completes .pairProve s (fun t =>
    t.fld F.PAIR_PROVE_LANES_UCB = (s.witnessLanes.filter fun n => (s.lane n).ucbRose).length
      ∧ t.fld F.PAIR_PROVE_LANES_RESCUED = (s.witnessLanes.filter fun n => (s.lane n).rescuedRose).length
      ∧ ∀ n < 128, (t.lane n).ucbRose = false ∧ (t.lane n).rescuedRose = false) := by
  have h : exec .pairProve s = .next ((List.range 128).foldl State.unrise
      ((s.setFld F.PAIR_PROVE_LANES_UCB (s.witnessLanes.filter fun n => (s.lane n).ucbRose).length).setFld
        F.PAIR_PROVE_LANES_RESCUED (s.witnessLanes.filter fun n => (s.lane n).rescuedRose).length)) := exec_pairProve s
  refine Completes.intro h ⟨?_, ?_, fun n hn => State.foldl_unrise _ _ (Or.inr (List.mem_range.mpr hn))⟩
  · rw [State.fld_foldl_unrise, State.fld_setFld_apart _ _ _ _ (Fld.apart_of_bits rfl)]
    exact State.fld_setFld_fits _ _ _ rfl (s.witnessLanes_count_lt _)
  · rw [State.fld_foldl_unrise]
    exact State.fld_setFld_fits _ _ _ rfl (s.witnessLanes_count_lt _)

/-- Settles O42: each timeout acts where its condition holds and leaves the state where it does not. -/
theorem pairTimeouts : Obligations.PairTimeouts := by
  unfold Obligations.PairTimeouts
  intro s
  refine ⟨fun hp hh => Completes.intro (execPrepareTimeout_of_no_compile hp hh) ⟨rfl, rfl⟩,
    fun e hp hh => execPrepareTimeout_of_compile hp hh, fun hp => ?notPrepared,
    fun o ho ha _ hd => execOrderTimeout_of_near ho ha hd, fun ho => ?noOrder, fun hj hl => ?leadJoin, fun hj => ?noJoin,
    Completes.intro (exec_joinLockoutEnd s) ⟨rfl, rfl⟩, fun hr ha => ?ackLate, fun hr => ?notLead,
    fun n hr hn hf => ?split, fun n hr => ?notFollower, execPairProve_completes s⟩
  case notPrepared =>
    rw [exec_prepareTimeout, execPrepareTimeout]
    exact congrArg _ (if_pos hp)
  case noOrder =>
    rw [exec_orderTimeout, execOrderTimeout, ho]
  case leadJoin =>
    rw [exec_joinTimeout, execJoinTimeout, State.joinFail_of_lead _ hj hl]
  case noJoin =>
    rw [exec_joinTimeout, execJoinTimeout]
    exact congrArg _ (if_pos hj)
  case ackLate =>
    rw [exec_ackLate, execAckLate]
    exact congrArg _ (if_pos ⟨hr, ha⟩)
  case notLead =>
    rw [exec_ackLate, execAckLate]
    exact congrArg _ (if_neg fun h => hr h.1)
  case split =>
    rw [exec_takeSplit, execTakeSplit]
    exact congrArg _ (if_pos ⟨hr, hn, by rw [hf]; rfl⟩)
  case notFollower =>
    rw [exec_takeSplit, execTakeSplit]
    exact congrArg _ (if_neg fun h => hr h.1)

end Sys2Proof.Machine
end


section
/-!
PROOFS. Time steps (R267 to R271).
-/
namespace Sys2Proof.Machine
open Sys2Proof

/-- Whether firmware runs hangs on what no event changes. -/
theorem Signals.fwRuns {s t : State} (h : Signals s t) : t.fwRuns = s.fwRuns := by
  have hf : t.flywheel = s.flywheel := by
    unfold State.flywheel
    rw [h.gctl, h.fld _ rfl, h.flag _ rfl]
  rw [State.fwRuns, State.fwRuns, hf, h.mss]

/-- A field of another register leaves whether firmware runs. -/
theorem State.fwRuns_setFld_of_reg (s : State) (f : Fld) (v : Nat) (ha : f.reg ≠ R.GCTL_ALIVE_AGE)
    (hm : f.reg ≠ R.GCTL_STATE) : (s.setFld f v).fwRuns = s.fwRuns := by
  have hf : (s.setFld f v).flywheel = s.flywheel := by
    unfold State.flywheel
    rw [State.setFld_gctl, State.fld_setFld_apart _ _ _ _ (Fld.apart_of_reg ha),
      flag_congr (State.fld_setFld_apart _ _ _ _ (Fld.apart_of_reg hm))]
  rw [State.fwRuns, State.fwRuns, hf, State.setFld_mss]

theorem State.updCand_fwRuns (s : State) (n : Nat) (f : Cand → Cand) : (s.updCand n f).fwRuns = s.fwRuns := rfl

/-- The state of a candidate is shown without regard to whether firmware runs. -/
theorem State.fwRuns_setFld_cand (s : State) (n : Nat) (lo width v : Nat) :
    (s.setFld ⟨R.REF_CANDn_STAT n, lo, width⟩ v).fwRuns = s.fwRuns := by
  refine s.fwRuns_setFld_of_reg _ _ ?_ ?_
  · show 0x48010c + 0x20 * n ≠ 0x110
    omega
  · show 0x48010c + 0x20 * n ≠ 0x100
    omega

theorem State.setCandState_fwRuns (s : State) {n : Nat} (hn : n < 1024) (v : Nat) :
    (s.setCandState n v).fwRuns = s.fwRuns := by
  unfold State.setCandState
  dsimp only
  split
  · exact s.fwRuns_setFld_cand n _ _ v
  · exact (State.icEdge_signals (Signals.refl _) (by omega)).fwRuns.trans (s.fwRuns_setFld_cand n _ _ v)

theorem State.disqualify_fwRuns (s : State) {n : Nat} (hn : n < 1024) (cause : Nat) :
    (s.disqualify n cause).fwRuns = s.fwRuns := by
  unfold State.disqualify
  dsimp only
  exact (State.fwRuns_setFld_cand _ n _ _ _).trans ((State.fwRuns_setFld_cand _ n _ _ _).trans
    ((State.setCandState_fwRuns _ hn _).trans (s.updCand_fwRuns n _)))

theorem State.selected_lt (s : State) : s.selected < 16 := s.fld_lt _

/-- An offset at or beyond the threshold, at a unit that steps. -/
theorem State.steps_of {s : State} {o : Int}
    (hth : 256 * (clampNat 100 1000000 (s.fld F.TIME_STEP_CTL_THRESH) : Int) ≤ o.natAbs)
    (hr : s.role = 0 ∨ s.role = 3 ∨ s.role = 4) :
    ¬ ((o.natAbs : Int) < 256 * clampNat 100 1000000 (s.fld F.TIME_STEP_CTL_THRESH)
      ∨ (s.role ≠ 0 ∧ s.role ≠ 3 ∧ s.role ≠ 4)) := by
  rintro (h | ⟨h0, h3, h4⟩)
  · exact absurd hth (Int.not_le.mpr h)
  · omega

theorem State.scheduleStep_reelSeq (s : State) (ns : Int) (reel : Nat) :
    (s.scheduleStep ns reel).reelSeq = s.reelSeq := by
  unfold State.scheduleStep
  dsimp only
  rw [State.setFlag_reelSeq, State.setReg_reelSeq, State.setFld_reelSeq, State.setFld_reelSeq]

theorem State.scheduleStep_tai (s : State) (ns : Int) (reel : Nat) : (s.scheduleStep ns reel).tai = s.tai := by
  unfold State.scheduleStep
  dsimp only
  rw [State.setFlag_tai, State.setReg_tai, State.setFld_tai, State.setFld_tai]

theorem execStepConfirm_of_permitted {s : State} {o : Int} (ho : s.refOffset = some o)
    (hth : 256 * (clampNat 100 1000000 (s.fld F.TIME_STEP_CTL_THRESH) : Int) ≤ o.natAbs)
    (hr : s.role = 0 ∨ s.role = 3 ∨ s.role = 4) (hp : s.fld F.TIME_STEP_CTL_PERMIT = 1) (hk : stepReels o ≠ 0)
    (hd : s.fld F.TIME_DISC_LEFT_REELS = 0) (hn : s.flag F.TIME_STATE_STEP_PENDING = false) :
    exec .stepConfirm s =
      .next (((s.scheduleStep (2560 * stepReels o) (((s.reg R.SSW_REEL_NOW).toNat + 64) % 2 ^ 32)).updTime fun t =>
        { t with residual := some (o - 655360 * stepReels o) }).sendAlign s.reelSeq s.tai) := by
  have hgo : ¬ (stepReels o = 0 ∨ s.fld F.TIME_DISC_LEFT_REELS ≠ 0 ∨ s.flag F.TIME_STATE_STEP_PENDING = true) := by
    rw [hn]
    rintro (h | h | h)
    · exact hk h
    · exact h hd
    · exact Bool.false_ne_true h
  rw [exec_stepConfirm, execStepConfirm]
  dsimp only
  rw [ho]
  dsimp only
  rw [if_neg (State.steps_of hth hr), if_pos (Or.inl hp), if_neg hgo, State.updTime_reelSeq, State.scheduleStep_reelSeq,
    State.updTime_tai, State.scheduleStep_tai]

theorem execStepConfirm_of_not_permitted {s : State} {o : Int} (ho : s.refOffset = some o)
    (hth : 256 * (clampNat 100 1000000 (s.fld F.TIME_STEP_CTL_THRESH) : Int) ≤ o.natAbs)
    (hr : s.role = 0 ∨ s.role = 3 ∨ s.role = 4) (hp : s.fld F.TIME_STEP_CTL_PERMIT = 0) (hf : s.fwRuns = false) :
    exec .stepConfirm s =
      .next ((s.disqualify s.selected 5).logEvent Ev.TIME_INCONSISTENT s.selected []).enterHoldover := by
  have hno : ¬ (s.fld F.TIME_STEP_CTL_PERMIT = 1
      ∨ (s.fld F.TIME_STEP_CTL_PERMIT = 2 ∧ (!s.time.everTraceable) = true)) := by
    rintro (h | ⟨h, -⟩) <;> omega
  have hrun : ((s.disqualify s.selected 5).logEvent Ev.TIME_INCONSISTENT s.selected []).fwRuns = false :=
    ((State.logEvent_signals (Signals.refl _) _ _ _).fwRuns.trans (s.disqualify_fwRuns (s.selected_lt.trans (by decide)) _)).trans hf
  rw [exec_stepConfirm, execStepConfirm]
  dsimp only
  rw [ho]
  dsimp only
  rw [if_neg (State.steps_of hth hr), if_neg hno]
  exact congrArg _ (if_neg (by rw [hrun]; exact Bool.false_ne_true))

theorem execStepConfirm_of_busy {s : State} (hp : s.fld F.TIME_STEP_CTL_PERMIT = 1)
    (hb : s.flag F.TIME_STATE_STEP_PENDING = true ∨ s.fld F.TIME_DISC_LEFT_REELS ≠ 0) :
    exec .stepConfirm s = .next s := by
  rw [exec_stepConfirm, execStepConfirm]
  dsimp only
  cases s.refOffset with
  | none => rfl
  | some o =>
    dsimp only
    refine ite_eq_left_iff.mpr fun _ => ?_
    rw [if_pos (Or.inl hp)]
    exact if_pos (Or.inr hb.symm)

/-- The step applied: time and phase by the scheduled length, the epoch advanced, the reels of TIME_DISC begun. -/
def State.stepApplied (s : State) : State :=
  let s1 := { s with tai := (((s.tai : Int) + s.stepNs) % 2 ^ 64).toNat }
  let s2 := s1.updRef fun x => { x with phase := x.phase + 256000000 * s1.stepNs }
  let s3 := (s2.setFld F.TIME_STATE_STEP_EPOCH ((s2.epoch + 1) % 256)).setFld F.TIME_DISC_LEFT_REELS 390625
  let s4 := (s3.setFlag F.TIME_STATE_TIME_DISC true).setFlag F.TIME_STATE_STEP_PENDING false
  s4.setReg R.TIME_STEP_REEL (BitVec.ofNat 32 (seqNext s.reelSeq))

theorem State.stepApplied_time (s : State) : s.stepApplied.time = s.time := by
  unfold State.stepApplied
  dsimp only
  rw [State.setReg_time, State.setFlag_time, State.setFlag_time, State.setFld_time, State.setFld_time, State.updRef_time]

theorem State.stepApplied_reelSeq (s : State) : s.stepApplied.reelSeq = s.reelSeq := by
  unfold State.stepApplied
  dsimp only
  rw [State.setReg_reelSeq, State.setFlag_reelSeq, State.setFlag_reelSeq, State.setFld_reelSeq, State.setFld_reelSeq, State.updRef_reelSeq]

theorem State.stepApplied_lanes (s : State) : s.stepApplied.lanes = s.lanes := by
  unfold State.stepApplied
  dsimp only
  rw [State.setReg_lanes, State.setFlag_lanes, State.setFlag_lanes, State.setFld_lanes, State.setFld_lanes, State.updRef_lanes]

theorem State.stepApplied_tai (s : State) : s.stepApplied.tai = (((s.tai : Int) + s.stepNs) % 2 ^ 64).toNat := by
  unfold State.stepApplied
  dsimp only
  rw [State.setReg_tai, State.setFlag_tai, State.setFlag_tai, State.setFld_tai, State.setFld_tai, State.updRef_tai]

theorem State.stepApplied_phase (s : State) :
    s.stepApplied.ref.phase = s.ref.phase + 256000000 * s.stepNs := by
  unfold State.stepApplied
  dsimp only
  rw [State.setReg_ref, State.setFlag_ref, State.setFlag_ref, State.setFld_ref, State.setFld_ref, State.updRef_ref]
  rfl

theorem State.stepApplied_epoch (s : State) : s.stepApplied.epoch = (s.epoch + 1) % 256 := by
  unfold State.epoch State.stepApplied
  dsimp only
  rw [State.fld_setReg_ne _ _ _ _ (by decide), State.fld_setFlag_apart _ _ _ _ (Fld.apart_of_bits rfl),
    State.fld_setFlag_apart _ _ _ _ (Fld.apart_of_bits rfl), State.fld_setFld_apart _ _ _ _ (Fld.apart_of_reg (by decide))]
  exact State.fld_setFld_fits _ _ _ rfl (Nat.mod_lt _ (by decide))

theorem State.stepApplied_discReels (s : State) : s.stepApplied.fld F.TIME_DISC_LEFT_REELS = 390625 := by
  unfold State.stepApplied
  dsimp only
  rw [State.fld_setReg_ne _ _ _ _ (by decide), State.fld_setFlag_apart _ _ _ _ (Fld.apart_of_reg (by decide)),
    State.fld_setFlag_apart _ _ _ _ (Fld.apart_of_reg (by decide))]
  exact State.fld_setFld_fits _ _ _ rfl (show 390625 < 2 ^ 19 by decide)

theorem State.stepApplied_disc (s : State) : s.stepApplied.flag F.TIME_STATE_TIME_DISC = true := by
  unfold State.stepApplied
  dsimp only
  rw [flag_congr (State.fld_setReg_ne _ _ _ _ (by decide)), State.flag_setFlag_apart _ _ _ _ (Fld.apart_of_bits rfl)]
  exact State.flag_setFlag _ _ _ rfl rfl

theorem State.stepApplied_pending (s : State) : s.stepApplied.flag F.TIME_STATE_STEP_PENDING = false := by
  unfold State.stepApplied
  dsimp only
  rw [flag_congr (State.fld_setReg_ne _ _ _ _ (by decide))]
  exact State.flag_setFlag _ _ _ rfl rfl

theorem execTimeStep_of_due {s : State} (hn : s.flag F.TIME_STATE_STEP_PENDING = true)
    (hr : (s.reg R.TIME_STEP_REEL).toNat = seqNext s.reelSeq) (hres : s.time.residual = none) :
    exec .timeStep s = .next (s.stepApplied.logEvent Ev.TIME_STEP noSource
      (leBytes 8 (ofSigned 64 s.stepApplied.stepNs) ++ leBytes 4 (seqNext s.reelSeq))) := by
  have hgo : ¬ ((!s.flag F.TIME_STATE_STEP_PENDING) = true ∨ ((s.reg R.TIME_STEP_REEL).toNat ≠ seqNext s.reelSeq
      ∧ (!seqLater (seqNext s.reelSeq) (s.reg R.TIME_STEP_REEL).toNat) = true)) := by
    rw [hn]
    rintro (h | ⟨h, -⟩)
    · exact Bool.false_ne_true h
    · exact h hr
  have hnone : s.stepApplied.time.residual = none := by rw [s.stepApplied_time, hres]
  rw [exec_timeStep, execTimeStep]
  dsimp only
  rw [if_neg hgo]
  unfold State.stepApplied at hnone ⊢
  dsimp only at hnone ⊢
  rw [hnone]

/-- Settles O43: a confirmed offset is scheduled, refused or left alone, and a step is applied at its boundary. -/
theorem timeSteps : Obligations.TimeSteps := by
  unfold Obligations.TimeSteps
  intro s reel
  refine ⟨fun o ho hth hr => ⟨fun hp hk hd hn => execStepConfirm_of_permitted ho hth hr hp hk hd hn,
    fun hp hf => execStepConfirm_of_not_permitted ho hth hr hp hf⟩, fun ho => ?noOffset,
    fun hp hb => execStepConfirm_of_busy hp hb, fun hn hr hres => ?applied, fun hn => ?notPending, fun hd => ?discEnd,
    fun hd => ?discLeft⟩
  case noOffset =>
    rw [exec_stepConfirm, execStepConfirm]
    dsimp only
    rw [ho]
  case applied =>
    have hu := State.logEvent_signals (Signals.refl s.stepApplied) Ev.TIME_STEP noSource
      (leBytes 8 (ofSigned 64 s.stepApplied.stepNs) ++ leBytes 4 (seqNext s.reelSeq))
    exact Completes.intro (execTimeStep_of_due hn hr hres) ⟨hu.tai.trans s.stepApplied_tai,
      (congrArg _ hu.ref).trans s.stepApplied_phase,
      (hu.fld _ rfl).trans s.stepApplied_epoch, (hu.fld _ rfl).trans s.stepApplied_discReels,
      (hu.flag _ rfl).trans s.stepApplied_disc, (hu.flag _ rfl).trans s.stepApplied_pending, 
      hu.reelSeq.trans s.stepApplied_reelSeq, hu.lanes.trans s.stepApplied_lanes⟩
  case notPending =>
    rw [exec_timeStep, execTimeStep]
    exact if_pos (Or.inl (by rw [hn]; rfl))
  case discEnd =>
    have h : exec .timeDiscEnd s = .next (s.setFlag F.TIME_STATE_TIME_DISC false) := by
      rw [exec_timeDiscEnd, execTimeDiscEnd]
      exact congrArg _ (if_pos hd)
    exact Completes.intro h ⟨State.flag_setFlag _ _ _ rfl rfl,
      (OnlyFields.refl [F.TIME_STATE_TIME_DISC] s).setFlag _ _ (List.mem_singleton.mpr rfl)⟩
  case discLeft =>
    rw [exec_timeDiscEnd, execTimeDiscEnd]
    exact congrArg _ (if_neg hd)

end Sys2Proof.Machine
end


section
/-!
PROOFS. The timing port and the anchor (R259, R273 to R278).
-/
namespace Sys2Proof.Machine
open Sys2Proof

-- Latches -------------------------------------------------------------------------------------------------------

/-- Each pair latched is among the latches of the master. -/
theorem State.mem_latches_latch (s : State) (m : Master) (ws : List (Nat × Word)) {y : Nat × Word} (h : y ∈ ws) :
    { master := masterIdx m, off := y.1, value := y.2 } ∈ (s.latch m ws).latches := by
  unfold State.latch
  dsimp only
  rw [List.foldl_append_eq_append]
  exact List.mem_append_right _ (List.mem_flatMap.mpr ⟨y, h, List.mem_singleton.mpr rfl⟩)

theorem State.latch_frame (s : State) (m : Master) (ws : List (Nat × Word)) :
    s.latch m ws = { s with latches := (s.latch m ws).latches } := rfl

theorem execTimeAnchorRead_completes (s : State) (m : Master) (el : Fin 655360) :
    Completes (.timeAnchorRead m el) s fun t => t.rdataOf m = (s.anchorWords el.val).getD 0 0
      ∧ (∀ i < 4, ∃ l ∈ t.latches, l.master = masterIdx m ∧ l.off = R.TIME_ANCHOR_1 + 4 * i
          ∧ l.value = (s.anchorWords el.val).getD (i + 1) 0)
      ∧ t = { s with rdata := t.rdata, latches := t.latches } := by
  have h : exec (.timeAnchorRead m el) s = .next (s.readAnchor m el.val) := exec_timeAnchorRead s
  refine Completes.intro h ⟨State.rdataOf_setRdata _ _ _, fun i hi => ?_, rfl⟩
  obtain rfl | rfl | rfl | rfl : i = 0 ∨ i = 1 ∨ i = 2 ∨ i = 3 := by omega
  · exact ⟨_, s.mem_latches_latch m _ List.mem_cons_self, rfl, rfl, rfl⟩
  · exact ⟨_, s.mem_latches_latch m _ (List.mem_cons_of_mem _ List.mem_cons_self), rfl, rfl, rfl⟩
  · exact ⟨_, s.mem_latches_latch m _ (List.mem_cons_of_mem _ (List.mem_cons_of_mem _ List.mem_cons_self)), rfl, rfl, rfl⟩
  · exact ⟨_, s.mem_latches_latch m _ (List.mem_cons_of_mem _ (List.mem_cons_of_mem _ (List.mem_cons_of_mem _ List.mem_cons_self))), rfl, rfl, rfl⟩

-- Frames received -----------------------------------------------------------------------------------------------

theorem execTimingPortFrame_of_refused {s : State} {fr : List Byte} (c : BitVec 72)
    (he : s.flag F.TIME_PTP_CTL_EN = true) (hl : s.flag F.TIME_PTP_STAT_BLOCK_LOCK = true) (ha : s.acceptsFrame fr = false) :
    exec (.timingPortFrame fr c) s = .next (s.incFld F.TIME_PTP_STAT_RX_DISCARDED) := by
  rw [exec_timingPortFrame, execTimingPortFrame, if_neg (by rw [he, hl]; decide)]
  exact if_pos (by rw [ha]; rfl)

theorem execTimingPortFrame_of_accepted {s : State} {fr : List Byte} (c : BitVec 72)
    (he : s.flag F.TIME_PTP_CTL_EN = true) (hl : s.flag F.TIME_PTP_STAT_BLOCK_LOCK = true) (ha : s.acceptsFrame fr = true) :
    exec (.timingPortFrame fr c) s = .next ((s.updTime fun t => { t with ptpRx := t.ptpRx ++
      [{ bytes := fr, stamp := (c.toNat + 2 ^ 72 - s.fld F.TIME_PTP_RXDLY_DELAY) % 2 ^ 40, epoch := s.epoch }] }).icRaise 42) := by
  rw [exec_timingPortFrame, execTimingPortFrame, if_neg (by rw [he, hl]; decide)]
  exact if_neg (by rw [ha]; decide)

-- Frames sent and their stamps ----------------------------------------------------------------------------------

/-- The stamp a request of the host leaves for a frame with a Tx timestamp (R276, R278). -/
def State.stampOf (s : State) (r : TransmitRequest) : TsqEntry :=
  let time := r.captured.toNat + s.fld F.TIME_PTP_TXDLY_DELAY
  let p := (ptpHeader r.frame).1
  { tag := r.tag.toNat, msgType := beAt r.frame p 1 % 16, seqId := beAt r.frame (p + 30) 2
    ns := time / 256 % 2 ^ 32, frac := time % 256, epoch := s.epoch }

theorem execTransmitRequest_of_no_stamp {s : State} {r : TransmitRequest} (he : s.flag F.TIME_PTP_CTL_EN = true)
    (hr : r.stamp = 0) : exec (.transmitRequest r) s = .next (s.updTime fun t => { t with ptpTx := r.frame }) := by
  rw [exec_transmitRequest, execTransmitRequest, if_neg (by rw [he]; decide)]
  dsimp only
  rw [if_neg (by rw [hr]; decide), if_neg (by rw [hr]; decide)]

theorem execTransmitRequest_of_stamp {s : State} {r : TransmitRequest} (he : s.flag F.TIME_PTP_CTL_EN = true)
    (hr : r.stamp = 1) :
    exec (.transmitRequest r) s = .next ((s.updTime fun t => { t with ptpTx := r.frame }).pushTsq (s.stampOf r)) := by
  rw [exec_transmitRequest, execTransmitRequest, if_neg (by rw [he]; decide)]
  dsimp only
  rw [if_pos hr, if_neg (by rw [hr]; decide)]
  rfl

/-- A stamp is queued while fewer than 64 wait; the source already held is not raised again. -/
theorem State.pushTsq_of_room {s : State} (e : TsqEntry) (hn : s.time.tsq.length < 64)
    (hh : s.flag (F.IC_SRC_HELD 41) = true) :
    s.pushTsq e = (s.updTime fun t => { t with tsq := t.tsq ++ [e] }).showTsq := by
  rw [State.pushTsq, if_pos hn, State.icRaise]
  refine if_pos ?_
  rw [State.showTsq, flag_congr (State.fld_setFld_apart _ _ _ _ (Fld.apart_of_reg (by decide)))]
  exact hh

theorem State.pushTsq_of_full {s : State} (e : TsqEntry) (hn : 64 ≤ s.time.tsq.length) (hd : s.time.tsqDropped = true) :
    s.pushTsq e = (s.incFld F.TIME_TSQ_OVERFLOW_COUNT).updTime fun t => { t with tsqDropped := true } := by
  rw [State.pushTsq, if_neg (Nat.not_lt.mpr hn)]
  exact if_pos hd

theorem State.showTsq_time (s : State) : s.showTsq.time = s.time := by rw [State.showTsq, State.setFld_time]

theorem State.fld_showTsq (s : State) : s.showTsq.fld F.TIME_TSQ_STAT_FILL = s.time.tsq.length % 2 ^ F.TIME_TSQ_STAT_FILL.width := by
  rw [State.showTsq]
  exact State.fld_setFld _ _ _ rfl

-- The oldest stamp ----------------------------------------------------------------------------------------------

theorem State.popTsq_of_entry {s : State} {e : TsqEntry} {rest : List TsqEntry} (m : Master) (h : s.time.tsq = e :: rest) :
    (s.popTsq m).time.tsq = rest ∧ (s.popTsq m).time.tsqDropped = false ∧
      (s.popTsq m).rdataOf m = BitVec.ofNat 32 (2 ^ 31 + e.msgType * 2 ^ 24 + e.epoch * 65536 + e.tag) ∧
      (s.popTsq m).fld F.TIME_TSQ_STAT_FILL = rest.length % 2 ^ F.TIME_TSQ_STAT_FILL.width := by
  unfold State.popTsq
  rw [h]
  dsimp only
  refine ⟨?_, ?_, State.rdataOf_setRdata _ _ _, ?_⟩
  · rw [State.setRdata_time, State.latch_time, State.showTsq_time, State.updTime_time]
  · rw [State.setRdata_time, State.latch_time, State.showTsq_time, State.updTime_time]
  · rw [State.fld_setRdata]
    change (State.showTsq _).fld _ = _
    rw [State.fld_showTsq, State.updTime_time]

/-- Settles O44: the anchor is read at one moment, and frames and stamps pass the timing port while it is enabled. -/
theorem timingPort : Obligations.TimingPort := by
  unfold Obligations.TimingPort
  intro s m
  refine ⟨execTimeAnchorRead_completes s m, fun fr c he hl => ⟨fun ha => execTimingPortFrame_of_refused c he hl ha,
    fun ha => execTimingPortFrame_of_accepted c he hl ha⟩, fun fr c he => ?notReceiving,
    fun r he hr => execTransmitRequest_of_no_stamp he hr, fun r he hr hn hh => ?stamped, fun r he hr hn hd => ?full,
    fun r he => ?notSending, fun h => ?empty, fun e rest h => Completes.intro (exec_timeTsqPop s) (State.popTsq_of_entry m h)⟩
  case notReceiving =>
    rw [exec_timingPortFrame, execTimingPortFrame]
    exact if_pos (Or.inl (by rw [he]; rfl))
  case stamped =>
    have hp := State.pushTsq_of_room (s := s.updTime fun t => { t with ptpTx := r.frame }) (s.stampOf r) hn hh
    refine Completes.intro ((execTransmitRequest_of_stamp he hr).trans (congrArg _ hp)) ⟨?_, ?_, ?_, ?_⟩
    · rw [State.showTsq_time]
      rfl
    · rw [State.showTsq_time]
      exact List.length_append
    · rw [State.showTsq_time, State.updTime_time, List.getLast?_concat]
      exact rfl
    · rw [State.fld_showTsq, State.updTime_time, List.length_append]
      rfl
  case full =>
    have hp := State.pushTsq_of_full (s := s.updTime fun t => { t with ptpTx := r.frame }) (s.stampOf r) hn hd
    exact Completes.intro ((execTransmitRequest_of_stamp he hr).trans (congrArg _ hp)) ⟨rfl, State.fld_incFld _ _ _ rfl⟩
  case notSending =>
    rw [exec_transmitRequest, execTransmitRequest]
    exact if_pos (by rw [he]; rfl)
  case empty =>
    rw [exec_timeTsqPop, execTimeTsqPop, State.popTsq, h]

end Sys2Proof.Machine
end




section
/-!
PROOFS. The asymmetry watch (R279 to R281).
-/
namespace Sys2Proof.Machine
open Sys2Proof

-- The path pair of the timing lanes -----------------------------------------------------------------------------

/-- How far an offset has moved from the last good one. -/
def movedBy (o : Int) (g : Option Int) : Nat := (o - g.getD o).natAbs

theorem movedBy_some (o g : Int) : movedBy o (some g) = (o - g).natAbs := rfl

/-- What lane 128 and its partner show once they diverge: those that have moved at least as far as the other are suspect. -/
theorem execAsymSuspect_of_chassis {n : LaneNo} {s : State} {a b : Int} (hn : n.val = 128) (ha : s.meanOfs 128 = some a)
    (hb : s.meanOfs 129 = some b) (hfar : s.asymThresh < (a - b).natAbs) (h1 : (s.lane 128).tt.suspect = false)
    (h2 : (s.lane 129).tt.suspect = false) :
    exec (.asymSuspect n false) s =
      .next ((if movedBy a (s.lane 128).tt.good ≤ movedBy b (s.lane 129).tt.good then
          (if movedBy b (s.lane 129).tt.good ≤ movedBy a (s.lane 128).tt.good then s.makeSuspect 128 else s).makeSuspect 129
        else (if movedBy b (s.lane 129).tt.good ≤ movedBy a (s.lane 128).tt.good then s.makeSuspect 128 else s)).logEvent
          Ev.ASYM_SUSPECT 128 (leBytes 1 129 ++ leBytes 4 (ofSigned 32 (a - b)) ++ leBytes 1 0)) := by
  have hgo : ¬ ((!decide (s.asymThresh < ((a - b).natAbs : Int))) = true ∨ (s.lane 128).tt.suspect = true
      ∨ (s.lane 129).tt.suspect = true) := by
    rw [decide_eq_true hfar, h1, h2]
    decide
  rw [exec_asymSuspect, execAsymSuspect]
  dsimp only
  rw [hn, if_neg Bool.false_ne_true, if_pos rfl, if_neg (by omega), ha, hb]
  dsimp only
  rw [if_neg hgo]
  rfl

theorem execAsymSuspect_of_mate_within {n : LaneNo} {s : State} {a b : Int} (ha : s.meanOfs n = some a)
    (hb : s.leadPath n = some b) (hw : ((a - b).natAbs : Int) ≤ s.asymThresh) : exec (.asymSuspect n true) s = .next s := by
  rw [exec_asymSuspect, execAsymSuspect]
  dsimp only
  rw [if_pos rfl, ha, hb]
  dsimp only
  refine if_pos (Or.inl ?_)
  rw [decide_eq_false (Int.not_lt.mpr hw)]
  rfl

theorem execAsymSuspect_of_no_mean {n : LaneNo} {s : State} (mate : Bool) (ha : s.meanOfs n = none) :
    exec (.asymSuspect n mate) s = .next s := by
  rw [exec_asymSuspect, execAsymSuspect]
  dsimp only
  rw [ha]
  cases mate
  · rw [if_neg Bool.false_ne_true]
    dsimp only
    exact ite_self _
  · exact if_pos rfl

-- Clearing a mark -----------------------------------------------------------------------------------------------

theorem execAsymClear_of_within {n : LaneNo} {s : State} (hd : s.divergences n ≠ [])
    (hw : ∀ d ∈ s.divergences n, (d.natAbs : Int) ≤ s.asymThresh) (hs : (s.lane n).tt.suspect = true) :
    exec (.asymClear n) s = .next (s.clearSuspect n) := by
  have hall : ((s.divergences n).all fun d => decide ((d.natAbs : Int) ≤ s.asymThresh)) = true :=
    List.all_eq_true.mpr fun d hd => decide_eq_true (hw d hd)
  have hne : (s.divergences n).isEmpty = false := List.isEmpty_eq_false_iff.mpr hd
  rw [exec_asymClear, execAsymClear]
  rw [hne, hall, hs]
  rfl

theorem execAsymClear_of_none {n : LaneNo} {s : State} (hd : s.divergences n = []) : exec (.asymClear n) s = .next s := by
  rw [exec_asymClear, execAsymClear]
  rw [hd]
  rfl

theorem execAsymClear_of_unmarked {n : LaneNo} {s : State} (hs : (s.lane n).tt.suspect = false)
    (hm : s.flag (F.LANE_TT_STAT_MATE_PATH_SUSPECT n) = false) : exec (.asymClear n) s = .next s := by
  rw [exec_asymClear, execAsymClear]
  rw [hs, hm, Bool.or_false, Bool.and_false]
  rfl

theorem execSuspectClr_of_unmarked {n : LaneNo} {s : State} (hs : (s.lane n).tt.suspect = false)
    (hm : s.flag (F.LANE_TT_STAT_MATE_PATH_SUSPECT n) = false) : exec (.suspectClr n) s = .next s := by
  rw [exec_suspectClr, execSuspectClr, State.writeSuspectClr, hs, hm]
  rfl

theorem execSuspectClr_of_marked {n : LaneNo} {s : State}
    (h : (s.lane n).tt.suspect = true ∨ s.flag (F.LANE_TT_STAT_MATE_PATH_SUSPECT n) = true) :
    exec (.suspectClr n) s = .next (s.clearSuspect n) := by
  rw [exec_suspectClr, execSuspectClr, State.writeSuspectClr]
  exact congrArg _ (if_pos (Bool.or_eq_true_iff.mpr h))

-- A new asymmetry value -----------------------------------------------------------------------------------------

/-- What shows the estimate writes one field of the lane. -/
theorem State.showAsymEst_eq (s : State) (n : Nat) : ∃ v, s.showAsymEst n = s.setFld (F.LANE_TT_ASYM_EST_EST n) v := by
  unfold State.showAsymEst
  dsimp only
  split
  · exact ⟨_, rfl⟩
  · exact ⟨_, rfl⟩

/-- Two registers of one lane. -/
theorem laneBase_add_ne_same (n : Nat) {c d : Nat} (h : c ≠ d) : laneBase n + c ≠ laneBase n + d := by omega

/-- What a write of LANE_TT_ASYM leaves. -/
theorem State.writeTtAsym_fields (s : State) (n : Nat) (v : Word) :
    (s.writeTtAsym n v).reg (R.LANE_TT_ASYM n) = v ∧ ((s.writeTtAsym n v).lane n).tt.ofs = [] ∧
      ((s.writeTtAsym n v).lane n).tt.delay = (s.lane n).tt.delay ∧
      (s.writeTtAsym n v).fld (F.LANE_TT_OFS_OFS n) = 0x80000000 ∧
      (s.writeTtAsym n v).ref = s.ref ∧ (s.writeTtAsym n v).time = s.time := by
  unfold State.writeTtAsym
  dsimp only
  generalize hs1 : ((s.setReg (R.LANE_TT_ASYM n) v).updLane n fun l => { l with tt := { l.tt with ofs := [] } }) = s1
  obtain ⟨w, hw⟩ := (s1.setFld (F.LANE_TT_OFS_OFS n) 0x80000000).showAsymEst_eq n
  rw [hw]
  refine ⟨?_, ?_, ?_, ?_, ?_, ?_⟩
  · rw [State.reg_setFld_ne _ _ _ _ (laneBase_add_ne_same n (show 0x318 ≠ 0x304 by decide)),
      State.reg_setFld_ne _ _ _ _ (laneBase_add_ne_same n (show 0x308 ≠ 0x304 by decide)), ← hs1, State.reg_updLane]
    exact State.reg_setReg_same _ _ _
  · rw [State.lane_setFld, State.lane_setFld, ← hs1, State.lane_updLane_same]
  · rw [State.lane_setFld, State.lane_setFld, ← hs1, State.lane_updLane_same, State.lane_setReg]
  · rw [State.fld_setFld_apart _ _ _ _ (Fld.apart_of_reg (laneBase_add_ne_same n (show 0x318 ≠ 0x308 by decide)))]
    exact State.fld_setFld_fits _ _ _ rfl (show 0x80000000 < 2 ^ 32 by decide)
  · rw [State.setFld_ref, State.setFld_ref, ← hs1, State.updLane_ref, State.setReg_ref]
  · rw [State.setFld_time, State.setFld_time, ← hs1, State.updLane_time, State.setReg_time]

/-- Settles O45: the watch marks the path that has moved further, and a mark ends where the divergences are within. -/
theorem pathAsymmetry : Obligations.PathAsymmetry := by
  unfold Obligations.PathAsymmetry
  intro n s clear
  refine ⟨fun a b ga gb hn ha hb hfar h1 h2 hga hgb => ?pair,
    fun a b ha hb hw => execAsymSuspect_of_mate_within ha hb hw, fun mate ha => execAsymSuspect_of_no_mean mate ha,
    fun hd hw hs => execAsymClear_of_within hd hw hs, execAsymClear_of_none,
    fun hs hm => ⟨execAsymClear_of_unmarked hs hm, execSuspectClr_of_unmarked hs hm⟩, execSuspectClr_of_marked,
    fun v => Completes.intro (exec_laneTtAsymWrite s) (s.writeTtAsym_fields n v)⟩
  case pair =>
    dsimp only
    have hx := execAsymSuspect_of_chassis hn ha hb hfar h1 h2
    rw [hga, hgb, movedBy_some, movedBy_some] at hx
    refine ⟨fun h => ?further, fun h => ?lessFar, fun h => ?equal⟩
    case further => rw [hx, if_neg (Nat.not_le.mpr h), if_pos (Nat.le_of_lt h)]
    case lessFar => rw [hx, if_pos (Nat.le_of_lt h), if_neg (Nat.not_le.mpr h)]
    case equal => rw [hx, if_pos h.le, if_pos h.ge]

end Sys2Proof.Machine
end


section
/-!
PROOFS. The frequency loop, holdover, the selection and the timing outputs (R291, R298 to R310, R317).
-/
namespace Sys2Proof.Machine
open Sys2Proof

-- What leaves whether firmware runs -----------------------------------------------------------------------------

/-- A field of the timebase or of the references leaves whether firmware runs. -/
theorem State.fwRuns_setFld_of_high (s : State) {f : Fld} (h : 0x400000 ≤ f.reg) (v : Nat) :
    (s.setFld f v).fwRuns = s.fwRuns := by
  have ha : R.GCTL_ALIVE_AGE < 0x400000 := by decide
  have hm : R.GCTL_STATE < 0x400000 := by decide
  exact s.fwRuns_setFld_of_reg f v (by omega) (by omega)

theorem State.fwRuns_setFlag_of_high (s : State) {f : Fld} (h : 0x400000 ≤ f.reg) (b : Bool) :
    (s.setFlag f b).fwRuns = s.fwRuns := s.fwRuns_setFld_of_high h _

theorem State.fitWindow_fwRuns (s : State) (n : Nat) : (s.fitWindow n).fwRuns = s.fwRuns := by
  have hstat : 0x400000 ≤ R.REF_CANDn_STAT n := by
    show 0x400000 ≤ 0x48010c + 0x20 * n
    omega
  have hfofs : 0x400000 ≤ R.REF_CANDn_FOFS n := by
    show 0x400000 ≤ 0x480110 + 0x20 * n
    omega
  unfold State.fitWindow
  dsimp only
  split
  · rfl
  · rw [apply_ite State.fwRuns, State.setFldI, State.fwRuns_setFld_of_high (f := F.REF_CANDn_FOFS_FOFS n) _ hfofs,
      State.fwRuns_setFld_of_high (f := F.REF_CANDn_FOFS_FOFS n) _ hfofs, ite_self,
      State.fwRuns_setFlag_of_high (f := F.REF_CANDn_STAT_WINDOW_FULL n) _ hstat, State.updCand_fwRuns]

/-- The range shown, with the event that it begins to be exceeded. -/
theorem State.refreshHold_fwRuns (s : State) : s.refreshHold.fwRuns = s.fwRuns := by
  unfold State.refreshHold
  dsimp only
  generalize hm : ((s.setFldI F.REF_HO_FREQ_H s.holdFreq).setFldI F.REF_HO_MODEL_K_T s.kT) = m
  have hmodel : m.fwRuns = s.fwRuns := by
    rw [← hm, State.setFldI, State.setFldI, State.fwRuns_setFld_of_high _ (by decide), State.fwRuns_setFld_of_high _ (by decide)]
  split
  · rw [State.fwRuns_setFlag_of_high _ (by decide), hmodel]
  · split
    · rw [(State.logEvent_signals (Signals.refl _) _ _ _).fwRuns, State.fwRuns_setFlag_of_high _ (by decide), State.setFldI,
        State.setFldI, State.fwRuns_setFld_of_high _ (by decide), State.fwRuns_setFld_of_high _ (by decide),
        State.fwRuns_setFlag_of_high _ (by decide), hmodel]
    · rw [State.fwRuns_setFlag_of_high _ (by decide), State.setFldI,
        State.setFldI, State.fwRuns_setFld_of_high _ (by decide), State.fwRuns_setFld_of_high _ (by decide),
        State.fwRuns_setFlag_of_high _ (by decide), hmodel]

/-- The record of R311 is kept by firmware alone. -/
theorem State.keepHoldover_of_no_fw {s : State} (h : s.fwRuns = false) : s.keepHoldover = s := by
  unfold State.keepHoldover
  exact if_pos (Or.inl (by rw [h]; rfl))

/-- The windows fitted and the model shown, for the second that begins. -/
def State.secondShown (s : State) : State :=
  ((List.range 8).foldl State.fitWindow (s.updRef fun r => { r with secs := r.secs + 1 })).refreshHold

theorem State.secondShown_fwRuns (s : State) : s.secondShown.fwRuns = s.fwRuns := by
  unfold State.secondShown
  rw [State.refreshHold_fwRuns, foldl_keeps State.fwRuns (List.range 8) (fun t n _ => t.fitWindow_fwRuns n)]
  rfl

theorem State.incFld_fwRuns_elapsed (s : State) : (s.incFld F.REF_HO_STAT_ELAPSED).fwRuns = s.fwRuns := by
  rw [State.incFld, State.fwRuns_setFld_of_high _ (by decide)]

theorem execCandidateEvaluation_of_no_fw {s : State} (h : s.fwRuns = false) :
    exec .candidateEvaluation s = .next ((if s.secondShown.mode = 3 then s.secondShown.incFld F.REF_HO_STAT_ELAPSED
      else s.secondShown).keepHoldover) := by
  have hrun : (if s.secondShown.mode = 3 then s.secondShown.incFld F.REF_HO_STAT_ELAPSED else s.secondShown).fwRuns =
      false := by
    rw [apply_ite State.fwRuns, State.incFld_fwRuns_elapsed, ite_self, s.secondShown_fwRuns, h]
  have hkeep := State.keepHoldover_of_no_fw hrun
  rw [exec_candidateEvaluation, execCandidateEvaluation]
  dsimp only
  refine if_pos ?_
  change (!((if s.secondShown.mode = 3 then s.secondShown.incFld F.REF_HO_STAT_ELAPSED
    else s.secondShown).keepHoldover).fwRuns) = true
  rw [hkeep, hrun]
  rfl

-- The loop ------------------------------------------------------------------------------------------------------

/-- The frequency word after one update in FREE_RUN: a step of at most 10,000 towards 0 (R306, R307). -/
def State.freeWord (s : State) : Int :=
  clampInt (-25000000) 25000000 (s.fldI F.REF_FREQ_FREQ + clampInt (-10000) 10000 (0 - s.fldI F.REF_FREQ_FREQ))

theorem State.freeWord_bounds (s : State) : -25000000 ≤ s.freeWord ∧ s.freeWord ≤ 25000000 := by
  unfold State.freeWord clampInt
  omega

theorem towardZero_zero {k : Int} (hk : 0 ≤ k) : towardZero 0 k = 0 := by
  unfold towardZero
  omega

/-- The build-out shown once it is 0. -/
def State.builtOut (s : State) : State :=
  (s.updRef fun r => { r with build := 0, residual := 0 }).showBuild

/-- What the loop counts of a word. -/
def State.countWord (s : State) (g : Int) : State :=
  s.updRef fun r => { r with phase := r.phase + 256 * g, freqSum := r.freqSum + g, freqN := r.freqN + 1 }

theorem State.builtOut_fld (s : State) {f : Fld} (h : F.REF_BUILDOUT_B.apart f = true) : s.builtOut.fld f = s.fld f := by
  unfold State.builtOut State.showBuild
  rw [State.setFldI, State.fld_setFld_apart _ _ _ _ h, State.fld_updRef]

/-- What a frequency word shows. -/
theorem State.setFreq_fields (s : State) {g : Int} (hl : -25000000 ≤ g) (hr : g ≤ 25000000) :
    (s.setFreq g).fldI F.REF_FREQ_FREQ = g ∧ (s.setFreq g).fld F.TIME_INCR_LO_FRAC = incrOf g % 2 ^ 32 ∧
      (s.setFreq g).fld F.REF_STATE_MODE = s.fld F.REF_STATE_MODE ∧ (s.setFreq g).ref = s.ref ∧ (s.setFreq g).free = s.free ∧
      s.setFreq g = { s with regs := (s.setFreq g).regs } := by
  unfold State.setFreq
  dsimp only
  refine ⟨?_, ?_, ?_, ?_, ?_, ?_⟩
  · rw [State.fldI_setFld_apart _ _ _ _ (Fld.apart_of_reg (by decide)),
      State.fldI_setFld_apart _ _ _ _ (Fld.apart_of_reg (by decide))]
    exact State.fldI_setFldI_fits _ _ (show 0 + 32 ≤ 32 by omega) (show 0 < 32 by omega)
      (show -((2 ^ 31 : Nat) : Int) ≤ _ by omega) (show _ < ((2 ^ 31 : Nat) : Int) by omega)
  · rw [State.fld_setFld_apart _ _ _ _ (Fld.apart_of_reg (by decide))]
    exact State.fld_setFld_fits _ _ _ rfl (Nat.mod_lt _ (by decide))
  · rw [State.fld_setFld_apart _ _ _ _ (Fld.apart_of_reg (by decide)),
      State.fld_setFld_apart _ _ _ _ (Fld.apart_of_reg (by decide)), State.setFldI,
      State.fld_setFld_apart _ _ _ _ (Fld.apart_of_reg (by decide))]
  · rw [State.setFld_ref, State.setFld_ref, State.setFldI_ref]
  · rw [State.setFld_free, State.setFld_free, State.setFldI_free]
  · exact State.setFld_of_regs (State.setFld_of_regs (State.setFld_of_regs (t := s) rfl _ _) _ _) _ _

theorem Ref.built_out {r : Ref} (hb : r.build = 0) (hr : r.residual = 0) : { r with build := 0, residual := 0 } = r := by
  cases r
  cases hb
  cases hr
  rfl

theorem State.builtOut_ref {s : State} (hb : s.ref.build = 0) (hr : s.ref.residual = 0) : s.builtOut.ref = s.ref := by
  unfold State.builtOut State.showBuild
  rw [State.setFldI_ref, State.updRef_ref]
  exact Ref.built_out hb hr

/-- Nothing but the registers and the loop's own state. -/
theorem State.builtOut_frame (s : State) : s.builtOut = { s with regs := s.builtOut.regs, ref := s.builtOut.ref } := by
  unfold State.builtOut State.showBuild State.setFldI State.setFld State.setReg State.updRef
  rfl

theorem State.fld_countWord (s : State) (g : Int) (f : Fld) : (s.countWord g).fld f = s.fld f := rfl

theorem State.fldI_countWord (s : State) (g : Int) (f : Fld) : (s.countWord g).fldI f = s.fldI f := rfl

/-- What an update in FREE_RUN leaves. -/
theorem State.freeRun_fields {s : State} (hm : s.mode = 0) (hb : s.ref.build = 0) (hres : s.ref.residual = 0) :
    let t := (s.builtOut.setFreq s.freeWord).countWord s.freeWord
    t.fldI F.REF_FREQ_FREQ = s.freeWord
      ∧ t.ref = { s.ref with phase := s.ref.phase + 256 * s.freeWord, freqSum := s.ref.freqSum + s.freeWord
                             freqN := s.ref.freqN + 1 }
      ∧ t.fld F.TIME_INCR_LO_FRAC = incrOf s.freeWord % 2 ^ 32 ∧ t.free = s.free ∧ t.mode = 0
      ∧ t = { s with regs := t.regs, ref := t.ref } := by
  obtain ⟨hl, hr⟩ := s.freeWord_bounds
  obtain ⟨hfreq, hincr, hmode, href, hfree, hregs⟩ := s.builtOut.setFreq_fields hl hr
  refine ⟨(State.fldI_countWord _ _ _).trans hfreq, ?_, (State.fld_countWord _ _ _).trans hincr, ?_, ?_, ?_⟩
  · rw [State.countWord, State.updRef_ref, href, State.builtOut_ref hb hres]
  · rw [State.countWord, State.updRef_free, hfree, State.builtOut, State.showBuild, State.setFldI_free, State.updRef_free]
  · rw [State.mode, State.fld_countWord, hmode, s.builtOut_fld rfl]
    exact hm
  · generalize s.builtOut.setFreq s.freeWord = u at hregs
    have hbuilt := s.builtOut_frame
    generalize s.builtOut = b at hregs hbuilt
    rw [State.countWord, State.updRef, hregs, hbuilt]

theorem execDpllUpdate_of_free_run {s : State} (hm : s.mode = 0) (hs : s.selected = 15)
    (hf : s.flag F.REF_CTL_FORCE_HO = false) (hb : s.ref.build = 0) (hres : s.ref.residual = 0) :
    exec (.dpllUpdate none none) s = .next ((s.builtOut.setFreq s.freeWord).countWord s.freeWord) := by
  have hk : ∀ k : Nat, towardZero 0 (256 * (k : Int)) = 0 := fun k => towardZero_zero (by omega)
  have hbuild : (s.updRef fun r => { r with
      build := towardZero r.build (256 * clampNat 10 10000 (s.fld F.REF_SLOPE_SLOPE))
      residual := towardZero r.residual (256 * clampNat 10 10000 (s.fld F.REF_SLOPE_SLOPE)) }).showBuild = s.builtOut := by
    unfold State.updRef State.builtOut
    dsimp only
    rw [hb, hres, hk]
    rfl
  have hmode : s.builtOut.mode = 0 := (s.builtOut_fld rfl).trans hm
  have hfreq : s.builtOut.fldI F.REF_FREQ_FREQ = s.fldI F.REF_FREQ_FREQ := by
    rw [State.fldI, State.fldI, s.builtOut_fld rfl]
  have htarget : s.builtOut.loopTarget = (0, s.builtOut) := by
    unfold State.loopTarget
    exact if_pos hmode
  rw [exec_dpllUpdate, execDpllUpdate]
  dsimp only
  rw [if_neg (c := s.selected ≠ 15 ∧ _) (fun h => h.1 hs), hf, Bool.false_and, Bool.false_and, if_neg Bool.false_ne_true, hbuild,
    htarget]
  dsimp only
  rw [hfreq]
  rfl

-- The selection and the outputs ---------------------------------------------------------------------------------

theorem execSelectionChange_of_fw {s : State} (h : s.fwRuns = true) : exec .selectionChange s = .next s.changeSelection := by
  rw [exec_selectionChange, execSelectionChange]
  exact congrArg _ (if_pos h)

theorem State.changeSelection_of_none {s : State} (hw : s.wanted = none) (hs : s.selected = 15) : s.changeSelection = s := by
  unfold State.changeSelection
  rw [hw]
  exact if_pos (Or.inl hs)

theorem State.changeSelection_of_wanted {s : State} {n : Nat} (hw : s.wanted = some n) (hn : n ≠ s.selected)
    (h : s.forced = true ∨ s.selected = 15) : s.changeSelection = s.selectCand n := by
  have hgo : (s.selectedGone || s.forced || s.confined) = true := by
    rcases h with h | h
    · rw [h, Bool.or_true, Bool.true_or]
    · have : s.selectedGone = true := by
        unfold State.selectedGone
        rw [h]
        rfl
      rw [this, Bool.true_or, Bool.true_or]
  unfold State.changeSelection
  rw [hw]
  dsimp only
  rw [if_neg hn, if_pos hgo]

theorem State.ppsEdge_whole {s : State} {k : Nat} {e : Int} (h : s.ppsEdge k = some e) :
    (256 * (s.tai : Int) + e - s.ppsDelay k) % secondUnits = 0 := by
  unfold State.ppsEdge at h
  dsimp only at h
  obtain ⟨-, rfl⟩ := Option.ite_some_none_eq_some.mp h
  unfold secondUnits
  omega

/-- A pulse that begins is high at its edge. -/
theorem State.stepPps_ppsLevel {s : State} {k : Nat} {e : Int} (h : s.ppsEdge k = some e)
    (he : s.flag (F.REF_PPSO_EN k) = true) (hq : s.squelched (s.fld (F.REF_PPSO_SQUELCH k)) = false)
    (hn : Tbl.get (fun _ => none) s.time.pps k = none) : (s.stepPps k).ppsLevel k e = true := by
  have hstep : s.stepPps k = s.updTime fun t => { t with
      pps := Tbl.put (fun _ => none) t.pps k
        (some (256 * (s.time.clock : Int) + e, clampNat 1 500000 (s.fld (F.REF_PPSO_WIDTH k)))) } := by
    unfold State.stepPps
    rw [h]
    dsimp only
    rw [hn, he, hq]
    rfl
  have hw : 1 ≤ clampNat 1 500000 (s.fld (F.REF_PPSO_WIDTH k)) := Nat.le_max_left _ _
  generalize clampNat 1 500000 (s.fld (F.REF_PPSO_WIDTH k)) = w at hstep hw
  rw [hstep, State.ppsLevel, flag_updTime, he, State.updTime_time]
  dsimp only
  rw [Tbl.get_put_same]
  exact decide_eq_true ⟨le_refl _, by omega⟩

theorem State.foutLevel_of_on {s : State} {k e : Nat} (he : s.flag (F.REF_FOUT_EN k) = true) (ho : s.foutOn k = true)
    (hl : Tbl.get (fun _ => false) s.time.fout k = true) :
    s.foutLevel k e = decide (2 * ((256 * s.tai + e) % s.foutPeriod k) < s.foutPeriod k) := by
  unfold State.foutLevel
  dsimp only
  rw [he, ho, hl, ite_self, Bool.true_and, Bool.true_and]

/-- Settles O46: what each timer of the references does where its condition holds, and where it does not. -/
theorem frequencyLoop : Obligations.FrequencyLoop := by
  unfold Obligations.FrequencyLoop
  intro s
  refine ⟨?loop, fun h => execCandidateEvaluation_of_no_fw h, fun hm => ?notLocked, fun hm hb hn => ?locked,
    fun hm hb he => ?expired, fun h => ?notExpired, fun hm hb => ?dissolved, fun h => ?dissolving, fun h => ?noFw,
    fun h hw hs => ?noneWanted, fun n h hw hn hs => ?wanted, fun k e h => State.ppsEdge_whole h,
    fun k e h he hq hn => State.stepPps_ppsLevel h he hq hn, fun k e he ho hl => State.foutLevel_of_on he ho hl⟩
  case loop =>
    exact fun hm hs hf hb hres => Completes.intro (execDpllUpdate_of_free_run hm hs hf hb hres) (s.freeRun_fields hm hb hres)
  case notLocked =>
    have h : exec .historySample s = .next (s.updRef fun r => { r with freqSum := 0, freqN := 0 }) := by
      rw [exec_historySample, execHistorySample]
      exact if_pos (Or.inl hm)
    exact Completes.intro h ⟨rfl, rfl⟩
  case locked =>
    rw [exec_historySample, execHistorySample]
    dsimp only
    rw [if_neg (by rw [hm, hb]; simp), if_neg hn]
    rfl
  case expired =>
    rw [exec_holdoverExpired, execHoldoverExpired]
    exact congrArg _ (if_pos ⟨hm, hb, he⟩)
  case notExpired =>
    rw [exec_holdoverExpired, execHoldoverExpired]
    exact congrArg _ (if_neg fun ⟨hm, hb, _⟩ => h.elim hb fun h => h hm)
  case dissolved =>
    rw [exec_dissolveEnd, execDissolveEnd]
    exact congrArg _ (if_pos ⟨hm, hb⟩)
  case dissolving =>
    rw [exec_dissolveEnd, execDissolveEnd]
    exact congrArg _ (if_neg fun ⟨hm, hb⟩ => h.elim (fun h => h hm) fun h => h hb)
  case noFw =>
    rw [exec_selectionChange, execSelectionChange]
    exact congrArg _ (if_neg (by rw [h]; exact Bool.false_ne_true))
  case noneWanted => rw [execSelectionChange_of_fw h, State.changeSelection_of_none hw hs]
  case wanted => rw [execSelectionChange_of_fw h, State.changeSelection_of_wanted hw hn hs]

end Sys2Proof.Machine
end


section
/-!
PROOFS. Reference candidates (R284 to R290, R303).
-/
namespace Sys2Proof.Machine
open Sys2Proof

-- The registers of a candidate ----------------------------------------------------------------------------------

theorem candReg_ne (n : Nat) {c d : Nat} (h : c ≠ d) : c + 0x20 * n ≠ d + 0x20 * n := by omega

theorem candReg_signal {n c : Nat} (hn : n < 8) (hl : 0x480100 ≤ c) (hc : c < 0x480120) :
    signalReg (c + 0x20 * n) = false := signalReg_of_lt (by omega) (by omega)

theorem stat_ne_fofs (n : Nat) : R.REF_CANDn_STAT n ≠ R.REF_CANDn_FOFS n := candReg_ne n (by decide)

theorem stat_ne_pofs (n : Nat) : R.REF_CANDn_STAT n ≠ R.REF_CANDn_POFS n := candReg_ne n (by decide)

theorem ctl_ne_stat (n : Nat) : R.REF_CANDn_CTL n ≠ R.REF_CANDn_STAT n := candReg_ne n (by decide)

theorem ctl_ne_fofs (n : Nat) : R.REF_CANDn_CTL n ≠ R.REF_CANDn_FOFS n := candReg_ne n (by decide)

theorem ctl_ne_pofs (n : Nat) : R.REF_CANDn_CTL n ≠ R.REF_CANDn_POFS n := candReg_ne n (by decide)

theorem candStat_signal {n : Nat} (hn : n < 8) : signalReg (R.REF_CANDn_STAT n) = false :=
  candReg_signal hn (by decide) (by decide)

theorem candCtl_signal {n : Nat} (hn : n < 8) : signalReg (R.REF_CANDn_CTL n) = false :=
  candReg_signal hn (by decide) (by decide)

-- The window and the state of a candidate -----------------------------------------------------------------------

theorem State.clearWindow_fld_of_reg (s : State) (n : Nat) {g : Fld} (hs : R.REF_CANDn_STAT n ≠ g.reg)
    (hf : R.REF_CANDn_FOFS n ≠ g.reg) : (s.clearWindow n).fld g = s.fld g := by
  unfold State.clearWindow
  dsimp only
  rw [State.fld_setFlag_apart _ _ _ _ (Fld.apart_of_reg hs), State.fld_setFld_apart _ _ _ _ (Fld.apart_of_reg hf),
    State.fld_setFlag_apart _ _ _ _ (Fld.apart_of_reg hs), State.fld_updCand]

theorem State.clearWindow_candState (s : State) (n : Nat) : (s.clearWindow n).candState n = s.candState n := by
  unfold State.clearWindow State.candState
  dsimp only
  rw [State.fld_setFlag_apart _ _ _ _ (Fld.apart_of_bits rfl),
    State.fld_setFld_apart _ _ _ _ (Fld.apart_of_reg (stat_ne_fofs n).symm),
    State.fld_setFlag_apart _ _ _ _ (Fld.apart_of_bits rfl), State.fld_updCand]

theorem State.clearWindow_full (s : State) (n : Nat) : (s.clearWindow n).flag (F.REF_CANDn_STAT_WINDOW_FULL n) = false := by
  unfold State.clearWindow
  dsimp only
  rw [State.flag_setFlag_apart _ _ _ _ (Fld.apart_of_bits rfl),
    State.flag_setFld_apart _ _ _ _ (Fld.apart_of_reg (stat_ne_fofs n).symm)]
  exact State.flag_setFlag _ _ _ rfl rfl

theorem State.clearWindow_samples (s : State) (n : Nat) : ((s.clearWindow n).cand n).samples = [] := by
  unfold State.clearWindow
  dsimp only
  rw [State.cand_setFlag, State.cand_setFld, State.cand_setFlag, State.cand_updCand_same]

theorem State.clearWindow_cand_ne (s : State) {n m : Nat} (h : m ≠ n) : (s.clearWindow n).cand m = s.cand m := by
  unfold State.clearWindow
  dsimp only
  rw [State.cand_setFlag, State.cand_setFld, State.cand_setFlag, State.cand_updCand_ne _ _ _ _ h.symm]

/-- A new state of a candidate writes its field, and then at most raises an interrupt. -/
theorem State.setCandState_signals (s : State) {n : Nat} (hn : n < 8) (v : Nat) :
    Signals (s.setFld (F.REF_CANDn_STAT_STATE n) v) (s.setCandState n v) := by
  unfold State.setCandState
  dsimp only
  split
  · exact Signals.refl _
  · exact State.icEdge_signals (Signals.refl _) (by omega)

theorem State.setCandState_fld (s : State) {n : Nat} (hn : n < 8) (v : Nat) {g : Fld}
    (ha : (F.REF_CANDn_STAT_STATE n).apart g = true) (hg : signalReg g.reg = false) :
    (s.setCandState n v).fld g = s.fld g := by
  rw [(s.setCandState_signals hn v).fld g hg, State.fld_setFld_apart _ _ _ _ ha]

theorem State.setCandState_candState (s : State) {n : Nat} (hn : n < 8) {v : Nat} (hv : v < 8) :
    (s.setCandState n v).candState n = v := by
  rw [State.candState, (s.setCandState_signals hn v).fld _ (candStat_signal hn)]
  exact State.fld_setFld_fits _ _ _ rfl (show v < 2 ^ 3 from hv)

theorem State.setCandState_cand (s : State) {n : Nat} (hn : n < 8) (v m : Nat) : (s.setCandState n v).cand m = s.cand m :=
  ((s.setCandState_signals hn v).cand m).trans (State.cand_setFld _ _ _ _)

theorem State.setCandState_of_change {s : State} {n v old : Nat} (h : s.candState n = old) (hv : old ≠ v) :
    s.setCandState n v = (s.setFld (F.REF_CANDn_STAT_STATE n) v).icEdge (256 + n) := by
  unfold State.setCandState
  dsimp only
  rw [h]
  exact if_neg hv

-- A candidate out of use ----------------------------------------------------------------------------------------

/-- A candidate goes to a state without a window, a time to wait or an offset: DISABLED or LOST (R290). -/
def State.candEnded (s : State) (n v cause : Nat) : State :=
  ((((s.clearWindow n).setCandState n v).setFld (F.REF_CANDn_STAT_CAUSE n) cause).setFld
    (F.REF_CANDn_STAT_LEFT n) 0).noOffset n

section
variable (s : State) {n : Nat} (hn : n < 8) {v : Nat} (cause : Nat)
include hn

/-- A field of the candidate's status outside its state, cause and time left. -/
theorem State.candEnded_fld {g : Fld} (hp : R.REF_CANDn_POFS n ≠ g.reg) (hs : (F.REF_CANDn_STAT_STATE n).apart g = true)
    (hc : (F.REF_CANDn_STAT_CAUSE n).apart g = true) (hl : (F.REF_CANDn_STAT_LEFT n).apart g = true)
    (hg : signalReg g.reg = false) : (s.candEnded n v cause).fld g = (s.clearWindow n).fld g := by
  unfold State.candEnded State.noOffset
  rw [State.fld_updCand, State.fld_setFld_apart _ _ _ _ (Fld.apart_of_reg hp), State.fld_setFld_apart _ _ _ _ hl,
    State.fld_setFld_apart _ _ _ _ hc, State.setCandState_fld _ hn _ hs hg]

theorem State.candEnded_ctl {g : Fld} (h : g.reg = R.REF_CANDn_CTL n) : (s.candEnded n v cause).fld g = s.fld g := by
  have hs : R.REF_CANDn_STAT n ≠ g.reg := by rw [h]; exact (ctl_ne_stat n).symm
  rw [s.candEnded_fld hn cause (by rw [h]; exact (ctl_ne_pofs n).symm) (Fld.apart_of_reg hs) (Fld.apart_of_reg hs)
    (Fld.apart_of_reg hs) (by rw [h]; exact candCtl_signal hn)]
  exact s.clearWindow_fld_of_reg n hs (by rw [h]; exact (ctl_ne_fofs n).symm)

theorem State.candEnded_candState (hv : v < 8) : (s.candEnded n v cause).candState n = v := by
  unfold State.candEnded State.noOffset
  rw [State.candState, State.fld_updCand, State.fld_setFld_apart _ _ _ _ (Fld.apart_of_reg (stat_ne_pofs n).symm),
    State.fld_setFld_apart _ _ _ _ (Fld.apart_of_bits rfl), State.fld_setFld_apart _ _ _ _ (Fld.apart_of_bits rfl)]
  exact State.setCandState_candState _ hn hv

omit hn in
theorem State.candEnded_cause (hc : cause < 32) : (s.candEnded n v cause).fld (F.REF_CANDn_STAT_CAUSE n) = cause := by
  unfold State.candEnded State.noOffset
  rw [State.fld_updCand, State.fld_setFld_apart _ _ _ _ (Fld.apart_of_reg (stat_ne_pofs n).symm),
    State.fld_setFld_apart _ _ _ _ (Fld.apart_of_bits rfl)]
  exact State.fld_setFld_fits _ _ _ rfl (show cause < 2 ^ 5 from hc)

omit hn in
theorem State.candEnded_left : (s.candEnded n v cause).fld (F.REF_CANDn_STAT_LEFT n) = 0 := by
  unfold State.candEnded State.noOffset
  rw [State.fld_updCand, State.fld_setFld_apart _ _ _ _ (Fld.apart_of_reg (stat_ne_pofs n).symm)]
  exact State.fld_setFld_fits _ _ _ rfl (show 0 < 2 ^ 16 by decide)

omit hn in
theorem State.candEnded_candOffset : (s.candEnded n v cause).candOffset n = none := by
  unfold State.candEnded State.noOffset State.candOffset
  rw [State.cand_updCand_same]
  exact ite_self _

theorem State.candEnded_samples : ((s.candEnded n v cause).cand n).samples = [] := by
  unfold State.candEnded State.noOffset
  rw [State.cand_updCand_same, State.cand_setFld, State.cand_setFld, State.cand_setFld, State.setCandState_cand _ hn]
  exact s.clearWindow_samples n

theorem State.candEnded_cand_ne {m : Nat} (h : m ≠ n) : (s.candEnded n v cause).cand m = s.cand m := by
  unfold State.candEnded State.noOffset
  rw [State.cand_updCand_ne _ _ _ _ h.symm, State.cand_setFld, State.cand_setFld, State.cand_setFld,
    State.setCandState_cand _ hn, s.clearWindow_cand_ne h]

theorem State.candEnded_fofs : (s.candEnded n v cause).fofs n = none := by
  have hfull : (s.candEnded n v cause).flag (F.REF_CANDn_STAT_WINDOW_FULL n) = false :=
    (flag_congr (s.candEnded_fld hn cause (stat_ne_pofs n).symm (Fld.apart_of_bits rfl) (Fld.apart_of_bits rfl)
      (Fld.apart_of_bits rfl) (candStat_signal hn))).trans (s.clearWindow_full n)
  unfold State.fofs
  rw [hfull]
  rfl

end

-- Loss and return -----------------------------------------------------------------------------------------------

/-- An edge-driven candidate has lost its edges, and a pulse candidate its pulses (R284). -/
theorem State.lossHolds_of {s : State} {n : Nat}
    (h : n < 2 ∨ n < 4 ∧ (s.cand n).lastSample + 1000100000 ≤ s.time.clock) : s.lossHolds n = true := by
  unfold State.lossHolds
  rw [if_neg (by omega), if_neg (by omega), if_neg (by omega)]
  split
  · rfl
  · rw [decide_eq_true (by omega), Bool.true_or]

theorem execCandidateLost_of {n : Fin 8} {s : State}
    (h : n.val < 2 ∨ n.val < 4 ∧ (s.cand n).lastSample + 1000100000 ≤ s.time.clock) (hq : s.candState n = 3)
    (hsel : s.selected ≠ n.val) : exec (.candidateLost n) s = .next (s.candEnded n.val 1 1) := by
  have hgo : ¬ (s.candState n = 0 ∨ s.candState n = 1 ∨ (!s.lossHolds n) = true) := by
    rw [State.lossHolds_of h, hq]
    decide
  rw [exec_candidateLost, execCandidateLost]
  dsimp only
  rw [if_neg hgo, if_neg hsel]
  rfl

theorem State.reverses_of_none {s : State} (h : s.ref.lost = none) (n : Nat) (o : Int) : s.reverses n o = false := by
  unfold State.reverses
  rw [h]

/-- A candidate that returns with no dissolve to reverse begins to qualify. -/
theorem execCandidateReturn_of {n : Fin 8} {o : Int} {s : State} (hst : s.candState n = 1) (hl : s.ref.lost = none)
    (he : s.lossEnded n = true) :
    exec (.candidateReturn n o) s =
      .next (if isTimeCand n.val then (s.startQualifying n).showOffset n o else s.startQualifying n) := by
  rw [exec_candidateReturn, execCandidateReturn]
  dsimp only
  rw [if_neg (by rw [hst, he]; decide), State.reverses_of_none hl, if_neg Bool.false_ne_true]

-- The control word ----------------------------------------------------------------------------------------------

theorem bitsOf_of_testBit_false {x k : Nat} (h : x.testBit k = false) : bitsOf x k 1 = 0 := by
  rw [Nat.testBit_eq_decide_div_mod_eq] at h
  have := of_decide_eq_false h
  unfold bitsOf
  omega

theorem fld_ite_of {p : Prop} [Decidable p] {a b : State} {g : Fld} {x : Nat} (ha : a.fld g = x) (hb : b.fld g = x) :
    (if p then a else b).fld g = x := by
  split
  · exact ha
  · exact hb

/-- A control word with EN 0 takes its other fields and ends the candidate. -/
theorem State.writeCandCtl_of_disable (s : State) {n : Nat} (hn : n < 8) {v : Word} (hv : v.toNat.testBit 31 = false) :
    ∃ u : State, s.writeCandCtl n v = u.candEnded n 0 0 ∧ u.fld (F.REF_CANDn_CTL_PRIO n) = bitsOf v.toNat 26 4
      ∧ u.fld (F.REF_CANDn_CTL_EN n) = 0 := by
  have hen : bitsOf v.toNat 31 1 = 0 := bitsOf_of_testBit_false hv
  unfold State.writeCandCtl
  extract_lets b s1 s2 s3 s4 s5 s6
  have h1 : s1.fld (F.REF_CANDn_CTL_PRIO n) = bitsOf b 26 4 :=
    State.fld_setFld_fits _ _ _ rfl (Nat.mod_lt _ (Nat.two_pow_pos 4))
  have hset : ∀ (t : State) (f : Fld) (x : Nat), f.apart (F.REF_CANDn_CTL_PRIO n) = true →
      t.fld (F.REF_CANDn_CTL_PRIO n) = bitsOf b 26 4 →
      (t.setFld f x).fld (F.REF_CANDn_CTL_PRIO n) = bitsOf b 26 4 := fun t f x hf ht => by
    rw [State.fld_setFld_apart _ _ _ _ hf, ht]
  have h2 : s2.fld (F.REF_CANDn_CTL_PRIO n) = bitsOf b 26 4 := fld_ite_of (hset _ _ _ (Fld.apart_of_bits rfl) h1) h1
  have h3 : s3.fld (F.REF_CANDn_CTL_PRIO n) = bitsOf b 26 4 := fld_ite_of (hset _ _ _ (Fld.apart_of_bits rfl) h2) h2
  have h4 : s4.fld (F.REF_CANDn_CTL_PRIO n) = bitsOf b 26 4 := fld_ite_of (hset _ _ _ (Fld.apart_of_bits rfl) h3) h3
  have h5 : s5.fld (F.REF_CANDn_CTL_PRIO n) = bitsOf b 26 4 :=
    fld_ite_of (fld_ite_of (((State.logEvent_signals (Signals.refl s4) _ _ _).fld _ (candCtl_signal hn)).trans h4)
      (hset _ _ _ (Fld.apart_of_bits rfl) h4)) h4
  refine ⟨s6, if_pos hen, hset _ _ _ (Fld.apart_of_bits rfl) h5, ?_⟩
  exact (State.fld_setFld_fits _ _ _ rfl (Nat.mod_lt _ (Nat.two_pow_pos 1))).trans hen

-- Samples, pulses and messages ----------------------------------------------------------------------------------

theorem State.offsetSample_of_off {s : State} {n : Nat} (h : s.candState n = 0 ∨ s.candState n = 1) (o : Int) :
    s.offsetSample n o = s.updCand n fun c => { c with lastSample := s.time.clock } := if_pos h

theorem State.offsetSample_of_on {s : State} {n : Nat} (h0 : s.candState n ≠ 0) (h1 : s.candState n ≠ 1) (o : Int) :
    s.offsetSample n o =
      ((s.updCand n fun c => { c with lastSample := s.time.clock }).showOffset n o).phaseSample n (o + s.tbPhase) :=
  if_neg (not_or.mpr ⟨h0, h1⟩)

/-- A change of a candidate hangs on the candidate alone. -/
theorem State.updCand_congr {s : State} {n : Nat} {f g : Cand → Cand} (h : f (s.cand n) = g (s.cand n)) :
    s.updCand n f = s.updCand n g := by
  have h' : f (Tbl.get (fun _ => {}) s.ref.cands n) = g (Tbl.get (fun _ => {}) s.ref.cands n) := h
  unfold State.updCand State.updRef
  dsimp only
  rw [h']

/-- A qualified pulse where none waits for its message. -/
theorem execPpsIn_of_no_pulse {b : Bool} {c : BitVec 72} {hi : Nat} {s : State} (hh : 300 ≤ hi)
    (hp : (s.cand (if b then 3 else 2)).pulse = none) :
    exec (.ppsIn b c hi) s =
      .next (((s.updCand (if b then 3 else 2) fun x => { x with
        pulse := some ((c.toNat : Int) - s.fldI (F.REF_CANDn_DLY_DLY (if b then 3 else 2))), pulseAt := s.time.clock
        todMiss := 0, lastSample := s.time.clock }).icEdge (272 + b.toNat)).pulseSample (if b then 3 else 2)
          ((c.toNat : Int) - s.fldI (F.REF_CANDn_DLY_DLY (if b then 3 else 2)))) := by
  rw [exec_ppsIn, execPpsIn, if_neg (Nat.not_lt.mpr hh)]
  dsimp only
  generalize (if b then 3 else 2) = n at hp ⊢
  rw [hp, Option.isSome_none, if_neg Bool.false_ne_true, if_neg (by omega)]
  rw [State.updCand_congr (s := s) (n := n) (g := fun x => { x with
    pulse := some ((c.toNat : Int) - s.fldI (F.REF_CANDn_DLY_DLY n)), pulseAt := s.time.clock
    todMiss := 0, lastSample := s.time.clock }) (by rw [hp]; rfl)]

theorem execTodMessage_of_time {b : Bool} {d sec : Nat} {s : State} {stamp : Int}
    (hp : ((s.icEdge (274 + b.toNat)).cand (if b then 3 else 2)).pulse = some stamp) (hl : 1000 ≤ d) (hr : d ≤ 500000)
    (h0 : (s.icEdge (274 + b.toNat)).candState (if b then 3 else 2) ≠ 0)
    (h1 : (s.icEdge (274 + b.toNat)).candState (if b then 3 else 2) ≠ 1) :
    exec (.todMessage b d (some sec)) s =
      .next (((s.icEdge (274 + b.toNat)).updCand (if b then 3 else 2) fun c => { c with
        pulse := none, todMiss := 0, todRun := c.todRun + 1 }).showOffset (if b then 3 else 2)
          ((sec : Int) * 256000000000 - stamp)) := by
  rw [exec_todMessage]
  unfold execTodMessage
  dsimp only
  rw [hp]
  dsimp only
  rw [if_neg (by omega)]
  exact congrArg _ (if_neg (not_or.mpr ⟨h0, h1⟩))

/-- Settles O47: a candidate is lost, returns, ends and takes samples as its state and its input ask. -/
theorem candidates : Obligations.Candidates := by
  unfold Obligations.Candidates
  intro n s
  refine ⟨fun h hq hsel => Completes.intro (execCandidateLost_of h hq hsel)
      ⟨s.candEnded_candState n.isLt 1 (by decide), s.candEnded_cause 1 (by decide), s.candEnded_left 1,
        s.candEnded_candOffset 1, s.candEnded_samples n.isLt 1, s.candEnded_fofs n.isLt 1,
        fun m hm => s.candEnded_cand_ne n.isLt 1 hm⟩,
    fun h => ?notLost, fun o h => ?notBack, fun o hst hl hn => ?edgesBack, fun o hst hl hn hh => ?timeBack,
    fun hst hl => ?restored, fun hst => ?notWaiting, fun v hv => ?disabled, fun v h => ?sampleOff, fun v h0 h1 => ?sampleOn,
    fun b c hi h => ?shortPulse, fun b c hi hh hp => execPpsIn_of_no_pulse hh hp, fun b d hp => ?badMessage,
    fun b d sec stamp hp hl hr h0 h1 => execTodMessage_of_time hp hl hr h0 h1⟩
  case notLost =>
    rw [exec_candidateLost, execCandidateLost]
    refine if_pos ?_
    rcases h with h | h | h
    · exact Or.inl h
    · exact Or.inr (Or.inl h)
    · exact Or.inr (Or.inr (by rw [h]; rfl))
  case notBack =>
    rw [exec_candidateReturn, execCandidateReturn]
    exact if_pos (h.imp_right fun h => by rw [h]; rfl)
  case edgesBack =>
    have he : s.lossEnded n = true := by
      rw [State.lossEnded, decide_eq_true (by omega), Bool.true_or]
    rw [execCandidateReturn_of hst hl he]
    exact congrArg _ (if_neg (by rw [isTimeCand, decide_eq_false (by omega)]; exact Bool.false_ne_true))
  case timeBack =>
    have he : s.lossEnded n = true := by
      rw [State.lossEnded, hh, Bool.not_false, Bool.or_true]
    rw [execCandidateReturn_of hst hl he]
    exact congrArg _ (if_pos (decide_eq_true hn))
  case restored =>
    rw [exec_wtrExpiry, execWtrExpiry]
    rw [if_pos ⟨hst, hl⟩, State.setCandState_of_change hst (by decide)]
  case notWaiting =>
    rw [exec_wtrExpiry, execWtrExpiry]
    exact congrArg _ (if_neg fun h => hst h.1)
  case disabled =>
    obtain ⟨u, hu, hprio, hen⟩ := s.writeCandCtl_of_disable n.isLt hv
    have h : exec (.refCandnCtlWrite n v) s = .next (u.candEnded n.val 0 0) := by
      rw [exec_refCandnCtlWrite, execRefCandnCtlWrite, hu]
    exact Completes.intro h ⟨u.candEnded_candState n.isLt 0 (by decide), (u.candEnded_ctl n.isLt 0 rfl).trans hprio,
      (u.candEnded_ctl n.isLt 0 rfl).trans hen, u.candEnded_candOffset 0, u.candEnded_fofs n.isLt 0⟩
  case sampleOff => rw [exec_refPtpSample, execRefPtpSample, State.writePtpSample, State.offsetSample_of_off h]
  case sampleOn => rw [exec_refPtpSample, execRefPtpSample, State.writePtpSample, State.offsetSample_of_on h0 h1]
  case shortPulse =>
    rw [exec_ppsIn, execPpsIn]
    exact if_pos h
  case badMessage => rw [exec_todMessage, execTodMessage]

end Sys2Proof.Machine
end


section
/-!
PROOFS. Doorbells, polls, held completions and coalescing (R325 to R327, R337, R338, R352).
-/
namespace Sys2Proof.Machine
open Sys2Proof

-- Fetches -------------------------------------------------------------------------------------------------------

theorem execHifHostKick_of_served {s : State} (f : DoorbellFetch) (hr : (s.icEdge 33).fwRuns = true)
    (hd : (s.icEdge 33).hif.d3hot = false) : exec (.hifHostKick f) s = .next ((s.icEdge 33).doorbell f) := by
  rw [exec_hifHostKick, execHifHostKick]
  exact congrArg _ (if_pos (by rw [hr, hd]; rfl))

theorem execHifHostKick_of_no_fw {s : State} (f : DoorbellFetch) (hr : (s.icEdge 33).fwRuns = false) :
    exec (.hifHostKick f) s = .next ((s.icEdge 33).updHif fun h => { h with kickHeld := true }) := by
  rw [exec_hifHostKick, execHifHostKick]
  exact congrArg _ (if_neg (by rw [hr]; exact Bool.false_ne_true))

theorem execDoorbellPoll_of_served {s : State} (f : DoorbellFetch) (hp : s.fld F.HIF_POLL_US ≠ 0) (hr : s.fwRuns = true)
    (hd : s.hif.d3hot = false) : exec (.doorbellPoll f) s = .next (s.doorbell f) := by
  rw [exec_doorbellPoll, execDoorbellPoll]
  exact congrArg _ (if_pos ⟨hp, hr, by rw [hd]; rfl⟩)

theorem execDoorbellPoll_of_not_served {s : State} (f : DoorbellFetch)
    (h : s.fld F.HIF_POLL_US = 0 ∨ s.fwRuns = false ∨ s.hif.d3hot = true) : exec (.doorbellPoll f) s = .next s := by
  rw [exec_doorbellPoll, execDoorbellPoll]
  refine congrArg _ (if_neg ?_)
  rintro ⟨hp, hr, hd⟩
  rcases h with h | h | h
  · exact hp h
  · exact Bool.false_ne_true (h.symm.trans hr)
  · rw [h] at hd
    exact Bool.false_ne_true hd

theorem execHandleCloseRefetch_of_due {s : State} (f : DoorbellFetch) (hf : s.hif.fetchHeld = true) (ho : s.openCount < 1024)
    (hr : s.fwRuns = true) (hd : s.hif.d3hot = false) : exec (.handleCloseRefetch f) s = .next (s.doorbell f) := by
  rw [exec_handleCloseRefetch, execHandleCloseRefetch]
  exact congrArg _ (if_pos (by rw [hf, decide_eq_true ho, hr, hd]; rfl))

theorem execHandleCloseRefetch_of_not_due {s : State} (f : DoorbellFetch) (hf : s.hif.fetchHeld = false)
    (hk : s.hif.kickHeld = false) : exec (.handleCloseRefetch f) s = .next s := by
  rw [exec_handleCloseRefetch, execHandleCloseRefetch]
  exact congrArg _ (if_neg (by rw [hf, hk]; exact Bool.false_ne_true))

-- Held completions ----------------------------------------------------------------------------------------------

theorem State.drainHeld_of_none {s : State} {k : Nat} (h : s.cqHeldOf k = []) (fuel : Nat) : State.drainHeld fuel s k = s := by
  cases fuel with
  | zero => rfl
  | succ fuel => rw [State.drainHeld, h]

/-- A ring without room, or a function in D3hot, takes none. -/
theorem State.drainHeld_of_closed {s : State} {k : Nat} (h : s.cqRoom k = false ∨ s.hif.d3hot = true) (fuel : Nat) :
    State.drainHeld fuel s k = s := by
  have hgo : ¬ (s.cqRoom k && !s.hif.d3hot) = true := by
    rcases h with h | h
    · rw [h]
      exact Bool.false_ne_true
    · rw [h, Bool.not_true, Bool.and_false]
      exact Bool.false_ne_true
  cases fuel with
  | zero => rfl
  | succ fuel =>
    rw [State.drainHeld]
    cases s.cqHeldOf k with
    | nil => rfl
    | cons c rest => exact if_neg hgo

theorem State.drainHeld_of_one {s : State} {k : Nat} {c : Completion} (h : s.cqHeldOf k = [c]) (hr : s.cqRoom k = true)
    (hd : s.hif.d3hot = false) : State.drainHeld (s.cqHeldOf k).length s k = (s.setHeld k []).cqWrite k c := by
  rw [h, List.length_singleton, State.drainHeld, h]
  exact if_pos (by rw [hr, hd]; rfl)

-- Signals that waited -------------------------------------------------------------------------------------------

/-- A lapsed coalescing time signals an unmasked vector once. -/
theorem execCoalesceTimeout_of_unsignalled {s : State} {k : Fin 16} (hu : Tbl.get (fun _ => 0) s.hif.cqUnsig k.val ≠ 0) :
    exec (.coalesceTimeout (some k)) s =
      .next ((s.updHif fun h => { h with cqUnsig := Tbl.put (fun _ => 0) h.cqUnsig k.val 0 }).msix
        (s.fld (F.HIF_CQ_CTL_VECTOR k.val))) := by
  rw [exec_coalesceTimeout, execCoalesceTimeout]
  exact congrArg _ (if_neg hu)

theorem State.msix_of_unmasked {s : State} {v : Nat} (h : s.flag (F.HIF_MSIX_VCTL_MASK v) = false) :
    s.msix v = s.updHif fun h =>
      { h with msixSent := Tbl.put (fun _ => 0) h.msixSent v (Tbl.get (fun _ => 0) h.msixSent v + 1) } := by
  rw [State.msix]
  exact if_neg (by rw [h]; exact Bool.false_ne_true)

theorem execCoalesceTimeout_completes {s : State} {k : Fin 16} (hu : Tbl.get (fun _ => 0) s.hif.cqUnsig k.val ≠ 0)
    (hm : s.flag (F.HIF_MSIX_VCTL_MASK (s.fld (F.HIF_CQ_CTL_VECTOR k))) = false) :
    Completes (.coalesceTimeout (some k)) s fun t =>
      Tbl.get (fun _ => 0) t.hif.cqUnsig k.val = 0 ∧ t.regs = s.regs
      ∧ Tbl.get (fun _ => 0) t.hif.msixSent (s.fld (F.HIF_CQ_CTL_VECTOR k)) =
        Tbl.get (fun _ => 0) s.hif.msixSent (s.fld (F.HIF_CQ_CTL_VECTOR k)) + 1 := by
  have h := execCoalesceTimeout_of_unsignalled hu
  rw [State.msix_of_unmasked (by rw [State.flag_updHif]; exact hm)] at h
  refine Completes.intro h ⟨?_, rfl, ?_⟩
  · rw [State.updHif_hif, State.updHif_hif, Tbl.get_put_same]
  · rw [State.updHif_hif, State.updHif_hif, Tbl.get_put_same]

theorem State.reportLost_of_room {s : State} (hk : 0 < s.hif.evMissed) (hr : s.evRoom = true) (hd : s.hif.d3hot = false) :
    s.reportLost =
      (s.updHif fun h => { h with evMissed := 0 }).logEvent Ev.EVENT_LOST noSource (leBytes 4 s.hif.evMissed) :=
  if_pos ⟨hk, hr, by rw [hd]; rfl⟩

/-- Settles O48: each doorbell, poll and timer of the host interface is served on its conditions. -/
theorem hostDoorbell : Obligations.HostDoorbell := by
  unfold Obligations.HostDoorbell
  intro s f
  refine ⟨fun _ _ hr => execHifHostKick_of_no_fw f hr, fun hr hd => execHifHostKick_of_served f hr hd,
    fun hp hr hd => execDoorbellPoll_of_served f hp hr hd, fun h => execDoorbellPoll_of_not_served f h,
    fun hf ho hr hd => execHandleCloseRefetch_of_due f hf ho hr hd, fun hf hk => execHandleCloseRefetch_of_not_due f hf hk,
    fun k h => ?noneHeld, fun k c h hr hd => ?oneHeld, fun k h => ?noRoom, fun k h => ?allSignalled,
    fun k hu hm => execCoalesceTimeout_completes hu hm, fun h => ?eventsSignalled, fun h => ?eventsWait, fun h => ?noneLost,
    fun hk hr hd => ?lost⟩
  case noneHeld => rw [exec_heldCompletionWrite, execHeldCompletionWrite, State.drainHeld_of_none h]
  case oneHeld => rw [exec_heldCompletionWrite, execHeldCompletionWrite, State.drainHeld_of_one h hr hd]
  case noRoom => rw [exec_heldCompletionWrite, execHeldCompletionWrite, State.drainHeld_of_closed h]
  case allSignalled =>
    rw [exec_coalesceTimeout, execCoalesceTimeout]
    exact congrArg _ (if_pos h)
  case eventsSignalled =>
    rw [exec_coalesceTimeout, execCoalesceTimeout]
    exact congrArg _ (if_pos h)
  case eventsWait =>
    rw [exec_coalesceTimeout, execCoalesceTimeout]
    exact congrArg _ (if_neg h)
  case noneLost =>
    rw [exec_eventLost, execEventLost, State.reportLost]
    exact congrArg _ (if_neg fun hk => absurd h (Nat.ne_of_gt hk.1))
  case lost => rw [exec_eventLost, execEventLost, State.reportLost_of_room hk hr hd]

end Sys2Proof.Machine
end


section
/-!
PROOFS. The registers of the rings, and a link reset (R319, R320, R344).
-/
namespace Sys2Proof.Machine
open Sys2Proof

-- The registers of the rings ------------------------------------------------------------------------------------

theorem crCtl_ne_crStat (n m : Nat) : R.HIF_CR_CTL n ≠ R.HIF_CR_STAT m := by
  show 0x600108 + 0x10 * n ≠ 0x60010c + 0x10 * m
  omega

theorem crCtl_ne_cqCtl {n : Nat} (hn : n < 16) (m : Nat) : R.HIF_CR_CTL n ≠ R.HIF_CQ_CTL m := by
  show 0x600108 + 0x10 * n ≠ 0x600208 + 0x10 * m
  omega

theorem crStat_ne_cqCtl (n m : Nat) : R.HIF_CR_STAT n ≠ R.HIF_CQ_CTL m := by
  show 0x60010c + 0x10 * n ≠ 0x600208 + 0x10 * m
  omega

theorem crCtl_ne_err (n : Nat) : R.HIF_CR_CTL n ≠ R.HIF_ERR := by
  show 0x600108 + 0x10 * n ≠ 0x60000c
  omega

theorem crStat_ne_err (n : Nat) : R.HIF_CR_STAT n ≠ R.HIF_ERR := by
  show 0x60010c + 0x10 * n ≠ 0x60000c
  omega

theorem crCtl_ne_state (n : Nat) : R.HIF_CR_CTL n ≠ R.HIF_STATE := by
  show 0x600108 + 0x10 * n ≠ 0x600000
  omega

theorem cqCtl_ne_cqStat (n m : Nat) : R.HIF_CQ_CTL n ≠ R.HIF_CQ_STAT m := by
  show 0x600208 + 0x10 * n ≠ 0x60020c + 0x10 * m
  omega

theorem cqCtl_ne_err (n : Nat) : R.HIF_CQ_CTL n ≠ R.HIF_ERR := by
  show 0x600208 + 0x10 * n ≠ 0x60000c
  omega

-- The bits of a written word ------------------------------------------------------------------------------------

theorem testBit_or_top (v : Word) : (v ||| 0x80000000#32).toNat.testBit 31 = true := by
  rw [BitVec.toNat_or, Nat.testBit_or]
  exact Bool.or_true _

theorem testBit_or_low (v : Word) : (v ||| 0x80000000#32).toNat.testBit 30 = v.toNat.testBit 30 := by
  rw [BitVec.toNat_or, Nat.testBit_or]
  exact Bool.or_false _

theorem bitsOf_or_low (v : Word) : bitsOf (v ||| 0x80000000#32).toNat 24 4 = bitsOf v.toNat 24 4 := by
  unfold bitsOf
  rw [BitVec.toNat_or, Nat.shiftRight_or_distrib, Nat.or_mod_two_pow]
  exact Nat.or_zero _

theorem testBit_and_low (v : Word) : (v &&& 0x7FFFFFFF#32).toNat.testBit 31 = false := by
  rw [BitVec.toNat_and, Nat.testBit_and]
  exact Bool.and_false _

-- Command rings -------------------------------------------------------------------------------------------------

/-- A disabled ring takes all fields of its control word. -/
def State.crTaken (s : State) (n v : Nat) : State :=
  ((s.setFlag (F.HIF_CR_CTL_URGENT n) (v.testBit 30)).setFld (F.HIF_CR_CTL_CQ n) (bitsOf v 24 4)).setFld
    (F.HIF_CR_CTL_SIZE_LOG2 n) v

section
variable (s : State) {n : Nat} (v : Nat)

theorem State.crTaken_fld_of_reg {g : Fld} (h : R.HIF_CR_CTL n ≠ g.reg) : (s.crTaken n v).fld g = s.fld g := by
  unfold State.crTaken
  rw [State.fld_setFld_apart _ _ _ _ (Fld.apart_of_reg h), State.fld_setFld_apart _ _ _ _ (Fld.apart_of_reg h),
    State.fld_setFlag_apart _ _ _ _ (Fld.apart_of_reg h)]

theorem State.crTaken_hif : (s.crTaken n v).hif = s.hif := by
  rw [State.crTaken, State.setFld_hif, State.setFld_hif, State.setFlag_hif]

theorem State.crTaken_cq : (s.crTaken n v).fld (F.HIF_CR_CTL_CQ n) = bitsOf v 24 4 := by
  unfold State.crTaken
  rw [State.fld_setFld_apart _ _ _ _ (Fld.apart_of_bits rfl)]
  exact State.fld_setFld_fits _ _ _ rfl (Nat.mod_lt _ (Nat.two_pow_pos 4))

theorem State.crTaken_urgent : (s.crTaken n v).flag (F.HIF_CR_CTL_URGENT n) = v.testBit 30 := by
  unfold State.crTaken
  rw [State.flag_setFld_apart _ _ _ _ (Fld.apart_of_bits rfl), State.flag_setFld_apart _ _ _ _ (Fld.apart_of_bits rfl)]
  exact State.flag_setFlag _ _ _ rfl rfl

end

/-- A ring that is enabled from DISABLED starts where its completion ring is enabled, and is refused otherwise. -/
theorem State.writeCrCtl_of_start {s : State} {n : Nat} (hn : n < 16) {v : Word} (hst : s.fld (F.HIF_CR_STAT_STATE n) = 0)
    (hv : v.toNat.testBit 31 = true) (hm : s.isMailbox n = false) :
    s.writeCrCtl n v = if s.flag (F.HIF_CQ_CTL_EN (bitsOf v.toNat 24 4)) then (s.crTaken n v.toNat).enableCr n
      else (s.crTaken n v.toNat).refuseRing n := by
  have hmbx : (s.crTaken n v.toNat).isMailbox n = false := by
    rw [State.isMailbox, flag_congr (s.crTaken_fld_of_reg _ (crCtl_ne_state n))]
    exact hm
  have hcq : (s.crTaken n v.toNat).flag (F.HIF_CQ_CTL_EN ((s.crTaken n v.toNat).fld (F.HIF_CR_CTL_CQ n))) =
      s.flag (F.HIF_CQ_CTL_EN (bitsOf v.toNat 24 4)) := by
    rw [s.crTaken_cq]
    exact flag_congr (s.crTaken_fld_of_reg _ (crCtl_ne_cqCtl hn _))
  have hgo : ((s.crTaken n v.toNat).isMailbox n
      || !(s.crTaken n v.toNat).flag (F.HIF_CQ_CTL_EN ((s.crTaken n v.toNat).fld (F.HIF_CR_CTL_CQ n)))) =
      !s.flag (F.HIF_CQ_CTL_EN (bitsOf v.toNat 24 4)) := by
    rw [hmbx, hcq, Bool.false_or]
  unfold State.writeCrCtl
  dsimp only
  rw [hst, if_pos (Or.inl rfl), if_pos hv, if_pos rfl]
  have hfold : ((s.setFlag (F.HIF_CR_CTL_URGENT n) (v.toNat.testBit 30)).setFld (F.HIF_CR_CTL_CQ n)
      (bitsOf v.toNat 24 4)).setFld (F.HIF_CR_CTL_SIZE_LOG2 n) v.toNat = s.crTaken n v.toNat := rfl
  rw [hfold]
  rw [hgo]
  cases s.flag (F.HIF_CQ_CTL_EN (bitsOf v.toNat 24 4)) with
  | false => exact (if_pos rfl).trans (if_neg Bool.false_ne_true).symm
  | true => exact (if_neg Bool.false_ne_true).trans (if_pos rfl).symm

theorem State.enableCr_fields (s : State) (n : Nat) :
    (s.enableCr n).flag (F.HIF_CR_CTL_EN n) = true ∧ (s.enableCr n).fld (F.HIF_CR_STAT_STATE n) = 1 ∧
      Tbl.get (fun _ => 0) (s.enableCr n).hif.crCons n = 0 ∧
      (s.enableCr n).fld (F.HIF_CR_CTL_CQ n) = s.fld (F.HIF_CR_CTL_CQ n) ∧
      (s.enableCr n).flag (F.HIF_CR_CTL_URGENT n) = s.flag (F.HIF_CR_CTL_URGENT n) := by
  unfold State.enableCr
  dsimp only
  refine ⟨?_, ?_, ?_, ?_, ?_⟩
  · rw [State.flag_updHif, State.flag_setFld_apart _ _ _ _ (Fld.apart_of_reg (crCtl_ne_crStat n n).symm)]
    exact State.flag_setFlag _ _ _ rfl rfl
  · rw [State.fld_updHif]
    exact State.fld_setFld_fits _ _ _ rfl (show 1 < 2 ^ 2 by decide)
  · rw [State.updHif_hif, Tbl.get_put_same]
  · rw [State.fld_updHif, State.fld_setFld_apart _ _ _ _ (Fld.apart_of_reg (crCtl_ne_crStat n n).symm),
      State.fld_setFlag_apart _ _ _ _ (Fld.apart_of_bits rfl)]
  · rw [State.flag_updHif, State.flag_setFld_apart _ _ _ _ (Fld.apart_of_reg (crCtl_ne_crStat n n).symm),
      State.flag_setFlag_apart _ _ _ _ (Fld.apart_of_bits rfl)]

theorem State.refuseRing_fields (s : State) {n : Nat} (hn : n < 16) :
    (s.refuseRing n).flag F.HIF_ERR_RING_REFUSED = true ∧ (s.refuseRing n).fld F.HIF_ERR_RING = n ∧
      (s.refuseRing n).hif = s.hif := by
  unfold State.refuseRing
  refine ⟨?_, State.fld_setFld_fits _ _ _ rfl (show n < 2 ^ 4 from hn), ?_⟩
  · rw [State.flag_setFld_apart _ _ _ _ (Fld.apart_of_bits rfl)]
    exact State.flag_setFlag _ _ _ rfl rfl
  · rw [State.setFld_hif, State.setFlag_hif]

/-- A refusal is shown in HIF_ERR alone. -/
theorem State.refuseRing_fld_of_reg (s : State) (n : Nat) {g : Fld} (h : R.HIF_ERR ≠ g.reg) :
    (s.refuseRing n).fld g = s.fld g := by
  rw [State.refuseRing, State.fld_setFld_apart _ _ _ _ (Fld.apart_of_reg h), State.fld_setFlag_apart _ _ _ _ (Fld.apart_of_reg h)]

/-- A draining ring remembers an enable. -/
theorem State.writeCrCtl_of_draining {s : State} {n : Nat} {v : Word} (hst : s.fld (F.HIF_CR_STAT_STATE n) = 2)
    (hv : v.toNat.testBit 31 = true) :
    s.writeCrCtl n v = (s.setFlag (F.HIF_CR_CTL_URGENT n) (v.toNat.testBit 30)).updHif fun h =>
      { h with crEnHeld := Tbl.put (fun _ => false) h.crEnHeld n true } := by
  unfold State.writeCrCtl
  dsimp only
  rw [hst, if_neg (c := (2 = 0 ∨ 2 = 3)) (by decide), if_pos hv, if_neg (c := 2 = 0) (by decide)]
  exact if_pos rfl

theorem State.ringBusy_congr {s t : State} {n : Nat} (h : t.hif.handles = s.hif.handles) : t.ringBusy n = s.ringBusy n := by
  rw [State.ringBusy, State.ringBusy, h]

/-- An enabled ring ends at once without open handles, and drains otherwise. -/
theorem State.writeCrCtl_of_end {s : State} {n : Nat} {v : Word} (hst : s.fld (F.HIF_CR_STAT_STATE n) = 1)
    (hv : v.toNat.testBit 31 = false) :
    s.writeCrCtl n v = ((((s.setFlag (F.HIF_CR_CTL_URGENT n) (v.toNat.testBit 30)).setFlag (F.HIF_CR_CTL_EN n)
      false).updHif fun h => { h with crEnHeld := Tbl.put (fun _ => false) h.crEnHeld n false }).setFld
        (F.HIF_CR_STAT_STATE n) (if s.ringBusy n then 2 else 0)) := by
  unfold State.writeCrCtl
  dsimp only
  rw [hst, if_neg (c := (1 = 0 ∨ 1 = 3)) (by decide), if_neg (c := v.toNat.testBit 31 = true) (by rw [hv]; decide),
    if_neg (c := 1 = 0) (by decide), State.ringBusy_congr (s := s) (by
      rw [State.updHif_hif, State.setFlag_hif, State.setFlag_hif])]

theorem execDrainEnd_of_free {s : State} {n : Fin 16} (hst : s.fld (F.HIF_CR_STAT_STATE n) = 2) (hb : s.ringBusy n = false)
    (hh : Tbl.get (fun _ => false) s.hif.crEnHeld n.val = false) :
    exec (.drainEnd n) s = .next (s.setFld (F.HIF_CR_STAT_STATE n) 0) := by
  rw [exec_drainEnd, execDrainEnd]
  dsimp only
  rw [if_neg (by rw [hst, hb]; decide), hh]
  rfl

-- Completion rings and the event ring ---------------------------------------------------------------------------

/-- A completion ring takes its vector and its coalescing. -/
def State.cqTaken (s : State) (k v : Nat) : State :=
  ((s.setFld (F.HIF_CQ_CTL_VECTOR k) (bitsOf v 24 6)).setFld (F.HIF_CQ_CTL_COAL_N k) (bitsOf v 16 8)).setFld
    (F.HIF_CQ_CTL_COAL_US k) (bitsOf v 6 10)

theorem State.cqTaken_vector (s : State) (k v : Nat) : (s.cqTaken k v).fld (F.HIF_CQ_CTL_VECTOR k) = bitsOf v 24 6 := by
  unfold State.cqTaken
  rw [State.fld_setFld_apart _ _ _ _ (Fld.apart_of_bits rfl), State.fld_setFld_apart _ _ _ _ (Fld.apart_of_bits rfl)]
  exact State.fld_setFld_fits _ _ _ rfl (Nat.mod_lt _ (Nat.two_pow_pos 6))

theorem State.cqTaken_fld_of_reg (s : State) (k v : Nat) {g : Fld} (h : R.HIF_CQ_CTL k ≠ g.reg) :
    (s.cqTaken k v).fld g = s.fld g := by
  unfold State.cqTaken
  rw [State.fld_setFld_apart _ _ _ _ (Fld.apart_of_reg h), State.fld_setFld_apart _ _ _ _ (Fld.apart_of_reg h),
    State.fld_setFld_apart _ _ _ _ (Fld.apart_of_reg h)]

theorem State.cqTaken_en (s : State) (k v : Nat) : (s.cqTaken k v).flag (F.HIF_CQ_CTL_EN k) = s.flag (F.HIF_CQ_CTL_EN k) := by
  unfold State.cqTaken
  rw [State.flag_setFld_apart _ _ _ _ (Fld.apart_of_bits rfl), State.flag_setFld_apart _ _ _ _ (Fld.apart_of_bits rfl),
    State.flag_setFld_apart _ _ _ _ (Fld.apart_of_bits rfl)]

theorem State.cqTaken_hif (s : State) (k v : Nat) : (s.cqTaken k v).hif = s.hif := by
  rw [State.cqTaken, State.setFld_hif, State.setFld_hif, State.setFld_hif]

/-- The completion ring started: enabled, with its indices 0 and its phase 1. -/
def State.cqStarted (s : State) (k v : Nat) : State :=
  ((((s.cqTaken k v).setFld (F.HIF_CQ_CTL_SIZE_LOG2 k) v).setFlag (F.HIF_CQ_CTL_EN k) true).setFld
    (F.HIF_CQ_STAT_STATE k) 1).updHif fun h => { h with
      cqTail := Tbl.put (fun _ => 0) h.cqTail k 0, cqHead := Tbl.put (fun _ => 0) h.cqHead k 0
      cqPhase := Tbl.put (fun _ => 1) h.cqPhase k 1, cqUnsig := Tbl.put (fun _ => 0) h.cqUnsig k 0 }

theorem State.writeCqCtl_of_start {s : State} {k : Nat} {v : Word} (he : s.flag (F.HIF_CQ_CTL_EN k) = false)
    (hv : v.toNat.testBit 31 = true) (hh : s.cqHeldOf k = []) : s.writeCqCtl k v = s.cqStarted k v.toNat := by
  have hheld : (s.cqStarted k v.toNat).cqHeldOf k = [] := by
    unfold State.cqHeldOf State.cqStarted
    rw [State.updHif_hif, State.setFld_hif, State.setFlag_hif, State.setFld_hif, State.cqTaken_hif]
    exact hh
  unfold State.writeCqCtl
  dsimp only
  rw [he, hv, if_neg Bool.false_ne_true]
  exact (if_pos rfl).trans (State.drainHeld_of_none hheld _)

theorem State.cqStarted_fields (s : State) (k v : Nat) :
    (s.cqStarted k v).flag (F.HIF_CQ_CTL_EN k) = true ∧ (s.cqStarted k v).fld (F.HIF_CQ_STAT_STATE k) = 1 ∧
      Tbl.get (fun _ => 0) (s.cqStarted k v).hif.cqTail k = 0 ∧ Tbl.get (fun _ => 1) (s.cqStarted k v).hif.cqPhase k = 1 ∧
      (s.cqStarted k v).fld (F.HIF_CQ_CTL_VECTOR k) = bitsOf v 24 6 := by
  unfold State.cqStarted
  refine ⟨?_, ?_, ?_, ?_, ?_⟩
  · rw [State.flag_updHif, State.flag_setFld_apart _ _ _ _ (Fld.apart_of_reg (cqCtl_ne_cqStat k k).symm)]
    exact State.flag_setFlag _ _ _ rfl rfl
  · rw [State.fld_updHif]
    exact State.fld_setFld_fits _ _ _ rfl (show 1 < 2 ^ 2 by decide)
  · rw [State.updHif_hif, Tbl.get_put_same]
  · rw [State.updHif_hif, Tbl.get_put_same]
  · rw [State.fld_updHif, State.fld_setFld_apart _ _ _ _ (Fld.apart_of_reg (cqCtl_ne_cqStat k k).symm),
      State.fld_setFlag_apart _ _ _ _ (Fld.apart_of_bits rfl), State.fld_setFld_apart _ _ _ _ (Fld.apart_of_bits rfl),
      s.cqTaken_vector]

/-- A test over the rings hangs on the rings alone. -/
theorem anyRing_congr {p q : Nat → Bool} (h : ∀ n < 16, p n = q n) : (List.range 16).any p = (List.range 16).any q := by
  rw [Bool.eq_iff_iff, List.any_eq_true, List.any_eq_true]
  exact exists_congr fun n => and_congr_right fun hn => by rw [h n (List.mem_range.mp hn)]

/-- A completion ring in use is not disabled. -/
theorem State.writeCqCtl_of_mapped {s : State} {k : Nat} {v : Word} (he : s.flag (F.HIF_CQ_CTL_EN k) = true)
    (hv : v.toNat.testBit 31 = false) (hm : s.cqMapped k = true) :
    s.writeCqCtl k v = (s.cqTaken k v.toNat).refuseRing k := by
  have hmapped : (s.cqTaken k v.toNat).cqMapped k = true := by
    rw [← hm, State.cqMapped, State.cqMapped]
    refine anyRing_congr fun n hn => ?_
    rw [s.cqTaken_fld_of_reg _ _ (crStat_ne_cqCtl n k).symm, s.cqTaken_fld_of_reg _ _ (crCtl_ne_cqCtl hn k).symm]
  unfold State.writeCqCtl
  dsimp only
  rw [he, hv, if_pos rfl]
  exact (if_neg Bool.false_ne_true).trans ((if_pos rfl).trans (if_pos hmapped))

/-- The event ring takes its vector and its coalescing. -/
def State.evTaken (s : State) (v : Nat) : State :=
  ((s.setFld F.HIF_EV_CTL_VECTOR (bitsOf v 24 6)).setFld F.HIF_EV_CTL_COAL_N (bitsOf v 16 8)).setFld
    F.HIF_EV_CTL_COAL_US (bitsOf v 6 10)

theorem State.evTaken_hif (s : State) (v : Nat) : (s.evTaken v).hif = s.hif := by
  rw [State.evTaken, State.setFld_hif, State.setFld_hif, State.setFld_hif]

theorem State.evTaken_size (s : State) (v : Nat) : (s.evTaken v).fld F.HIF_EV_CTL_SIZE_LOG2 = s.fld F.HIF_EV_CTL_SIZE_LOG2 := by
  unfold State.evTaken
  rw [State.fld_setFld_apart _ _ _ _ (Fld.apart_of_bits rfl), State.fld_setFld_apart _ _ _ _ (Fld.apart_of_bits rfl),
    State.fld_setFld_apart _ _ _ _ (Fld.apart_of_bits rfl)]

/-- A word without EN, or a ring already enabled, starts nothing. -/
theorem State.writeEvCtl_of_no_start {s : State} {v : Word} (h : v.toNat.testBit 31 = false ∨ s.flag F.HIF_EV_CTL_EN = true) :
    s.writeEvCtl v = (if s.flag F.HIF_EV_CTL_EN then s.evTaken v.toNat
      else (s.evTaken v.toNat).setFld F.HIF_EV_CTL_SIZE_LOG2 v.toNat).setFlag F.HIF_EV_CTL_EN (v.toNat.testBit 31) := by
  have hgo : (v.toNat.testBit 31 && !s.flag F.HIF_EV_CTL_EN) = false := by
    rcases h with h | h
    · rw [h, Bool.false_and]
    · rw [h, Bool.not_true, Bool.and_false]
  unfold State.writeEvCtl
  dsimp only
  rw [hgo]
  exact if_neg Bool.false_ne_true

-- A link reset --------------------------------------------------------------------------------------------------

/-- A key that the filter drops reads as unlisted. -/
theorem Tbl.get_filter_dropped {α : Type} (d : Nat → α) (p : Nat × α → Bool) (t : Tbl α) {k : Nat}
    (h : ∀ v, p (k, v) = false) : Tbl.get d (t.filter p) k = d k := by
  have hnone : Tbl.find? (t.filter p) k = none := by
    induction t with
    | nil => rfl
    | cons x xs ih =>
      obtain ⟨j, v⟩ := x
      by_cases hp : p (j, v) = true
      · have hj : j ≠ k := by
          rintro rfl
          exact Bool.false_ne_true ((h v).symm.trans hp)
        rw [List.filter_cons_of_pos hp, Tbl.find?, if_neg hj]
        exact ih
      · rw [List.filter_cons_of_neg hp]
        exact ih
  rw [Tbl.get, hnone]
  rfl

theorem State.resetHifRegs_reg (s : State) {o : Nat} (hl : 0x600000 < o) (hr : o < 0x610000) :
    s.resetHifRegs.reg o = resetReg o := by
  unfold State.resetHifRegs
  dsimp only
  rw [State.reg_setFlag_ne _ _ _ _ (show 0x600000 ≠ o by omega)]
  refine Tbl.get_filter_dropped _ _ _ fun v => ?_
  rw [decide_eq_true ⟨by omega, hr⟩]
  rfl

/-- What is shown of the open handles. -/
theorem State.showOpen_fld (s : State) {g : Fld} (hs : F.HIF_STATE_OPEN.apart g = true)
    (hc : ∀ n < 16, (F.HIF_CR_STAT_OPEN n).apart g = true) : s.showOpen.fld g = s.fld g := by
  unfold State.showOpen
  dsimp only
  rw [foldl_keeps (fun t => t.fld g) (List.range 16)
    (fun t n hn => State.fld_setFld_apart _ _ _ _ (hc n (List.mem_range.mp hn))), State.fld_setFld_apart _ _ _ _ hs]

/-- Nothing but registers. -/
theorem State.showOpen_kept {β : Type} (p : State → β) (hp : ∀ t f v, p (State.setFld t f v) = p t) (s : State) :
    p s.showOpen = p s := by
  unfold State.showOpen
  dsimp only
  rw [foldl_keeps p (List.range 16) (fun t n _ => hp _ _ _), hp]

/-- A link reset with no handle and no final completion held drops the rings and resets the registers. -/
theorem State.linkReset_of_idle {s : State} (hh : s.hif.handles = []) (hf : s.hif.heldFinal = []) :
    ∃ u : State, s.linkReset = u.resetHifRegs.showOpen ∧ u.hif.cqHeld = [] ∧ u.hif.d3hot = false
      ∧ u.hif.hostMem = s.hif.hostMem ∧ u.lanes = s.lanes ∧ u.ssw = s.ssw := by
  unfold State.linkReset
  extract_lets held finals mine unseen ends s1 s2 s3 s4
  have hfinals : finals = [] := hf
  have hends : ends = [] := by
    show s.hif.handles.filter _ = []
    rw [hh, List.filter_nil]
  refine ⟨s1, ?_, rfl, rfl, rfl, rfl, rfl⟩
  show State.showOpen (ends.foldl _ (finals.foldl _ s2)) = _
  rw [hends, hfinals, List.foldl_nil, List.foldl_nil]

theorem State.resetHifRegs_hif (s : State) : s.resetHifRegs.hif = s.hif := by
  rw [State.resetHifRegs, State.setFlag_hif]

theorem State.resetHifRegs_lanes (s : State) : s.resetHifRegs.lanes = s.lanes := by
  rw [State.resetHifRegs, State.setFlag_lanes]

theorem State.resetHifRegs_ssw (s : State) : s.resetHifRegs.ssw = s.ssw := by
  rw [State.resetHifRegs, State.setFlag_ssw]

theorem resetReg_cqCtl : ∀ k < 16, bitsOf (resetReg (R.HIF_CQ_CTL k)).toNat 31 1 = 0 := by decide

theorem resetReg_crStat : ∀ k < 16, bitsOf (resetReg (R.HIF_CR_STAT k)).toNat 30 2 = 0 := by decide

theorem resetReg_evCtl : bitsOf (resetReg R.HIF_EV_CTL).toNat 31 1 = 0 := by decide

/-- A field of the host interface after its registers are reset and the open handles shown. -/
theorem State.fld_resetHifRegs_showOpen (u : State) {g : Fld} (hl : 0x600000 < g.reg) (hr : g.reg < 0x610000)
    (hc : ∀ n < 16, (F.HIF_CR_STAT_OPEN n).apart g = true) :
    u.resetHifRegs.showOpen.fld g = bitsOf (resetReg g.reg).toNat g.lo g.width := by
  rw [State.showOpen_fld _ (Fld.apart_of_reg (Nat.ne_of_lt hl)) hc, State.fld, u.resetHifRegs_reg hl hr]

theorem State.reset_shown_evCtl (u : State) : u.resetHifRegs.showOpen.flag F.HIF_EV_CTL_EN = false := by
  refine (State.flag_eq_false_iff _ _).mpr ((u.fld_resetHifRegs_showOpen (by decide) (by decide) fun n _ => ?_).trans resetReg_evCtl)
  refine Fld.apart_of_reg ?_
  show 0x60010c + 0x10 * n ≠ 0x600030
  omega

theorem State.reset_shown_cqCtl (u : State) {k : Nat} (hk : k < 16) :
    u.resetHifRegs.showOpen.flag (F.HIF_CQ_CTL_EN k) = false := by
  have hl : 0x600000 < R.HIF_CQ_CTL k := by
    show 0x600000 < 0x600208 + 0x10 * k
    omega
  have hr : R.HIF_CQ_CTL k < 0x610000 := by
    show 0x600208 + 0x10 * k < 0x610000
    omega
  exact (State.flag_eq_false_iff _ _).mpr ((u.fld_resetHifRegs_showOpen (g := F.HIF_CQ_CTL_EN k) hl hr fun n _ =>
    Fld.apart_of_reg (crStat_ne_cqCtl n k)).trans (resetReg_cqCtl k hk))

theorem State.reset_shown_crStat (u : State) {k : Nat} (hk : k < 16) :
    u.resetHifRegs.showOpen.fld (F.HIF_CR_STAT_STATE k) = 0 := by
  have hl : 0x600000 < R.HIF_CR_STAT k := by
    show 0x600000 < 0x60010c + 0x10 * k
    omega
  have hr : R.HIF_CR_STAT k < 0x610000 := by
    show 0x60010c + 0x10 * k < 0x610000
    omega
  refine (u.fld_resetHifRegs_showOpen (g := F.HIF_CR_STAT_STATE k) hl hr fun n _ => ?_).trans (resetReg_crStat k hk)
  exact Fld.apart_of_bits rfl

-- The link and its faults ---------------------------------------------------------------------------------------

theorem State.orphans_nil (s : State) (masters : List Nat) : s.orphans masters [] = s := rfl

theorem State.fwRuns_setFld_hif (s : State) {f : Fld} (h : 0x400000 ≤ f.reg) (v : Nat) :
    (s.setFld f v).fwRuns = s.fwRuns := s.fwRuns_setFld_of_high h v

/-- The link as it has trained, and FW_READY where firmware runs. -/
theorem execLinkUp_completes (s : State) (sp w : Fin 5) : Completes (.linkUp sp w) s fun t =>
    t.fld F.HIF_STATE_LINK_SPEED = sp.val ∧ t.fld F.HIF_STATE_LINK_WIDTH = w.val
      ∧ (s.fwRuns = true → t.flag F.HIF_STATE_FW_READY = true)
      ∧ OnlyFields [F.HIF_STATE_LINK_SPEED, F.HIF_STATE_LINK_WIDTH, F.HIF_STATE_FW_READY] s t := by
  have hsp : sp.val < 2 ^ 3 := lt_trans sp.isLt (by decide)
  have hw : w.val < 2 ^ 3 := lt_trans w.isLt (by decide)
  generalize hu : (s.setFld F.HIF_STATE_LINK_SPEED sp.val).setFld F.HIF_STATE_LINK_WIDTH w.val = u
  have hspeed : u.fld F.HIF_STATE_LINK_SPEED = sp.val := by
    rw [← hu, State.fld_setFld_apart _ _ _ _ (Fld.apart_of_bits rfl)]
    exact State.fld_setFld_fits _ _ _ rfl hsp
  have hwidth : u.fld F.HIF_STATE_LINK_WIDTH = w.val := by
    rw [← hu]
    exact State.fld_setFld_fits _ _ _ rfl hw
  have hruns : u.fwRuns = s.fwRuns := by
    rw [← hu, State.fwRuns_setFld_of_high _ (by decide), State.fwRuns_setFld_of_high _ (by decide)]
  have honly : OnlyFields [F.HIF_STATE_LINK_SPEED, F.HIF_STATE_LINK_WIDTH, F.HIF_STATE_FW_READY] s u := by
    rw [← hu]
    exact ((OnlyFields.refl _ s).setFld _ _ List.mem_cons_self).setFld _ _ (List.mem_cons_of_mem _ List.mem_cons_self)
  have h : exec (.linkUp sp w) s = .next (u.when u.fwRuns fun s => s.setFlag F.HIF_STATE_FW_READY true) := by
    rw [exec_linkUp, ← hu]
    rfl
  refine Completes.intro h ?_
  rw [hruns]
  cases hr : s.fwRuns with
  | false =>
    rw [State.when_false]
    exact ⟨hspeed, hwidth, fun h => absurd h Bool.false_ne_true, honly⟩
  | true =>
    rw [State.when_true]
    refine ⟨?_, ?_, fun _ => State.flag_setFlag _ _ _ rfl rfl,
      honly.setFlag _ _ (List.mem_cons_of_mem _ (List.mem_cons_of_mem _ List.mem_cons_self))⟩
    · rw [State.fld_setFlag_apart _ _ _ _ (Fld.apart_of_bits rfl), hspeed]
    · rw [State.fld_setFlag_apart _ _ _ _ (Fld.apart_of_bits rfl), hwidth]

/-- A fault counted and reported names the same handles. -/
theorem State.handle?_fault (s : State) (f : Fld) (a : AerError) (h : Nat) :
    ((s.incFld f).reportAer a).handle? h = s.handle? h := by
  unfold State.reportAer
  split
  · rfl
  · rfl

theorem State.dmaFault_of_no_handle {s : State} {h : Nat} (hh : s.handle? h = none) (fault : Nat) (obj : List Byte) :
    s.dmaFault h fault obj = s := by
  unfold State.dmaFault
  rw [hh]

/-- A source that fails ends its command with what has been written. -/
theorem State.dmaFault_of_toHost {s : State} {h : Word} {e : Handle} (hr : Runs s e.opcode h e [])
    (hd : Op.toDevice e.opcode = false) (ho : Op.toHost e.opcode = true) (hl : e.list = false) (fault : Nat)
    (obj : List Byte) :
    s.dmaFault h.toNat fault obj =
      ((State.scatter (s.begun h e) [(e.bufAddr, e.bufLen)] obj).dmaDone h.toNat).faultEnd h.toNat fault
        (e.bufOffset + obj.length) := by
  unfold State.dmaFault
  rw [hr.entry]
  dsimp only
  rw [if_neg (by rw [hd]; exact Bool.false_ne_true), if_pos ho, State.run_of_runs hr, hl]
  rfl

theorem execCplTimeout_of_lapsed {s : State} {h : Word} {waited : Nat} (obj : List Byte) (hh : s.handle? h.toNat = none)
    (hw : s.cplTimeoutUs ≤ waited) :
    exec (.cplTimeout h waited obj) s = .next ((s.incFld F.HIF_DMA_FAULTS_CPL_TIMEOUT).reportAer .completionTimeout) := by
  rw [exec_cplTimeout, execCplTimeout, if_neg (Nat.not_lt.mpr hw), State.dmaFault_of_no_handle]
  rw [State.handle?_fault, hh]

/-- A link reset drops every ring. -/
theorem execLinkReset_of_idle {s : State} (hh : s.hif.handles = []) (hf : s.hif.heldFinal = []) :
    Completes (.linkReset false []) s fun t => t.flag F.HIF_EV_CTL_EN = false
      ∧ (∀ k < 16, t.flag (F.HIF_CQ_CTL_EN k) = false ∧ t.fld (F.HIF_CR_STAT_STATE k) = 0) ∧ t.hif.cqHeld = []
      ∧ t.hif.d3hot = false ∧ t.hif.hostMem = s.hif.hostMem ∧ t.lanes = s.lanes ∧ t.ssw = s.ssw := by
  obtain ⟨u, hu, hheld, hd3, hmem, hlanes, hssw⟩ := State.linkReset_of_idle hh hf
  have h : exec (.linkReset false []) s = .next u.resetHifRegs.showOpen := by
    rw [exec_linkReset, execLinkReset, State.orphans_nil, State.when_false, hu]
  have hhif : u.resetHifRegs.showOpen.hif = u.hif :=
    (State.showOpen_kept State.hif State.setFld_hif _).trans u.resetHifRegs_hif
  refine Completes.intro h ⟨u.reset_shown_evCtl, fun k hk => ⟨u.reset_shown_cqCtl hk, u.reset_shown_crStat hk⟩, ?_, ?_, ?_,
    ?_, ?_⟩
  · rw [hhif, hheld]
  · rw [hhif, hd3]
  · rw [hhif, hmem]
  · rw [State.showOpen_kept State.lanes State.setFld_lanes, u.resetHifRegs_lanes, hlanes]
  · rw [State.showOpen_kept State.ssw State.setFld_ssw, u.resetHifRegs_ssw, hssw]

/-- With nothing held and no event lost, the return delivers nothing. -/
theorem execReturnToD0_of_none {s : State} (hh : s.hif.cqHeld = []) (hm : s.hif.evMissed = 0) :
    exec .returnToD0 s = .next (s.updHif fun h => { h with d3hot := false }) := by
  have hheld : ∀ k, (s.updHif fun h => { h with d3hot := false }).cqHeldOf k = [] := fun k => by
    rw [State.cqHeldOf, State.updHif_hif, hh]
    rfl
  have hfold : ∀ ks : List Nat, ks.foldl (fun s k => State.drainHeld (s.cqHeldOf k).length s k)
      (s.updHif fun h => { h with d3hot := false }) = s.updHif fun h => { h with d3hot := false } := fun ks => by
    induction ks with
    | nil => rfl
    | cons k ks ih => rw [List.foldl_cons, State.drainHeld_of_none (hheld k), ih]
  rw [exec_returnToD0, execReturnToD0]
  rw [hfold, State.reportLost]
  refine congrArg _ (if_neg fun h => absurd h.1 ?_)
  show ¬ 0 < s.hif.evMissed
  omega

theorem execStagedPrefixExpiry_completes (s : State) (o : BitVec 16) :
    Completes (.stagedPrefixExpiry o) s fun t => (∀ x ∈ t.hif.staged, x.opcode ≠ o.toNat)
      ∧ (∀ x ∈ s.hif.staged, x.opcode ≠ o.toNat → x ∈ t.hif.staged)
      ∧ t = { s with hif := { s.hif with staged := t.hif.staged } } := by
  refine Completes.intro (exec_stagedPrefixExpiry s) ⟨fun x hx => ?_, fun x hx ho => ?_, rfl⟩
  · have := (List.mem_filter.mp hx).2
    simpa using this
  · exact List.mem_filter.mpr ⟨hx, by simpa using ho⟩

/-- Settles O49: the rings start, drain and are refused as R344 says, and the link, its power states and its faults act. -/
theorem hostRings : Obligations.HostRings := by
  unfold Obligations.HostRings
  intro s n v
  have hen : ∀ x : Word, exec (.commandRingEnable n x) s = .next (s.writeCrCtl n.val (x ||| 0x80000000#32)) :=
    fun x => exec_commandRingEnable s
  refine ⟨fun hst hcq hm => ?started, fun hst hcq hm => ?refused, fun hst => ?remembered, fun hst => ?ended,
    fun hst hb hh => ?drained, fun h => ?notDrained, fun he hv hh => ?cqStarted, fun he hv hm => ?cqRefused,
    fun hv => ?evDisabled, fun he hv => ?evSame, fun b => ?reset, fun hh hf => execLinkReset_of_idle hh hf,
    exec_d3hotEntry s, fun hh hm => execReturnToD0_of_none hh hm, fun sp w => execLinkUp_completes s sp w,
    fun h obj waited hw => ?waiting, fun h obj waited hh hw => execCplTimeout_of_lapsed obj hh hw, fun h obj hh => ?faults,
    fun h e obj hr hd ho hl => ?source, fun o => execStagedPrefixExpiry_completes s o⟩
  case started =>
    have h := hen v
    rw [State.writeCrCtl_of_start n.isLt hst (testBit_or_top v) hm, bitsOf_or_low, if_pos hcq] at h
    obtain ⟨hctl, hstat, hcons, hcqf, hurg⟩ := (s.crTaken n.val (v ||| 0x80000000#32).toNat).enableCr_fields n.val
    refine Completes.intro h ⟨hctl, hstat, hcons, ?_, ?_⟩
    · rw [hcqf, s.crTaken_cq, bitsOf_or_low]
    · rw [hurg, s.crTaken_urgent, testBit_or_low]
  case refused =>
    have h := hen v
    rw [State.writeCrCtl_of_start n.isLt hst (testBit_or_top v) hm, bitsOf_or_low,
      if_neg (by rw [hcq]; exact Bool.false_ne_true)] at h
    obtain ⟨href, hring, hhif⟩ := (s.crTaken n.val (v ||| 0x80000000#32).toNat).refuseRing_fields n.isLt
    refine Completes.intro h ⟨href, hring, ?_, hhif.trans (s.crTaken_hif _)⟩
    rw [State.refuseRing_fld_of_reg _ _ (crStat_ne_err n.val).symm, s.crTaken_fld_of_reg _ (crCtl_ne_crStat n.val n.val), hst]
  case remembered =>
    have h := hen v
    rw [State.writeCrCtl_of_draining hst (testBit_or_top v)] at h
    refine Completes.intro h ⟨?_, ?_⟩
    · rw [State.updHif_hif, Tbl.get_put_same]
    · rw [State.fld_updHif, State.fld_setFlag_apart _ _ _ _ (Fld.apart_of_reg (crCtl_ne_crStat n.val n.val)), hst]
  case ended =>
    have h : exec (.commandRingDisable n v) s = .next (s.writeCrCtl n.val (v &&& 0x7FFFFFFF#32)) := exec_commandRingDisable s
    rw [State.writeCrCtl_of_end hst (testBit_and_low v)] at h
    refine Completes.intro h ⟨?_, ?_, ?_⟩
    · rw [State.flag_setFld_apart _ _ _ _ (Fld.apart_of_reg (crCtl_ne_crStat n.val n.val).symm), State.flag_updHif]
      exact State.flag_setFlag _ _ _ rfl rfl
    · refine State.fld_setFld_fits _ _ _ rfl (show _ < 2 ^ 2 from ?_)
      split <;> decide
    · rw [State.setFld_hif, State.updHif_hif, Tbl.get_put_same]
  case drained =>
    exact Completes.intro (execDrainEnd_of_free hst hb hh) ⟨State.fld_setFld_fits _ _ _ rfl (show 0 < 2 ^ 2 by decide),
      (OnlyFields.refl [F.HIF_CR_STAT_STATE n.val] s).setFld _ _ (List.mem_singleton.mpr rfl)⟩
  case notDrained =>
    rw [exec_drainEnd, execDrainEnd]
    exact if_pos h
  case cqStarted =>
    have h : exec (.completionRingEnable n v) s = .next (s.writeCqCtl n.val v) := exec_completionRingEnable s
    rw [State.writeCqCtl_of_start he hv hh] at h
    exact Completes.intro h (s.cqStarted_fields n.val v.toNat)
  case cqRefused =>
    have h : exec (.completionRingEnable n v) s = .next (s.writeCqCtl n.val v) := exec_completionRingEnable s
    rw [State.writeCqCtl_of_mapped he hv hm] at h
    obtain ⟨href, hring, -⟩ := (s.cqTaken n.val v.toNat).refuseRing_fields n.isLt
    refine Completes.intro h ⟨?_, href, hring⟩
    rw [State.flag_congr (State.refuseRing_fld_of_reg _ _ (cqCtl_ne_err n.val).symm), s.cqTaken_en, he]
  case evDisabled =>
    have h : exec (.eventRingEnable v) s = .next (s.writeEvCtl v) := exec_eventRingEnable s
    rw [State.writeEvCtl_of_no_start (Or.inl hv), hv] at h
    refine Completes.intro h ⟨State.flag_setFlag _ _ _ rfl rfl, ?_⟩
    rw [State.setFlag_hif, apply_ite State.hif, State.setFld_hif, s.evTaken_hif, ite_self]
  case evSame =>
    have h : exec (.eventRingEnable v) s = .next (s.writeEvCtl v) := exec_eventRingEnable s
    rw [State.writeEvCtl_of_no_start (Or.inr he), if_pos he] at h
    refine Completes.intro h ⟨?_, ?_⟩
    · rw [State.fld_setFlag_apart _ _ _ _ (Fld.apart_of_bits rfl), s.evTaken_size]
    · rw [State.setFlag_hif, s.evTaken_hif]
  case reset => rw [exec_linkReset, execLinkReset, State.orphans_nil]
  case waiting =>
    rw [exec_cplTimeout, execCplTimeout]
    exact congrArg _ (if_pos hw)
  case faults =>
    refine ⟨?_, ?_, ?_, ?_⟩
    · rw [exec_dmaFault, execDmaFault, State.dmaFault_of_no_handle ((State.handle?_fault _ _ _ _).trans hh)]
    · rw [exec_dmaFault, execDmaFault, State.dmaFault_of_no_handle ((State.handle?_fault _ _ _ _).trans hh)]
    · rw [exec_dmaFault, execDmaFault, State.dmaFault_of_no_handle ((State.handle?_fault _ _ _ _).trans hh)]
    · rw [exec_dmaFault, execDmaFault, State.dmaFault_of_no_handle hh]
  case source => rw [exec_dmaFault, execDmaFault, State.dmaFault_of_toHost hr hd ho hl]

end Sys2Proof.Machine
end


section
/-!
PROOFS. The restart of the management side (R406, R407).
-/
namespace Sys2Proof.Machine
open Sys2Proof

-- Interrupts alone ----------------------------------------------------------------------------------------------

/-- The registers that the delivery of an interrupt writes. -/
def irqReg (o : Nat) : Bool := decide (0x609000 ≤ o ∧ o < 0x609008) || decide (0x701000 ≤ o ∧ o < 0x702400)

/-- `t` is `s` after deliveries of interrupts: no event is logged, and nothing but their registers, the messages sent and the
state of the cores differs. -/
structure Irq (s t : State) : Prop where
  eq : t = { s with regs := t.regs, hif := t.hif, mss := t.mss }
  reg : ∀ o, irqReg o = false → t.reg o = s.reg o

theorem Irq.refl (s : State) : Irq s s := ⟨rfl, fun _ _ => rfl⟩

theorem Irq.trans {a b c : State} (h : Irq a b) (k : Irq b c) : Irq a c where
  eq := by rw [k.eq, h.eq]
  reg o ho := (k.reg o ho).trans (h.reg o ho)

theorem Irq.ite {s t u : State} {p : Prop} [Decidable p] (ht : Irq s t) (hu : Irq s u) : Irq s (if p then t else u) := by
  split
  · exact ht
  · exact hu

theorem Irq.setFld {s t : State} (h : Irq s t) (f : Fld) (v : Nat) (hf : irqReg f.reg = true) : Irq s (t.setFld f v) := by
  refine h.trans ⟨rfl, fun o ho => State.reg_setFld_ne t f v o ?_⟩
  rintro rfl
  exact Bool.false_ne_true (ho.symm.trans hf)

theorem irqReg_icSrc {n : Nat} (hn : n < 1280) : irqReg (R.IC_SRC n) = true := by
  have : 0x701000 ≤ R.IC_SRC n ∧ R.IC_SRC n < 0x702400 := by unfold R.IC_SRC; omega
  rw [irqReg, decide_eq_true this, Bool.or_true]

theorem Irq.setFlag {s t : State} (h : Irq s t) (f : Fld) (b : Bool) (hf : irqReg f.reg = true) : Irq s (t.setFlag f b) :=
  h.setFld f _ hf

theorem State.msix_irq {s t : State} (h : Irq s t) {v : Nat} (hv : v < 64) : Irq s (t.msix v) := by
  refine Irq.ite (h.setFld _ _ ?_) (h.trans ⟨rfl, fun _ _ => rfl⟩)
  have : 0x609000 ≤ R.HIF_MSIX_PBA (v / 32) ∧ R.HIF_MSIX_PBA (v / 32) < 0x609008 := by unfold R.HIF_MSIX_PBA; omega
  show irqReg (R.HIF_MSIX_PBA (v / 32)) = true
  rw [irqReg, decide_eq_true this, Bool.true_or]

theorem State.icDelivered_irq {s t : State} (h : Irq s t) {n : Nat} (hn : n < 1280) : Irq s (t.icDelivered n) := by
  have h1 := h.setFlag (F.IC_SRC_PENDING n) false (irqReg_icSrc hn)
  exact Irq.ite (h1.setFlag _ _ (irqReg_icSrc hn)) h1

theorem State.icTryMsix_irq {s t : State} (h : Irq s t) {n : Nat} (hn : n < 1280) : Irq s (t.icTryMsix n) := by
  refine Irq.ite ?_ h
  apply State.msix_irq
  · exact (State.icDelivered_irq h hn).trans ⟨rfl, fun _ _ => rfl⟩
  · exact State.fld_lt _ _

theorem State.icWake_irq {s t : State} (h : Irq s t) (n : Nat) : Irq s (t.icWake n) := by
  refine Irq.ite ?_ h
  split
  · exact Irq.ite (h.trans ⟨rfl, fun _ _ => rfl⟩) h
  · exact h

theorem State.icPend_irq {s t : State} (h : Irq s t) {n : Nat} (hn : n < 1280) : Irq s (t.icPend n) :=
  State.icWake_irq (State.icTryMsix_irq (h.setFlag _ _ (irqReg_icSrc hn)) hn) n

theorem icIsLevel_lt {n : Nat} (h : icIsLevel n = true) : n < 1280 := by
  have := of_decide_eq_true h
  omega

theorem State.armSource_irq {s t : State} (h : Irq s t) (n : Nat) : Irq s (t.armSource n) := by
  unfold State.armSource
  split
  · exact h
  · next hl =>
    have hn : n < 1280 := icIsLevel_lt (by simpa using hl)
    have h1 := h.setFlag (F.IC_SRC_HELD n) false (irqReg_icSrc hn)
    exact Irq.ite (State.icPend_irq h1 hn) h1

theorem State.armSources_irq {s t : State} (h : Irq s t) (ns : List Nat) : Irq s (ns.foldl State.armSource t) := by
  induction ns generalizing t with
  | nil => exact h
  | cons n ns ih => exact ih (State.armSource_irq h n)

-- The reset of the cores ----------------------------------------------------------------------------------------

/-- The registers that the reset of the cores writes. -/
def coreResetReg (o : Nat) : Bool := irqReg o || decide (0x700010 ≤ o ∧ o < 0x700030) || o == R.MSS_CORE_STAT

/-- `t` is `s` after resets of cores. -/
structure CoresReset (s t : State) : Prop where
  eq : t = { s with regs := t.regs, hif := t.hif, mss := t.mss }
  reg : ∀ o, coreResetReg o = false → t.reg o = s.reg o

theorem CoresReset.refl (s : State) : CoresReset s s := ⟨rfl, fun _ _ => rfl⟩

theorem CoresReset.trans {a b c : State} (h : CoresReset a b) (k : CoresReset b c) : CoresReset a c where
  eq := by rw [k.eq, h.eq]
  reg o ho := (k.reg o ho).trans (h.reg o ho)

theorem CoresReset.setFld {s t : State} (h : CoresReset s t) (f : Fld) (v : Nat) (hf : coreResetReg f.reg = true) :
    CoresReset s (t.setFld f v) := by
  refine h.trans ⟨rfl, fun o ho => State.reg_setFld_ne t f v o ?_⟩
  rintro rfl
  exact Bool.false_ne_true (ho.symm.trans hf)

theorem CoresReset.setReg {s t : State} (h : CoresReset s t) (o : Nat) (w : Word) (hf : coreResetReg o = true) :
    CoresReset s (t.setReg o w) := by
  refine h.trans ⟨rfl, fun k hk => State.reg_setReg_ne _ _ _ _ ?_⟩
  rintro rfl
  exact Bool.false_ne_true (hk.symm.trans hf)

theorem CoresReset.fld {s t : State} (h : CoresReset s t) (g : Fld) (hg : coreResetReg g.reg = false) : t.fld g = s.fld g := by
  rw [State.fld, State.fld, h.reg _ hg]

theorem Irq.coresReset {s t : State} (h : Irq s t) : CoresReset s t :=
  ⟨h.eq, fun o ho => h.reg o (by
    rw [coreResetReg, Bool.or_eq_false_iff, Bool.or_eq_false_iff] at ho
    exact ho.1.1)⟩

theorem coreResetReg_icCore {c : Nat} (hc : c < 4) : coreResetReg (R.IC_CORE c) = true := by
  have : 0x700010 ≤ R.IC_CORE c ∧ R.IC_CORE c < 0x700030 := by unfold R.IC_CORE; omega
  rw [coreResetReg, decide_eq_true this, Bool.or_true, Bool.true_or]

/-- What is in service is shown in the core's own register. -/
theorem State.showService_reg (s : State) (c : Nat) {o : Nat} (h : R.IC_CORE c ≠ o) : (s.showService c).reg o = s.reg o := by
  unfold State.showService
  dsimp only
  split
  · rw [State.reg_setFld_ne _ _ _ _ h, State.reg_setFld_ne _ _ _ _ h, State.reg_setFld_ne _ _ _ _ h]
  · rw [State.reg_setFld_ne _ _ _ _ h, State.reg_setFld_ne _ _ _ _ h, State.reg_setFld_ne _ _ _ _ h]

theorem State.showService_coresReset {s t : State} (h : CoresReset s t) {c : Nat} (hc : c < 4) :
    CoresReset s (t.showService c) := by
  have hf := coreResetReg_icCore hc
  unfold State.showService
  dsimp only
  split
  · exact ((h.setFld _ _ hf).setFld _ _ hf).setFld _ _ hf
  · exact ((h.setFld _ _ hf).setFld _ _ hf).setFld _ _ hf

theorem State.resetCore_coresReset {s t : State} (h : CoresReset s t) {c : Nat} (hc : c < 4) :
    CoresReset s (t.resetCore c) := by
  unfold State.resetCore
  extract_lets mine u x v
  have hv : CoresReset s v := h.trans ⟨rfl, fun _ _ => rfl⟩
  exact (State.showService_coresReset hv hc).trans (State.armSources_irq (Irq.refl _) mine).coresReset

/-- A core reset writes its own register and those of interrupts. -/
theorem State.resetCore_reg (s : State) (c : Nat) {o : Nat} (hc : R.IC_CORE c ≠ o) (ho : irqReg o = false) :
    (s.resetCore c).reg o = s.reg o := by
  unfold State.resetCore
  extract_lets mine u x v
  rw [(State.armSources_irq (Irq.refl _) mine).reg o ho, State.showService_reg _ _ hc]
  rfl

/-- What a restart does to each core. -/
def State.restartCore (s : State) (c : Nat) : State :=
  (((s.resetCore c).setFld (coreStat c) 0).setReg (R.IC_VTBASE c) 0).setFlag (F.IC_CORE_OFFLINE c) false

theorem State.restartCore_coresReset {s t : State} (h : CoresReset s t) {c : Nat} (hc : c < 4) :
    CoresReset s (t.restartCore c) := by
  have hvt : coreResetReg (R.IC_VTBASE c) = true := by
    have : 0x700010 ≤ R.IC_VTBASE c ∧ R.IC_VTBASE c < 0x700030 := by unfold R.IC_VTBASE; omega
    rw [coreResetReg, decide_eq_true this, Bool.or_true, Bool.true_or]
  have h1 := (State.resetCore_coresReset h hc).setFld (coreStat c) 0 (by
    show (_ || R.MSS_CORE_STAT == R.MSS_CORE_STAT) = true
    rw [beq_self_eq_true, Bool.or_true])
  exact (h1.setReg _ _ hvt).setFld _ _ (coreResetReg_icCore hc)

/-- A core in reset, with its vector table at 0. -/
def State.CoreDown (s : State) (c : Nat) : Prop := s.fld (coreStat c) = 0 ∧ s.reg (R.IC_VTBASE c) = 0

theorem irqReg_vtbase {c : Nat} (hc : c < 4) : irqReg (R.IC_VTBASE c) = false := by
  have h1 : ¬ (0x609000 ≤ R.IC_VTBASE c ∧ R.IC_VTBASE c < 0x609008) := by unfold R.IC_VTBASE; omega
  have h2 : ¬ (0x701000 ≤ R.IC_VTBASE c ∧ R.IC_VTBASE c < 0x702400) := by unfold R.IC_VTBASE; omega
  rw [irqReg, decide_eq_false h1, decide_eq_false h2, Bool.or_false]

theorem icCore_ne_vtbase {c d : Nat} (hc : c < 4) (hd : d < 4) : R.IC_CORE c ≠ R.IC_VTBASE d := by
  unfold R.IC_CORE R.IC_VTBASE
  omega

theorem icCore_ne_coreStat {c : Nat} (hc : c < 4) : R.IC_CORE c ≠ R.MSS_CORE_STAT := by
  unfold R.IC_CORE R.MSS_CORE_STAT
  omega

theorem vtbase_ne_coreStat {c : Nat} (hc : c < 4) : R.IC_VTBASE c ≠ R.MSS_CORE_STAT := by
  unfold R.IC_VTBASE R.MSS_CORE_STAT
  omega

theorem State.restartCore_coreDown (s : State) {c : Nat} (hc : c < 4) : (s.restartCore c).CoreDown c := by
  unfold State.CoreDown State.restartCore
  refine ⟨?_, ?_⟩
  · rw [State.fld_setFlag_apart _ _ _ _ (Fld.apart_of_reg (icCore_ne_coreStat hc)),
      State.fld_setReg_ne _ _ _ _ (vtbase_ne_coreStat hc)]
    exact State.fld_setFld_fits _ _ _ (Nat.ble_eq_true_of_le (show 2 * c + 2 ≤ 32 by omega)) (show 0 < 2 ^ 2 by decide)
  · rw [State.reg_setFlag_ne _ _ _ _ (icCore_ne_vtbase hc hc)]
    exact State.reg_setReg_same _ _ _

/-- The reset of another core leaves a core down. -/
theorem State.CoreDown.restartCore {s : State} {c : Nat} (h : s.CoreDown c) (hc : c < 4) {d : Nat} (hd : d < 4) :
    (s.restartCore d).CoreDown c := by
  by_cases hcd : c = d
  · rw [hcd]
    exact s.restartCore_coreDown hd
  · obtain ⟨hstat, hvt⟩ := h
    unfold State.CoreDown State.restartCore
    refine ⟨?_, ?_⟩
    · have hapart : (coreStat d).apart (coreStat c) = true := by
        refine Fld.apart_of_bits ?_
        simp only [coreStat, Bool.and_eq_true, Bool.or_eq_true, Nat.ble_eq]
        omega
      rw [State.fld_setFlag_apart _ _ _ _ (Fld.apart_of_reg (icCore_ne_coreStat hd)),
        State.fld_setReg_ne _ _ _ _ (vtbase_ne_coreStat hd), State.fld_setFld_apart _ _ _ _ hapart, State.fld,
        State.resetCore_reg (o := (coreStat c).reg) _ _ (icCore_ne_coreStat hd) rfl]
      exact hstat
    · rw [State.reg_setFlag_ne _ _ _ _ (icCore_ne_vtbase hd hc),
        State.reg_setReg_ne _ _ _ _ (show R.IC_VTBASE d ≠ R.IC_VTBASE c by unfold R.IC_VTBASE; omega),
        State.reg_setFld_ne _ _ _ _ (vtbase_ne_coreStat hc).symm,
        State.resetCore_reg _ _ (icCore_ne_vtbase hd hc) (irqReg_vtbase hc)]
      exact hvt

theorem State.restartCores_coresReset (s : State) : CoresReset s ((List.range 4).foldl State.restartCore s) := by
  have hall : ∀ (ns : List Nat) (t : State), (∀ n ∈ ns, n < 4) → CoresReset s t → CoresReset s (ns.foldl State.restartCore t) := by
    intro ns
    induction ns with
    | nil => exact fun t _ h => h
    | cons n ns ih =>
      intro t hn h
      rw [List.foldl_cons]
      exact ih _ (fun m hm => hn m (List.mem_cons_of_mem _ hm)) (State.restartCore_coresReset h (hn n List.mem_cons_self))
  exact hall _ s (fun n hn => List.mem_range.mp hn) (CoresReset.refl s)

theorem State.restartCores_coreDown (s : State) {c : Nat} (hc : c < 4) :
    ((List.range 4).foldl State.restartCore s).CoreDown c := by
  have hall : ∀ (ns : List Nat) (t : State), (∀ n ∈ ns, n < 4) → t.CoreDown c ∨ c ∈ ns →
      (ns.foldl State.restartCore t).CoreDown c := by
    intro ns
    induction ns with
    | nil => exact fun t _ h => h.resolve_right List.not_mem_nil
    | cons n ns ih =>
      intro t hn h
      rw [List.foldl_cons]
      refine ih _ (fun m hm => hn m (List.mem_cons_of_mem _ hm)) ?_
      rcases h with h | h
      · exact Or.inl (h.restartCore hc (hn n List.mem_cons_self))
      · rcases List.mem_cons.mp h with rfl | h
        · exact Or.inl (t.restartCore_coreDown hc)
        · exact Or.inr h
  exact hall _ s (fun n hn => List.mem_range.mp hn) (Or.inr (List.mem_range.mpr hc))

-- The restart ---------------------------------------------------------------------------------------------------

/-- A restart begins: management in reset, counted, with its cause and its alert. -/
def State.restartBegun (s : State) (cause : Nat) : State :=
  ((((s.setFlag F.GCTL_STATE_MGMT_IN_RESET true).incFld F.MSS_RESTART_COUNT).setFld F.MSS_RESTART_LAST_CAUSE
    cause).setFlag F.GCTL_ALERT_STAT_MGMT_RESTART true)

/-- The management side as a restart leaves it, its cores in reset already. -/
def State.mgmtDown (s : State) : State :=
  ((((s.setFlag F.MSS_BOOT_REMAP false).setFlag F.MSS_BOOT_REMAP_PENDING false).setReg R.MSS_CORE_CTL 0xE#32).setFlag
    F.HIF_STATE_FW_READY false).updMss fun x => { x with remapNext := false, fwUp := false, booted := false }

/-- An alert whose mask is clear is shown and not signalled. -/
theorem State.alert_of_unmasked {s : State} {f : Fld} (h : s.flag { f with reg := R.GCTL_ALERT_MASK } = false) :
    s.alert f = s.setFlag f true :=
  (congrArg (fun b => State.when (s.setFlag f true) b fun s => s.raiseIbi 0x03) h).trans (State.when_false _ _)

theorem State.mgmtRestart_of_up {s : State} (cause : Nat) (hr : s.flag F.GCTL_STATE_MGMT_IN_RESET = false)
    (hm : s.flag { F.GCTL_ALERT_STAT_MGMT_RESTART with reg := R.GCTL_ALERT_MASK } = false) :
    s.mgmtRestart cause [] = (((List.range 4).foldl State.restartCore (s.restartBegun cause)).mgmtDown).stopCompile := by
  have hmask : (((s.setFlag F.GCTL_STATE_MGMT_IN_RESET true).incFld F.MSS_RESTART_COUNT).setFld F.MSS_RESTART_LAST_CAUSE
      cause).flag { F.GCTL_ALERT_STAT_MGMT_RESTART with reg := R.GCTL_ALERT_MASK } = false := by
    rw [State.flag_setFld_apart _ _ _ _ (Fld.apart_of_reg (by decide)), State.incFld,
      State.flag_setFld_apart _ _ _ _ (Fld.apart_of_reg (by decide)),
      State.flag_setFlag_apart _ _ _ _ (Fld.apart_of_reg (by decide))]
    exact hm
  unfold State.mgmtRestart
  rw [if_neg (by rw [hr]; exact Bool.false_ne_true)]
  dsimp only
  rw [State.orphans_nil, State.alert_of_unmasked hmask]
  unfold State.mgmtDown State.restartBegun State.restartCore
  rfl

theorem State.stopCompile_reg (s : State) {o : Nat} (hp : R.SSW_PAGE_STATE ≠ o) (hc : R.SSW_COL_STATE ≠ o) :
    s.stopCompile.reg o = s.reg o := by
  have hresync : ∀ t : State, ∀ v, (t.startResync v).reg o = t.reg o := fun t v => by
    rw [State.startResync, State.reg_updSsw, State.reg_setFlag_ne _ _ _ _ hc, State.setSby, State.reg_setFld_ne _ _ _ _ hp]
  unfold State.stopCompile
  split
  · rw [State.reg_setFld_ne _ _ _ _ hc, hresync]
  · split
    · rw [State.reg_updSsw, State.reg_setFlag_ne _ _ _ _ hc, hresync]
    · rfl

theorem State.stopCompile_kept {β : Type} (p : State → β) (hf : ∀ t f v, p (State.setFld t f v) = p t)
    (hs : ∀ t f, p (State.updSsw t f) = p t) (s : State) : p s.stopCompile = p s := by
  have hresync : ∀ t : State, ∀ v, p (t.startResync v) = p t := fun t v => by
    rw [State.startResync, hs, State.setFlag, hf, State.setSby, hf]
  unfold State.stopCompile
  split
  · rw [hf, hresync]
  · split
    · rw [hs, State.setFlag, hf, hresync]
    · rfl

/-- A register that only the cores' reset and its alert could write. -/
theorem State.mgmtDown_reg (s : State) {o : Nat} (hb : R.MSS_BOOT ≠ o) (hc : R.MSS_CORE_CTL ≠ o) (hh : R.HIF_STATE ≠ o) :
    s.mgmtDown.reg o = s.reg o := by
  unfold State.mgmtDown
  rw [State.reg_updMss, State.reg_setFlag_ne _ _ _ _ hh, State.reg_setReg_ne _ _ _ _ hc, State.reg_setFlag_ne _ _ _ _ hb,
    State.reg_setFlag_ne _ _ _ _ hb]

theorem State.mgmtDown_coreCtl (s : State) : s.mgmtDown.reg R.MSS_CORE_CTL = 0xE#32 := by
  unfold State.mgmtDown
  rw [State.reg_updMss, State.reg_setFlag_ne _ _ _ _ (by decide)]
  exact State.reg_setReg_same _ _ _

theorem State.mgmtDown_fwReady (s : State) : s.mgmtDown.flag F.HIF_STATE_FW_READY = false := by
  unfold State.mgmtDown
  rw [State.flag_updMss]
  exact State.flag_setFlag _ _ _ rfl rfl

/-- What neither a register nor the management state holds. -/
theorem State.restarted_kept {β : Type} (p : State → β) (hf : ∀ t f v, p (State.setFld t f v) = p t)
    (hr : ∀ t o w, p (State.setReg t o w) = p t) (hs : ∀ t f, p (State.updSsw t f) = p t)
    (hm : ∀ t f, p (State.updMss t f) = p t) (hc : ∀ {a b}, CoresReset a b → p b = p a) (s : State) (cause : Nat) :
    p (((List.range 4).foldl State.restartCore (s.restartBegun cause)).mgmtDown).stopCompile = p s := by
  rw [State.stopCompile_kept p hf hs, State.mgmtDown, hm, State.setFlag, hf, hr, State.setFlag, hf, State.setFlag, hf,
    hc (State.restartCores_coresReset _), State.restartBegun, State.setFlag, hf, hf, State.incFld, hf, State.setFlag, hf]

theorem ne_of_vtbase {o p : Nat} (h : 0x700010 ≤ o ∧ o < 0x700020) (hp : p < 0x700010 ∨ 0x700020 ≤ p) : p ≠ o := by omega

/-- What a restart leaves. -/
theorem State.restarted_fields (s : State) {cause : Nat} (hc : cause < 256) :
    let t := (((List.range 4).foldl State.restartCore (s.restartBegun cause)).mgmtDown).stopCompile
    t.flag F.GCTL_STATE_MGMT_IN_RESET = true ∧ t.fld F.MSS_RESTART_LAST_CAUSE = cause ∧ t.gctl = s.gctl
      ∧ t.flag F.GCTL_ALERT_STAT_MGMT_RESTART = true ∧ t.reg R.MSS_CORE_CTL = 0xE#32 ∧ t.mss.fwUp = false
      ∧ t.mss.booted = false ∧ (∀ c < 4, t.fld (coreStat c) = 0 ∧ t.reg (R.IC_VTBASE c) = 0)
      ∧ t.flag F.HIF_STATE_FW_READY = false ∧ t.lanes = s.lanes ∧ t.log = s.log := by
  have hgctl := State.restarted_kept State.gctl State.setFld_gctl State.setReg_gctl State.updSsw_gctl State.updMss_gctl
    (fun h => by rw [h.eq]) s cause
  have hlanes := State.restarted_kept State.lanes State.setFld_lanes State.setReg_lanes State.updSsw_lanes
    State.updMss_lanes (fun h => by rw [h.eq]) s cause
  have hlog := State.restarted_kept State.log State.setFld_log State.setReg_log State.updSsw_log State.updMss_log
    (fun h => by rw [h.eq]) s cause
  have hcores := (s.restartBegun cause).restartCores_coresReset
  have hdown := fun c (h : c < 4) => (s.restartBegun cause).restartCores_coreDown h
  generalize (List.range 4).foldl State.restartCore (s.restartBegun cause) = u at hcores hdown hgctl hlanes hlog ⊢
  have hmss : ∀ t : State, t.stopCompile.mss = t.mss := State.stopCompile_kept State.mss State.setFld_mss State.updSsw_mss
  have hreg : ∀ {o : Nat}, R.SSW_PAGE_STATE ≠ o → R.SSW_COL_STATE ≠ o → R.MSS_BOOT ≠ o → R.MSS_CORE_CTL ≠ o →
      R.HIF_STATE ≠ o → u.mgmtDown.stopCompile.reg o = u.reg o := fun h1 h2 h3 h4 h5 => by
    rw [State.stopCompile_reg _ h1 h2, State.mgmtDown_reg _ h3 h4 h5]
  have hbegun : ∀ {g : Fld}, coreResetReg g.reg = false → R.SSW_PAGE_STATE ≠ g.reg → R.SSW_COL_STATE ≠ g.reg →
      R.MSS_BOOT ≠ g.reg → R.MSS_CORE_CTL ≠ g.reg → R.HIF_STATE ≠ g.reg →
      u.mgmtDown.stopCompile.fld g = (s.restartBegun cause).fld g := fun {g} h h1 h2 h3 h4 h5 => by
    rw [State.fld, hreg h1 h2 h3 h4 h5, ← hcores.fld g h, State.fld]
  refine ⟨?_, ?_, ?_, ?_, ?_, ?_, ?_, fun c hc => ⟨?_, ?_⟩, ?_, ?_, ?_⟩
  · refine (State.flag_congr (hbegun rfl (by decide) (by decide) (by decide) (by decide) (by decide))).trans ?_
    unfold State.restartBegun
    rw [State.flag_setFlag_apart _ _ _ _ (Fld.apart_of_reg (by decide)),
      State.flag_setFld_apart _ _ _ _ (Fld.apart_of_reg (by decide)), State.incFld,
      State.flag_setFld_apart _ _ _ _ (Fld.apart_of_reg (by decide))]
    exact State.flag_setFlag _ _ _ rfl rfl
  · refine (hbegun rfl (by decide) (by decide) (by decide) (by decide) (by decide)).trans ?_
    unfold State.restartBegun
    rw [State.fld_setFlag_apart _ _ _ _ (Fld.apart_of_reg (by decide))]
    exact State.fld_setFld_fits _ _ _ rfl (show cause < 2 ^ 8 from hc)
  · exact hgctl
  · refine (State.flag_congr (hbegun rfl (by decide) (by decide) (by decide) (by decide) (by decide))).trans ?_
    exact State.flag_setFlag _ _ _ rfl rfl
  · rw [State.stopCompile_reg _ (by decide) (by decide), State.mgmtDown_coreCtl]
  · rw [hmss]
    rfl
  · rw [hmss]
    rfl
  · rw [State.fld, hreg (o := (coreStat c).reg) (by exact ne_of_beq_false rfl) (by exact ne_of_beq_false rfl)
      (by exact ne_of_beq_false rfl) (by exact ne_of_beq_false rfl) (by exact ne_of_beq_false rfl)]
    exact (hdown c hc).1
  · have hv : 0x700010 ≤ R.IC_VTBASE c ∧ R.IC_VTBASE c < 0x700020 := by unfold R.IC_VTBASE; omega
    rw [hreg (ne_of_vtbase hv (by decide)) (ne_of_vtbase hv (by decide)) (ne_of_vtbase hv (by decide))
      (ne_of_vtbase hv (by decide)) (ne_of_vtbase hv (by decide))]
    exact (hdown c hc).2
  · refine (State.flag_congr (t := u.mgmtDown) ?_).trans u.mgmtDown_fwReady
    rw [State.fld, State.fld, State.stopCompile_reg _ (by decide) (by decide)]
  · exact hlanes
  · exact hlog

-- Requests for a restart ----------------------------------------------------------------------------------------

theorem execMssRestart_of_open {s : State} {v : Word} (m : Master) (hk : s.keyOpen .mss = true)
    (hv : v.toNat.testBit 31 = true) : exec (.mssRestart m v []) s = .next ((s.setKey .mss false).mgmtRestart 1 []) := by
  rw [exec_mssRestart, execMssRestart, State.writeRestart, State.wkWrite_of_open hk, if_pos hv]

theorem State.mgmtRestart_of_down {s : State} (cause : Nat) (bursts : List Burst)
    (hr : s.flag F.GCTL_STATE_MGMT_IN_RESET = true) : s.mgmtRestart cause bursts = s := by
  unfold State.mgmtRestart
  exact if_pos hr

theorem execAutoAge_of_due {s : State} (ha : s.fld F.MSS_RESTART_CTL_AUTO_AGE ≠ 0) (he : s.gctl.everAlive = true)
    (hg : min 7500 (s.fld F.MSS_RESTART_CTL_AUTO_AGE) ≤ s.fld F.GCTL_ALIVE_AGE_AGE_MS) (hd : s.mss.autoDone = false) :
    exec (.autoAge []) s = .next ((s.updMss fun x => { x with autoDone := true }).mgmtRestart 3 []) := by
  rw [exec_autoAge, execAutoAge]
  exact congrArg _ (if_pos ⟨ha, he, hg, by rw [hd]; rfl⟩)

theorem execAutoAge_of_off {s : State} (b : List Burst)
    (h : s.fld F.MSS_RESTART_CTL_AUTO_AGE = 0 ∨ s.mss.autoDone = true) : exec (.autoAge b) s = .next s := by
  rw [exec_autoAge, execAutoAge]
  refine congrArg _ (if_neg ?_)
  rintro ⟨ha, -, -, hd⟩
  rcases h with h | h
  · exact ha h
  · rw [h] at hd
    exact Bool.false_ne_true hd

-- Holds, the remap and the memory test --------------------------------------------------------------------------

/-- A hold bit that the word repeats leaves its core as it is. -/
theorem State.flag_coreCtl (s : State) {w : Word} (h : s.reg R.MSS_CORE_CTL = w) (c : Nat) :
    s.flag ⟨R.MSS_CORE_CTL, c, 1⟩ = decide (bitsOf w.toNat c 1 ≠ 0) := by
  unfold State.flag State.fld
  rw [h]

/-- What a write of the hold bits does to one core (R386). -/
def State.holdCore (v : Word) (bursts : List Burst) (s : State) (c : Nat) : State :=
  if v.toNat.testBit c = s.flag ⟨R.MSS_CORE_CTL, c, 1⟩ then s
  else if v.toNat.testBit c then
    (((s.orphans [c, 4 + c] bursts).setFlag ⟨R.MSS_CORE_CTL, c, 1⟩ true).resetCore c).setFld (coreStat c) 0
  else (s.setFlag ⟨R.MSS_CORE_CTL, c, 1⟩ false).setFld (coreStat c) 1

theorem State.writeHold_of_core0 (s : State) (v : Word) (bursts : List Burst) :
    s.writeHold (.core 0 true) v bursts = [1, 2, 3].foldl (State.holdCore v bursts) s := by
  unfold State.writeHold
  exact if_neg (by decide)

theorem State.holdCore_of_same {s : State} {v : Word} {bursts : List Burst} {c : Nat} {b : Bool} (hv : v.toNat.testBit c = b)
    (hf : s.flag ⟨R.MSS_CORE_CTL, c, 1⟩ = b) : State.holdCore v bursts s c = s :=
  if_pos (hv.trans hf.symm)

theorem State.holdCore_of_release {s : State} {v : Word} {bursts : List Burst} {c : Nat} (hv : v.toNat.testBit c = false)
    (hf : s.flag ⟨R.MSS_CORE_CTL, c, 1⟩ = true) :
    State.holdCore v bursts s c = (s.setFlag ⟨R.MSS_CORE_CTL, c, 1⟩ false).setFld (coreStat c) 1 := by
  unfold State.holdCore
  rw [hf, hv, if_neg Bool.false_ne_true]
  exact if_neg Bool.false_ne_true

/-- Core 1 is let run where it alone was held and is named no more. -/
theorem State.writeHold_of_core1 {s : State} {v : Word} (hr : s.reg R.MSS_CORE_CTL = 0xE#32) (hv : v.toNat % 16 / 2 = 6) :
    s.writeHold (.core 0 true) v [] = (s.setFlag ⟨R.MSS_CORE_CTL, 1, 1⟩ false).setFld (coreStat 1) 1 := by
  have h1 : v.toNat.testBit 1 = false := by
    rw [Nat.testBit_eq_decide_div_mod_eq]
    exact decide_eq_false (by omega)
  have h2 : v.toNat.testBit 2 = true := by
    rw [Nat.testBit_eq_decide_div_mod_eq]
    exact decide_eq_true (by omega)
  have h3 : v.toNat.testBit 3 = true := by
    rw [Nat.testBit_eq_decide_div_mod_eq]
    exact decide_eq_true (by omega)
  have hf1 : s.flag ⟨R.MSS_CORE_CTL, 1, 1⟩ = true := s.flag_coreCtl hr 1
  have hf2 : ((s.setFlag ⟨R.MSS_CORE_CTL, 1, 1⟩ false).setFld (coreStat 1) 1).flag ⟨R.MSS_CORE_CTL, 2, 1⟩ = true := by
    rw [State.flag_setFld_apart _ _ _ _ (Fld.apart_of_reg (by decide)), State.flag_setFlag_apart _ _ _ _ (Fld.apart_of_bits rfl)]
    exact s.flag_coreCtl hr 2
  have hf3 : ((s.setFlag ⟨R.MSS_CORE_CTL, 1, 1⟩ false).setFld (coreStat 1) 1).flag ⟨R.MSS_CORE_CTL, 3, 1⟩ = true := by
    rw [State.flag_setFld_apart _ _ _ _ (Fld.apart_of_reg (by decide)), State.flag_setFlag_apart _ _ _ _ (Fld.apart_of_bits rfl)]
    exact s.flag_coreCtl hr 3
  rw [State.writeHold_of_core0, List.foldl_cons, List.foldl_cons, List.foldl_cons, List.foldl_nil,
    State.holdCore_of_release h1 hf1, State.holdCore_of_same h2 hf2, State.holdCore_of_same h3 hf3]

theorem State.coreCtl_held1 (s : State) (hr : s.reg R.MSS_CORE_CTL = 0xE#32) :
    (s.setFlag ⟨R.MSS_CORE_CTL, 1, 1⟩ false).reg R.MSS_CORE_CTL = 0xC#32 := by
  unfold State.setFlag State.setFld
  rw [State.reg_setReg_same, hr]
  rfl

/-- A core's instruction cache is emptied. -/
def State.dropIcache (s : State) (c : Nat) : State := s.updCore c fun x => { x with icache := [] }

/-- A pending remap is performed, and the instruction caches emptied. -/
theorem State.readBoot_of_pending {s : State} (h : s.flag F.MSS_BOOT_REMAP_PENDING = true) :
    s.readBoot = (List.range 4).foldl State.dropIcache
      ((s.setFlag F.MSS_BOOT_REMAP_PENDING false).setFlag F.MSS_BOOT_REMAP s.mss.remapNext) := by
  unfold State.readBoot
  rw [if_neg (by rw [h]; exact Bool.false_ne_true)]
  rfl

/-- Every instruction cache that is emptied in turn is empty, and those emptied before stay so. -/
theorem State.foldl_icache (ns : List Nat) (s : State) {c : Nat} (h : (s.core c).icache = [] ∨ c ∈ ns) :
    ((ns.foldl State.dropIcache s).core c).icache = [] := by
  induction ns generalizing s with
  | nil => exact h.resolve_right List.not_mem_nil
  | cons n ns ih =>
    refine ih _ ?_
    by_cases hn : n = c
    · rw [hn, State.dropIcache, State.core_updCore_same]
      exact Or.inl rfl
    · rw [State.dropIcache, State.core_updCore_ne _ _ _ _ hn]
      exact h.imp_right fun h => (List.mem_cons.mp h).resolve_left (Ne.symm hn)

theorem execRemapReadback_completes {s : State} (b : Bool) (h : s.flag F.MSS_BOOT_REMAP_PENDING = true) :
    Completes (.remapReadback b) s fun t =>
      t.flag F.MSS_BOOT_REMAP = s.mss.remapNext ∧ t.flag F.MSS_BOOT_REMAP_PENDING = false
      ∧ (∀ c < 4, (t.core c).icache = []) ∧ t.rdataOf (.core 0 b) = t.reg R.MSS_BOOT := by
  have hx : exec (.remapReadback b) s = .next (s.readBoot.setRdata (.core 0 b) (s.readBoot.reg R.MSS_BOOT)) :=
    exec_remapReadback s
  have hreg : ∀ f, s.readBoot.flag f =
      ((s.setFlag F.MSS_BOOT_REMAP_PENDING false).setFlag F.MSS_BOOT_REMAP s.mss.remapNext).flag f := fun f => by
    rw [State.readBoot_of_pending h]
    exact foldl_keeps (f := State.dropIcache) (fun t => t.flag f) (List.range 4) (fun _ _ _ => rfl) _
  refine Completes.intro hx ⟨?_, ?_, fun c hc => ?_, ?_⟩
  · rw [State.flag_setRdata, hreg]
    exact State.flag_setFlag _ _ _ rfl rfl
  · rw [State.flag_setRdata, hreg, State.flag_setFlag_apart _ _ _ _ (Fld.apart_of_bits rfl)]
    exact State.flag_setFlag _ _ _ rfl rfl
  · show (s.readBoot.core c).icache = []
    rw [State.readBoot_of_pending h]
    exact State.foldl_icache _ _ (Or.inr (List.mem_range.mpr hc))
  · exact State.rdataOf_setRdata _ _ _

theorem execWindowBorrow_of_enabled {s : State} (he : s.flag F.MSS_MTEST_CTL_EN = true) (hw : s.mss.window < 4095) :
    exec (.windowBorrow false) s =
      .next ((s.setFld F.MSS_MTEST_STAT_WINDOW s.mss.window).updMss fun x => { x with window := s.mss.window + 1 }) := by
  have hmod : (s.mss.window + 1) % 4096 = s.mss.window + 1 := Nat.mod_eq_of_lt (by omega)
  have hlast : (s.mss.window == 4095) = false := beq_false_of_ne (by omega)
  rw [exec_windowBorrow, execWindowBorrow]
  dsimp only
  rw [if_neg (by rw [he]; decide), hlast, hmod, State.when_false, State.when_false]

theorem execMtestEnWrite_completes (s : State) (v : Word) :
    Completes (.mtestEnWrite v []) s fun t => t.flag F.MSS_MTEST_CTL_EN = v.toNat.testBit 31
      ∧ OnlyFields [F.MSS_MTEST_CTL_EN, F.MSS_MTEST_CTL_INTERVAL_US] s t := by
  have h : exec (.mtestEnWrite v []) s =
      .next ((s.setFld F.MSS_MTEST_CTL_INTERVAL_US v.toNat).setFlag F.MSS_MTEST_CTL_EN (v.toNat.testBit 31)) := by
    rw [exec_mtestEnWrite, execMtestEnWrite, State.writeMtest]
    cases v.toNat.testBit 31 with
    | false => rw [Bool.not_false, State.when_true, State.orphans_nil]
    | true => rw [Bool.not_true, State.when_false]
  exact Completes.intro h ⟨State.flag_setFlag _ _ _ rfl rfl,
    ((OnlyFields.refl _ s).setFld _ _ (List.mem_cons_of_mem _ List.mem_cons_self)).setFlag _ _ List.mem_cons_self⟩

theorem State.keyOpen_congr {s t : State} (h : t.gctl = s.gctl) (b : KeyBlock) : t.keyOpen b = s.keyOpen b := by
  cases b <;> simp only [State.keyOpen, h]

theorem execMssRestart_of_up {s : State} {v : Word} (m : Master) (hk : s.keyOpen .mss = true)
    (hv : v.toNat.testBit 31 = true) (hr : s.flag F.GCTL_STATE_MGMT_IN_RESET = false)
    (hm : s.flag { F.GCTL_ALERT_STAT_MGMT_RESTART with reg := R.GCTL_ALERT_MASK } = false) :
    Completes (.mssRestart m v []) s fun t =>
      t.flag F.GCTL_STATE_MGMT_IN_RESET = true ∧ t.fld F.MSS_RESTART_LAST_CAUSE = 1 ∧ t.keyOpen .mss = false
        ∧ t.flag F.GCTL_ALERT_STAT_MGMT_RESTART = true ∧ t.reg R.MSS_CORE_CTL = 0xE#32 ∧ t.mss.fwUp = false
        ∧ t.mss.booted = false ∧ (∀ c < 4, t.fld (coreStat c) = 0 ∧ t.reg (R.IC_VTBASE c) = 0)
        ∧ t.flag F.HIF_STATE_FW_READY = false ∧ t.lanes = s.lanes ∧ t.log = s.log := by
  have h := execMssRestart_of_open m hk hv
  have hkey := State.keyOpen_setKey_same s .mss false
  have hlanes : (s.setKey .mss false).lanes = s.lanes := rfl
  have hlog : (s.setKey .mss false).log = s.log := rfl
  have hup : (s.setKey .mss false).flag F.GCTL_STATE_MGMT_IN_RESET = false := by rw [State.flag_setKey, hr]
  have hmask : (s.setKey .mss false).flag { F.GCTL_ALERT_STAT_MGMT_RESTART with reg := R.GCTL_ALERT_MASK } = false :=
    (State.flag_setKey _ _ _ _).trans hm
  generalize s.setKey .mss false = u at h hkey hlanes hlog hup hmask
  rw [State.mgmtRestart_of_up 1 hup hmask] at h
  obtain ⟨h1, h2, h3, h4, h5, h6, h7, h8, h9, h10, h11⟩ := u.restarted_fields (cause := 1) (by decide)
  exact Completes.intro h ⟨h1, h2, (State.keyOpen_congr h3 .mss).trans hkey, h4, h5, h6, h7, h8, h9, h10.trans hlanes,
    h11.trans hlog⟩

theorem execHoldWrite_of_core1 {s : State} {v : Word} (hr : s.reg R.MSS_CORE_CTL = 0xE#32) (hv : v.toNat % 16 / 2 = 6) :
    Completes (.holdWrite (.core 0 true) v []) s fun t =>
      t.reg R.MSS_CORE_CTL = 0xC#32 ∧ t.fld (coreStat 1) = 1
        ∧ (∀ o, o ≠ R.MSS_CORE_CTL → o ≠ R.MSS_CORE_STAT → t.reg o = s.reg o) ∧ t = { s with regs := t.regs } := by
  have h : exec (.holdWrite (.core 0 true) v []) s = .next (s.writeHold (.core 0 true) v []) := exec_holdWrite s
  rw [State.writeHold_of_core1 hr hv] at h
  refine Completes.intro h ⟨?_, State.fld_setFld_fits _ _ _ rfl (show 1 < 2 ^ 2 by decide), fun o ho ho' => ?_, ?_⟩
  · rw [State.reg_setFld_ne _ _ _ _ (by decide), s.coreCtl_held1 hr]
  · rw [State.reg_setFld_ne _ _ _ _ (Ne.symm ho'), State.reg_setFlag_ne _ _ _ _ (Ne.symm ho)]
  · exact State.setFld_of_regs (State.setFld_of_regs (t := s) rfl _ _) _ _

/-- Settles O50: restarts, holds, the remap and the memory test, each on its conditions. -/
theorem mgmtRestart : Obligations.MgmtRestart := by
  unfold Obligations.MgmtRestart
  intro s v
  refine ⟨fun m hk hv hr => ?merged, fun m hk hv hr _ hm => execMssRestart_of_up m hk hv hr hm, fun m hk hv => ?keyClosed, fun hr hs => ?leaves,
    fun hr => ?notInReset, fun ha he hg hd => execAutoAge_of_due ha he hg hd, fun b h => execAutoAge_of_off b h,
    fun m b hm => ?holdRefused, fun hr hv => execHoldWrite_of_core1 hr hv, fun m hm => ?remapRefused, ?remapAsked,
    fun b h => execRemapReadback_completes b h, fun b h => ?notPending, fun b he => ?testOff, fun he hw => ?borrowed,
    execMtestEnWrite_completes s v⟩
  case merged =>
    rw [execMssRestart_of_open m hk hv, State.mgmtRestart_of_down _ _ (by rw [State.flag_setKey]; exact hr)]
  case keyClosed =>
    rw [exec_mssRestart, execMssRestart, State.writeRestart, State.wkWrite_of_closed hk, if_pos hv]
  case leaves =>
    have h : exec .core0LeavesReset s = .next ((s.setFlag F.GCTL_STATE_MGMT_IN_RESET false).setFld (coreStat 0) 1) := by
      rw [exec_core0LeavesReset, execCore0LeavesReset]
      exact congrArg _ (if_pos (by rw [hr, hs]; rfl))
    refine Completes.intro h ⟨?_, ?_, ((OnlyFields.refl _ s).setFlag _ _ List.mem_cons_self).setFld _ _
      (List.mem_cons_of_mem _ List.mem_cons_self)⟩
    · rw [State.flag_setFld_apart _ _ _ _ (Fld.apart_of_reg (by decide))]
      exact State.flag_setFlag _ _ _ rfl rfl
    · rw [State.coreOn, State.fld_setFld_fits _ _ _ rfl (show 1 < 2 ^ 2 by decide)]
      rfl
  case notInReset =>
    rw [exec_core0LeavesReset, execCore0LeavesReset]
    exact congrArg _ (if_neg (by rw [hr]; exact Bool.false_ne_true))
  case holdRefused =>
    rw [exec_holdWrite, execHoldWrite, State.writeHold]
    exact congrArg _ (if_pos (by rw [hm]; rfl))
  case remapRefused =>
    rw [exec_remapWrite, execRemapWrite, State.writeRemap]
    exact congrArg _ (if_pos (by rw [hm]; rfl))
  case remapAsked =>
    have h : exec (.remapWrite (.core 0 true) v) s = .next ((s.setFlag F.MSS_BOOT_REMAP_PENDING true).updMss fun x =>
        { x with remapNext := v.toNat.testBit 0 }) := by
      rw [exec_remapWrite, execRemapWrite, State.writeRemap]
      exact congrArg _ (if_neg (by decide))
    refine Completes.intro h ⟨?_, ?_, ?_⟩
    · rw [State.flag_updMss]
      exact State.flag_setFlag _ _ _ rfl rfl
    · rw [State.updMss_mss, State.setFlag_mss]
    · rw [State.flag_updMss, State.flag_setFlag_apart _ _ _ _ (Fld.apart_of_bits rfl)]
  case notPending =>
    have hb : s.readBoot = s := if_pos (by rw [h]; rfl)
    rw [exec_remapReadback, execRemapReadback, hb]
  case testOff =>
    rw [exec_windowBorrow, execWindowBorrow]
    exact congrArg _ (if_pos (by rw [he]; rfl))
  case borrowed =>
    refine Completes.intro (execWindowBorrow_of_enabled he hw) ⟨?_, ?_, ?_⟩
    · rw [State.updMss_mss, State.setFld_mss]
    · rw [State.fld_updMss]
      exact State.fld_setFld_fits _ _ _ rfl (show s.mss.window < 2 ^ 12 by omega)
    · exact (OnlyFields.refl [F.MSS_MTEST_STAT_WINDOW] _).setFld _ s.mss.window (List.mem_singleton.mpr rfl)

end Sys2Proof.Machine
end


section
/-!
PROOFS. Delivery of interrupts to a core, traps and the sources of the interrupt controller (R411 to R422).
-/
namespace Sys2Proof.Machine
open Sys2Proof

-- What a level source shows -------------------------------------------------------------------------------------

theorem irqReg_of_lt {o : Nat} (h : o < 0x600000) : irqReg o = false := by
  rw [irqReg, decide_eq_false (by omega), decide_eq_false (by omega), Bool.or_false]

theorem irqReg_of_ge {o : Nat} (h : 0x702400 ≤ o) : irqReg o = false := by
  rw [irqReg, decide_eq_false (by omega), decide_eq_false (by omega), Bool.or_false]

theorem irqReg_laneDefect {k : Nat} (h : k < 130) : irqReg (R.LANE_DEFECT_FLAGS k) = false := by
  refine irqReg_of_lt ?_
  have : laneBase k + 0x1000 ≤ 0x182000 := (laneBase_bounds ⟨k, h⟩).2
  unfold R.LANE_DEFECT_FLAGS
  omega

theorem Irq.perfRaw {s t : State} (h : Irq s t) (hc : ∀ c, t.core c = s.core c) (c : Nat) : t.perfRaw c = s.perfRaw c := by
  have hreg : t.reg (R.MSS_PERF_OVF c) = s.reg (R.MSS_PERF_OVF c) := h.reg _ (irqReg_of_ge (by unfold R.MSS_PERF_OVF; omega))
  rw [State.perfRaw, State.perfRaw, hreg, hc]

theorem Irq.tagFill {s t : State} (h : Irq s t) (c : Nat) : t.tagFill c = s.tagFill c := by
  have hreg : t.reg (R.MSS_TAG_CTL c) = s.reg (R.MSS_TAG_CTL c) := h.reg _ (irqReg_of_ge (by unfold R.MSS_TAG_CTL; omega))
  unfold State.tagFill State.fld
  rw [show (F.MSS_TAG_CTL_FILL c).reg = R.MSS_TAG_CTL c from rfl, hreg]

/-- Deliveries leave what every level source shows. -/
theorem Irq.icRaw {s t : State} (h : Irq s t) (hc : ∀ c, t.core c = s.core c) (n : Nat) : t.icRaw n = s.icRaw n := by
  have hfld : ∀ f : Fld, irqReg f.reg = false → t.fld f = s.fld f := fun f hf => by rw [State.fld, State.fld, h.reg _ hf]
  have hflag : ∀ f : Fld, irqReg f.reg = false → t.flag f = s.flag f := fun f hf => State.flag_congr (hfld f hf)
  have hevq : t.evq = s.evq := by rw [h.eq]
  have hpair : t.pair = s.pair := by rw [h.eq]
  have htime : t.time = s.time := by rw [h.eq]
  have hlane : (if 64 ≤ n ∧ n ≤ 193 then t.reg (R.LANE_DEFECT_FLAGS (n - 64)) != 0 else false) =
      if 64 ≤ n ∧ n ≤ 193 then s.reg (R.LANE_DEFECT_FLAGS (n - 64)) != 0 else false := by
    split
    · rw [h.reg _ (irqReg_laneDefect (by omega))]
    · rfl
  unfold State.icRaw
  rw [h.perfRaw hc, h.tagFill, hc, State.fenced, State.fenced, hflag F.GCTL_STATE_FENCED rfl,
    hflag F.GCTL_STATE_THERMAL_WARN rfl, hfld F.CIRC_DAILIES_STAT_STATE rfl, hfld F.I3CT_MBX_STAT_STATE rfl, hevq, hpair,
    htime, hlane]

-- Sources -------------------------------------------------------------------------------------------------------

theorem State.armSource_of_edge {s : State} {n : Nat} (h : icIsLevel n = false) : s.armSource n = s := by
  unfold State.armSource
  exact if_pos (by rw [h]; rfl)

/-- An armed level source is pending again where its level holds. -/
theorem State.armSource_of_level {s : State} {n : Nat} (h : icIsLevel n = true) :
    s.armSource n = if s.icRaw n then (s.setFlag (F.IC_SRC_HELD n) false).icPend n else s.setFlag (F.IC_SRC_HELD n) false := by
  have hraw : (s.setFlag (F.IC_SRC_HELD n) false).icRaw n = s.icRaw n :=
    ((Irq.refl s).setFlag _ _ (irqReg_icSrc (icIsLevel_lt h))).icRaw (fun _ => State.core_setFlag _ _ _ _) n
  unfold State.armSource
  rw [if_neg (by rw [h]; decide)]
  dsimp only
  rw [hraw]

theorem filter_testBit_two_pow : ∀ k : Fin 16,
    (List.range 16).filter (BitVec.ofNat 32 (2 ^ k.val)).toNat.testBit = [k.val] := by decide

theorem execIcSwiSet_of_one (s : State) (k : Fin 16) :
    exec (.icSwiSet (BitVec.ofNat 32 (2 ^ k.val))) s = .next (s.icEdge k.val) := by
  rw [exec_icSwiSet, execIcSwiSet, State.writeSwi, filter_testBit_two_pow]
  rfl

-- Delivery to a core --------------------------------------------------------------------------------------------

/-- With no source's register written, none is presented. -/
theorem State.bestSource_of_untouched {s : State} (h : s.touchedSources = []) (c : Nat) : s.bestSource c = none := by
  unfold State.bestSource
  rw [h]
  rfl

/-- What is shown of a core's service leaves every core. -/
theorem State.showService_core (s : State) (c k : Nat) : (s.showService c).core k = s.core k := by
  unfold State.showService
  dsimp only
  split
  · rw [State.core_setFld, State.core_setFld, State.core_setFld]
  · rw [State.core_setFld, State.core_setFld, State.core_setFld]

theorem State.showService_depth (s : State) (c : Nat) :
    (s.showService c).fld (F.IC_CORE_DEPTH c) = (s.core c).service.length % 2 ^ (F.IC_CORE_DEPTH c).width := by
  unfold State.showService
  dsimp only
  split
  · rw [State.fld_setFld_apart _ _ _ _ (Fld.apart_of_bits rfl), State.fld_setFld_apart _ _ _ _ (Fld.apart_of_bits rfl)]
    exact State.fld_setFld _ _ _ rfl
  · rw [State.fld_setFld_apart _ _ _ _ (Fld.apart_of_bits rfl), State.fld_setFld_apart _ _ _ _ (Fld.apart_of_bits rfl)]
    exact State.fld_setFld _ _ _ rfl

theorem State.showService_free (s : State) (c : Nat) : (s.showService c).free = s.free := by
  unfold State.showService
  dsimp only
  split
  · rw [State.setFld_free, State.setFld_free, State.setFld_free]
  · rw [State.setFld_free, State.setFld_free, State.setFld_free]

/-- The source is delivered to the core, which begins its vector (R414). -/
def State.vectorTaken (s : State) (c n p : Nat) (r : CoreRegs) (pc : Word) : State :=
  let s := s.icDelivered n
  let s := { s with mss := { s.mss with lastTo := Tbl.put (fun _ => none) s.mss.lastTo n (some c) } }
  s.updCore c fun x => { x with
    r := trapRegs r 0x8000000B#32 0 pc, traps := pushTrap true x.traps, service := (n, p) :: x.service, wfi := false
    icache := fillLine x.icache pc.toNat }

theorem State.icDelivered_core (s : State) (n k : Nat) : (s.icDelivered n).core k = s.core k := by
  unfold State.icDelivered
  rw [State.when]
  split
  · rw [State.core_setFlag, State.core_setFlag]
  · rw [State.core_setFlag]

theorem State.vectorTaken_core (s : State) (c n p : Nat) (r : CoreRegs) (pc : Word) :
    (s.vectorTaken c n p r pc).core c = { s.core c with
      r := trapRegs r 0x8000000B#32 0 pc, traps := pushTrap true (s.core c).traps, service := (n, p) :: (s.core c).service
      wfi := false, icache := fillLine (s.core c).icache pc.toNat } := by
  unfold State.vectorTaken
  dsimp only
  rw [State.core_updCore_same]
  have hcore := s.icDelivered_core n c
  unfold State.core at hcore ⊢
  dsimp only
  rw [hcore]

/-- A delivery leaves the address map. -/
theorem State.vectorTaken_coreTarget (s : State) {c : Nat} (hc : c < 4) (n p : Nat) (r : CoreRegs) (pc : Word) (a : Nat) :
    ((s.vectorTaken c n p r pc).showService c).coreTarget a = s.coreTarget a := by
  have hdel : (s.icDelivered n).flag F.MSS_BOOT_REMAP = s.flag F.MSS_BOOT_REMAP := by
    unfold State.icDelivered
    rw [State.when]
    split
    · rw [State.flag_setFlag_apart _ _ _ _ (Fld.apart_of_bits rfl), State.flag_setFlag_apart _ _ _ _ (Fld.apart_of_bits rfl)]
    · rw [State.flag_setFlag_apart _ _ _ _ (Fld.apart_of_bits rfl)]
  have hboot : R.IC_CORE c ≠ R.MSS_BOOT := by
    unfold R.IC_CORE R.MSS_BOOT
    omega
  have hshow : ((s.vectorTaken c n p r pc).showService c).flag F.MSS_BOOT_REMAP =
      (s.vectorTaken c n p r pc).flag F.MSS_BOOT_REMAP :=
    State.flag_congr (by rw [State.fld, State.fld, State.showService_reg (o := F.MSS_BOOT_REMAP.reg) _ _ hboot])
  rw [State.coreTarget, State.coreTarget, hshow, ← hdel]
  rfl

theorem State.fetchDenied_of_sram {s : State} {a off : Nat} (h : s.coreTarget a = some (.sram off)) (c : Nat)
    (machine : Bool) : s.fetchDenied c machine a = none := by
  unfold State.fetchDenied
  rw [h]

/-- A core whose vector lies in working SRAM takes the source presented to it. -/
theorem execVectorFetch_of_taken {s : State} {c : Fin 4} {r : CoreRegs} {n off : Nat}
    (hb : (s.updCore c fun x => { x with r := r }).bestSource c = some (n, false)) (hm : r.mie = true) (he : r.meie = true)
    (ho : s.coreOffline c = false) (hp : s.abovePrio c (s.fld (F.IC_SRC_PRIO n)) = true)
    (ht : s.coreTarget (BitVec.ofNat 32 ((s.reg (R.IC_VTBASE c)).toNat + 8 * n)).toNat = some (.sram off)) :
    exec (.vectorFetch c r) s =
      .next (((s.updCore c fun x => { x with r := r }).vectorTaken c.val n (s.fld (F.IC_SRC_PRIO n)) r
        (BitVec.ofNat 32 ((s.reg (R.IC_VTBASE c)).toNat + 8 * n))).showService c.val) := by
  have hprio : (s.updCore c fun x => { x with r := r }).abovePrio c (s.fld (F.IC_SRC_PRIO n)) = true := by
    unfold State.abovePrio at hp ⊢
    rw [State.core_updCore_same]
    exact hp
  have hoff : (s.updCore c fun x => { x with r := r }).coreOffline c = false := ho
  have hpc : (s.updCore c fun x => { x with r := r }).coreTarget
      (BitVec.ofNat 32 ((s.reg (R.IC_VTBASE c)).toNat + 8 * n)).toNat = some (.sram off) := ht
  have hprioOf : (s.updCore c fun x => { x with r := r }).fld (F.IC_SRC_PRIO n) = s.fld (F.IC_SRC_PRIO n) := rfl
  have hvt : (s.updCore c fun x => { x with r := r }).reg (R.IC_VTBASE c) = s.reg (R.IC_VTBASE c) := rfl
  rw [exec_vectorFetch]
  unfold execVectorFetch
  dsimp only
  generalize (s.updCore c fun x => { x with r := r }) = u at hb hprio hoff hpc hprioOf hvt ⊢
  rw [hb]
  dsimp only
  rw [hprioOf, hvt, hm, he, hoff, hprio, if_neg (by decide), State.when_false]
  have hfetch := State.fetchDenied_of_sram ((u.vectorTaken_coreTarget c.isLt n (s.fld (F.IC_SRC_PRIO n)) r
    (BitVec.ofNat 32 ((s.reg (R.IC_VTBASE c)).toNat + 8 * n)) _).trans hpc) c.val true
  unfold State.vectorTaken at hfetch ⊢
  dsimp only at hfetch ⊢
  rw [hfetch]

-- Traps and sleep -----------------------------------------------------------------------------------------------

/-- MRET in machine mode with a kept trap. -/
theorem execMret_of_trap {s : State} {c : Fin 4} {r : CoreRegs} {b : Bool} {l : List Bool} (hu : r.user = false)
    (ht : (s.core c).traps = b :: l) :
    exec (.mret c r) s = .next (((s.updCore c fun x => { x with r := r }).updCore c fun x => { x with
      traps := x.traps.drop 1, service := if b then x.service.drop 1 else x.service
      r := { r with pc := r.mepc, user := r.mppUser, mie := r.mpie, mpie := true, mppUser := true } }).showService c.val) := by
  have htraps : ((s.updCore c fun x => { x with r := r }).core c).traps = b :: l := by
    rw [State.core_updCore_same]
    exact ht
  rw [exec_mret]
  unfold execMret
  dsimp only
  rw [if_neg (by rw [hu]; exact Bool.false_ne_true), htraps]

/-- MRET in machine mode with no trap kept pops a free bit. -/
theorem execMret_of_no_trap {s : State} {c : Fin 4} {r : CoreRegs} (hu : r.user = false) (ht : (s.core c).traps = []) :
    ∃ b : Bool, exec (.mret c r) s = .next (((((s.updCore c fun x => { x with r := r }).fresh 1).2).updCore c fun x => { x with
      traps := x.traps.drop 1, service := if b then x.service.drop 1 else x.service
      r := { r with pc := r.mepc, user := r.mppUser, mie := r.mpie, mpie := true, mppUser := true } }).showService c.val) := by
  have htraps : ((s.updCore c fun x => { x with r := r }).core c).traps = [] := by
    rw [State.core_updCore_same]
    exact ht
  refine ⟨((s.updCore c fun x => { x with r := r }).fresh 1).1 == 1#1, ?_⟩
  rw [exec_mret]
  unfold execMret
  dsimp only
  rw [if_neg (by rw [hu]; exact Bool.false_ne_true), htraps]

/-- Settles O51: a core takes what is presented to it, returns, sleeps and traps, and sources are armed, set and resumed. -/
theorem interrupts : Obligations.Interrupts := by
  unfold Obligations.Interrupts
  intro s c r
  refine ⟨fun h => ?noSource, fun n off hb hm he ho hp ht => ?taken, fun hu => ?userMret, fun b l hu ht => ?mret,
    fun hu ht => ?emptyMret, ?wfi, fun cause tval hx => ?trap, fun cause tval a b hx => ?excTrap,
    fun n h => ?edge, fun n h hraw => ?levelOff, fun n h hraw => ?levelOn, fun k => execIcSwiSet_of_one s k, ?noSwi,
    fun v => exec_icHostSet s, fun n h => ?stormEnds, fun n h => ?noStorm⟩
  case noSource =>
    have h : exec (.vectorFetch c r) s = .next (s.updCore c.val fun x => { x with r := r }) := by
      rw [exec_vectorFetch]
      unfold execVectorFetch
      dsimp only
      rw [State.bestSource_of_untouched (s := s.updCore c.val fun x => { x with r := r }) h]
    refine Completes.intro h ⟨?_, rfl, ?_⟩
    · rw [State.core_updCore_same]
    · rw [State.core_updCore_same]
  case taken =>
    refine Completes.intro (execVectorFetch_of_taken hb hm he ho hp ht) ⟨?_, ?_, ?_, ?_⟩
    · rw [State.showService_core, State.vectorTaken_core]
    · rw [State.showService_core, State.vectorTaken_core, State.core_updCore_same]
    · rw [State.showService_core, State.vectorTaken_core]
    · rw [State.showService_core, State.vectorTaken_core, State.core_updCore_same]
  case userMret =>
    have h : exec (.mret c r) s = .next ((s.updCore c.val fun x => { x with r := r }).raiseExc c.val 2 0) := by
      rw [exec_mret]
      unfold execMret
      exact if_pos hu
    refine Completes.intro h ⟨?_, ?_, rfl⟩
    · rw [State.raiseExc, State.core_updCore_same]
    · rw [State.raiseExc, State.core_updCore_same, State.core_updCore_same]
  case mret =>
    refine Completes.intro (execMret_of_trap hu ht) ⟨?_, ?_, ?_, ?_, ?_⟩
    · rw [State.showService_core, State.core_updCore_same, State.core_updCore_same, ht]
      rfl
    · rw [State.showService_core, State.core_updCore_same, State.core_updCore_same]
    · rw [State.showService_core, State.core_updCore_same]
    · rw [State.showService_depth, State.showService_core]
    · rw [State.showService_free]
      rfl
  case emptyMret =>
    obtain ⟨b, h⟩ := execMret_of_no_trap hu ht
    refine Completes.intro h ⟨?_, ?_, ?_⟩
    · rw [State.showService_core, State.core_updCore_same]
      show (((s.updCore c.val fun x => { x with r := r }).core c.val).traps).drop 1 = []
      rw [State.core_updCore_same]
      dsimp only
      rw [ht]
      rfl
    · rw [State.showService_free]
      rfl
    · rw [State.showService_core, State.core_updCore_same]
  case wfi =>
    have h : exec (.wfi c r) s = .next ((s.updCore c.val fun x => { x with r := r }).updCore c.val fun x =>
        { x with wfi := ((s.updCore c.val fun x => { x with r := r }).bestSource c.val).isNone }) := exec_wfi s
    refine Completes.intro h ⟨?_, ?_, fun k hk => ?_, rfl⟩
    · rw [State.core_updCore_same]
    · rw [State.core_updCore_same, State.core_updCore_same]
    · rw [State.core_updCore_ne _ _ _ _ (Ne.symm hk), State.core_updCore_ne _ _ _ _ (Ne.symm hk)]
  case trap =>
    have h : exec (.trapEntry c r cause tval) s = .next (s.updCore c.val fun x => { x with
        r := trapRegs r cause tval (trapTarget r.mtvec cause), exc := none, traps := pushTrap false x.traps, wfi := false }) := by
      rw [exec_trapEntry]
      unfold execTrapEntry
      dsimp only
      rw [hx]
    refine Completes.intro h ⟨?_, ?_, ?_, ?_, fun k hk => State.core_updCore_ne _ _ _ _ (Ne.symm hk), rfl⟩
    · rw [State.core_updCore_same]
    · rw [State.core_updCore_same]
    · rw [State.core_updCore_same]
    · rw [State.core_updCore_same]
  case excTrap =>
    have h : exec (.trapEntry c r cause tval) s = .next (s.updCore c.val fun x => { x with
        r := trapRegs r (BitVec.ofNat 32 a) (BitVec.ofNat 32 b) (trapTarget r.mtvec (BitVec.ofNat 32 a)), exc := none
        traps := pushTrap false x.traps, wfi := false }) := by
      rw [exec_trapEntry]
      unfold execTrapEntry
      dsimp only
      rw [hx]
    refine Completes.intro h ⟨?_, ?_⟩
    · rw [State.core_updCore_same]
    · rw [State.core_updCore_same]
  case edge => rw [exec_arm, execArm, State.armSource_of_edge h]
  case levelOff =>
    have hx : exec (.arm n) s = .next (s.setFlag (F.IC_SRC_HELD n.val) false) := by
      rw [exec_arm, execArm, State.armSource_of_level h]
      exact congrArg _ (if_neg (by rw [hraw]; exact Bool.false_ne_true))
    exact Completes.intro hx ⟨State.flag_setFlag _ _ _ rfl rfl,
      (OnlyFields.refl [F.IC_SRC_HELD n.val] s).setFlag _ _ (List.mem_singleton.mpr rfl)⟩
  case levelOn =>
    rw [exec_arm, execArm, State.armSource_of_level h]
    exact congrArg _ (if_pos hraw)
  case noSwi =>
    have hf : (List.range 16).filter (0#32).toNat.testBit = [] := by decide
    rw [exec_icSwiSet, execIcSwiSet, State.writeSwi]
    exact congrArg (fun l => Host.Outcome.next (l.foldl (fun s k => s.icEdge k) s)) hf
  case stormEnds =>
    rw [exec_stormEnd, execStormEnd]
    exact congrArg _ (if_pos h)
  case noStorm =>
    rw [exec_stormEnd, execStormEnd]
    exact congrArg _ (if_neg (by rw [h]; exact Bool.false_ne_true))

end Sys2Proof.Machine
end

section
/-!
PROOFS. Core counters and instruction tags (spec 14): what an advance of a counter keeps, and the halves, events, overflows and
samples.
-/
namespace Sys2Proof.Machine
open Sys2Proof

-- Counters ------------------------------------------------------------------------------------------------------

theorem State.counter_setCounter (s : State) (c k v : Nat) : (s.setCounter c k v).counter c k = v % 2 ^ counterWidth k := by
  rw [State.counter, State.setCounter, State.core_updCore_same, Tbl.get_put_same]

theorem signalReg_perfOvf {c : Nat} (hc : c < 4) : signalReg (R.MSS_PERF_OVF c) = false := by
  have h : ∀ c : Fin 4, signalReg (R.MSS_PERF_OVF c) = false := by decide
  exact h ⟨c, hc⟩

/-- An overflow sets the counter's flag; all else is its interrupt. -/
theorem State.overflow_signals (s : State) {c : Nat} (hc : c < 4) (k : Nat) :
    Signals (s.setFlag ⟨R.MSS_PERF_OVF c, k - 1, 1⟩ true) (s.overflow c k) :=
  Signals.ite (State.icRaise_signals (.refl _) (by omega)) (.refl _)

/-- An advance sets the counter, and may overflow it. -/
theorem State.advance_cases (s : State) (c k adv : Nat) :
    s.advance c k adv = (s.setCounter c k (s.counter c k + if s.counts c k then adv else 0)).overflow c k ∨
      s.advance c k adv = s.setCounter c k (s.counter c k + if s.counts c k then adv else 0) := ite_eq_or_eq _ _ _

/-- A counter advances within its core's counters. -/
theorem State.advance_core (s : State) {c : Nat} (hc : c < 4) (k adv : Nat) :
    (s.advance c k adv).core c = { s.core c with
      counters := Tbl.put (fun _ => 0) (s.core c).counters k ((s.counter c k + if s.counts c k then adv else 0) % 2 ^ counterWidth k)
      wfi := ((s.advance c k adv).core c).wfi } := by
  rcases s.advance_cases c k adv with h | h <;> rw [h]
  · rw [(State.overflow_signals _ hc k).core, State.core_setFlag, State.setCounter, State.core_updCore_same]
  · rw [State.setCounter, State.core_updCore_same]

theorem State.advance_rdata (s : State) {c : Nat} (hc : c < 4) (k adv : Nat) : (s.advance c k adv).rdata = s.rdata := by
  rcases s.advance_cases c k adv with h | h <;> rw [h]
  · exact (State.overflow_signals _ hc k).rdata
  · rfl

theorem State.advance_fld (s : State) {c : Nat} (hc : c < 4) (k adv : Nat) (f : Fld) (hf : signalReg f.reg = false)
    (ho : R.MSS_PERF_OVF c ≠ f.reg) : (s.advance c k adv).fld f = s.fld f := by
  rcases s.advance_cases c k adv with h | h <;> rw [h]
  · rw [(State.overflow_signals _ hc k).fld f hf, State.setFlag, State.fld_setFld_apart _ _ _ _ (Fld.apart_of_reg ho)]
    rfl
  · rfl

theorem State.advance_counter (s : State) {c : Nat} (hc : c < 4) (k adv : Nat) :
    (s.advance c k adv).counter c k = (s.counter c k + if s.counts c k then adv else 0) % 2 ^ counterWidth k := by
  rw [State.counter, State.advance_core s hc, Tbl.get_put_same]

theorem State.advance_shadow (s : State) {c : Nat} (hc : c < 4) (k adv : Nat) :
    ((s.advance c k adv).core c).shadow = (s.core c).shadow := by
  rw [State.advance_core s hc]

theorem State.advance_userRd (s : State) {c : Nat} (hc : c < 4) (k adv : Nat) : (s.advance c k adv).userRd c = s.userRd c := by
  have hne : R.MSS_PERF_OVF c ≠ F.MSS_PERF_CTL_USER_RD.reg := by
    show R.MSS_PERF_OVF c ≠ R.MSS_PERF_CTL
    unfold R.MSS_PERF_OVF R.MSS_PERF_CTL
    omega
  rw [State.userRd, State.userRd, State.advance_fld s hc k adv _ rfl hne]

/-- A permitted read of a counter's low half. -/
theorem execCounterRead_low {s : State} {c : Fin 4} {user : Bool} {k : Fin 9} {adv : Nat} (h : user = false ∨ s.userRd c = true) :
    exec (.counterRead c user k false adv) s = .next (((s.advance c k adv).setShadow c k
      (some ((s.advance c k adv).counter c k / 2 ^ 32))).setRdata (.core c (!user)) (BitVec.ofNat 32 ((s.advance c k adv).counter c k))) := by
  have hok : ¬ (user && !(s.advance c k adv).userRd c) = true := by
    rw [State.advance_userRd s c.isLt]
    rcases h with hu | hu
    · rw [hu]; exact Bool.false_ne_true
    · rw [hu, Bool.not_true, Bool.and_false]; exact Bool.false_ne_true
  rw [exec_counterRead]
  unfold execCounterRead
  dsimp only
  rw [if_neg hok]
  rfl

/-- A read of a counter's high half in machine mode with a valid shadow. -/
theorem execCounterRead_high {s : State} {c : Fin 4} {k : Fin 9} {adv v : Nat}
    (h : Tbl.get (fun _ => none) (s.core c).shadow k.val = some v) :
    exec (.counterRead c false k true adv) s =
      .next (((s.advance c k adv).setShadow c k none).setRdata (.core c true) (BitVec.ofNat 32 v)) := by
  rw [exec_counterRead]
  unfold execCounterRead
  dsimp only
  rw [State.advance_shadow s c.isLt, h]
  rfl

/-- A counter read that user mode may not make is an illegal instruction. -/
theorem execCounterRead_of_denied {s : State} {c : Fin 4} (h : s.userRd c = false) (k : Fin 9) (high : Bool) (adv : Nat) :
    exec (.counterRead c true k high adv) s = .next ((s.advance c k adv).raiseExc c 2 0) := by
  rw [exec_counterRead]
  unfold execCounterRead
  dsimp only
  rw [State.advance_userRd s c.isLt, h]
  rfl

theorem execCounterWrite_low (s : State) (c : Fin 4) (k : Fin 9) (v : Word) (adv : Nat) :
    exec (.counterWrite c false k .low v adv) s = .next (((s.advance c k adv).setCounter c k
      (putBits ((s.advance c k adv).counter c k) 0 32 v.toNat)).setShadow c k none) := exec_counterWrite s

theorem execCounterWrite_high (s : State) (c : Fin 4) (k : Fin 9) (v : Word) (adv : Nat) :
    exec (.counterWrite c false k .high v adv) s = .next (((s.advance c k adv).setCounter c k
      (putBits ((s.advance c k adv).counter c k) 32 32 v.toNat)).setShadow c k none) := exec_counterWrite s

theorem State.counter_setShadow (s : State) (c k : Nat) (v : Option Nat) : (s.setShadow c k v).counter c k = s.counter c k := by
  rw [State.counter, State.setShadow, State.core_updCore_same]
  rfl

theorem State.shadow_setShadow (s : State) (c k : Nat) (v : Option Nat) :
    Tbl.get (fun _ => none) ((s.setShadow c k v).core c).shadow k = v := by
  rw [State.setShadow, State.core_updCore_same, Tbl.get_put_same]

/-- A written low half stands, whatever the width of the counter. -/
theorem mod_putBits_low (x v k : Nat) (hv : v < 2 ^ 32) : putBits x 0 32 v % 2 ^ counterWidth k % 2 ^ 32 = v := by
  rw [putBits_eq]
  unfold counterWidth
  split <;> omega

/-- A written high half stands as far as the counter's width goes. -/
theorem div_putBits_high (x v k : Nat) :
    putBits x 32 32 v % 2 ^ counterWidth k / 2 ^ 32 = v % 2 ^ (counterWidth k - 32) := by
  rw [putBits_eq]
  unfold counterWidth
  split <;> omega

/-- The event of a programmable counter is written to its core, and what its new overflow bits ask for is raised. -/
theorem execCounterWrite_event_events (s : State) {c : Fin 4} {k : Fin 9} (hk : k.val ≠ 0) (v : Word) (adv : Nat) :
    Completes (.counterWrite c false k .event v adv) s fun t =>
      Tbl.get (fun _ => 0) (t.core c).events k.val = (v &&& 0x800007FF#32).toNat := by
  let u := (s.advance c k adv).updCore c fun x => { x with events := Tbl.put (fun _ => 0) x.events k (v &&& 0x800007FF#32).toNat }
  have hexec : exec (.counterWrite c false k .event v adv) s = .next (if u.perfRaw c then u.icRaise (16 + c) else u) := by
    rw [exec_counterWrite]
    unfold execCounterWrite
    dsimp only
    rw [if_neg hk]
    rfl
  have hsig : Signals u (if u.perfRaw c then u.icRaise (16 + c) else u) :=
    .ite (State.icRaise_signals (.refl _) (by omega)) (.refl _)
  refine .intro hexec ?_
  rw [hsig.core]
  show Tbl.get (fun _ => 0) (u.core c).events k.val = _
  rw [State.core_updCore_same, Tbl.get_put_same]

-- Tags ----------------------------------------------------------------------------------------------------------

theorem State.drawTag_core (s : State) (c : Nat) : ((s.drawTag c).core c).tags = (s.core c).tags := by
  unfold State.drawTag
  dsimp only
  rw [State.core_updCore_same]
  rfl

theorem execTagSample_of_idle {s : State} {c : Fin 4} {u : Bool} (h : s.flag (F.MSS_TAG_CTL_EN c) = false ∨ s.tagMode c u = false)
    (pc : Word) (lat : Nat) (st : Fin 8) (miss : BitVec 4) (tr : Bool) : exec (.tagSample c pc lat st miss u tr) s = .next s := by
  rw [exec_tagSample]
  unfold execTagSample
  dsimp only
  refine if_pos ?_
  rcases h with h | h
  · rw [h]; rfl
  · rw [h, Bool.not_false, Bool.or_true]

/-- The word of a tag sample (R432). -/
def tagWord (lat : Nat) (st : Fin 8) (miss : BitVec 4) (u tr : Bool) : Nat :=
  2 ^ 31 + u.toNat * 2 ^ 30 + tr.toNat * 2 ^ 29 + miss.toNat * 2 ^ 25 + st.val * 2 ^ 20 + min 65535 lat

/-- A tag taken into the sample buffer. -/
def State.tagged (s : State) (c : Nat) (pc : Word) (w : Nat) : State :=
  ((s.drawTag c).updCore c fun x => { x with tags := x.tags ++ [{ pc := pc, word := BitVec.ofNat 32 w }] }).showTags c

theorem execTagSample_of_room {s : State} {c : Fin 4} {u : Bool} (he : s.flag (F.MSS_TAG_CTL_EN c) = true) (hm : s.tagMode c u = true)
    (hl : (s.core c).tags.length < 32) (pc : Word) (lat : Nat) (st : Fin 8) (miss : BitVec 4) (tr : Bool) :
    exec (.tagSample c pc lat st miss u tr) s = .next (if (s.tagged c pc (tagWord lat st miss u tr)).icRaw (20 + c) then
      (s.tagged c pc (tagWord lat st miss u tr)).icRaise (20 + c) else s.tagged c pc (tagWord lat st miss u tr)) := by
  rw [exec_tagSample]
  unfold execTagSample
  dsimp only
  rw [he, hm, if_neg (by decide), if_pos (by rw [State.drawTag_core]; exact hl)]
  rfl

theorem execTagSample_of_full {s : State} {c : Fin 4} {u : Bool} (he : s.flag (F.MSS_TAG_CTL_EN c) = true) (hm : s.tagMode c u = true)
    (hl : 32 ≤ (s.core c).tags.length) (pc : Word) (lat : Nat) (st : Fin 8) (miss : BitVec 4) (tr : Bool) :
    exec (.tagSample c pc lat st miss u tr) s = .next ((s.drawTag c).incFld (F.MSS_TAG_STAT_DROPPED c)) := by
  rw [exec_tagSample]
  unfold execTagSample
  dsimp only
  rw [he, hm, if_neg (by decide), if_neg (by rw [State.drawTag_core]; omega)]

theorem execMssTagSampleRead_of_sample (m : Master) {s : State} {c : Fin 4} {x : TagEntry} {l : List TagEntry}
    (h : (s.core c).tags = x :: l) :
    exec (.mssTagSampleRead m c) s = .next ((((s.updCore c fun y => { y with tags := l }).showTags c).latch m
      [(R.MSS_TAG_PC c, x.pc)]).setRdata m x.word) := by
  rw [exec_mssTagSampleRead]
  unfold execMssTagSampleRead State.popTag
  dsimp only
  rw [h]

/-- Settles O52: a counter advances, is read and written by halves, and overflows; a tag is queued, dropped and read. -/
theorem countersAndTags : Obligations.CountersAndTags := by
  unfold Obligations.CountersAndTags
  intro s c k
  refine ⟨fun adv h => ?advance, fun user adv h => ?readLow, fun v adv h => ?readHigh, fun h high adv => ?denied,
    fun v part adv => ?userWrite, fun v adv => ?writeLow, fun v adv => ?writeHigh,
    fun hk v adv => execCounterWrite_event_events s hk v adv, fun hk hc => ?overflow, fun h => ?noOverflow,
    fun pc lat st miss u tr h => execTagSample_of_idle h pc lat st miss tr, fun pc lat st miss u tr he hm hl => ?tagged,
    fun pc lat st miss u tr he hm hl => ?dropped, fun m h => ?noSample, fun m x l h => ?sample⟩
  case advance =>
    rw [State.advance_counter s c.isLt]
    refine Nat.mod_eq_of_lt (Nat.lt_of_le_of_lt (m := s.counter c k + adv) ?_ (Nat.lt_of_lt_of_le h ?_))
    · split <;> omega
    · unfold counterWidth
      split <;> decide
  case readLow => exact .intro (execCounterRead_low h) ⟨State.rdataOf_setRdata _ _ _, State.shadow_setShadow _ _ _ _⟩
  case readHigh => exact .intro (execCounterRead_high h) ⟨State.rdataOf_setRdata _ _ _, State.shadow_setShadow _ _ _ _⟩
  case denied =>
    refine .intro (execCounterRead_of_denied h k high adv) ⟨?_, State.advance_rdata s c.isLt k adv⟩
    rw [State.raiseExc, State.core_updCore_same]
  case userWrite =>
    refine .intro (t := (s.advance c k adv).raiseExc c 2 0) (exec_counterWrite s) ?_
    rw [State.raiseExc, State.core_updCore_same]
  case writeLow =>
    refine .intro (execCounterWrite_low s c k v adv) ⟨?_, State.shadow_setShadow _ _ _ _⟩
    rw [State.counter_setShadow, State.counter_setCounter]
    exact mod_putBits_low _ _ _ v.isLt
  case writeHigh =>
    refine .intro (execCounterWrite_high s c k v adv) ⟨?_, State.shadow_setShadow _ _ _ _⟩
    rw [State.counter_setShadow, State.counter_setCounter]
    exact div_putBits_high _ _ _
  case overflow =>
    have hexec : exec (.counterOverflow c k) s = .next ((s.setCounter c k 0).overflow c k) := by
      rw [exec_counterOverflow]
      refine congrArg _ (if_neg ?_)
      rw [hc]
      exact fun h => h.elim hk Bool.false_ne_true
    have hsig := State.overflow_signals (s.setCounter c k 0) c.isLt k
    refine .intro hexec ⟨?_, ?_⟩
    · rw [State.counter, hsig.core, State.core_setFlag]
      exact (State.counter_setCounter s c k 0).trans (Nat.zero_mod _)
    · rw [hsig.flag _ (signalReg_perfOvf c.isLt)]
      exact State.flag_setFlag _ _ _ (Nat.ble_eq_true_of_le (by have := k.isLt; show k.val - 1 + 1 ≤ 32; omega)) rfl
  case noOverflow =>
    rw [exec_counterOverflow]
    refine congrArg _ (if_pos (h.imp_right fun hc => ?_))
    rw [hc]
    rfl
  case tagged =>
    refine .intro (execTagSample_of_room he hm hl pc lat st miss tr) ?_
    rw [(Signals.ite (State.icRaise_signals (.refl _) (by omega)) (.refl _) : Signals (s.tagged c pc (tagWord lat st miss u tr)) _).core]
    show ((s.tagged c pc (tagWord lat st miss u tr)).core c).tags = _
    rw [State.tagged, State.showTags, State.core_setFld, State.core_updCore_same]
    show ((s.drawTag c).core c).tags ++ _ = _
    rw [State.drawTag_core]
    rfl
  case dropped =>
    refine .intro (execTagSample_of_full he hm hl pc lat st miss tr) ⟨?_, State.fld_incFld _ _ _ rfl, rfl⟩
    rw [State.incFld, State.core_setFld, State.drawTag_core]
  case noSample =>
    rw [exec_mssTagSampleRead]
    unfold execMssTagSampleRead State.popTag
    rw [h]
  case sample =>
    refine .intro (execMssTagSampleRead_of_sample m h) ⟨State.rdataOf_setRdata _ _ _, ?_, ?_⟩
    · rw [State.core_setRdata, State.latch]
      show (((s.updCore c fun y => { y with tags := l }).showTags c).core c).tags = l
      rw [State.showTags, State.core_setFld, State.core_updCore_same]
    · show ((s.updCore c fun y => { y with tags := l }).showTags c).fld (F.MSS_TAG_STAT_COUNT c) = _
      rw [State.showTags, State.fld_setFld _ _ _ rfl, State.core_updCore_same]

end Sys2Proof.Machine
end

section
/-!
PROOFS. Fences and atomics of a core (spec 13): bytes of working SRAM under a store, and reservations.
-/
namespace Sys2Proof.Machine
open Sys2Proof

-- Bytes of working SRAM -----------------------------------------------------------------------------------------

theorem leBytes_length (n v : Nat) : (leBytes n v).length = n := by
  induction n generalizing v with
  | zero => rfl
  | succ n ih => rw [leBytes, List.length_cons, ih]

/-- Bytes entered one by one in a table stand at their places. -/
theorem Tbl.get_enterBytes (bs : List Byte) (t : Tbl (Option Byte)) (off n j : Nat) :
    Tbl.get (fun _ => none) ((bs.zipIdx n).foldl (fun t (b, k) => Tbl.put (fun _ => none) t (off + k) (some b)) t) j =
      if off + n ≤ j ∧ j < off + n + bs.length then some (bs.getD (j - (off + n)) 0) else Tbl.get (fun _ => none) t j := by
  induction bs generalizing t n with
  | nil => exact (if_neg (by rw [List.length_nil]; omega)).symm
  | cons b bs ih =>
    rw [List.zipIdx_cons, List.foldl_cons, ih, Tbl.get_put, List.length_cons]
    by_cases hj : off + n = j
    · rw [if_neg (by omega), if_pos hj, if_pos (by omega), Nat.sub_eq_zero_of_le (Nat.le_of_eq hj.symm)]
      rfl
    · by_cases hin : off + (n + 1) ≤ j ∧ j < off + (n + 1) + bs.length
      · rw [if_pos hin, if_pos (by omega), show j - (off + n) = j - (off + (n + 1)) + 1 by omega]
        rfl
      · rw [if_neg hin, if_neg hj, if_neg (by omega)]

/-- A store to working SRAM that does not run over the end of the data memory. -/
theorem State.sramByte_storeSram (s : State) {off : Nat} {bs : List Byte} (h : off < 0x60000 → off + bs.length ≤ 0x60000) (b : Nat) :
    (s.updMss fun x => x.storeSram off bs).sramByte b =
      if off ≤ b ∧ b < off + bs.length then bs.getD (b - off) 0 else s.sramByte b := by
  unfold State.sramByte State.updMss Mss.storeSram
  dsimp only
  by_cases hoff : off < 0x60000
  · rw [if_pos hoff]
    by_cases hb : b < 0x60000
    · rw [if_pos hb, if_pos hb]
      exact Memory.read_writeBytes _ _ _ _
    · rw [if_neg hb, if_neg hb, if_neg (c := off ≤ b ∧ b < off + bs.length) (by have := h hoff; omega)]
      rfl
  · rw [if_neg hoff]
    by_cases hb : b < 0x60000
    · rw [if_pos hb, if_pos hb, if_neg (c := off ≤ b ∧ b < off + bs.length) (by omega)]
    · rw [if_neg hb, if_neg hb, Tbl.get_enterBytes bs _ off 0 b, Nat.add_zero]
      by_cases hin : off ≤ b ∧ b < off + bs.length
      · rw [if_pos hin, if_pos hin]
      · rw [if_neg hin, if_neg hin]
        rfl

/-- A store to working SRAM touches no core. -/
theorem State.core_storeSram (s : State) (off : Nat) (bs : List Byte) (k : Nat) :
    (s.updMss fun x => x.storeSram off bs).core k = s.core k := by
  unfold State.core State.updMss Mss.storeSram
  dsimp only
  split <;> rfl

/-- Working SRAM lies at whole words. -/
theorem busTarget_sram_mod {r : Bool} {a off : Nat} (h : busTarget r a = some (.sram off)) (ha : a % 4 = 0) : off % 4 = 0 := by
  unfold busTarget at h
  dsimp only at h
  split_ifs at h <;> simp only [Option.some.injEq, Target.sram.injEq, reduceCtorEq] at h <;> omega

-- Reservations --------------------------------------------------------------------------------------------------

/-- The end of core k's reservation of a block that core c stores to (R400). -/
def State.endResv (c : Nat) (b : Option Nat) (s : State) (k : Nat) : State :=
  if k ≠ c ∧ (s.core k).resv.isSome ∧ (s.core k).resv = b then s.updCore k fun x => { x with resv := none } else s

theorem State.storeWord_sram (s : State) (c off v : Nat) :
    s.storeWord c (.sram off) v =
      (List.range 4).foldl (State.endResv c (some (off / 64))) (s.updMss fun x => x.storeSram off (leBytes 4 v)) := rfl

/-- Ends of reservations touch the cores alone. -/
theorem State.endResv_kept {β : Type} (p : State → β) (hp : ∀ t k f, p (State.updCore t k f) = p t) (c : Nat) (b : Option Nat)
    (ks : List Nat) (s : State) : p (ks.foldl (State.endResv c b) s) = p s := by
  refine foldl_keeps p ks (fun t k _ => ?_) s
  unfold State.endResv
  split
  · exact hp _ _ _
  · rfl

/-- The storing core's own reservation is not among those that end. -/
theorem State.endResv_own (c : Nat) (b : Option Nat) (ks : List Nat) (s : State) :
    ((ks.foldl (State.endResv c b) s).core c) = s.core c := by
  refine foldl_keeps (fun t => t.core c) ks (fun t k _ => ?_) s
  unfold State.endResv
  split
  case isTrue h => exact State.core_updCore_ne _ _ _ _ h.1
  case isFalse => rfl

theorem State.endResv_resv (c : Nat) (b : Nat) (ks : List Nat) (s : State) {k : Nat} (hc : (s.core c).resv ≠ some b)
    (hk : (s.core k).resv ≠ some b ∨ k ∈ ks) : ((ks.foldl (State.endResv c (some b)) s).core k).resv ≠ some b := by
  induction ks generalizing s with
  | nil => exact hk.resolve_right List.not_mem_nil
  | cons j ks ih =>
    have hstep : ∀ i, ((State.endResv c (some b) s j).core i).resv ≠ some b ∨
        i ≠ j ∧ (State.endResv c (some b) s j).core i = s.core i := by
      intro i
      unfold State.endResv
      split
      case isTrue h =>
        by_cases hi : j = i
        · rw [← hi, State.core_updCore_same]
          exact Or.inl (by simp)
        · exact Or.inr ⟨Ne.symm hi, State.core_updCore_ne _ _ _ _ hi⟩
      case isFalse h =>
        by_cases hi : j = i
        · subst hi
          refine Or.inl fun hr => ?_
          by_cases hjc : j = c
          · exact hc (hjc ▸ hr)
          · exact h ⟨hjc, by rw [hr]; rfl, hr⟩
        · exact Or.inr ⟨Ne.symm hi, rfl⟩
    have hkeep : ∀ i, (s.core i).resv ≠ some b → ((State.endResv c (some b) s j).core i).resv ≠ some b := by
      intro i hi
      rcases hstep i with h | ⟨-, h⟩
      · exact h
      · rw [h]; exact hi
    refine ih _ (hkeep c hc) ?_
    rcases hk with hk | hk
    · exact Or.inl (hkeep k hk)
    · rcases hstep k with h | ⟨hne, -⟩
      · exact Or.inl h
      · exact Or.inr ((List.mem_cons.mp hk).resolve_left hne)

/-- A word stored to working SRAM. -/
theorem State.sramByte_storeWord (s : State) (c v : Nat) {off : Nat} (h : off % 4 = 0) (b : Nat) :
    (s.storeWord c (.sram off) v).sramByte b =
      if off ≤ b ∧ b < off + 4 then (leBytes 4 v).getD (b - off) 0 else s.sramByte b := by
  have hfit : off < 0x60000 → off + (leBytes 4 v).length ≤ 0x60000 := by
    rw [leBytes_length]
    omega
  rw [State.storeWord_sram, State.endResv_kept (fun t => t.sramByte b) (fun _ _ _ => rfl), State.sramByte_storeSram s hfit,
    leBytes_length]

theorem State.sramByte_storeWord_in (s : State) (c v : Nat) {off : Nat} (h : off % 4 = 0) {i : Nat} (hi : i < 4) :
    (s.storeWord c (.sram off) v).sramByte (off + i) = (leBytes 4 v).getD i 0 := by
  rw [State.sramByte_storeWord s c v h, if_pos (by omega), Nat.add_sub_cancel_left]

theorem State.sramByte_storeWord_out (s : State) (c v : Nat) {off : Nat} (h : off % 4 = 0) {b : Nat} (hb : b < off ∨ off + 4 ≤ b) :
    (s.storeWord c (.sram off) v).sramByte b = s.sramByte b := by
  rw [State.sramByte_storeWord s c v h, if_neg (by omega)]

theorem State.storeWord_regs (s : State) (c off v : Nat) : (s.storeWord c (.sram off) v).regs = s.regs := by
  rw [State.storeWord_sram, State.endResv_kept (fun t => t.regs) (fun _ _ _ => rfl)]
  rfl

-- Atomics -------------------------------------------------------------------------------------------------------

/-- An atomic access of a running core to a word of working SRAM is made. -/
theorem State.atomic_of_sram {s : State} {c a off : Nat} (hon : s.coreOn c = true) (ha : a % 4 = 0)
    (ht : s.coreTarget a = some (.sram off)) (machine load : Bool) (act : Target → State → State) :
    s.atomic c machine load a act = act (.sram off) s := by
  unfold State.atomic
  rw [hon, if_neg (by decide), if_neg (by omega)]
  dsimp only
  rw [ht]

/-- A misaligned atomic access is an exception. -/
theorem State.atomic_of_misaligned {s : State} {c a : Nat} (hon : s.coreOn c = true) (ha : a % 4 ≠ 0) (machine load : Bool)
    (act : Target → State → State) : s.atomic c machine load a act = s.raiseExc c (if load then 4 else 6) a := by
  unfold State.atomic
  rw [hon, if_neg (by decide), if_pos ha]

/-- A core in reset makes no atomic access. -/
theorem State.atomic_of_off {s : State} {c : Nat} (hon : s.coreOn c = false) (machine load : Bool) (a : Nat)
    (act : Target → State → State) : s.atomic c machine load a act = s := by
  unfold State.atomic
  rw [hon]
  rfl

/-- SC gives up the reservation of its core. -/
def State.unreserved (s : State) (c : Nat) : State := s.updCore c fun x => { x with resv := none }

section
variable {s : State} {c : Fin 4} (mach : Bool) {a : Word} (v : Word) {off : Nat}

theorem execLrW_of_sram (hon : s.coreOn c = true) (ha : a.toNat % 4 = 0) (ht : s.coreTarget a.toNat = some (.sram off)) :
    exec (.lrW c mach a .good) s = .next ((s.updCore c fun x => { x with resv := some (off / 64) }).setRdata (.core c mach)
      (BitVec.ofNat 32 (leNat ((List.range 4).map fun i => s.sramByte (off + i))))) := by
  rw [exec_lrW]
  unfold execLrW
  rw [State.atomic_of_sram hon ha ht]
  rfl

theorem execScW_of_on (hon : s.coreOn c = true) :
    exec (.scW c mach a v) s = .next ((s.unreserved c).atomic c mach false a.toNat fun t u =>
      if (s.core c).resv.isSome ∧ (s.core c).resv = blockOf t then (u.storeWord c t v.toNat).setRdata (.core c mach) 0
      else u.setRdata (.core c mach) 1) := by
  rw [exec_scW]
  unfold execScW
  dsimp only
  rw [hon, State.when_true]
  rfl

theorem execScW_of_held (hon : s.coreOn c = true) (ha : a.toNat % 4 = 0) (ht : s.coreTarget a.toNat = some (.sram off))
    (hr : (s.core c).resv = some (off / 64)) :
    exec (.scW c mach a v) s = .next (((s.unreserved c).storeWord c (.sram off) v.toNat).setRdata (.core c mach) 0) := by
  rw [execScW_of_on mach v hon, State.atomic_of_sram (s := s.unreserved c) hon ha ht, hr, if_pos ⟨rfl, rfl⟩]

theorem execScW_of_none (hon : s.coreOn c = true) (ha : a.toNat % 4 = 0) (ht : s.coreTarget a.toNat = some (.sram off))
    (hr : (s.core c).resv = none) : exec (.scW c mach a v) s = .next ((s.unreserved c).setRdata (.core c mach) 1) := by
  rw [execScW_of_on mach v hon, State.atomic_of_sram (s := s.unreserved c) hon ha ht, hr,
    if_neg fun h => Bool.false_ne_true h.1]

theorem execAmo_of_sram (op : AmoOp) (hon : s.coreOn c = true) (ha : a.toNat % 4 = 0)
    (ht : s.coreTarget a.toNat = some (.sram off)) :
    exec (.amo c mach op a v .good) s = .next ((s.storeWord c (.sram off)
      (amoResult op (BitVec.ofNat 32 (leNat ((List.range 4).map fun i => s.sramByte (off + i)))) v).toNat).setRdata (.core c mach)
      (BitVec.ofNat 32 (leNat ((List.range 4).map fun i => s.sramByte (off + i))))) := by
  rw [exec_amo]
  unfold execAmo
  rw [State.atomic_of_sram hon ha ht]
  rfl

end

/-- Settles O53: LR reserves, SC stores under its reservation alone, and an AMO stores its result, word by word. -/
theorem atomics : Obligations.Atomics := by
  unfold Obligations.Atomics
  intro s c mach a v
  refine ⟨rfl, ?fenceI, fun off hon ha ht => ⟨?lr, fun hr => ?sc, fun hr => ?scFails, fun op => ?amo⟩,
    fun hon ha => ⟨?lrMisaligned, ?scMisaligned⟩, fun hoff => ⟨?lrOff, ?scOff, fun op => ?amoOff⟩⟩
  case fenceI =>
    refine .intro (t := s.updCore c fun x => { x with icache := [] }) (exec_fenceI s) ⟨?_, fun k hk => ?_, rfl⟩
    · rw [State.core_updCore_same]
    · exact State.core_updCore_ne _ _ _ _ (Ne.symm hk)
  case lr =>
    refine .intro (execLrW_of_sram mach hon ha ht) ⟨?_, State.rdataOf_setRdata _ _ _, fun b => rfl, rfl, fun k hk => ?_⟩
    · rw [State.core_setRdata, State.core_updCore_same]
    · rw [State.core_setRdata]
      exact State.core_updCore_ne _ _ _ _ (Ne.symm hk)
  case sc =>
    have hoff : off % 4 = 0 := busTarget_sram_mod ht ha
    have hown : ((s.unreserved c).core c).resv = none := by rw [State.unreserved, State.core_updCore_same]
    refine .intro (execScW_of_held mach v hon ha ht hr) ⟨State.rdataOf_setRdata _ _ _, fun i hi => ?_, fun b hb => ?_, ?_,
      fun k hk => ?_, State.storeWord_regs _ _ _ _⟩
    · exact State.sramByte_storeWord_in (s.unreserved c) c v.toNat hoff hi
    · exact State.sramByte_storeWord_out (s.unreserved c) c v.toNat hoff hb
    · rw [State.core_setRdata, State.storeWord_sram, State.endResv_own, State.core_storeSram]
      exact hown
    · rw [State.core_setRdata, State.storeWord_sram]
      refine State.endResv_resv _ _ _ _ ?_ (Or.inr (List.mem_range.mpr hk))
      rw [State.core_storeSram, hown]
      exact Option.some_ne_none _ |>.symm
  case scFails =>
    exact .intro (execScW_of_none mach v hon ha ht hr) ⟨State.rdataOf_setRdata _ _ _, fun b => rfl, rfl⟩
  case amo =>
    have hoff : off % 4 = 0 := busTarget_sram_mod ht ha
    refine .intro (execAmo_of_sram mach v op hon ha ht) ?_
    dsimp only
    generalize BitVec.ofNat 32 (leNat ((List.range 4).map fun i => s.sramByte (off + i))) = old
    refine ⟨State.rdataOf_setRdata _ _ _, State.storeWord_regs _ _ _ _, fun i hi => ?_, fun b hb => ?_⟩
    · exact State.sramByte_storeWord_in s c (amoResult op old v).toNat hoff hi
    · exact State.sramByte_storeWord_out s c (amoResult op old v).toNat hoff hb
  case lrMisaligned =>
    refine .intro (t := s.raiseExc c 4 a.toNat) ?_ ⟨?_, ?_, rfl, rfl⟩
    · rw [exec_lrW, execLrW, State.atomic_of_misaligned hon ha]
      rfl
    · rw [State.raiseExc, State.core_updCore_same]
    · rw [State.raiseExc, State.core_updCore_same]
  case scMisaligned =>
    refine .intro (t := (s.unreserved c).raiseExc c 6 a.toNat) ?_ ⟨?_, rfl, rfl, ?_⟩
    · rw [execScW_of_on mach v hon, State.atomic_of_misaligned (s := s.unreserved c) hon ha]
      rfl
    · rw [State.raiseExc, State.core_updCore_same]
    · rw [State.raiseExc, State.core_updCore_same, State.unreserved, State.core_updCore_same]
  case lrOff => rw [exec_lrW, execLrW, State.atomic_of_off hoff]
  case scOff =>
    rw [exec_scW]
    unfold execScW
    dsimp only
    rw [hoff, State.when_false, State.atomic_of_off hoff]
  case amoOff => rw [exec_amo, execAmo, State.atomic_of_off hoff]

end Sys2Proof.Machine
end

section
/-!
PROOFS. The life cycle, the firmware trial and the rollback count (spec 15): their writes under the key, and what each changes.
-/
namespace Sys2Proof.Machine
open Sys2Proof

-- Writes of the security registers ------------------------------------------------------------------------------

theorem State.secWrite_of_other {m : Master} (h : isCore0Machine m = false) (s : State) (off : Nat) (b : Bool) (act : State → State) :
    s.secWrite m off b act = s.writeRefused m off := by
  rw [State.secWrite, h]
  rfl

theorem State.secWrite_of_open {s : State} (h : s.keyOpen .mss = true) (off : Nat) (b : Bool) (act : State → State) :
    s.secWrite (.core 0 true) off b act = act (s.setKey .mss false) :=
  State.wkWrite_of_open h b act

theorem State.secWrite_of_closed {s : State} (h : s.keyOpen .mss = false) (off : Nat) (act : State → State) :
    s.secWrite (.core 0 true) off true act = s.logEvent Ev.KEY_REFUSED noSource [] :=
  State.wkWrite_of_closed h true act

theorem State.zeroise_of_busy {s : State} (h : s.flag F.MSS_ZEROISE_BUSY = true) : s.zeroise = s := if_pos h

theorem State.finish_zero (s : State) (outcome status result : Nat) : s.finish 0 outcome status result = s := by
  rw [State.finish, State.complete]
  exact if_pos (Or.inl rfl)

-- Life-cycle transitions ----------------------------------------------------------------------------------------

/-- A transition without a refusal begins its fuse write. -/
theorem execLcTransition_of_granted {s : State} {v : Word} (hk : s.keyOpen .mss = true) (hv : v.toNat.testBit 31 = true)
    (hr : ((s.setKey .mss false).setFld F.MSS_LC_CTL_TARGET (v.toNat % 4)).lcResult (v.toNat % 4) = 0) :
    exec (.lcTransition (.core 0 true) v) s = .next ((((s.setKey .mss false).setFld F.MSS_LC_CTL_TARGET (v.toNat % 4)).setFld
      F.MSS_LC_CTL_RESULT 0).updMss fun x => { x with lcTarget := some (v.toNat % 4) }) := by
  rw [exec_lcTransition, execLcTransition, State.writeLcCtl, State.secWrite_of_open hk]
  dsimp only
  rw [hv, if_neg (by decide), hr, if_pos rfl]

theorem execFuseWriteEnd_of_done {s : State} {t : Nat} (h : s.mss.lcTarget = some t) :
    exec (.fuseWriteEnd true) s = .next ((((((s.updMss fun x => { x with lcTarget := none }).setFld F.MSS_LC_STATE_STATE t).setFlag
      F.MSS_LC_STATE_DEBUG_OPEN (t != 2)).when (t == 3) fun s => s.setFlag F.MSS_LC_STATE_DEVICE_SECRET false).zeroise).logEvent
      Ev.LIFE_CYCLE noSource []) := by
  rw [exec_fuseWriteEnd]
  unfold execFuseWriteEnd
  rw [h]
  rfl

theorem execFuseWriteEnd_of_error {s : State} {t : Nat} (h : s.mss.lcTarget = some t) :
    exec (.fuseWriteEnd false) s = .next (((s.updMss fun x => { x with lcTarget := none }).setFld F.MSS_LC_CTL_RESULT 4).zeroise) := by
  rw [exec_fuseWriteEnd]
  unfold execFuseWriteEnd
  rw [h]
  exact congrArg Host.Outcome.next (if_neg Bool.false_ne_true)

/-- The fuse write of RETURNED, up to its zeroisation. -/
def State.returned (s : State) : State :=
  (((s.updMss fun x => { x with lcTarget := none }).setFld F.MSS_LC_STATE_STATE 3).setFlag F.MSS_LC_STATE_DEBUG_OPEN true).setFlag
    F.MSS_LC_STATE_DEVICE_SECRET false

theorem State.returned_state (s : State) : s.returned.fld F.MSS_LC_STATE_STATE = 3 := by
  rw [State.returned, State.setFlag, State.fld_setFld_apart _ _ _ _ (Fld.apart_of_bits rfl), State.setFlag,
    State.fld_setFld_apart _ _ _ _ (Fld.apart_of_bits rfl)]
  exact State.fld_setFld_fits _ _ _ rfl (show 3 < 2 ^ 2 by decide)

theorem State.returned_debug (s : State) : s.returned.flag F.MSS_LC_STATE_DEBUG_OPEN = true := by
  rw [State.returned, State.flag_setFlag_apart _ _ _ _ (Fld.apart_of_bits rfl)]
  exact State.flag_setFlag _ _ _ rfl rfl

theorem State.returned_busy (s : State) : s.returned.flag F.MSS_ZEROISE_BUSY = s.flag F.MSS_ZEROISE_BUSY := by
  have hne : R.MSS_LC_STATE ≠ R.MSS_ZEROISE := by decide
  rw [State.returned, State.flag_setFlag_apart _ _ _ _ (Fld.apart_of_reg hne), State.flag_setFlag_apart _ _ _ _ (Fld.apart_of_reg hne),
    State.flag_setFld_apart _ _ _ _ (Fld.apart_of_reg hne)]
  rfl

/-- The RETURNED state opens the test access and gives up the device secret. -/
theorem execFuseWriteEnd_of_returned {s : State} (h : s.mss.lcTarget = some 3) (hb : s.flag F.MSS_ZEROISE_BUSY = true) :
    exec (.fuseWriteEnd true) s = .next (s.returned.logEvent Ev.LIFE_CYCLE noSource []) := by
  have hz : s.returned.zeroise = s.returned := State.zeroise_of_busy (s.returned_busy.trans hb)
  rw [execFuseWriteEnd_of_done h]
  exact congrArg (fun u : State => Host.Outcome.next (u.logEvent Ev.LIFE_CYCLE noSource [])) hz

-- Zeroisation ---------------------------------------------------------------------------------------------------

theorem execZeroiseReq_of_flags {s : State} (m : Master) (hk : s.keyOpen .mss = false) :
    exec (.zeroiseReq m 0x00000006#32) s =
      .next ((s.setFlag F.MSS_ZEROISE_ZEROISED false).setFlag F.MSS_ZEROISE_TAMPER_SEEN false) := by
  rw [exec_zeroiseReq]
  unfold execZeroiseReq State.writeZeroise
  exact congrArg Host.Outcome.next (State.wkWrite_of_closed
    ((State.keyOpen_setFlag _ _ _ _).trans ((State.keyOpen_setFlag _ _ _ _).trans hk)) false fun s => s)

-- The firmware trial --------------------------------------------------------------------------------------------

/-- What the confirmation of a trial writes. -/
def State.confirmed (s : State) : State :=
  (((s.setFld F.MSS_FW_TRIAL_TRY_SLOT (s.fld F.MSS_FW_TRIAL_TRY_SLOT)).setFlag F.MSS_FW_TRIAL_ARMED false).setFlag
    F.MSS_FW_TRIAL_TRIED false).updMss fun x => { x with
      preferred := if s.fld F.MSS_BOOT_IMAGE = 0 then x.preferred else s.fld F.MSS_BOOT_IMAGE, activateHandle := 0 }

theorem State.confirmed_mss (s : State) : s.confirmed.mss = { s.mss with
    preferred := if s.fld F.MSS_BOOT_IMAGE = 0 then s.mss.preferred else s.fld F.MSS_BOOT_IMAGE, activateHandle := 0 } := rfl

theorem confirmWord_toNat {n : Nat} (h : n < 4) : (BitVec.ofNat 32 (2 ^ 31 + n)).toNat = 2 ^ 31 + n :=
  (BitVec.toNat_ofNat _ _).trans (Nat.mod_eq_of_lt (by omega))

theorem execConfirm_of_open {s : State} (hk : s.keyOpen .mss = true) (hh : s.mss.activateHandle = 0) :
    exec (.confirm (.core 0 true)) s = .next (s.setKey .mss false).confirmed := by
  have hslot : s.fld F.MSS_FW_TRIAL_TRY_SLOT < 4 := State.fld_lt s F.MSS_FW_TRIAL_TRY_SLOT
  have hbit : (2 ^ 31 + s.fld F.MSS_FW_TRIAL_TRY_SLOT).testBit 31 = true := by
    rw [Nat.testBit_two_pow_add_eq, Nat.testBit_lt_two_pow (by omega)]
    rfl
  have hmod : (2 ^ 31 + s.fld F.MSS_FW_TRIAL_TRY_SLOT) % 4 = s.fld F.MSS_FW_TRIAL_TRY_SLOT := by omega
  have himage : ∀ n, ((((s.setKey .mss false).setFld F.MSS_FW_TRIAL_TRY_SLOT n).setFlag F.MSS_FW_TRIAL_ARMED false).setFlag
      F.MSS_FW_TRIAL_TRIED false).fld F.MSS_BOOT_IMAGE = s.fld F.MSS_BOOT_IMAGE := by
    have hne : R.MSS_FW_TRIAL ≠ R.MSS_BOOT := by decide
    intro n
    rw [State.setFlag, State.setFlag, State.fld_setFld_apart _ _ _ _ (Fld.apart_of_reg hne),
      State.fld_setFld_apart _ _ _ _ (Fld.apart_of_reg hne), State.fld_setFld_apart _ _ _ _ (Fld.apart_of_reg hne)]
    rfl
  rw [exec_confirm, execConfirm, State.writeTrial, State.secWrite_of_open hk]
  dsimp only
  rw [confirmWord_toNat hslot, hbit, hmod, if_pos rfl, himage]
  show Host.Outcome.next (State.finish _ s.mss.activateHandle _ _ _) = _
  rw [hh, State.finish_zero]
  show Host.Outcome.next (State.updMss _ fun x => { x with
    preferred := _, activateHandle := 0, staged := if s.mss.activateHandle = 0 then x.staged else none }) = _
  rw [hh]
  rfl

-- The rollback count --------------------------------------------------------------------------------------------

/-- A raise with the key open runs its check on the state with the key closed again. -/
theorem execRaise_of_open {s : State} {v : Word} (hk : s.keyOpen .mss = true) (hv : v.toNat.testBit 31 = true) :
    exec (.raise (.core 0 true) v) s = .next (if s.fld F.MSS_FW_ROLLBACK_COUNT < bitsOf v.toNat 8 6 ∧
        bitsOf v.toNat 8 6 ≤ s.mss.runSec ∧ !s.flag F.MSS_FW_TRIAL_ARMED then
      ((s.setKey .mss false).setFld F.MSS_FW_ROLLBACK_TO (bitsOf v.toNat 8 6)).setFld F.MSS_FW_ROLLBACK_COUNT (bitsOf v.toNat 8 6)
      else s.setKey .mss false) := by
  rw [exec_raise, execRaise, State.writeRollback, State.secWrite_of_open hk]
  dsimp only
  rw [hv, if_neg (by decide)]
  rfl

-- The loss of VDD_IO --------------------------------------------------------------------------------------------

/-- The always-on flags cleared with VDD_IO. -/
def State.ioCleared (s : State) : State :=
  (((((s.setFlag F.MSS_ZEROISE_ZEROISED false).setFlag F.MSS_ZEROISE_ZEROISE_FAIL false).setFlag F.MSS_ZEROISE_TAMPER_SEEN
    false).setFlag F.MSS_FW_TRIAL_ARMED false).setFlag F.MSS_FW_TRIAL_TRIED false).setFld F.MSS_FW_TRIAL_TRY_SLOT 0

theorem State.ioCleared_pairKey (s : State) : s.ioCleared.mss.pairKey = s.mss.pairKey := by
  unfold State.ioCleared
  simp only [State.setFld_mss, State.setFlag_mss]

theorem execVddIoRemoved_eq (s : State) : exec .vddIoRemoved s =
    .next (s.ioCleared.updMss fun x => { x with scratchDenied := s.ioCleared.flag F.MSS_ZEROISE_BUSY }) := exec_vddIoRemoved s

/-- Clearing the trial's fields leaves the fields of MSS_ZEROISE. -/
theorem State.trialCleared_flag (s : State) {f : Fld} (h : R.MSS_FW_TRIAL ≠ f.reg) :
    (((s.setFlag F.MSS_FW_TRIAL_ARMED false).setFlag F.MSS_FW_TRIAL_TRIED false).setFld F.MSS_FW_TRIAL_TRY_SLOT 0).flag f =
      s.flag f := by
  rw [State.flag_setFld_apart _ _ _ _ (Fld.apart_of_reg h), State.flag_setFlag_apart _ _ _ _ (Fld.apart_of_reg h),
    State.flag_setFlag_apart _ _ _ _ (Fld.apart_of_reg h)]

theorem State.ioCleared_zeroised (s : State) : s.ioCleared.flag F.MSS_ZEROISE_ZEROISED = false := by
  rw [State.ioCleared, State.trialCleared_flag _ (by decide), State.flag_setFlag_apart _ _ _ _ (Fld.apart_of_bits rfl),
    State.flag_setFlag_apart _ _ _ _ (Fld.apart_of_bits rfl)]
  exact State.flag_setFlag _ _ _ rfl rfl

theorem State.ioCleared_fail (s : State) : s.ioCleared.flag F.MSS_ZEROISE_ZEROISE_FAIL = false := by
  rw [State.ioCleared, State.trialCleared_flag _ (by decide), State.flag_setFlag_apart _ _ _ _ (Fld.apart_of_bits rfl)]
  exact State.flag_setFlag _ _ _ rfl rfl

theorem State.ioCleared_tamper (s : State) : s.ioCleared.flag F.MSS_ZEROISE_TAMPER_SEEN = false := by
  rw [State.ioCleared, State.trialCleared_flag _ (by decide)]
  exact State.flag_setFlag _ _ _ rfl rfl

theorem State.ioCleared_busy (s : State) : s.ioCleared.flag F.MSS_ZEROISE_BUSY = s.flag F.MSS_ZEROISE_BUSY := by
  rw [State.ioCleared, State.trialCleared_flag _ (by decide), State.flag_setFlag_apart _ _ _ _ (Fld.apart_of_bits rfl),
    State.flag_setFlag_apart _ _ _ _ (Fld.apart_of_bits rfl), State.flag_setFlag_apart _ _ _ _ (Fld.apart_of_bits rfl)]

theorem State.ioCleared_armed (s : State) : s.ioCleared.flag F.MSS_FW_TRIAL_ARMED = false := by
  rw [State.ioCleared, State.flag_setFld_apart _ _ _ _ (Fld.apart_of_bits rfl),
    State.flag_setFlag_apart _ _ _ _ (Fld.apart_of_bits rfl)]
  exact State.flag_setFlag _ _ _ rfl rfl

theorem State.ioCleared_tried (s : State) : s.ioCleared.flag F.MSS_FW_TRIAL_TRIED = false := by
  rw [State.ioCleared, State.flag_setFld_apart _ _ _ _ (Fld.apart_of_bits rfl)]
  exact State.flag_setFlag _ _ _ rfl rfl

theorem execVddIoRemoved_completes (s : State) : Completes .vddIoRemoved s fun t =>
    t.flag F.MSS_ZEROISE_ZEROISED = false ∧ t.flag F.MSS_ZEROISE_ZEROISE_FAIL = false ∧ t.flag F.MSS_ZEROISE_TAMPER_SEEN = false ∧
      t.flag F.MSS_FW_TRIAL_ARMED = false ∧ t.flag F.MSS_FW_TRIAL_TRIED = false ∧
      t.mss.scratchDenied = s.flag F.MSS_ZEROISE_BUSY ∧ t.mss.pairKey = s.mss.pairKey := by
  refine .intro (execVddIoRemoved_eq s) ?_
  simp only [State.flag_updMss, State.updMss_mss]
  exact ⟨s.ioCleared_zeroised, s.ioCleared_fail, s.ioCleared_tamper, s.ioCleared_armed, s.ioCleared_tried, s.ioCleared_busy,
    s.ioCleared_pairKey⟩

/-- Settles O54: transitions, the trial and the rollback count obey core 0 under its key, and change what their clauses name. -/
theorem lifeCycle : Obligations.LifeCycle := by
  unfold Obligations.LifeCycle
  intro s v
  dsimp only
  refine ⟨fun m h => ⟨?lcOther, ?confirmOther, ?raiseOther⟩, fun hk hv _ hr => ?granted, fun hk hv => ?keyClosed,
    fun h ok => ?noWrite, fun t h ht => ?fused, fun h hb _ _ => ?returned, fun t h => ?fuseError, fun hk => ?zeroise,
    fun m hk => ?flags, fun hk hh _ => ?confirm, fun hk hv hlt hle ha => ?raise, fun hk hv hle => ?noRaise, ?vddIo, fun m => ?devnum⟩
  case lcOther => rw [exec_lcTransition, execLcTransition, State.writeLcCtl, State.secWrite_of_other h]
  case confirmOther => rw [exec_confirm, execConfirm, State.writeTrial, State.secWrite_of_other h]
  case raiseOther => rw [exec_raise, execRaise, State.writeRollback, State.secWrite_of_other h]
  case granted =>
    have hne : R.MSS_LC_CTL ≠ R.MSS_LC_STATE := by decide
    refine .intro (execLcTransition_of_granted hk hv hr) ⟨rfl, ?_, ?_, State.keyOpen_setKey_same s .mss false, ?_⟩
    · rw [State.fld_updMss, State.fld_setFld_apart _ _ _ _ (Fld.apart_of_bits rfl)]
      exact State.fld_setFld_fits _ _ _ rfl (Nat.mod_lt _ (show 0 < 4 by decide))
    · rw [State.fld_updMss]
      exact State.fld_setFld _ _ _ rfl
    · rw [State.lifeCycle, State.fld_updMss, State.fld_setFld_apart _ _ _ _ (Fld.apart_of_reg hne),
        State.fld_setFld_apart _ _ _ _ (Fld.apart_of_reg hne)]
      rfl
  case keyClosed =>
    rw [exec_lcTransition, execLcTransition, State.writeLcCtl, hv, Bool.true_or, State.secWrite_of_closed hk]
  case noWrite =>
    rw [exec_fuseWriteEnd]
    unfold execFuseWriteEnd
    rw [h]
  case fused =>
    have ht3 : (t == 3) = false := beq_false_of_ne (by omega)
    rw [execFuseWriteEnd_of_done h, ht3, State.when_false]
  case returned =>
    have hsig : Signals s.returned (s.returned.logEvent Ev.LIFE_CYCLE noSource []) := State.logEvent_signals (.refl _) _ _ _
    refine .intro (execFuseWriteEnd_of_returned h hb) ⟨?_, ?_, ?_, ?_⟩
    · exact (hsig.fld F.MSS_LC_STATE_STATE (by decide)).trans s.returned_state
    · exact (hsig.flag F.MSS_LC_STATE_DEVICE_SECRET (by decide)).trans (State.flag_setFlag _ _ _ rfl rfl)
    · exact (hsig.flag F.MSS_LC_STATE_DEBUG_OPEN (by decide)).trans s.returned_debug
    · rw [hsig.mss]
      rfl
  case fuseError => exact execFuseWriteEnd_of_error h
  case zeroise =>
    have h31 : (0x80000000#32).toNat.testBit 31 = true := by decide
    have h2 : (0x80000000#32).toNat.testBit 2 = false := by decide
    have h1 : (0x80000000#32).toNat.testBit 1 = false := by decide
    rw [exec_zeroiseReq]
    unfold execZeroiseReq State.writeZeroise
    dsimp only
    rw [h31, h2, h1, if_pos rfl, State.when_false, State.when_false, State.secWrite_of_open hk]
  case flags =>
    refine .intro (execZeroiseReq_of_flags m hk) ⟨?_, State.flag_setFlag _ _ _ rfl rfl, ?_⟩
    · rw [State.flag_setFlag_apart _ _ _ _ (Fld.apart_of_bits rfl)]
      exact State.flag_setFlag _ _ _ rfl rfl
    · exact ((OnlyFields.refl _ s).setFlag _ _ List.mem_cons_self).setFlag _ _ (List.mem_cons_of_mem _ List.mem_cons_self)
  case confirm =>
    refine .intro (execConfirm_of_open hk hh) ⟨?_, ?_, ?_, ?_⟩
    · rw [State.confirmed, State.flag_updMss, State.flag_setFlag_apart _ _ _ _ (Fld.apart_of_bits rfl)]
      exact State.flag_setFlag _ _ _ rfl rfl
    · rw [State.confirmed, State.flag_updMss]
      exact State.flag_setFlag _ _ _ rfl rfl
    · rw [State.confirmed_mss]
      rfl
    · rw [State.confirmed_mss]
      rfl
  case raise =>
    have hw : bitsOf v.toNat 8 6 < 2 ^ 6 := Nat.mod_lt _ (Nat.two_pow_pos 6)
    refine .intro ((execRaise_of_open hk hv).trans (congrArg _ (if_pos ⟨hlt, hle, by rw [ha]; rfl⟩))) ⟨?_,
      State.keyOpen_setKey_same s .mss false, ?_⟩
    · exact State.fld_setFld_fits _ _ _ rfl hw
    · exact ((OnlyFields.refl _ (s.setKey .mss false)).setFld _ _ (List.mem_cons_of_mem _ List.mem_cons_self)).setFld _ _
        List.mem_cons_self
  case noRaise =>
    rw [execRaise_of_open hk hv, if_neg fun h => Nat.not_lt.mpr hle h.1]
  case vddIo => exact execVddIoRemoved_completes s
  case devnum =>
    refine .intro (t := (s.latch m [(R.GCTL_DEVNUM_HI, s.reg R.GCTL_DEVNUM_HI)]).setRdata m (s.reg R.GCTL_DEVNUM_LO))
      (exec_gctlDevnumRead s) ⟨State.rdataOf_setRdata _ _ _, rfl,
      { master := masterIdx m, off := R.GCTL_DEVNUM_HI, value := s.reg R.GCTL_DEVNUM_HI }, ?_, rfl, rfl, rfl⟩
    exact List.mem_append_right _ (List.mem_singleton.mpr rfl)

end Sys2Proof.Machine
end

section
/-!
PROOFS. The key-load operations (spec 15): who may run them, when, and on which words.
-/
namespace Sys2Proof.Machine
open Sys2Proof

/-- A key operation that has been taken from core 0, with the key closed again. -/
def State.keyOpened (s : State) (op : Nat) : State := (s.setKey .mss false).setFld F.MSS_KEYLOAD_CTL_OP op

theorem State.keyOpened_flag (s : State) (op : Nat) {f : Fld} (h : R.MSS_KEYLOAD_CTL ≠ f.reg) :
    (s.keyOpened op).flag f = s.flag f := by
  rw [State.keyOpened, State.flag_setFld_apart _ _ _ _ (Fld.apart_of_reg h)]
  rfl

theorem State.keyOpened_lifeCycle (s : State) (op : Nat) : (s.keyOpened op).lifeCycle = s.lifeCycle := by
  have hne : R.MSS_KEYLOAD_CTL ≠ R.MSS_LC_STATE := by decide
  rw [State.lifeCycle, State.keyOpened, State.fld_setFld_apart _ _ _ _ (Fld.apart_of_reg hne)]
  rfl

/-- The operand words are not those of the control register. -/
theorem State.keyOpened_words (s : State) (op n : Nat) : (s.keyOpened op).keyloadBytes n = s.keyloadBytes n := by
  have hne : ∀ k, R.MSS_KEYLOAD_CTL ≠ R.MSS_KEYLOAD k := fun k => by unfold R.MSS_KEYLOAD_CTL R.MSS_KEYLOAD; omega
  unfold State.keyloadBytes
  refine congrArg (fun g => (List.range n).flatMap g) (funext fun k => ?_)
  rw [State.keyOpened, State.reg_setFld_ne _ _ _ _ (hne k)]
  rfl

section
variable {s : State} (op : Nat) {states : List Nat} (act : State → State)

theorem State.keyOp_of_other {m : Master} (h : isCore0Machine m = false) :
    s.keyOp m op states act = s.writeRefused m R.MSS_KEYLOAD_CTL :=
  State.secWrite_of_other h _ _ _ _

theorem State.keyOp_of_closed (h : s.keyOpen .mss = false) :
    s.keyOp (.core 0 true) op states act = s.logEvent Ev.KEY_REFUSED noSource [] :=
  State.secWrite_of_closed h _ _

/-- No key operation runs during a zeroisation. -/
theorem State.keyOp_of_busy (hk : s.keyOpen .mss = true) (hb : s.flag F.MSS_ZEROISE_BUSY = true) :
    s.keyOp (.core 0 true) op states act = (s.keyOpened op).keyRefused 4 := by
  rw [State.keyOp, State.secWrite_of_open hk]
  exact if_pos ((s.keyOpened_flag op (by decide)).trans hb)

/-- A key operation is refused in the other life-cycle states. -/
theorem State.keyOp_of_state (hk : s.keyOpen .mss = true) (hb : s.flag F.MSS_ZEROISE_BUSY = false) (hs : s.lifeCycle ∉ states) :
    s.keyOp (.core 0 true) op states act = (s.keyOpened op).keyRefused 1 := by
  rw [State.keyOp, State.secWrite_of_open hk]
  refine (if_neg ?_).trans (if_pos ?_)
  · rw [← State.keyOpened, s.keyOpened_flag op (by decide), hb]
    exact Bool.false_ne_true
  · rw [← State.keyOpened, State.keyOpened_lifeCycle, List.contains_eq_mem, decide_eq_false hs]
    rfl

/-- A key operation runs with the key open, in its life-cycle states, outside zeroisation. -/
theorem State.keyOp_of_granted (hk : s.keyOpen .mss = true) (hb : s.flag F.MSS_ZEROISE_BUSY = false) (hs : s.lifeCycle ∈ states) :
    s.keyOp (.core 0 true) op states act = act (s.keyOpened op) := by
  rw [State.keyOp, State.secWrite_of_open hk]
  refine (if_neg ?_).trans (if_neg ?_)
  · rw [← State.keyOpened, s.keyOpened_flag op (by decide), hb]
    exact Bool.false_ne_true
  · rw [← State.keyOpened, State.keyOpened_lifeCycle, List.contains_eq_mem, decide_eq_true hs]
    exact Bool.false_ne_true

end

/-- The states of Load and Rotate. -/
theorem mem_provisioned {n : Nat} : n ∈ [1, 2] ↔ n = 1 ∨ n = 2 := by rw [List.mem_cons, List.mem_singleton]

section
variable {s : State} (hk : s.keyOpen .mss = true) (hb : s.flag F.MSS_ZEROISE_BUSY = false)
include hk hb

theorem execOwner_of_unfused (hl : s.lifeCycle = 0) (ho : s.mss.ownerHash = []) :
    exec (.owner (.core 0 true)) s = .next ((((s.keyOpened 1).updMss fun x =>
      { x with ownerHash := s.keyloadBytes 12 }).setFlag F.MSS_LC_STATE_OWNER_KEY true).keyDone []) := by
  rw [exec_owner, execOwner, State.opOwner, State.keyOp_of_granted 1 _ hk hb (List.mem_singleton.mpr hl),
    if_neg (c := (s.keyOpened 1).mss.ownerHash ≠ []) (not_not_intro ho)]
  dsimp only
  rw [State.keyOpened_words]

theorem execOwner_of_fused (hl : s.lifeCycle = 0) (ho : s.mss.ownerHash ≠ []) :
    exec (.owner (.core 0 true)) s = .next ((s.keyOpened 1).keyRefused 5) := by
  rw [exec_owner, execOwner, State.opOwner, State.keyOp_of_granted 1 _ hk hb (List.mem_singleton.mpr hl),
    if_pos (c := (s.keyOpened 1).mss.ownerHash ≠ []) ho]

theorem execInstall_of_provisioned (hl : s.lifeCycle = 1) :
    exec (.install (.core 0 true)) s = .next (((s.keyOpened 2).setPairKey (some (s.keyloadBytes 8))).keyDone
      (keyWrap kekBytes (s.keyloadBytes 8))) := by
  rw [exec_install, execInstall, State.opInstall, State.keyOp_of_granted 2 _ hk hb (List.mem_singleton.mpr hl)]
  dsimp only
  rw [State.keyOpened_words]

theorem execLoad_of_provisioned (hl : s.lifeCycle = 1 ∨ s.lifeCycle = 2) :
    exec (.load (.core 0 true)) s = .next (match keyUnwrap kekBytes (s.keyloadBytes 10) with
      | some k => ((s.keyOpened 3).setPairKey (some k)).keyDone []
      | none => (s.keyOpened 3).keyRefused 2) := by
  rw [exec_load, execLoad, State.opLoad, State.keyOp_of_granted 3 _ hk hb (mem_provisioned.mpr hl),
    State.keyOpened_words]
  cases keyUnwrap kekBytes (s.keyloadBytes 10) <;> rfl

theorem execRotate_of_no_key (hl : s.lifeCycle = 1 ∨ s.lifeCycle = 2) (hp : s.mss.pairKey = none) :
    exec (.rotate (.core 0 true)) s = .next ((s.keyOpened 4).keyRefused 3) := by
  rw [exec_rotate, execRotate, State.opRotate, State.keyOp_of_granted 4 _ hk hb (mem_provisioned.mpr hl),
    show (s.keyOpened 4).mss.pairKey = none from hp]

theorem execRotate_of_key (hl : s.lifeCycle = 1 ∨ s.lifeCycle = 2) {old : List Byte} (hp : s.mss.pairKey = some old) :
    exec (.rotate (.core 0 true)) s = .next (match keyUnwrap old (s.keyloadBytes 10) with
      | some k => ((s.keyOpened 4).setPairKey (some k)).keyDone (keyWrap kekBytes k)
      | none => (s.keyOpened 4).keyRefused 2) := by
  rw [exec_rotate, execRotate, State.opRotate, State.keyOp_of_granted 4 _ hk hb (mem_provisioned.mpr hl),
    show (s.keyOpened 4).mss.pairKey = some old from hp]
  dsimp only
  rw [State.keyOpened_words]
  cases keyUnwrap old (s.keyloadBytes 10) <;> rfl

theorem execClear_of_open (hl : s.lifeCycle < 4) :
    exec (.clear (.core 0 true)) s = .next (((s.keyOpened 5).setPairKey none).keyDone []) := by
  have hmem : s.lifeCycle ∈ [0, 1, 2, 3] := by
    simp only [List.mem_cons, List.not_mem_nil, or_false]
    omega
  rw [exec_clear, execClear, State.opClear, State.keyOp_of_granted 5 _ hk hb hmem]

end

/-- Settles O55: each key operation runs for core 0 under its key, in its states, on the operand words. -/
theorem keyLoad : Obligations.KeyLoad := by
  unfold Obligations.KeyLoad
  intro s
  refine ⟨fun m h => ⟨?owner, ?install, ?load, ?rotate, ?clear⟩, fun hk => ?closed, fun hk hb => ?busy, fun hk hb =>
    ⟨fun hl ho => execOwner_of_unfused hk hb hl ho, fun hl ho => execOwner_of_fused hk hb hl ho, fun hl => ?ownerState,
      fun hl => ?installState, fun hl hl' => ⟨?loadState, ?rotateState⟩, fun hl => execInstall_of_provisioned hk hb hl,
      fun hl => execLoad_of_provisioned hk hb hl, fun hl hp => execRotate_of_no_key hk hb hl hp,
      fun old hl hp => execRotate_of_key hk hb hl hp, fun hl => execClear_of_open hk hb hl⟩⟩
  case owner => rw [exec_owner, execOwner, State.opOwner, State.keyOp_of_other 1 _ h]
  case install => rw [exec_install, execInstall, State.opInstall, State.keyOp_of_other 2 _ h]
  case load => rw [exec_load, execLoad, State.opLoad, State.keyOp_of_other 3 _ h]
  case rotate => rw [exec_rotate, execRotate, State.opRotate, State.keyOp_of_other 4 _ h]
  case clear => rw [exec_clear, execClear, State.opClear, State.keyOp_of_other 5 _ h]
  case closed => rw [exec_owner, execOwner, State.opOwner, State.keyOp_of_closed 1 _ hk]
  case busy =>
    rw [exec_install, execInstall, State.opInstall, State.keyOp_of_busy 2 _ hk hb]
    rfl
  case ownerState =>
    rw [exec_owner, execOwner, State.opOwner, State.keyOp_of_state 1 _ hk hb (mt List.mem_singleton.mp hl)]
    rfl
  case installState =>
    rw [exec_install, execInstall, State.opInstall, State.keyOp_of_state 2 _ hk hb (mt List.mem_singleton.mp hl)]
    rfl
  case loadState =>
    rw [exec_load, execLoad, State.opLoad, State.keyOp_of_state 3 _ hk hb (mt mem_provisioned.mp (not_or.mpr ⟨hl, hl'⟩))]
    rfl
  case rotateState =>
    rw [exec_rotate, execRotate, State.opRotate, State.keyOp_of_state 4 _ hk hb (mt mem_provisioned.mp (not_or.mpr ⟨hl, hl'⟩))]
    rfl

end Sys2Proof.Machine
end

section
/-!
PROOFS. The I3C target's common command codes (spec 16): what a target on the bus acknowledges, and what each code changes.
-/
namespace Sys2Proof.Machine
open Sys2Proof

/-- A target that takes part in the bus acts. -/
theorem State.onBus_of_up {s : State} (h : s.i3cUp = true) (act : State → State) : s.onBus act = act s := by
  rw [State.onBus, if_pos h]

/-- A target that takes no part does not acknowledge. -/
theorem State.onBus_of_down {s : State} (h : s.i3cUp = false) (act : State → State) : s.onBus act = s.nack := by
  rw [State.onBus, if_neg (by rw [h]; exact Bool.false_ne_true)]

theorem State.ack_fld (s : State) (bs : List Byte) (f : Fld) : (s.ack bs).fld f = s.fld f := rfl

theorem State.ack_flag (s : State) (bs : List Byte) (f : Fld) : (s.ack bs).flag f = s.flag f := rfl

theorem State.ack_i3c (s : State) (bs : List Byte) : (s.ack bs).i3c = { s.i3c with nacked := false, reply := bs } := rfl

/-- An acknowledged write of fields is a write of those fields, beside the target's own state. -/
theorem State.ack_onlyFields {l : List Fld} {s u : State} (h : OnlyFields l s u) (bs : List Byte) :
    OnlyFields l { s with i3c := (u.ack bs).i3c } (u.ack bs) := by
  obtain ⟨hu, hf⟩ := h
  refine ⟨?_, fun g hg => hf g hg⟩
  unfold State.ack State.updI3c
  rw [hu]

section
variable {s : State} (hu : s.i3cUp = true)
include hu

theorem execEnec_of_up (b : Bool) :
    exec (.enec b) s = .next ((s.when b fun s => s.setFlag F.I3CT_STAT_IBI_EN true).ack) := by
  rw [exec_enec, execEnec, State.onBus_of_up hu]

theorem execDisec_of_up (b : Bool) :
    exec (.disec b) s = .next ((s.when b fun s => s.setFlag F.I3CT_STAT_IBI_EN false).ack) := by
  rw [exec_disec, execDisec, State.onBus_of_up hu]

theorem execRstdaa_of_up :
    exec .rstdaa s = .next (((s.setFlag F.I3CT_STAT_DA_VALID false).setFld F.I3CT_STAT_DYN_ADDR 0).ack) := by
  rw [exec_rstdaa, execRstdaa, State.onBus_of_up hu]

theorem execEntdaa_of_free (a : BitVec 7) (hd : s.flag F.I3CT_STAT_DA_VALID = false) :
    exec (.entdaa a) s = .next (((s.setFlag F.I3CT_STAT_DA_VALID true).setFld F.I3CT_STAT_DYN_ADDR a.toNat).ack
      (beBytes 6 s.pid ++ [bcr, dcr])) := by
  rw [exec_entdaa, execEntdaa, State.onBus_of_up hu, hd, if_neg Bool.false_ne_true]

theorem execEntdaa_of_held (a : BitVec 7) (hd : s.flag F.I3CT_STAT_DA_VALID = true) : exec (.entdaa a) s = .next s.nack := by
  rw [exec_entdaa, execEntdaa, State.onBus_of_up hu, hd, if_pos rfl]

theorem execGetstatus_of_up : exec .getstatus s = .next ((s.updI3c fun x => { x with protoErr := false }).ack
    (beBytes 2 (min 15 s.i3c.ibis.length + 32 * s.i3c.protoErr.toNat))) := by
  rw [exec_getstatus, execGetstatus, State.onBus_of_up hu]

theorem execRstact_of_action {d : Byte} (hd : d.toNat ≤ 2) :
    exec (.rstact d false) s = .next ((s.updI3c fun x => { x with rstact := some d.toNat }).ack) := by
  rw [exec_rstact, execRstact, State.onBus_of_up hu, if_neg Bool.false_ne_true, if_pos hd]

theorem execRstact_of_other {d : Byte} (hd : 2 < d.toNat) : exec (.rstact d false) s = .next s.nack := by
  rw [exec_rstact, execRstact, State.onBus_of_up hu, if_neg Bool.false_ne_true, if_neg (Nat.not_le.mpr hd)]

theorem execTargetResetPattern_of_no_reset (hr : s.i3c.rstact = some 0) : exec (.targetResetPattern []) s = .next s := by
  rw [exec_targetResetPattern, execTargetResetPattern, hu, if_neg (by decide)]
  generalize s.mgmtRestart 4 [] = restarted
  generalize s.peripheralReset [] = reset
  rw [hr]
  rfl

theorem execTargetResetPattern_of_whole_target (b : List Burst) (hr : s.i3c.rstact = some 2) :
    exec (.targetResetPattern b) s = .next (s.mgmtRestart 4 b) := by
  rw [exec_targetResetPattern, execTargetResetPattern, hu, if_neg (by decide)]
  generalize s.mgmtRestart 4 b = restarted
  generalize s.peripheralReset b = reset
  rw [hr]
  rfl

theorem execTargetResetPattern_of_unset (hr : s.i3c.rstact = none) :
    exec (.targetResetPattern []) s = .next (s.peripheralReset []) := by
  rw [exec_targetResetPattern, execTargetResetPattern, hu, if_neg (by decide)]
  generalize s.mgmtRestart 4 [] = restarted
  generalize s.peripheralReset [] = reset
  rw [hr]

end

/-- Settles O56: a target on the bus acknowledges its command codes with their effects, and one off it does not. -/
theorem commonCommandCodes : Obligations.CommonCommandCodes := by
  unfold Obligations.CommonCommandCodes
  intro s
  refine ⟨fun hu => ⟨fun b => ?enec, fun b => ?disec, ?rstdaa, fun a hd => ?entdaa, fun a hd => execEntdaa_of_held hu a hd,
      fun v => ?setmwl, fun v => ?setmrl, ?getmwl, ?getmrl, ?getpid, ?getbcr, ?getdcr, ?getmxds, ?getcaps, ?getstatus,
      fun d hd => execRstact_of_action hu hd, fun d hd => execRstact_of_other hu hd, ?report⟩,
    fun hu => ⟨?pidOff, ?rstdaaOff, ?readOff, ?resetOff⟩,
    fun hu => ⟨fun hr => ?noReset, fun b hr => ?restart, fun hr => ?peripheral⟩⟩
  case enec =>
    refine .intro (execEnec_of_up hu b) ⟨?_, rfl, State.ack_onlyFields ?_ _⟩
    · rw [State.ack_flag]
      cases b
      · rfl
      · exact State.flag_setFlag _ _ _ rfl rfl
    · cases b
      · exact .refl _ s
      · exact (OnlyFields.refl _ s).setFlag _ _ List.mem_cons_self
  case disec =>
    refine .intro (execDisec_of_up hu b) ⟨?_, rfl, State.ack_onlyFields ?_ _⟩
    · rw [State.ack_flag]
      cases b
      · rfl
      · exact State.flag_setFlag _ _ _ rfl rfl
    · cases b
      · exact .refl _ s
      · exact (OnlyFields.refl _ s).setFlag _ _ List.mem_cons_self
  case rstdaa =>
    refine .intro (execRstdaa_of_up hu) ⟨?_, ?_, rfl, State.ack_onlyFields ?_ _⟩
    · rw [State.ack_flag, State.flag_setFld_apart _ _ _ _ (Fld.apart_of_bits rfl)]
      exact State.flag_setFlag _ _ _ rfl rfl
    · rw [State.ack_fld]
      exact State.fld_setFld _ _ _ rfl
    · exact ((OnlyFields.refl _ s).setFlag _ _ List.mem_cons_self).setFld _ _ (List.mem_cons_of_mem _ List.mem_cons_self)
  case entdaa =>
    refine .intro (execEntdaa_of_free hu a hd) ⟨?_, ?_, ?_⟩
    · rw [State.ack_flag, State.flag_setFld_apart _ _ _ _ (Fld.apart_of_bits rfl)]
      exact State.flag_setFlag _ _ _ rfl rfl
    · rw [State.ack_fld]
      exact State.fld_setFld_fits _ _ _ rfl a.isLt
    · rw [State.ack_i3c, State.setFld_i3c, State.setFlag_i3c]
  case setmwl =>
    rw [exec_setmwl, execSetmwl, State.onBus_of_up hu]
    rfl
  case setmrl =>
    rw [exec_setmrl, execSetmrl, State.onBus_of_up hu]
    rfl
  case getmwl => rw [exec_getmwl, execGetmwl, State.onBus_of_up hu]
  case getmrl => rw [exec_getmrl, execGetmrl, State.onBus_of_up hu]
  case getpid => rw [exec_getpid, execGetpid, State.onBus_of_up hu]
  case getbcr => rw [exec_getbcr, execGetbcr, State.onBus_of_up hu, bcr]
  case getdcr => rw [exec_getdcr, execGetdcr, State.onBus_of_up hu, dcr]
  case getmxds => rw [exec_getmxds, execGetmxds, State.onBus_of_up hu]
  case getcaps =>
    refine .intro (t := s.ack (1 :: leBytes 3 Config.getcapsTail.toNat)) ?_ ⟨rfl, rfl⟩
    rw [exec_getcaps, execGetcaps, State.onBus_of_up hu]
  case getstatus => exact .intro (execGetstatus_of_up hu) ⟨rfl, rfl, rfl⟩
  case report => rw [exec_rstact, execRstact, State.onBus_of_up hu, if_pos rfl, if_pos rfl]
  case pidOff => rw [exec_getpid, execGetpid, State.onBus_of_down hu]
  case rstdaaOff => rw [exec_rstdaa, execRstdaa, State.onBus_of_down hu]
  case readOff => rw [exec_privateRead, execPrivateRead, State.onBus_of_down hu]
  case resetOff =>
    rw [exec_targetResetPattern, execTargetResetPattern, hu]
    rfl
  case noReset => exact execTargetResetPattern_of_no_reset hu hr
  case restart => exact execTargetResetPattern_of_whole_target hu b hr
  case peripheral => exact execTargetResetPattern_of_unset hu hr

end Sys2Proof.Machine
end

section
/-!
PROOFS. The I3C target's addressed transfers and HDR-DDR (spec 16): writes through the bridge, SET_READ and its words, errors and in-band
interrupts.
-/
namespace Sys2Proof.Machine
open Sys2Proof

-- Bytes of a transfer -------------------------------------------------------------------------------------------

theorem leNat_leBytes (n v : Nat) : leNat (leBytes n v) = v % 256 ^ n := by
  induction n generalizing v with
  | zero => exact (Nat.mod_one v).symm
  | succ n ih =>
    have hpow : 256 ^ (n + 1) = 256 * 256 ^ n := Nat.pow_succ'
    rw [leBytes, leNat, ih, BitVec.toNat_ofNat, hpow, Nat.mod_mul]

/-- A number written little end first between two byte strings reads back. -/
theorem leAt_append (pre post : List Byte) (n v : Nat) : leAt (pre ++ (leBytes n v ++ post)) pre.length n = v % 256 ^ n := by
  have hbytes : bytesAt (pre ++ (leBytes n v ++ post)) pre.length n = leBytes n v := by
    refine List.ext_getElem (by rw [bytesAt, List.length_map, List.length_range, leBytes_length]) fun i hi hi' => ?_
    simp only [bytesAt, List.getElem_map, List.getElem_range]
    rw [List.getD_append_right _ _ _ _ (Nat.le_add_right _ _), Nat.add_sub_cancel_left,
      List.getD_append _ _ _ _ hi', List.getD_eq_getElem _ _ hi']
  rw [leAt, hbytes, leNat_leBytes]

/-- The two numbers of a short transfer. -/
theorem leAt_pair (a n v w : Nat) : leAt (leBytes n v ++ leBytes a w) 0 n = v % 256 ^ n ∧
    leAt (leBytes n v ++ leBytes a w) n a = w % 256 ^ a := by
  constructor
  · exact leAt_append [] (leBytes a w) n v
  · have h := leAt_append (leBytes n v) [] a w
    rwa [leBytes_length, List.append_nil] at h

theorem leAt_cons_zero (b : Byte) (bs : List Byte) : leAt (b :: bs) 0 1 = b.toNat := by
  show leNat [b] = b.toNat
  rw [leNat, leNat, Nat.mul_zero, Nat.add_zero]

theorem leBytes_pair_length (a n v w : Nat) : (leBytes n v ++ leBytes a w).length = n + a := by
  rw [List.length_append, leBytes_length, leBytes_length]

-- Private transfers ---------------------------------------------------------------------------------------------

/-- A transfer in error changes the count of errors, beside the target's own state. -/
theorem State.hdrError_onlyFields (s : State) :
    OnlyFields [F.I3CT_ERR_HDR_ERR] { s with i3c := s.hdrError.i3c } s.hdrError := by
  obtain ⟨hs, hf⟩ := (OnlyFields.refl [F.I3CT_ERR_HDR_ERR] s).setFld F.I3CT_ERR_HDR_ERR
    (satAdd F.I3CT_ERR_HDR_ERR.width (s.fld F.I3CT_ERR_HDR_ERR) 1) List.mem_cons_self
  refine ⟨?_, fun g hg => hf g hg⟩
  unfold State.hdrError State.ack State.updI3c State.incFld
  rw [hs]

/-- A write of an offset and at least one whole word goes through the bridge. -/
theorem State.privateWrite_of_write (s : State) {b : List Byte} (h8 : 8 ≤ b.length) (h4 : b.length % 4 = 0) :
    s.privateWrite 1 b = (s.bridgeWrite (leAt b 0 4)
      ((List.range (b.length / 4 - 1)).map fun k => BitVec.ofNat 32 (leAt b (4 + 4 * k) 4))).ack :=
  if_pos ⟨rfl, h8, h4⟩

/-- A SET_READ of 1 to 1,024 words keeps the words read through the bridge. -/
theorem State.privateWrite_of_setRead (s : State) (off : Word) {n : BitVec 16} (h1 : 1 ≤ n.toNat) (h2 : n.toNat ≤ 1024) :
    s.privateWrite 2 (leBytes 4 off.toNat ++ leBytes 2 n.toNat) =
      ((s.bridgeRead off.toNat n.toNat).2.updI3c fun x => { x with words := some (s.bridgeRead off.toNat n.toNat).1 }).ack := by
  obtain ⟨hoff, hn⟩ := leAt_pair 2 4 off.toNat n.toNat
  rw [Nat.mod_eq_of_lt (by exact off.isLt)] at hoff
  rw [Nat.mod_eq_of_lt (by exact n.isLt)] at hn
  unfold State.privateWrite
  dsimp only
  rw [if_neg fun h => absurd h.1 (by decide), hoff, hn, if_pos ⟨rfl, leBytes_pair_length 2 4 _ _, h1, h2⟩]

/-- A SET_READ of no word or of more than 1,024 is discarded. -/
theorem State.privateWrite_of_bad_count (s : State) (off : Word) {n : BitVec 16} (h : n.toNat = 0 ∨ 1024 < n.toNat) :
    s.privateWrite 2 (leBytes 4 off.toNat ++ leBytes 2 n.toNat) = s.badOp := by
  obtain ⟨-, hn⟩ := leAt_pair 2 4 off.toNat n.toNat
  rw [Nat.mod_eq_of_lt (by exact n.isLt)] at hn
  unfold State.privateWrite
  dsimp only
  rw [if_neg fun h => absurd h.1 (by decide), hn, if_neg (by omega)]

section
variable {s : State} (hu : s.i3cUp = true)
include hu

theorem execPrivateWriteWrite_of_good (op : Byte) (bytes : List Byte) :
    exec (.privateWriteWrite (op :: bytes) false) s = .next (s.privateWrite op.toNat bytes) := by
  rw [exec_privateWriteWrite, execPrivateWriteWrite, State.onBus_of_up hu, if_neg Bool.false_ne_true, leAt_cons_zero]
  rfl

theorem execPrivateRead_of_up : exec .privateRead s = .next s.privateRead := by
  rw [exec_privateRead, execPrivateRead, State.onBus_of_up hu]

theorem State.onHdr_of_addressed (hd : s.flag F.I3CT_STAT_DA_VALID = true) (act : State → State) : s.onHdr act = act s := by
  rw [State.onHdr, State.onBus_of_up hu, if_pos hd]

theorem State.onHdr_of_unaddressed (hd : s.flag F.I3CT_STAT_DA_VALID = false) (act : State → State) : s.onHdr act = s.nack := by
  rw [State.onHdr, State.onBus_of_up hu, hd, if_neg Bool.false_ne_true]

end

theorem State.privateRead_of_words {s : State} {ws : List Word} (h : s.i3c.words = some ws) :
    s.privateRead = (s.updI3c fun x => { x with words := none }).ack (ws.flatMap fun w => leBytes 4 w.toNat) := by
  unfold State.privateRead
  rw [h]

/-- The oldest in-band interrupt goes once it is acknowledged. -/
theorem execBusAvailableIbi_of_waiting {s : State} {b : Nat} {rest : List Nat} (hu : s.i3cUp = true)
    (he : s.flag F.I3CT_STAT_IBI_EN = true) (hd : s.flag F.I3CT_STAT_DA_VALID = true) (hi : s.i3c.ibis = b :: rest) (acked : Bool) :
    exec (.busAvailableIbi acked) s = .next (if acked then ((s.updI3c fun x => { x with ibis := rest }).setFld
      F.I3CT_STAT_IBI_PENDING rest.length).ack [BitVec.ofNat 8 b] else s) := by
  rw [exec_busAvailableIbi, execBusAvailableIbi, hu, he, hd, if_neg (by decide), hi]

/-- Settles O57: addressed transfers reach the bridge or are counted, and HDR-DDR and in-band interrupts need an address. -/
theorem privateTransfers : Obligations.PrivateTransfers := by
  unfold Obligations.PrivateTransfers
  intro s hu
  refine ⟨fun bytes => ?parity, fun off v => ?oneWord, fun b h8 h4 => ?write, ?otherOp, fun off n h1 h2 => ?setRead,
    fun off n h => ?badCount, fun ws h => ?read, fun h => ?noWords,
    fun hd => ⟨fun c bytes => ?hdrBad, fun bytes => ?hdrWrite, fun bytes => ?hdrOther, ?hdrRead, ?hdrReadOther,
      fun b rest he hi => ⟨?ibiNacked, ?ibiAcked⟩⟩,
    fun hd c bytes bad => ⟨?hdrWriteOff, ?hdrReadOff, ?ibiOff⟩⟩
  case parity => rw [exec_privateWriteWrite, execPrivateWriteWrite, State.onBus_of_up hu, if_pos rfl]
  case oneWord =>
    obtain ⟨hoff, hv⟩ := leAt_pair 4 4 off.toNat v.toNat
    have hlen := leBytes_pair_length 4 4 off.toNat v.toNat
    rw [Nat.mod_eq_of_lt (by exact off.isLt)] at hoff
    rw [Nat.mod_eq_of_lt (by exact v.isLt)] at hv
    refine (execPrivateWriteWrite_of_good hu _ _).trans (congrArg _ ?_)
    refine (s.privateWrite_of_write (by rw [hlen]) (by rw [hlen])).trans ?_
    rw [hoff, hlen]
    show (s.bridgeWrite off.toNat [BitVec.ofNat 32 (leAt _ 4 4)]).ack = _
    rw [hv, BitVec.ofNat_toNat, BitVec.setWidth_eq]
  case write => exact (execPrivateWriteWrite_of_good hu _ b).trans (congrArg _ (s.privateWrite_of_write h8 h4))
  case otherOp =>
    refine (execPrivateWriteWrite_of_good hu _ _).trans (congrArg _ ?_)
    unfold State.privateWrite
    dsimp only
    rw [if_neg fun h => absurd h.1 (by decide), if_neg fun h => absurd h.1 (by decide)]
  case setRead =>
    rw [exec_setRead, execSetRead, State.onBus_of_up hu, State.privateWrite_of_setRead s off h1 h2]
  case badCount =>
    rw [exec_setRead, execSetRead, State.onBus_of_up hu, State.privateWrite_of_bad_count s off h]
  case read =>
    refine .intro ((execPrivateRead_of_up hu).trans (congrArg _ (State.privateRead_of_words h))) ⟨rfl, rfl, rfl, rfl⟩
  case noWords =>
    rw [execPrivateRead_of_up hu, State.privateRead, h]
  case hdrBad =>
    have hexec : exec (.hdrDdrWrite c bytes true) s = .next s.hdrError := by
      rw [exec_hdrDdrWrite, execHdrDdrWrite, State.onHdr_of_addressed hu hd, if_pos rfl]
    refine .intro hexec ⟨rfl, State.fld_incFld _ _ _ rfl, s.hdrError_onlyFields⟩
  case hdrWrite =>
    rw [execPrivateWriteWrite_of_good hu, exec_hdrDdrWrite, execHdrDdrWrite, State.onHdr_of_addressed hu hd,
      if_neg Bool.false_ne_true, if_pos (Or.inr rfl)]
  case hdrOther =>
    rw [exec_hdrDdrWrite, execHdrDdrWrite, State.onHdr_of_addressed hu hd, if_neg Bool.false_ne_true, if_neg (by decide)]
  case hdrRead =>
    rw [execPrivateRead_of_up hu, exec_hdrDdrRead, execHdrDdrRead, State.onHdr_of_addressed hu hd, if_neg Bool.false_ne_true,
      if_pos rfl]
  case hdrReadOther =>
    rw [exec_hdrDdrRead, execHdrDdrRead, State.onHdr_of_addressed hu hd, if_neg Bool.false_ne_true, if_neg (by decide)]
  case ibiNacked => rw [execBusAvailableIbi_of_waiting hu he hd hi, if_neg Bool.false_ne_true]
  case ibiAcked =>
    refine .intro ((execBusAvailableIbi_of_waiting hu he hd hi true).trans (congrArg _ (if_pos rfl))) ⟨rfl, rfl, ?_⟩
    rw [State.ack_fld]
    exact State.fld_setFld _ _ _ rfl
  case hdrWriteOff => rw [exec_hdrDdrWrite, execHdrDdrWrite, State.onHdr_of_unaddressed hu hd]
  case hdrReadOff => rw [exec_hdrDdrRead, execHdrDdrRead, State.onHdr_of_unaddressed hu hd]
  case ibiOff =>
    rw [exec_busAvailableIbi, execBusAvailableIbi, hd, Bool.and_false]
    exact congrArg _ (if_pos rfl)

end Sys2Proof.Machine
end

section
/-!
PROOFS. The command mailbox and the recovery update of the I3C target (spec 16): its enable, its transfers, its completions, and the
commands of a recovery.
-/
namespace Sys2Proof.Machine
open Sys2Proof

-- The enable ----------------------------------------------------------------------------------------------------

/-- The mailbox's enable and the bit that shows it. -/
theorem State.setMbxEn_flags (s : State) (b : Bool) :
    (s.setMbxEn b).flag F.I3CT_CTL_MBX_EN = b ∧ (s.setMbxEn b).flag F.HIF_STATE_MAILBOX_15 = b ∧
      (s.setMbxEn b).flag F.I3CT_CTL_EN = s.flag F.I3CT_CTL_EN := by
  have hne : R.HIF_STATE ≠ R.I3CT_CTL := by decide
  have hkept : ∀ f, (s.setMbxEn b).flag f = ((s.setFlag F.I3CT_CTL_MBX_EN b).setFlag F.HIF_STATE_MAILBOX_15 b).flag f :=
    fun _ => State.flag_updI3c _ _ _
  refine ⟨?_, (hkept _).trans (State.flag_setFlag _ _ _ rfl rfl), ?_⟩
  · rw [hkept, State.flag_setFlag_apart _ _ _ _ (Fld.apart_of_reg hne)]
    exact State.flag_setFlag _ _ _ rfl rfl
  · rw [hkept, State.flag_setFlag_apart _ _ _ _ (Fld.apart_of_reg hne), State.flag_setFlag_apart _ _ _ _ (Fld.apart_of_bits rfl)]

/-- An enable while command ring 15 is idle. -/
theorem execMbxEnWrite_of_idle (m : Master) {s : State} (h : s.fld (F.HIF_CR_STAT_STATE 15) = 0) :
    exec (.mbxEnWrite m 0xC0000000#32) s = .next ((s.setFlag F.I3CT_CTL_EN true).setMbxEn true) := by
  have h31 : (0xC0000000#32).toNat.testBit 31 = true := by decide
  have h30 : (0xC0000000#32).toNat.testBit 30 = true := by decide
  rw [exec_mbxEnWrite, execMbxEnWrite]
  unfold State.writeI3ctCtl
  dsimp only
  rw [h31, h30, if_pos rfl, h, if_neg (by decide)]

/-- An enable while command ring 15 is ENABLED is refused. -/
theorem execMbxEnWrite_of_busy (m : Master) {s : State} (h : s.fld (F.HIF_CR_STAT_STATE 15) = 1) :
    exec (.mbxEnWrite m 0xC0000000#32) s = .next ((s.setFlag F.I3CT_CTL_EN true).incFld F.I3CT_ERR2_MBX_REFUSED) := by
  have h31 : (0xC0000000#32).toNat.testBit 31 = true := by decide
  have h30 : (0xC0000000#32).toNat.testBit 30 = true := by decide
  rw [exec_mbxEnWrite, execMbxEnWrite]
  unfold State.writeI3ctCtl
  dsimp only
  rw [h31, h30, if_pos rfl, h, if_pos (Or.inl rfl)]

/-- A disable of a working mailbox is kept for later. -/
theorem execMbxEnWrite_of_held (m : Master) {s : State} (h : s.mbx ≠ 0) :
    exec (.mbxEnWrite m 0x80000000#32) s = .next ((s.setFlag F.I3CT_CTL_EN true).updI3c fun x => { x with disableHeld := true }) := by
  have h31 : (0x80000000#32).toNat.testBit 31 = true := by decide
  have h30 : (0x80000000#32).toNat.testBit 30 = false := by decide
  have hne : R.I3CT_CTL ≠ R.I3CT_MBX_STAT := by decide
  have hmbx : (s.setFlag F.I3CT_CTL_EN true).mbx = s.mbx := State.fld_setFlag_apart _ _ _ _ (Fld.apart_of_reg hne)
  rw [exec_mbxEnWrite, execMbxEnWrite]
  unfold State.writeI3ctCtl
  dsimp only
  rw [h31, h30, if_neg Bool.false_ne_true, hmbx, if_neg h]

-- Writes of MBX_CTL ---------------------------------------------------------------------------------------------

/-- The write of MBX_CTL that sets one of its two bits and keeps the timeout. -/
def ctlWord (bit w : Word) : Word := bit ||| (w &&& 0x3FFFFFFF#32)

theorem ctlWord_testBit (bit w : Word) {k : Nat} (h : 30 ≤ k) : (ctlWord bit w).toNat.testBit k = bit.toNat.testBit k := by
  have hmask : (0x3FFFFFFF#32).toNat.testBit k = false := Nat.testBit_lt_two_pow (Nat.lt_of_lt_of_le (m := 2 ^ 30) (by decide)
    (Nat.pow_le_pow_right (by decide) h))
  rw [ctlWord, BitVec.toNat_or, BitVec.toNat_and, Nat.testBit_or, Nat.testBit_and, hmask, Bool.and_false, Bool.or_false]

theorem ctlWord_low {bit : Word} (w : Word) (h : bit.toNat % 2 ^ 16 = 0) : (ctlWord bit w).toNat % 2 ^ 16 = w.toNat % 2 ^ 16 := by
  have hmask : (0x3FFFFFFF#32).toNat % 2 ^ 16 = 2 ^ 16 - 1 := by decide
  rw [ctlWord, BitVec.toNat_or, BitVec.toNat_and, Nat.or_mod_two_pow, h, Nat.zero_or, Nat.and_mod_two_pow, hmask,
    Nat.and_two_pow_sub_one_eq_mod, Nat.mod_mod]

/-- A field takes no more of a value than its width. -/
theorem State.setFld_congr_mod (s : State) (f : Fld) {v w : Nat} (h : v % 2 ^ f.width = w % 2 ^ f.width) : s.setFld f v = s.setFld f w := by
  unfold State.setFld putBits
  rw [h]

/-- MBX_CTL keeps its timeout under GO and UNIT_DONE. -/
def State.ctlKept (s : State) : State := s.setFld F.I3CT_MBX_CTL_UNIT_TO_MS (s.reg R.I3CT_MBX_CTL).toNat

theorem State.ctlKept_eq (s : State) {bit : Word} (h : bit.toNat % 2 ^ 16 = 0) :
    s.setFld F.I3CT_MBX_CTL_UNIT_TO_MS (ctlWord bit (s.reg R.I3CT_MBX_CTL)).toNat = s.ctlKept :=
  s.setFld_congr_mod _ (ctlWord_low _ h)

theorem State.ctlKept_fld (s : State) {f : Fld} (h : R.I3CT_MBX_CTL ≠ f.reg) : s.ctlKept.fld f = s.fld f :=
  State.fld_setFld_apart _ _ _ _ (Fld.apart_of_reg h)

theorem State.ctlKept_mbx (s : State) : s.ctlKept.mbx = s.mbx := s.ctlKept_fld (by decide)

theorem execMbxGo_of_i3c (s : State) : exec (.mbxGo .i3c) s = .next s.ctlKept.mbxGo := by
  rw [exec_mbxGo, execMbxGo, ← ctlWord]
  unfold State.writeMbxCtl
  rw [if_neg (by decide), s.ctlKept_eq (by decide), ctlWord_testBit _ _ (by decide),
    ctlWord_testBit _ _ (by decide)]
  exact congrArg _ (State.when_false _ _)

theorem execMbxUnitDone_of_i3c (s : State) : exec (.mbxUnitDone .i3c) s = .next s.ctlKept.mbxUnitDone := by
  rw [exec_mbxUnitDone, execMbxUnitDone, ← ctlWord]
  unfold State.writeMbxCtl
  rw [if_neg (by decide), s.ctlKept_eq (by decide), ctlWord_testBit _ _ (by decide),
    ctlWord_testBit _ _ (by decide)]
  exact congrArg _ (State.when_true _ _)

section
variable {s : State}

/-- GO while the mailbox works is counted. -/
theorem execMbxGo_of_busy (he : s.flag F.I3CT_CTL_MBX_EN = true) (hm : s.mbx ≠ 0) :
    exec (.mbxGo .i3c) s = .next (s.ctlKept.incFld F.I3CT_ERR2_MBX_BUSY) := by
  have hen : s.ctlKept.flag F.I3CT_CTL_MBX_EN = true := (State.flag_congr (s.ctlKept_fld (by decide))).trans he
  rw [execMbxGo_of_i3c, State.mbxGo, hen, if_neg (by decide), if_pos (by rw [State.ctlKept_mbx]; exact hm)]

/-- GO of an idle mailbox takes the descriptor. -/
theorem execMbxGo_of_idle (he : s.flag F.I3CT_CTL_MBX_EN = true) (hm : s.mbx = 0) :
    exec (.mbxGo .i3c) s = .next (((s.ctlKept.setFld F.I3CT_MBX_STAT_STATE 1).icRaise 47).takeDescriptor 15
      (((s.ctlKept.setFld F.I3CT_MBX_STAT_STATE 1).icRaise 47).regBytes (R.I3CT_MBX_DESC 0) 16)) := by
  have hen : s.ctlKept.flag F.I3CT_CTL_MBX_EN = true := (State.flag_congr (s.ctlKept_fld (by decide))).trans he
  rw [execMbxGo_of_i3c, State.mbxGo, hen, if_neg (by decide), if_neg (by rw [State.ctlKept_mbx]; exact not_not_intro hm)]

/-- The command goes on after the last unit. -/
def State.lastUnit (s : State) (len : Nat) (unit : List Byte) : State :=
  ((s.updI3c fun x => { x with mbxPos := x.mbxPos + len, mbxData := if x.mbxOut then x.mbxData else x.mbxData ++ unit }).setFld
    F.I3CT_MBX_STAT_STATE 1).updHandle s.i3c.mbxHandle fun e => { e with ready := true }

theorem execMbxUnitDone_of_last (hm : s.mbx = 3) (hp : s.i3c.mbxTotal ≤ s.i3c.mbxPos) :
    ∃ len unit, exec (.mbxUnitDone .i3c) s = .next (s.ctlKept.lastUnit len unit) := by
  refine ⟨s.ctlKept.fld F.I3CT_MBX_UNIT_LEN, (s.ctlKept.regBytes (R.I3CT_BUF 0) 1024).take (s.ctlKept.fld F.I3CT_MBX_UNIT_LEN), ?_⟩
  rw [execMbxUnitDone_of_i3c]
  unfold State.mbxUnitDone
  rw [State.ctlKept_mbx, if_neg fun h => h.2 hm]
  refine congrArg _ (if_neg ?_)
  have hpos : s.i3c.mbxTotal ≤ s.i3c.mbxPos + s.ctlKept.fld F.I3CT_MBX_UNIT_LEN := by omega
  exact Nat.not_lt.mpr hpos

theorem State.lastUnit_mbx (s : State) (len : Nat) (unit : List Byte) : (s.lastUnit len unit).mbx = 1 := by
  rw [State.mbx, State.lastUnit, State.updHandle, State.fld_updHif]
  exact State.fld_setFld_fits _ _ _ rfl (show 1 < 2 ^ 2 by decide)

theorem State.lastUnit_handles (s : State) (len : Nat) (unit : List Byte) : (s.lastUnit len unit).hif.handles =
    s.hif.handles.map fun e => if e.handle = s.i3c.mbxHandle then { e with ready := true } else e := by
  rw [State.lastUnit, State.updHandle, State.updHif_hif, State.setFld_hif]
  rfl

-- The unit timeout ----------------------------------------------------------------------------------------------

theorem State.mbxBroken_of_no_unit (h : s.mbx = 0 ∨ s.mbx = 1) : s.mbxBroken = s :=
  if_pos (by omega)

theorem execMbxUnitTimeout_of_lapsed {e : Handle} {w : Nat} (hm : s.mbx = 2) (ho : s.i3c.mbxOut = true)
    (hh : s.handle? s.i3c.mbxHandle = some e) (hw : s.unitTimeoutMs ≤ w) : exec (.mbxUnitTimeout w) s =
      .next ((s.setFld F.I3CT_MBX_STAT_STATE 1).faultEnd s.i3c.mbxHandle St.CPL_TIMEOUT (e.bufOffset + s.i3c.mbxPos)) := by
  have hh' : (s.setFld F.I3CT_MBX_STAT_STATE 1).handle? s.i3c.mbxHandle = some e := by
    rw [State.handle?, State.setFld_hif]
    exact hh
  rw [exec_mbxUnitTimeout, execMbxUnitTimeout, if_neg (Nat.not_lt.mpr hw)]
  unfold State.mbxBroken
  rw [if_neg fun h => h.1 hm]
  dsimp only
  rw [State.setFld_i3c, hh', ho]
  exact congrArg _ (if_pos rfl)

-- Completions ---------------------------------------------------------------------------------------------------

/-- A completion that has been read frees the mailbox. -/
def State.cplFreed (s : State) (m : Master) : State :=
  ((s.setRdata m (s.latched m (R.I3CT_MBX_CPL 3))).updI3c fun x => { x with cplUnread := false }).setFld F.I3CT_MBX_STAT_STATE 0

theorem State.cplFreed_hif (s : State) (m : Master) : (s.cplFreed m).hif = s.hif := by
  rw [State.cplFreed, State.setFld_hif]
  rfl

theorem State.cplFreed_i3c (s : State) (m : Master) : (s.cplFreed m).i3c = { s.i3c with cplUnread := false } := by
  rw [State.cplFreed, State.setFld_i3c]
  rfl

/-- With no completion waiting none is placed. -/
theorem State.mbxPlace_of_none (hq : s.hif.mbxOut = []) (hu : s.i3c.cplUnread = false) :
    s.mbxPlace = s.setFlag F.I3CT_MBX_STAT_CPL_WAITING false := by
  unfold State.mbxPlace
  rw [hq, hu]
  rfl

/-- The read of a final completion's last word, with none waiting. -/
theorem execMbxCplRead_of_final (m : Master) (hu : s.i3c.cplUnread = true) (hd : s.i3c.disableHeld = false) (hq : s.hif.mbxOut = [])
    (h29 : (s.reg (R.I3CT_MBX_CPL 1)).toNat.testBit 29 = true) (h28 : (s.reg (R.I3CT_MBX_CPL 1)).toNat.testBit 28 = false) :
    exec (.mbxCplRead m 3) s = .next ((s.cplFreed m).setFlag F.I3CT_MBX_STAT_CPL_WAITING false) := by
  have hheld : (s.cplFreed m).i3c.disableHeld = false := by rw [State.cplFreed_i3c]; exact hd
  have hread : (s.cplFreed m).i3c.cplUnread = false := by rw [State.cplFreed_i3c]
  have hout : (s.cplFreed m).hif.mbxOut = [] := by rw [State.cplFreed_hif]; exact hq
  rw [exec_mbxCplRead, execMbxCplRead]
  unfold State.readCpl
  dsimp only
  rw [if_neg (by decide), State.setRdata_i3c, hu, if_neg (by decide), h29, h28, if_pos (by decide)]
  refine congrArg _ ((congrArg State.mbxPlace (if_neg ?_)).trans ?_)
  · show ¬ (s.cplFreed m).i3c.disableHeld = true
    rw [hheld]
    exact Bool.false_ne_true
  · show (s.cplFreed m).mbxPlace = _
    rw [State.mbxPlace_of_none hout hread]

-- Recovery ------------------------------------------------------------------------------------------------------

/-- Outside RECOVERY its commands do nothing. -/
theorem State.writeRcvCtl_of_off (h : s.rcv = 0) (m : Master) (v : Word) : s.writeRcvCtl m v = s := if_pos h

/-- The owner's command is taken. -/
theorem State.writeRcvCtl_of_i3c (h : s.rcv ≠ 0) (hf : s.rcvForeign .i3c = false) (v : Word) : s.writeRcvCtl .i3c v =
    if v.toNat.testBit 29 then s.rcvAbort else if v.toNat.testBit 30 then s.rcvUnitDone
    else if v.toNat.testBit 31 then s.rcvStart .i3c else s := by
  rw [State.writeRcvCtl, if_neg h, hf, if_neg (by decide)]

/-- A verified image goes to its slot, is preferred and starts, unless it has a fault. -/
theorem execRcvVerifyDone_of_good (h : s.rcv = 3) : exec (.rcvVerifyDone true) s = .next (if s.imageFault s.i3c.rcvData = 0 then
    (((s.setSlot s.rcvSlot s.i3c.rcvData).updMss fun x => { x with preferred := s.rcvSlot }).setRcv 4).bootSlot s.rcvSlot
    else s.rcvFail s.rcvSlot (s.imageFault s.i3c.rcvData)) := by
  rw [exec_rcvVerifyDone, execRcvVerifyDone, if_neg (not_not_intro h)]
  dsimp only
  rw [if_neg (by decide), ite_not]

end

/-- Settles O58: the mailbox is enabled, takes a command, and frees its completions; the recovery obeys its owner. -/
theorem mailboxAndRecovery : Obligations.MailboxAndRecovery := by
  unfold Obligations.MailboxAndRecovery
  intro s
  refine ⟨fun m h => ?enable, fun m h => ?refused, fun m h => ?held, fun m hm => ⟨?otherGo, ?otherDone⟩, fun he hm => ?busy,
    fun he hm => execMbxGo_of_idle he hm, fun hm _ hp => ?unitDone, fun w h => ?noTimeout,
    fun e w hm ho hh hw => execMbxUnitTimeout_of_lapsed hm ho hh hw, fun m => ?firstWord, fun m hu hd hq h29 h28 => ?lastWord,
    fun h m => ⟨?startOff, ?doneOff, ?abortOff⟩, fun h hf => ⟨?start, ?done, ?abort⟩, fun h c b hb => ?foreign, fun ok h => ?noVerify,
    fun h => ?flashFails, fun h => execRcvVerifyDone_of_good h⟩
  case enable =>
    obtain ⟨hen, hshown, hctl⟩ := (s.setFlag F.I3CT_CTL_EN true).setMbxEn_flags true
    exact .intro (execMbxEnWrite_of_idle m h) ⟨hctl.trans (State.flag_setFlag _ _ _ rfl rfl), hen, hshown⟩
  case refused =>
    have hne : R.I3CT_ERR2 ≠ R.I3CT_CTL := by decide
    refine .intro (execMbxEnWrite_of_busy m h) ⟨?_, (State.fld_incFld _ _ _ rfl).trans ?_⟩
    · rw [State.incFld, State.flag_setFld_apart _ _ _ _ (Fld.apart_of_reg hne), State.flag_setFlag_apart _ _ _ _ (Fld.apart_of_bits rfl)]
    · rw [State.fld_setFlag_apart _ _ _ _ (Fld.apart_of_reg hne.symm)]
  case held =>
    refine .intro (execMbxEnWrite_of_held m h) ⟨rfl, ?_⟩
    rw [State.flag_updI3c]
    exact State.flag_setFlag_apart _ _ _ _ (Fld.apart_of_bits rfl)
  case otherGo => rw [exec_mbxGo, execMbxGo, State.writeMbxCtl, if_pos hm, State.refuseI3c]
  case otherDone => rw [exec_mbxUnitDone, execMbxUnitDone, State.writeMbxCtl, if_pos hm, State.refuseI3c]
  case busy =>
    have hne : R.I3CT_ERR2 ≠ R.I3CT_MBX_STAT := by decide
    refine .intro (execMbxGo_of_busy he hm) ⟨(State.fld_incFld _ _ _ rfl).trans ?_, ?_, ?_⟩
    · rw [State.ctlKept_fld _ (by decide)]
    · rw [State.mbx, State.incFld, State.fld_setFld_apart _ _ _ _ (Fld.apart_of_reg hne)]
      exact s.ctlKept_mbx
    · rw [State.incFld, State.setFld_hif, State.ctlKept, State.setFld_hif]
  case unitDone =>
    obtain ⟨len, unit, hexec⟩ := execMbxUnitDone_of_last hm hp
    refine .intro hexec ⟨State.lastUnit_mbx _ _ _, ?_⟩
    rw [State.lastUnit_handles, State.ctlKept, State.setFld_hif, State.setFld_i3c]
  case noTimeout =>
    rw [exec_mbxUnitTimeout, execMbxUnitTimeout]
    rcases h with h | h | h
    · rw [State.mbxBroken_of_no_unit (Or.inl h), ite_self]
    · rw [State.mbxBroken_of_no_unit (Or.inr h), ite_self]
    · rw [if_pos h]
  case firstWord =>
    exact .intro (t := (s.latch m ([1, 2, 3].map fun j => (R.I3CT_MBX_CPL j, s.reg (R.I3CT_MBX_CPL j)))).setRdata m
      (s.reg (R.I3CT_MBX_CPL 0))) (exec_mbxCplRead s) ⟨State.rdataOf_setRdata _ _ _, rfl, rfl⟩
  case lastWord =>
    refine .intro (execMbxCplRead_of_final m hu hd hq h29 h28) ⟨?_, ?_⟩
    · rw [State.mbx, State.fld_setFlag_apart _ _ _ _ (Fld.apart_of_bits rfl)]
      exact State.fld_setFld _ _ _ rfl
    · rw [State.setFlag_i3c, State.cplFreed_i3c]
  case startOff => rw [exec_rcvStart, execRcvStart, State.writeRcvCtl_of_off h]
  case doneOff => rw [exec_rcvUnitDone, execRcvUnitDone, State.writeRcvCtl_of_off h]
  case abortOff => rw [exec_rcvAbort, execRcvAbort, State.writeRcvCtl_of_off h]
  case start =>
    rw [exec_rcvStart, execRcvStart, State.writeRcvCtl_of_i3c h hf, if_neg (by decide), if_neg (by decide), if_pos (by decide)]
  case done =>
    rw [exec_rcvUnitDone, execRcvUnitDone, State.writeRcvCtl_of_i3c h hf, if_neg (by decide), if_pos (by decide)]
  case abort => rw [exec_rcvAbort, execRcvAbort, State.writeRcvCtl_of_i3c h hf, if_pos (by decide)]
  case foreign =>
    rw [exec_rcvStart, execRcvStart, State.writeRcvCtl, if_neg h, hb, Bool.not_false, Bool.true_or, if_pos rfl, State.refuseI3c]
  case noVerify => rw [exec_rcvVerifyDone, execRcvVerifyDone, if_pos h]
  case flashFails =>
    rw [exec_rcvVerifyDone, execRcvVerifyDone, if_neg (not_not_intro h)]
    exact congrArg _ (if_pos rfl)

end Sys2Proof.Machine
end
